-- ==== Sys2Proof/Word.lean ====
section
/-! DEFINITION. The word types of the WG-4820 (00 Notation, 10 R199): bytes, 20-bit clerk words, limbs. -/

namespace Sys2Proof

/-- A byte (00, Notation). -/
abbrev Byte := BitVec 8

/-- A clerk word, 20 bits numbered 19 to 0 (R199). -/
abbrev Word := BitVec 20

/-- A reckoner limb, 64 bits (R318). -/
abbrev Limb := BitVec 64

/-- A string of bytes in message order (00, Notation). -/
abbrev Bytes := List Byte

/-- Sparse data by key: pairs with strictly rising keys. -/
abbrev KMap (α : Type) := List (Nat × α)

end Sys2Proof
end

