-- ==== Sys2Proof/Syntax.lean ====
section
/-! DEFINITION. The commands (one constructor of Instr per row of the operation and event table) and the data that
come with a command from outside the module: what a host wrote, what a DMA read returned, which part of the module a
timer or event concerns (assumption log 5). -/

namespace Sys2Proof

/-- A compute die, 0 or 1 (01 Table 1.1). -/
abbrev Die := Fin 2

/-- Port A (0) or port B (1) (02 Table 2.2). -/
abbrev Port := Fin 2

/-- Officer slot A (0) or B (1) (02 Table 2.2). -/
abbrev CardSlot := Fin 2

/-- The number the model gives each fetched command; the spec names commands by tag and booth. -/
abbrev CmdId := Nat

/-- A clerk: die × 64 + room × 16 + clerk, 0 to 127, or 128 for the lockstepped head clerks (10). -/
abbrev ClerkId := Nat

/-- The 12V-2x6 rating that SENSE0 and SENSE1 decode to (02 Table 2.5). -/
inductive Cable where
  | w600 | w450 | w300 | w150
  deriving DecidableEq, Repr

/-- One fuse: the field number of OTP_BURN's detail (22 Table 22.1) and the bit within the field. -/
structure Fuse where
  field : Nat
  bit : Nat
  deriving DecidableEq, Repr

/-- Raw samples of the four noise sources of one mint (16 Table 16.1). -/
structure Samples where
  ro0 : Bytes
  ro1 : Bytes
  ml0 : Bytes
  ml1 : Bytes
  deriving DecidableEq, Repr

/-- A strongroom tile as a place returned it: 1 KiB of plaintext with the version and checksum of its sidecar (12 R257). -/
structure TileImage where
  data : Bytes
  version : BitVec 64
  sum : BitVec 64
  deriving DecidableEq, Repr

/-- A tile of 64 code words as code memory returned it, with its checksum (10 R215). -/
structure CodeRead where
  words : List Word
  sum : BitVec 64
  deriving DecidableEq, Repr

/-- What an SMBus read asks for (R29). -/
inductive SmbusItem where
  | inlet
  | dieTemp (d : Fin 3)
  | inputPower
  | led (i : Fin 4)
  deriving DecidableEq, Repr

/-- An officer card as inserted (R40, R284): its serial, which operating classes it answers, whether it has blocked
itself, the compressed public key of the pair it generates, and its key components. -/
structure Card where
  serial : Bytes
  answersB : Bool
  answersA : Bool
  blocked : Bool
  pubKey : Bytes
  components : List Bytes
  deriving DecidableEq, Repr

/-- The four kinds of engine that a clerk latches (14, 15). -/
inductive EngineKind where
  | press | hash | loom | reckoner
  deriving DecidableEq, Repr

/-- One engine of one compute die (11 Table 11.5). -/
structure EngineRef where
  die : Die
  kind : EngineKind
  idx : Nat
  deriving DecidableEq, Repr

/-- The two continuous health tests (R342). -/
inductive HealthTest where
  | repetition | proportion
  deriving DecidableEq, Repr

/-- What a ballast entry asks for (R57). -/
inductive BallastKind where
  | start | stop | freq
  deriving DecidableEq, Repr

/-- A flit as a checker receives it: 256 bits of data, the 64-bit header, the 16-bit integrity code, and the poison mark (03 R61, R62). -/
structure Flit where
  data : BitVec 256
  header : BitVec 64
  code : BitVec 16
  poison : Bool
  deriving DecidableEq, Repr

/-- What an uncorrectable flit served (03 Table 3.5): the command that issued or would have received it, management traffic, with the
outcome of the firmware's one retry, or neither. -/
inductive FlitUse where
  | command (id : CmdId)
  | management (retryOk : Bool)
  | other
  deriving DecidableEq, Repr

/-- A tripped tamper source: its code and site (21 Tables 21.1, 21.6) and which detectors tripped (R417). -/
structure Trip where
  code : Nat
  site : Nat
  detA : Bool
  detB : Bool
  deriving DecidableEq, Repr

/-- What the burning of fuses meets: those that take no pulse (R102), and after how many burned fuses main power is lost (R97, R100) or
a tripped source asserts the rip line (R101), if either happens. -/
structure Pulses where
  weak : List Fuse
  cut : Option (Nat × Option Trip)
  deriving DecidableEq, Repr

/-- What a start-up step meets outside the boot monitor: whether the gondola link answers in time and whole (R70), the gondola's
count, what burning meets, the booth-table entries whose check fails (R81), what flash returned for an image copy (2 × image, plus 1
for copy B) and for a reserved tile's two copies, where it did not return them as they were stored (R73, R80). -/
structure StartEnv where
  glinkOk : Bool
  count : Nat
  countRestarted : Bool
  pulses : Pulses
  badBooths : List Nat
  flash : List (Nat × Bytes)
  tiles1 : List (Nat × TileImage)
  tiles2 : List (Nat × TileImage)
  deriving DecidableEq, Repr

/-- The fault sources (22 Table 22.1). -/
inductive FaultSource where
  | fabricCe | fabricUe | thermalHigh | thermalFatal | railWarn | loopDrift | cellLow | cagePower
  | imageFallback | otpBurn | lockstep | boothTable | hostLink | hostDma | doorbellInvalid | portDown
  | peerAuth | peerLink | peerDiverged | clerkTrap | codeTile | latchBreak | reckonerInvariant | drainAbort
  | tileCheck | tileFallback | ledgerHigh | ledgerFull | mintSource | mintRetired | mintExhausted
  | bridle | bridleRequest
  deriving DecidableEq, Repr

/-- A fault event as it reaches the collector (R431, R436): its source, the scope its count is kept for, the island
and booth concerned, the detail bytes, and whether the job concerned runs a house program (R435). -/
structure FaultEvent where
  source : FaultSource
  scope : Nat
  island : Option Nat
  booth : Option Nat
  detail : Bytes
  houseProg : Bool
  deriving DecidableEq, Repr

/-- A public key in a certificate: a point on P-256 or P-384, or an RSA modulus and exponent. -/
inductive CertKey where
  | ec (bits x y : Nat)
  | rsa (n e : Nat)
  deriving DecidableEq, Repr

/-- The parts of an X.509 certificate: its signed bytes, the scheme and bytes of the signature over them, its SubjectPublicKeyInfo and
the key in it, its validity in UTC seconds, digitalSignature, and clientAuth when extendedKeyUsage is present (R156, R158). The DER
form is the standard's, not the spec's. -/
structure Cert where
  tbs : Bytes
  scheme : Nat
  sig : Bytes
  spki : Bytes
  key : CertKey
  notBefore : Nat
  notAfter : Nat
  digSig : Bool
  clientAuth : Option Bool
  deriving DecidableEq, Repr

/-- The kinds of Ethernet frame that a port tells apart (R153, R154); `rtt` is the round trip in µs that a segment's acknowledgement
measures. -/
inductive EthKind where
  | arp (addr : Nat)
  | neighbour (addr : Nat)
  | echo (addr : Nat) (payload : Bytes)
  | unreachable
  | tooBig (conn mtu : Nat)
  | tcp (conn seq len : Nat) (rst : Bool) (rtt : Option Nat)
  | ptp
  | pause
  | other
  deriving DecidableEq, Repr

/-- One arriving Ethernet frame. -/
structure EthFrame where
  kind : EthKind
  len : Nat
  vlan : Option Nat
  fcsOk : Bool
  fragment : Bool
  deriving DecidableEq, Repr

/-- What a SYN offers of TCP's options: window scaling, SACK, timestamps (Table 8.2). -/
structure TcpOpts where
  scale : Option Nat
  sack : Bool
  stamps : Bool
  deriving DecidableEq, Repr

/-- What a TLS client offers and proves in one handshake (R156, R158): code points in the client's order, its key shares by group, its
certificates from the leaf up, and its CertificateVerify: the transcript hash, the scheme and the signature;
and the tiles of the server key that are read otherwise than stored (R258). -/
structure ClientHello where
  version13 : Bool
  suites : List Nat
  groups : List Nat
  shares : List (Nat × Bytes)
  schemes : List Nat
  chain : List Cert
  transcript : Bytes
  scheme : Nat
  sig : Bytes
  reads : List (Nat × TileImage)
  deriving DecidableEq, Repr

/-- One slot change in a peer record: the slot, its generation before, and its new 128-byte image (R173). -/
structure PeerChange where
  slot : Nat
  genBefore : Nat
  image : Bytes
  deriving DecidableEq, Repr

/-- A strongroom record on the peer link (R173). -/
structure PeerRecord where
  seq : Nat
  changes : List PeerChange
  deriving DecidableEq, Repr

/-- A region entry of a bridle (20 Table 20.2). `pasid` is none on island and HBM bridles; `mailbox` marks the
manager window and `ring` a ring window of a booth (R406). -/
structure Region where
  start : Nat
  stop : Nat
  perm : BitVec 3
  initiators : BitVec 64
  house : Nat
  pasid : Option Nat
  ring : Bool
  mailbox : Bool
  deriving DecidableEq, Repr

/-- The kinds of access that a bridle checks (20 Table 20.5, KIND). -/
inductive AccKind where
  | read | write | fill
  deriving DecidableEq, Repr

/-- An access at a bridle (R406): first byte, length, kind, initiator island, house, booth, PASID, whether it is a
ring transfer or a mailbox transfer, and the command it serves. -/
structure Access where
  addr : Nat
  len : Nat
  kind : AccKind
  initiator : Nat
  house : Nat
  booth : Option Nat
  pasid : Option Nat
  ring : Bool
  mailbox : Bool
  cmd : Option CmdId
  deriving DecidableEq, Repr

/-- One bridle's part of a firmware request (R413): entries to remove, by value, and entries to add. -/
structure BridleEdit where
  bridle : Nat
  add : List Region
  remove : List Region
  deriving DecidableEq, Repr

/-- A firmware request for the protection map: the house it concerns and the edits (R413). -/
structure BridleRequest where
  house : Option Nat
  edits : List BridleEdit
  deriving DecidableEq, Repr

/-- What an officer enters on the ceremony console (R481, R288). -/
inductive ConsoleEntry where
  | pin (k : CardSlot) (ok : Bool)
  | component (v : Bytes)
  deriving DecidableEq, Repr

/-- A request at the test access island (R89, R352). -/
inductive TestAccess where
  | jtag
  | scan
  | pattern (d : Die) (src : Fin 4) (on : Bool)
  | capture (d : Die) (src : Fin 4) (n : Nat)
  deriving DecidableEq, Repr

/-- Where a management request came from: the mailbox's request buffer, or the ceremony console with its own bytes,
header included (R367). -/
inductive ReqSrc where
  | mailbox
  | console (req : Bytes)
  deriving DecidableEq, Repr

/-- Bulk data that a request reads from the manager window (R117), and what its own format says of it: the image or
program's version, the SHA-384 digest that its signature covers, a program's words (R218) and the room window words that it asks for
(first and last), and for a listener the trust anchor certificates, the server's certificate chain and the allow list (R157). The layout
of this data is not in the spec (assumption log 12). -/
structure Bulk where
  data : Bytes
  version : BitVec 32
  signed : Bytes
  words : List Word
  anchors : List Cert
  chain : Bytes
  allow : List Bytes
  window : List (Nat × Nat)
  dmaOk : Bool
  deriving DecidableEq, Repr

/-- One operand of a Karua-20 instruction: its mode field and its extension words (R206). -/
structure Opnd where
  mode : BitVec 4
  ext : List Word
  deriving DecidableEq, Repr

/-- The operand words of one Karua-20 instruction (R206), and what code memory returned for the tiles that it fills into the
instruction cache, by tile number, where it did not return them as they were stored (R215, R217). -/
structure Opnds where
  a : Opnd
  b : Opnd
  c : Opnd
  fill : List (Nat × CodeRead)
  deriving DecidableEq, Repr


/-- What SMBUS_READ reads, and what the inlet sensor (steps of 0.125 °C) and the input power monitor (steps of 0.1 W) read then (R29). -/
structure SmbusRead where
  item : SmbusItem
  inlet : Int
  tenths : Nat
  deriving DecidableEq, Repr

/-- A clerk that takes a command, what host memory returned for the command's input where it is read at dispatch (R11), and the tiles
that the command's key lookups find otherwise than stored (R258). -/
structure ClerkInput where
  clerk : ClerkId
  data : Option (List Byte)
  reads : List (Nat × TileImage)
  deriving DecidableEq, Repr

/-- A command to be dispatched, what host memory returned for its input, and the tiles that its key lookups find otherwise than
stored. -/
structure CmdInput where
  id : CmdId
  data : Option (List Byte)
  reads : List (Nat × TileImage)
  deriving DecidableEq, Repr

/-- A bundle to be committed, and the tiles that the strongroom controller reads otherwise than stored as it builds the record (R258). -/
structure CommitReads where
  bundle : Nat
  reads : List (Nat × TileImage)
  deriving DecidableEq, Repr

/-- An island that finishes its start, and the code tiles whose reload fails its check (R54). -/
structure IslandStart where
  island : Nat
  bad : List Nat
  deriving DecidableEq, Repr

/-- An island whose idle timer ends, and the period in ms where the firmware has set it since the last such row (R55). -/
structure IdleTimer where
  island : Nat
  period : Option Nat
  deriving DecidableEq, Repr

/-- A flit as a checker receives it, and the address to which it goes (R61, R62). -/
structure PassingFlit where
  addr : BitVec 56
  flit : Flit
  deriving DecidableEq, Repr

/-- A SYN: the connection's number and its options (08 Table 8.2). -/
structure Syn where
  conn : Nat
  opts : TcpOpts
  deriving DecidableEq, Repr

/-- A request that burns fuses, and how the pulses go (R97, R102). -/
structure BurnRequest where
  src : ReqSrc
  pulses : Pulses
  deriving DecidableEq, Repr

/-- A console entry, and how the pulses of a commissioning's fuse burns go. -/
structure ConsoleBurn where
  entry : ConsoleEntry
  pulses : Pulses
  deriving DecidableEq, Repr

/-- The MGMT link: whether it is up, and whether the partner offers 1000BASE-T (R39). -/
structure MgmtLink where
  up : Bool
  gigabit : Bool
  deriving DecidableEq, Repr

/-- The commands of the WG-4820: one constructor for each row of the operation and event table. -/
inductive Instr where
  /-- MAIN_POWER_APPLIED (R32). All three inputs come within limits, in either order up to 100 ms apart, and the module begins start-up or keeps waiting for the last input. -/
  | mainPowerApplied (slot12 slot33 aux12 : Bool) (sense : Cable)
  /-- AUX_INPUT_MISSING (R32). An input is still missing 100 ms after the first was applied, so the module stays unpowered except for the gondola. -/
  | auxInputMissing
  /-- PERST_ASSERT (R66). The host asserts PERST#: a warm reset holds every island except the regulators, gondola, BL, PS and power-fail detector in reset. -/
  | perstAssert
  /-- PERST_RELEASE (R66). The host releases PERST#; the cold or warm start begins at the later of this and main power. -/
  | perstRelease (sense : Cable)
  /-- START_UP (R68). The boot monitor runs the start-up steps of Table 4.1 in dependency order. -/
  | startUp (n : Nat) (e : StartEnv)
  /-- MINT_START_UP_TESTS (R346). Each source of a die runs its start-up tests on 4 096 samples; the passing sources enter service and the DRBG is instantiated. -/
  | mintStartUpTests (d : Die) (s : Samples)
  /-- MINT_START_TIMEOUT (R78). No source passes within 10 ms of step 7, so a fatal fault stops start-up with BOOT_STAGE 85h. -/
  | mintStartTimeout (d : Die)
  /-- MASK_EXPANDER_SEEDING (R77). A die's mask expanders are seeded from its DRBG and its presses and looms are enabled. -/
  | maskExpanderSeeding (d : Die)
  /-- SERVICE_READY (R69). The management firmware sets SERVICE_READY once both dies' masks are seeded and the booths are re-created; the listeners open. -/
  | serviceReady
  /-- BACKGROUND_TILE_LOAD (R80). One tile is loaded from flash in ascending order, verified and re-encrypted into HBM; STRONGROOM_RESIDENT is set after the last. -/
  | backgroundTileLoad (r1 r2 : Option TileImage)
  /-- DEMAND_LOAD (R80). A tile a locksmith needs is loaded ahead of background loading, within 50 µs, and the waiting command resumes. -/
  | demandLoad (t : Nat) (r1 r2 : Option TileImage)
  /-- POWER_FAIL (R33). A 12 V input stays below 10.8 V for more than 5 µs: power-fail latches, admission stops and the module completes a full power-down. -/
  | powerFail
  /-- SMBUS_READ (R29). An SMBus read at address 5Ch returns temperatures, input power or LED states. -/
  | smbusRead (x : SmbusRead)
  /-- CAGE_INSERT (R38). An OSFP module is inserted; one above 12 W is left in low-power mode and reported. -/
  | cageInsert (p : Port) (watts : Nat)
  /-- CAGE_REMOVE (R38). An OSFP module is removed and its port goes down with no tamper. -/
  | cageRemove (p : Port)
  /-- OFFICER_CARD_INSERT (R40). A card is inserted and activated at class B, then at class A if it does not answer. -/
  | officerCardInsert (k : CardSlot) (card : Card)
  /-- OFFICER_CARD_WITHDRAW (R40). A card is withdrawn: its contacts are deactivated and any ceremony step in progress fails. -/
  | officerCardWithdraw (k : CardSlot)
  /-- OFFICER_CARD_OVERCURRENT (R40). VCC overcurrent deactivates the slot within 1 ms and reports the card absent. -/
  | officerCardOvercurrent (k : CardSlot)
  /-- SQ_TAIL_WRITE (R128). The host writes SQ_TAIL on a doorbell page; an out-of-range value raises DOORBELL_INVALID. -/
  | sqTailWrite (b : Nat) (v : BitVec 32)
  /-- CQ_HEAD_WRITE (R127). The host writes CQ_HEAD, releasing completion space; an invalid value raises DOORBELL_INVALID. -/
  | cqHeadWrite (b : Nat) (v : BitVec 32)
  /-- DESCRIPTOR_FETCH (R129). PT reads up to eight submission entries once completion entries are reserved for them, and applies the stage 2 checks. -/
  | descriptorFetch (b : Nat) (entries : List (List Byte))
  /-- DESCRIPTOR_READ_FAIL (R134). A descriptor read fails, so one ACCESS_REFUSED entry with tag FFFFFFFFh is written and fetching for the booth stops. -/
  | descriptorReadFail (b : Nat)
  /-- INPUT_FETCH (R135). PT checks the whole input range against the booth's windows and reads the input, with an error completing ACCESS_REFUSED. -/
  | inputFetch (id : CmdId) (data : Option (List Byte))
  /-- ADMISSION (R179). The dispatch root admits a command or a whole bundle against the booth's credits, or refuses it with QUEUE_FULL or ADMISSION_CLOSED. -/
  | admission (id : CmdId)
  /-- STAGING_RESERVATION_GRANT (R142). A pool reservation becomes available and a waiting command becomes eligible. -/
  | stagingReservationGrant
  /-- DISPATCH (R209). A free clerk receives the first eligible command: job frame, desk input, base words, SW and entry point. -/
  | dispatch (c : ClerkInput)
  /-- COMPLETION_POST (R136). PT writes the staged output and then one 32-byte completion entry with its phase. -/
  | completionPost (id : CmdId) (ok : Bool)
  /-- COALESCE_TIMER (R114). COAL_TIME expires after the first unsignalled entry and the booth's MSI-X message is sent. -/
  | coalesceTimer (b : Nat)
  /-- MSIX_MASK_CLEAR (R113). Clearing a vector's mask or the Function Mask sends any pending message. -/
  | msixMaskClear (v : Option Nat)
  /-- REGISTER_WRITE (R110). A host write to a register with no row of its own, such as an MSI-X field or a wc status bit. -/
  | registerWrite (off : Nat) (size : Nat) (v : BitVec 32)
  /-- FAULT_ACK (R434). The driver writes 1 to PEND_CORR, PEND_CONT, PEND_FATAL or PEND_BOOTH, acknowledging the class. -/
  | faultAck (v : BitVec 32)
  /-- TALLY_PRESET_VALIDATE (R404). Writing VALID as 1 checks a preset and persists it, or leaves VALID clear. -/
  | tallyPresetValidate (p : Nat)
  /-- MBX_GO_WHILE_BUSY (R116). A write to MBX_GO while BUSY is set sets OVERRUN and submits nothing. -/
  | mbxGoWhileBusy
  /-- HOST_LINK_LOSS (R125). DL_Down or an IDE failure stops fetching and raises HOST_LINK, while admitted commands run on. -/
  | hostLinkLoss (ide : Option Nat)
  /-- HOST_LINK_RETURN (R125). The link returns or the stream is keyed again, and each open booth is left as RESET_BOOTH leaves it. -/
  | hostLinkReturn
  /-- BUNDLE_COMMIT (R147). After every member's JEND the bundle writes its journal record, gets the twin's acknowledgement, writes the commit mark and posts. -/
  | bundleCommit (b : CommitReads)
  /-- JOURNAL_RECORD_WRITTEN (R267). The journal record's last page reaches flash. -/
  | journalRecordWritten (q : Nat) (ok : Bool)
  /-- COMMIT_MARK_WRITTEN (R267). The commit mark reaches flash, the new tiles are applied to the working copy, and the caches drop the tiles. -/
  | commitMarkWritten (q : Nat)
  /-- PERSISTENT_TILE_WRITE (R267). A committed tile is written to both persistent copies in the background, followed by a retire mark. -/
  | persistentTileWrite (q : Nat)
  /-- LEDGER_SEAL (R295). After every 10 000 ledger entries a seal record signed by the attestation keys is written. -/
  | ledgerSeal
  /-- POLICY_CHANGE_COMPLETE (R190). The last touched older-epoch command retires, so the change is complete and the old rules are removed. -/
  | policyChangeComplete (e : Nat)
  /-- DRAIN_TIMEOUT (R194). A touched older-epoch command still not dispatched 0.4 ms after the commit completes ABORTED and counts DRAIN_ABORT. -/
  | drainTimeout (id : CmdId)
  /-- DRAIN_TWIN_TIMEOUT (R195). A touched bundle without a twin acknowledgement 4.7 ms after the commit commits alone. -/
  | drainTwinTimeout (u : Nat)
  /-- NOP (R223). No operation. -/
  | nop (c : ClerkId) (o : Opnds)
  /-- MOV (R226). Moves a word. -/
  | mov (c : ClerkId) (o : Opnds)
  /-- MOVD (R226). Moves a double. -/
  | movd (c : ClerkId) (o : Opnds)
  /-- CLR (R226). Writes zero. -/
  | clr (c : ClerkId) (o : Opnds)
  /-- MFSW (R229). Writes SW to A. -/
  | mfsw (c : ClerkId) (o : Opnds)
  /-- MTSW (R229). Writes bits 5–0 of the source to the flags. -/
  | mtsw (c : ClerkId) (o : Opnds)
  /-- DTOB (R232). Converts a decimal string to a signed double. -/
  | dtob (c : ClerkId) (o : Opnds)
  /-- BTOD (R232). Converts a double to decimal under the store rule. -/
  | btod (c : ClerkId) (o : Opnds)
  /-- TRN (R237). Translates each byte through a 256-word table. -/
  | trn (c : ClerkId) (o : Opnds)
  /-- MOVP (R231). Moves a decimal string under the store rule. -/
  | movp (c : ClerkId) (o : Opnds)
  /-- ADD (R226). 20-bit add. -/
  | add (c : ClerkId) (o : Opnds)
  /-- SUB (R226). 20-bit subtract. -/
  | sub (c : ClerkId) (o : Opnds)
  /-- ADC (R226). Add with carry. -/
  | adc (c : ClerkId) (o : Opnds)
  /-- SBC (R226). Subtract with borrow. -/
  | sbc (c : ClerkId) (o : Opnds)
  /-- ADDD (R226). 40-bit add. -/
  | addd (c : ClerkId) (o : Opnds)
  /-- SUBD (R226). 40-bit subtract. -/
  | subd (c : ClerkId) (o : Opnds)
  /-- MUL (R226). Signed 40-bit product. -/
  | mul (c : ClerkId) (o : Opnds)
  /-- MULU (R226). Unsigned 40-bit product. -/
  | mulu (c : ClerkId) (o : Opnds)
  /-- DIVU (R227). Divides a double by a word in fixed time, trapping DIVIDE on zero. -/
  | divu (c : ClerkId) (o : Opnds)
  /-- CMP (R226). Compares words and sets the flags. -/
  | cmp (c : ClerkId) (o : Opnds)
  /-- CMPD (R226). Compares doubles and sets the flags. -/
  | cmpd (c : ClerkId) (o : Opnds)
  /-- INC (R226). Increment. -/
  | inc (c : ClerkId) (o : Opnds)
  /-- DEC (R226). Decrement. -/
  | dec (c : ClerkId) (o : Opnds)
  /-- NEG (R226). Negate. -/
  | neg (c : ClerkId) (o : Opnds)
  /-- ADDP (R231). Packed-decimal add. -/
  | addp (c : ClerkId) (o : Opnds)
  /-- SUBP (R231). Packed-decimal subtract. -/
  | subp (c : ClerkId) (o : Opnds)
  /-- MULP (R231). Packed-decimal multiply. -/
  | mulp (c : ClerkId) (o : Opnds)
  /-- CMPP (R231). Packed-decimal compare. -/
  | cmpp (c : ClerkId) (o : Opnds)
  /-- DAJ (R233). Decimal adjust after a binary add. -/
  | daj (c : ClerkId) (o : Opnds)
  /-- SHP (R232). Decimal digit shift. -/
  | shp (c : ClerkId) (o : Opnds)
  /-- EDP (R234). Converts between digits and ASCII text. -/
  | edp (c : ClerkId) (o : Opnds)
  /-- LUHN (R235). Computes or verifies a mod-10 check digit. -/
  | luhn (c : ClerkId) (o : Opnds)
  /-- DECZ (R236). Decimalises nibbles through a 16-digit table. -/
  | decz (c : ClerkId) (o : Opnds)
  /-- AND (R226). Bitwise AND. -/
  | and (c : ClerkId) (o : Opnds)
  /-- OR (R226). Bitwise OR. -/
  | or (c : ClerkId) (o : Opnds)
  /-- XOR (R226). Bitwise XOR. -/
  | xor (c : ClerkId) (o : Opnds)
  /-- NOT (R226). Bitwise complement. -/
  | not (c : ClerkId) (o : Opnds)
  /-- SHL (R228). Logical left shift. -/
  | shl (c : ClerkId) (o : Opnds)
  /-- SHR (R228). Logical right shift. -/
  | shr (c : ClerkId) (o : Opnds)
  /-- SAR (R228). Arithmetic right shift. -/
  | sar (c : ClerkId) (o : Opnds)
  /-- ROL (R228). Rotate left. -/
  | rol (c : ClerkId) (o : Opnds)
  /-- TST (R226). Sets the flags as AND without writing. -/
  | tst (c : ClerkId) (o : Opnds)
  /-- BR (R238). Unconditional branch. -/
  | br (c : ClerkId) (o : Opnds)
  /-- BZ (R238). Branch if Z, trapping K_BRANCH while K and E are set. -/
  | bz (c : ClerkId) (o : Opnds)
  /-- BNZ (R238). Branch if not Z. -/
  | bnz (c : ClerkId) (o : Opnds)
  /-- BN (R238). Branch if N. -/
  | bn (c : ClerkId) (o : Opnds)
  /-- BNN (R238). Branch if not N. -/
  | bnn (c : ClerkId) (o : Opnds)
  /-- BC (R238). Branch if C. -/
  | bc (c : ClerkId) (o : Opnds)
  /-- BNC (R238). Branch if not C. -/
  | bnc (c : ClerkId) (o : Opnds)
  /-- BV (R238). Branch if V. -/
  | bv (c : ClerkId) (o : Opnds)
  /-- BNV (R238). Branch if not V. -/
  | bnv (c : ClerkId) (o : Opnds)
  /-- BDC (R238). Branch if DC. -/
  | bdc (c : ClerkId) (o : Opnds)
  /-- BNDC (R238). Branch if not DC. -/
  | bndc (c : ClerkId) (o : Opnds)
  /-- BID (R238). Branch if ID. -/
  | bid (c : ClerkId) (o : Opnds)
  /-- BNID (R238). Branch if not ID. -/
  | bnid (c : ClerkId) (o : Opnds)
  /-- BLT (R238). Branch if N differs from V. -/
  | blt (c : ClerkId) (o : Opnds)
  /-- BGE (R238). Branch if N equals V. -/
  | bge (c : ClerkId) (o : Opnds)
  /-- BGT (R238). Branch if Z is clear and N equals V. -/
  | bgt (c : ClerkId) (o : Opnds)
  /-- CALL (R238). Pushes the return address on B14 and branches. -/
  | call (c : ClerkId) (o : Opnds)
  /-- RET (R238). Pops IC from B14. -/
  | ret (c : ClerkId) (o : Opnds)
  /-- LOOP (R238). Decrements A and branches while it is nonzero. -/
  | loop (c : ClerkId) (o : Opnds)
  /-- MOVS (R237). Copies a byte string. -/
  | movs (c : ClerkId) (o : Opnds)
  /-- CMPS (R237). Compares byte strings in full. -/
  | cmps (c : ClerkId) (o : Opnds)
  /-- SRCH (R237). Finds the first matching byte. -/
  | srch (c : ClerkId) (o : Opnds)
  /-- XORS (R237). XORs byte strings. -/
  | xors (c : ClerkId) (o : Opnds)
  /-- FILLS (R237). Fills a byte string. -/
  | fills (c : ClerkId) (o : Opnds)
  /-- LATCH (R241). Tries to claim an engine latch. -/
  | latch (c : ClerkId) (o : Opnds)
  /-- WAITL (R242). Claims a latch or waits in the latch FIFO. -/
  | waitl (c : ClerkId) (o : Opnds)
  /-- UNLATCH (R243). Waits for submitted work, releases the latch and starts zeroing, or for a reckoner the wipe. -/
  | unlatch (c : ClerkId) (o : Opnds)
  /-- SUBMIT (R244). Copies a command block into an engine or stream queue, stalling while the queue is full. -/
  | submit (c : ClerkId) (o : Opnds)
  /-- WAITE (R245). Waits until an engine's queue has finished. -/
  | waite (c : ClerkId) (o : Opnds)
  /-- KLOAD (R246). Asks the locksmith to resolve a handle and deliver the key into key register 0. -/
  | kload (c : ClerkId) (o : Opnds)
  /-- KLOADX (R246). A key load with a key-load block selecting the target and derivation. -/
  | kloadx (c : ClerkId) (o : Opnds)
  /-- RAND (R247). Writes n bytes from the die's DRBG to the desk. -/
  | rand (c : ClerkId) (o : Opnds)
  /-- JEND (R249). Ends the job with its output and inline result, after waiting for engines. -/
  | jend (c : ClerkId) (o : Opnds)
  /-- JFAIL (R250). Ends the job with a named status. -/
  | jfail (c : ClerkId) (o : Opnds)
  /-- MCALL (R251). Supervisor enters monitor mode at an entry. -/
  | mcall (c : ClerkId) (o : Opnds)
  /-- MRET (R251). Returns from monitor to supervisor. -/
  | mret (c : ClerkId) (o : Opnds)
  /-- IOR (R251). Reads a head-clerk internal register. -/
  | ior (c : ClerkId) (o : Opnds)
  /-- IOW (R251). Writes a head-clerk internal register. -/
  | iow (c : ClerkId) (o : Opnds)
  /-- WAITI (R251). Stalls until a head-clerk interrupt. -/
  | waiti (c : ClerkId) (o : Opnds)
  /-- CLERK_WIPE (R211). The job frame and the written desk blocks are wiped, and the clerk becomes free when the wipe ends. -/
  | clerkWipe (c : ClerkId)
  /-- TIME_LIMIT (R213). 4.2 ms after dispatch with no JEND or JFAIL, the job traps TIME_LIMIT. -/
  | timeLimit (c : ClerkId)
  /-- LOCKSMITH_DELIVERY (R261). The locksmith completes the handle checks and the parent walk and delivers the key over the key lane. -/
  | locksmithDelivery (c : ClerkId) (reads : List (Nat × TileImage))
  /-- LATCH_BREAK (R299). A latch reaches its hold limit and the engine breaks it, zeroes and ends the job with DEVICE_FAULT. -/
  | latchBreak (e : EngineRef)
  /-- ENGINE_ZEROING_END (R300). An engine's zeroing ends, WIPING clears, and the latch passes to the FIFO head. -/
  | engineZeroingEnd (e : EngineRef)
  /-- MASK_RESEED_REQUEST (R313). At 2^20 − 2^16 blocks the mask expander requests a reseed. -/
  | maskReseedRequest (e : EngineRef)
  /-- MASK_RESEED_TIMEOUT (R313). No reseed arrives within 50 µs of holding at 2^20 blocks, so the command ends with RNG_UNAVAILABLE. -/
  | maskReseedTimeout (e : EngineRef)
  /-- MASK_RESEED_ARRIVAL (R313). A reseed arrives and the held engine continues. -/
  | maskReseedArrival (e : EngineRef)
  /-- ECB_ENC (R303). Press ECB encryption. -/
  | ecbEnc (d : Die) (p : Nat)
  /-- ECB_DEC (R303). Press ECB decryption. -/
  | ecbDec (d : Die) (p : Nat)
  /-- CBC_ENC (R303). Press CBC encryption. -/
  | cbcEnc (d : Die) (p : Nat)
  /-- CBC_DEC (R303). Press CBC decryption. -/
  | cbcDec (d : Die) (p : Nat)
  /-- CTR (R303). Press counter mode. -/
  | ctr (d : Die) (p : Nat)
  /-- CMAC_GEN (R303). Press CMAC generation. -/
  | cmacGen (d : Die) (p : Nat)
  /-- CMAC_VER (R305). Press CMAC verification into the result word. -/
  | cmacVer (d : Die) (p : Nat)
  /-- MAC1_GEN (R303). ISO 9797-1 MAC algorithm 1 generation. -/
  | mac1Gen (d : Die) (p : Nat)
  /-- MAC1_VER (R305). MAC algorithm 1 verification. -/
  | mac1Ver (d : Die) (p : Nat)
  /-- MAC3_GEN (R303). MAC algorithm 3 generation. -/
  | mac3Gen (d : Die) (p : Nat)
  /-- MAC3_VER (R305). MAC algorithm 3 verification. -/
  | mac3Ver (d : Die) (p : Nat)
  /-- KW_WRAP (R306). Wraps the register 1 key under register 0 with AES KW. -/
  | kwWrap (d : Die) (p : Nat)
  /-- HASH (R307). Hash unit digest. -/
  | hash (d : Die) (h : Nat) (srcOk : Bool)
  /-- HMAC_GEN (R307). Hash unit HMAC generation. -/
  | hmacGen (d : Die) (h : Nat) (srcOk : Bool)
  /-- HMAC_VER (R307). Hash unit HMAC verification. -/
  | hmacVer (d : Die) (h : Nat) (srcOk : Bool)
  /-- GCM_ENC (R308). Loom GCM encryption. -/
  | gcmEnc (d : Die) (l : Nat) (srcOk : Bool)
  /-- GCM_DEC (R310). Loom GCM decryption with hold-buffer release, or direct release under R311. -/
  | gcmDec (d : Die) (l : Nat) (srcOk : Bool)
  /-- CCM_ENC (R308). Loom CCM encryption. -/
  | ccmEnc (d : Die) (l : Nat) (srcOk : Bool)
  /-- CCM_DEC (R310). Loom CCM decryption. -/
  | ccmDec (d : Die) (l : Nat) (srcOk : Bool)
  /-- OUTPUT_SCRUB (R312). After a tag mismatch following a direct release, PT writes zeros over the written output and sets SCRUBBED. -/
  | outputScrub (id : CmdId)
  /-- INPUT_STREAM_READ (R244). Copies the next input bytes to the desk. -/
  | inputStreamRead (c : ClerkId) (srcOk : Bool)
  /-- OUTPUT_STREAM_WRITE (R244). Appends desk bytes to the staged output. -/
  | outputStreamWrite (c : ClerkId)
  /-- LOADL (R326). Loads and validates a desk operand into reckoner memory. -/
  | loadl (d : Die) (r : Nat)
  /-- STOREL (R324). Stores non-secret limbs to the desk. -/
  | storel (d : Die) (r : Nat)
  /-- MOVL (R321). Copies limbs. -/
  | movl (d : Die) (r : Nat)
  /-- SETMOD (R321). Loads a modulus register with its constants. -/
  | setmod (d : Die) (r : Nat)
  /-- MACP (R321). Multiply or multiply-accumulate. -/
  | macp (d : Die) (r : Nat)
  /-- REDC (R321). Montgomery reduction. -/
  | redc (d : Die) (r : Nat)
  /-- MADD (R321). Modular add. -/
  | madd (d : Die) (r : Nat)
  /-- MSUB (R321). Modular subtract. -/
  | msub (d : Die) (r : Nat)
  /-- CSWAP_BIT (R330). Masked swap steered by a secret bit. -/
  | cswapBit (d : Die) (r : Nat)
  /-- BSET (R321). Sets the bit cursor and clears the swap latch. -/
  | bset (d : Die) (r : Nat)
  /-- RNDL (R332). Fills limbs from the DRBG, marked secret. -/
  | rndl (d : Die) (r : Nat)
  /-- RUNL (R331). Runs a command list with a repeat count. -/
  | runl (d : Die) (r : Nat)
  /-- CHK (R336). Checks an end-of-job invariant and releases a range. -/
  | chk (d : Die) (r : Nat)
  /-- SETQ (R333). Sets the lattice modulus and its twiddles. -/
  | setq (d : Die) (r : Nat)
  /-- LBFLY (R334). One NTT layer, forward or inverse. -/
  | lbfly (d : Die) (r : Nat)
  /-- LPMUL (R321). Coefficientwise product mod q. -/
  | lpmul (d : Die) (r : Nat)
  /-- LBASEM (R321). FIPS 203 base-case product. -/
  | lbasem (d : Die) (r : Nat)
  /-- LPADD (R321). Polynomial add mod q. -/
  | lpadd (d : Die) (r : Nat)
  /-- LPSUB (R321). Polynomial subtract mod q. -/
  | lpsub (d : Die) (r : Nat)
  /-- LROUND (R334). Coefficientwise rounding function selected by word 13. -/
  | lround (d : Die) (r : Nat)
  /-- LNORM (R335). Computes the ML-DSA rejection bit. -/
  | lnorm (d : Die) (r : Nat)
  /-- RECKONER_WIPE (R339). The whole reckoner state is wiped in 512 cycles at a job's close or end. -/
  | reckonerWipe (d : Die) (r : Nat)
  /-- NOISE_SAMPLE_TEST_FAIL (R347). A running source fails a continuous health test: the block in assembly is discarded and a standby source replaces it. -/
  | noiseSampleTestFail (d : Die) (src : Fin 4) (test : HealthTest)
  /-- FORERUNNER_SOURCE_FAIL (R349). In forerunner-compatible handling a failed source restarts at once with start-up tests. -/
  | forerunnerSourceFail (d : Die) (src : Fin 4) (test : HealthTest) (s : List Byte)
  /-- MINT_BLOCK_COMPLETE (R343). A 256-sample block completes and is conditioned with SHA3-256. -/
  | mintBlockComplete (d : Die) (s : List Byte)
  /-- DRBG_RESEED (R344). The DRBG reseeds with a new block at the next request boundary. -/
  | drbgReseed (d : Die)
  /-- DRBG_GENERATE (R344). A generate request delivers 1 to 65 536 bytes, waiting when the seed limits are reached. -/
  | drbgGenerate (d : Die)
  /-- KEY_GRADE_REQUEST (R345). A key-grade request waits for the next block, reseeds and generates. -/
  | keyGradeRequest (d : Die)
  /-- SOURCE_RESTART (R348). 100 ms after leaving service a source restarts its start-up tests; after 8 failures it is retired. -/
  | sourceRestart (d : Die) (src : Fin 4) (s : List Byte)
  /-- MINT_EXHAUSTED (R351). No source has been in service for 10 ms: the waiting requests get RNG_UNAVAILABLE and a fatal fault follows. -/
  | mintExhausted (d : Die)
  /-- BALLAST_REQUEST (R57). An island start, stop or frequency step enters its rail's ballast FIFO or replaces a waiting entry. -/
  | ballastRequest (i : Nat) (k : BallastKind)
  /-- BALLAST_GRANT (R57). The FIFO head proceeds once the bucket holds its cost. -/
  | ballastGrant (rail : Fin 3)
  /-- ISLAND_READY (R54). A started island finishes its ramp, lock, zeroing and any code reload. -/
  | islandReady (isl : IslandStart)
  /-- IDLE_GATING_TIMER (R55). An Idle-class island idle for the configured period is gated. -/
  | idleGatingTimer (isl : IdleTimer)
  /-- THERMAL_THROTTLE_STEP (R43). A die above 95 °C is slowed by one 10 % step, counted under THERMAL_HIGH. -/
  | thermalThrottleStep (die : Fin 3) (temp : Int)
  /-- THERMAL_FATAL (R42). A die above 105 °C raises a fatal fault and the compute dies are powered down. -/
  | thermalFatal (die : Fin 3) (temp : Int)
  /-- RAIL_WARN (R418). A rail outside ±8 % for 50 µs raises a fatal fault. -/
  | railWarn (row : Nat)
  /-- FABRIC_CE (R62). A checker corrects a single-bit flit error and counts it. -/
  | fabricCe (die : Fin 3) (checker src : Nat) (f : PassingFlit)
  /-- FABRIC_UE (R64). An uncorrectable flit is poisoned and the command concerned completes DEVICE_FAULT. -/
  | fabricUe (checker src : Nat) (f : PassingFlit) (use : FlitUse)
  /-- TAMPER_SOURCE_TRIP (R416). A tamper source holds its condition beyond its filter time and asserts the rip line. -/
  | tamperSourceTrip (t : Trip)
  /-- GONDOLA_CELL_TAMPER (R421). On cells, GA latches a source and GW wakes to clear the root, set the flag and log the event. -/
  | gondolaCellTamper (t : Trip)
  /-- TAMPER_COUNT_BURN (R424). The boot monitor burns one TAMPER_CNT fuse for an uncounted episode. -/
  | tamperCountBurn (weak : List Fuse)
  /-- GONDOLA_LOG_READ (R425). The firmware reads the gondola log after an event on main power. -/
  | gondolaLogRead (lost : List Nat)
  /-- CELL_MEASURE (R426). The gondola measures each cell every 1 s on main power or every 60 s on cells, reporting CELL_LOW. -/
  | cellMeasure (a b : Nat)
  /-- CELL_DECAY (R426). Both cells fall below 2.2 V without main power, and the root, log, flag and count decay. -/
  | cellDecay
  /-- CELL_SERVICE_WINDOW_EXPIRY (R45). The window closes 600 s after it opens; an open door then is a tamper event. -/
  | cellServiceWindowExpiry
  /-- CELL_DOOR_CLOSE (R45). The door closes after being opened and the cell service window closes. -/
  | cellDoorClose
  /-- FAULT_EVENT (R431). A fault event reaches the collector and is classified, escalated, recorded and signalled. -/
  | faultEvent (e : FaultEvent)
  /-- ALERT_WIDTH_EXPIRY (R439). The minimum width ends and the pin follows HOLD. -/
  | alertWidthExpiry
  /-- ALERT_HOLD_CLEAR (R439). The firmware clears HOLD up to 100 µs after the pending flags clear. -/
  | alertHoldClear
  /-- ETHERNET_FRAME_RECEIVE (R154). A frame arrives and is served (ARP, ND, ICMP echo, TCP, PTP) or discarded and counted. -/
  | ethernetFrameReceive (p : Port) (f : EthFrame)
  /-- PORT_DOWN (R153). A port loses link: its TCP connections close and PORT_DOWN is raised. -/
  | portDown (p : Port)
  /-- TCP_SYN (R155). A SYN is accepted on a listener, or answered with RST. -/
  | tcpSyn (p : Port) (addr : Nat) (tcpPort : Nat) (x : Syn)
  /-- TLS_HANDSHAKE (R159). A handshake runs as a command of the listener's booth, holding one credit. -/
  | tlsHandshake (conn : Nat) (h : ClientHello)
  /-- HANDSHAKE_TIMEOUT (R159). 10 s after accept an unfinished handshake ends with a TCP RST. -/
  | handshakeTimeout (conn : Nat)
  /-- SESSION_ESTABLISHED (R161). The session is assigned to a die and its traffic secrets enter the session table. -/
  | sessionEstablished (conn : Nat)
  /-- REQUEST_FRAME (R165). A REQUEST frame is read whole, checked and taken into admission. -/
  | requestFrame (conn : Nat) (frame : List Byte)
  /-- RESPONSE_FRAME (R168). A response or BUSY frame is queued whole for the session. -/
  | responseFrame (id : CmdId)
  /-- SEND_QUEUE_DRAIN (R169). Queued response bytes fall to 4 MiB and frame reading resumes. -/
  | sendQueueDrain (conn : Nat) (n : Nat)
  /-- SESSION_CLOSE (R163). The client closes or resets, and the session's commands run on with their outputs discarded. -/
  | sessionClose (conn : Nat)
  /-- SESSION_IDLE_TIMEOUT (R163). The listener's idle timeout expires and the session closes. -/
  | sessionIdleTimeout (conn : Nat)
  /-- KEY_UPDATE_SEND (R161). After 2^24 records under one key the module sends KeyUpdate. -/
  | keyUpdateSend (conn : Nat)
  /-- KEY_UPDATE_RECEIVE (R161). The module accepts a client KeyUpdate. -/
  | keyUpdateReceive (conn : Nat)
  /-- PEER_LINK_UP (R172). At link-up the modules exchange serials and nonces, derive link keys and confirm them. -/
  | peerLinkUp (serial nonce confirm : List Byte)
  /-- PEER_REKEY (R172). After 2^32 frames in a direction new link keys are derived. -/
  | peerRekey (tx : Bool)
  /-- PEER_RECORD_RECEIVE (R173). The twin checks a record's generations, journals it as held and acknowledges, or refuses it. -/
  | peerRecordReceive (r : PeerRecord)
  /-- PEER_ACK_RECEIVE (R173). The origin receives the acknowledgement and may write its commit mark. -/
  | peerAckReceive (seq : Nat) (refusedSlot : Option Nat)
  /-- PEER_ACK_TIMEOUT (R175). No acknowledgement within 5 ms, so the origin treats the twin as unpaired and commits alone. -/
  | peerAckTimeout (u : Nat)
  /-- PEER_COMMIT_NOTICE (R173). The twin receives the commit notice, writes its mark and applies the record. -/
  | peerCommitNotice (seq : Nat)
  /-- PEER_LOST (R175). The twin stops being paired: PEER_LINK is raised, PEER_LOST is set and each module commits alone. -/
  | peerLost
  /-- PEER_REPAIR_RESEND (R176). At re-pairing each side reports its applied sequence and the origins resend later records. -/
  | peerRepairResend (twinApplied : Nat) (records : List PeerRecord)
  /-- PPS_IN_EDGE (R446). A PPS_IN rising edge is timestamped at 500 MHz. -/
  | ppsInEdge (ns : Nat)
  /-- TOD_DATAGRAM (R447). A time-of-day datagram is checked and labels the next edge, or is discarded. -/
  | todDatagram (d : List Byte) (srcAddr : List Byte) (usToEdge : Nat)
  /-- SECOND_BOUNDARY (R448). The clockmaker compares its time with the source, and slews, steps or refuses. -/
  | secondBoundary (offset : Option Int)
  /-- CLOCK_LOCK (R444). The offset stays within 1 µs for 10 s and the clockmaker enters LOCKED. -/
  | clockLock
  /-- SOURCE_LOSS (R444). No accepted edge or Sync for 3 s while LOCKED, so the clockmaker enters HOLDOVER. -/
  | sourceLoss
  /-- OCXO_WARMUP_END (R445). 300 s after a cold start WARMUP clears. -/
  | ocxoWarmupEnd
  /-- ALIGNMENT_RECORD_WRITE (R453). An alignment record is written at SERVICE_READY, at each lock or step, and every hour. -/
  | alignmentRecordWrite
  /-- PTP_DELAY_REQ (R450). A Delay_Req is answered, up to 4 096 per second per port. -/
  | ptpDelayReq (p : Port) (seq : Nat)
  /-- PTP_SYNC_SEND (R450). At each sync interval the master sends a two-step Sync and Follow_Up. -/
  | ptpSyncSend (p : Port)
  /-- PTP_ANNOUNCE_SEND (R450). At each announce interval the master sends Announce with its clockClass. -/
  | ptpAnnounceSend (p : Port)
  /-- PPS_OUT_EDGE (R451). PPS_OUT and PPS_AUX rise on each clockmaker second unless squelched. -/
  | ppsOutEdge
  /-- LC_NONCE_EXPIRY (R107). An LC_NONCE value expires 600 s after issue. -/
  | lcNonceExpiry
  /-- LATCH_EXPIRY (R286). An unclaimed latch closes 120 s after opening and writes ledger entry 0011h. -/
  | latchExpiry
  /-- LATCH_ATTEMPT_TIMEOUT (R285). No two valid signatures within 300 s of the challenge, so the attempt fails and the challenge is void. -/
  | latchAttemptTimeout
  /-- OFFICER_PIN_TIMEOUT (R481). A card PIN not entered within 300 s fails the request with reason 4Ah. -/
  | officerPinTimeout
  /-- DELIBERATE_ERASE (R95). A transition to RETURNED or SCRAPPED erases the root, aborts the admitted commands and performs a module reset itself. -/
  | deliberateErase
  /-- ROOM_CODE_RELOAD (R220). When all clerks of an updating room are free, the room loads the new code and resumes. -/
  | roomCodeReload (room : Nat)
  /-- BRIDLE_UPDATE (R414). The boot monitor updates the bridles of a request one at a time: write, hold, switch, release. -/
  | bridleUpdate (r : BridleRequest)
  /-- BRIDLE_REFUSAL (R409). A bridle refuses a beat and latches a violation record. -/
  | bridleRefusal (b : Nat) (a : Access)
  /-- OPEN (R357). Negotiates the protocol version once the booth's occupancy is zero. -/
  | openCmd (id : CmdId)
  /-- ATTEST (R464). A ring or session command that signs a booth-scope attestation statement. -/
  | attest (id : CmdId)
  /-- TIME_TOKEN (R452). Returns a signed COSE time token. -/
  | timeToken (id : CmdId)
  /-- KEY_GENERATE (R362). Generates a key under a parent as a bundle member. -/
  | keyGenerate (id : CmdId)
  /-- KEY_REVOKE (R291). Revokes a slot, zeroing its material and raising its generation. -/
  | keyRevoke (id : CmdId)
  /-- KEY_REPLACE (R480). Replaces a slot's material from a key block or wrapped key. -/
  | keyReplace (id : CmdId)
  /-- KEY_DELETE (R291). Frees a slot and raises its generation. -/
  | keyDelete (id : CmdId)
  /-- KEY_REPARENT (R293). Moves a child to a new parent under the latch. -/
  | keyReparent (id : CmdId)
  /-- KEY_INFO (R362). Returns bytes 0–63 of a head record. -/
  | keyInfo (id : CmdId)
  /-- PUBLIC_IMPORT (R362). Validates and stores a class 28h public key. -/
  | publicImport (id : CmdId)
  /-- PIN_TRANSLATE (R378). Re-enciphers a PIN block from one key and format to another. -/
  | pinTranslate (id : CmdId)
  /-- PIN_VERIFY (R379). Verifies a PIN by the offset or verification value method. -/
  | pinVerify (id : CmdId)
  /-- PIN_OFFSET_GEN (R379). Generates a PIN offset or verification value. -/
  | pinOffsetGen (id : CmdId)
  /-- CVC_GENERATE (R380). Generates a card verification code. -/
  | cvcGenerate (id : CmdId)
  /-- CVC_VERIFY (R380). Verifies a card verification code. -/
  | cvcVerify (id : CmdId)
  /-- ARQC_VERIFY (R382). Verifies an ARQC and computes the ARPC. -/
  | arqcVerify (id : CmdId)
  /-- SM_MAC (R383). Computes a secure-messaging MAC. -/
  | smMac (id : CmdId)
  /-- SM_ENC_MAC (R383). Enciphers script data and MACs it. -/
  | smEncMac (id : CmdId)
  /-- DUKPT_DECRYPT (R384). Derives an AES DUKPT working key and CBC-decrypts. -/
  | dukptDecrypt (id : CmdId)
  /-- DUKPT_PIN_TRANSLATE (R384). Translates a DUKPT format 4 PIN block. -/
  | dukptPinTranslate (id : CmdId)
  /-- MAC_GENERATE (R385). Generates a MAC selected by key usage. -/
  | macGenerate (id : CmdId)
  /-- MAC_VERIFY (R385). Verifies a MAC. -/
  | macVerify (id : CmdId)
  /-- TOKENISE (R386). FF1-enciphers the middle digits. -/
  | tokenise (id : CmdId)
  /-- DETOKENISE (R386). FF1-deciphers the middle digits. -/
  | detokenise (id : CmdId)
  /-- KEYBLOCK_IMPORT (R387). Unwraps an X9.143 key block into a new slot. -/
  | keyblockImport (id : CmdId)
  /-- KEYBLOCK_EXPORT (R388). Exports a key as an X9.143 block built in the locksmith. -/
  | keyblockExport (id : CmdId)
  /-- KEY_CHECK_VALUE (R389). Returns a key's check value. -/
  | keyCheckValue (id : CmdId)
  /-- AEAD_ENCRYPT (R390). GCM or CCM encryption on a loom. -/
  | aeadEncrypt (id : CmdId)
  /-- AEAD_DECRYPT (R390). GCM or CCM decryption on a loom. -/
  | aeadDecrypt (id : CmdId)
  /-- SIGN (R391). RSA, ECDSA or ML-DSA signature. -/
  | sign (id : CmdId)
  /-- VERIFY (R391). Signature verification. -/
  | verify (id : CmdId)
  /-- KEY_AGREE (R392). ECDH with a one-step KDF. -/
  | keyAgree (id : CmdId)
  /-- KEM_DECAPSULATE (R392). ML-KEM decapsulation with implicit rejection. -/
  | kemDecapsulate (id : CmdId)
  /-- HOUSE_PROGRAM_COMMAND (R360). A command with opcode 8000h–8FFFh runs the house's loaded program. -/
  | houseProgramCommand (x : CmdInput)
  /-- STATUS_QUERY (R367). Returns the boot stage, state, flags and booth counts. -/
  | statusQuery (src : ReqSrc)
  /-- EPOCH_STATUS (R192). Returns the current epoch and the oldest incomplete change. -/
  | epochStatus (src : ReqSrc)
  /-- STRONGROOM_STATUS (R367). Returns the slot and tile counts. -/
  | strongroomStatus (src : ReqSrc)
  /-- MGR_WINDOW (R117). Declares or removes the manager window. -/
  | mgrWindow (src : ReqSrc)
  /-- BOOTH_CREATE (R120). Checks and creates a booth with its bridle regions and booth-table entry. -/
  | boothCreate (src : ReqSrc)
  /-- BOOTH_MODIFY (R121). Changes the masked booth fields at an epoch. -/
  | boothModify (src : ReqSrc)
  /-- BOOTH_CLOSE (R123). Closes a booth in DRAIN or ABORT mode. -/
  | boothClose (src : ReqSrc)
  /-- BOOTH_CLOSE_DRAIN_TIMEOUT (R123). The drain timeout expires and the remaining commands are aborted. -/
  | boothCloseDrainTimeout
  /-- RESET_BOOTH (R124). Aborts a booth's commands without completions and zeroes its indices. -/
  | resetBooth (src : ReqSrc)
  /-- ABORT (R150). Aborts every outstanding command of a booth with a given tag. -/
  | abort (src : ReqSrc)
  /-- PARTITION_SET (R196). Installs a partition map or returns the module to shared mode. -/
  | partitionSet (src : ReqSrc)
  /-- RESET_MODULE (R67). Aborts admitted commands and restarts from the boot monitor. -/
  | resetModule (src : ReqSrc)
  /-- MAILBOX_ATTEST (R465). Signs a module-scope statement or fetches part of the held one. -/
  | mailboxAttest (src : ReqSrc)
  /-- CLOCK_SOURCE (R455). CLOCK_CONFIG SOURCE: selects the discipline source and its limits. -/
  | clockSource (src : ReqSrc)
  /-- CLOCK_PTP (R455). CLOCK_CONFIG PTP: sets the PTP parameters. -/
  | clockPtp (src : ReqSrc)
  /-- CLOCK_PPS (R455). CLOCK_CONFIG PPS: sets SQUELCH. -/
  | clockPps (src : ReqSrc)
  /-- SET_TIME (R455). Steps the clock and puts the clockmaker in SET. -/
  | setTime (src : ReqSrc)
  /-- HOUSE_REGISTER (R282). Registers a house with its range, master key and two officers. -/
  | houseRegister (src : ReqSrc)
  /-- HOUSE_REMOVE (R282). Removes an empty house. -/
  | houseRemove (src : ReqSrc)
  /-- OFFICER_ADD (R283). Adds an officer whose card generates a key pair. -/
  | officerAdd (src : ReqSrc)
  /-- OFFICER_REMOVE (R283). Removes an officer. -/
  | officerRemove (src : ReqSrc)
  /-- LATCH_OPEN (R285). Starts a latch attempt and returns a challenge. -/
  | latchOpen (src : ReqSrc)
  /-- LATCH_SIGN (R285). Supplies an officer signature, opening the latch at the second. -/
  | latchSign (src : ReqSrc)
  /-- LATCH_CLOSE (R286). Closes the latch. -/
  | latchClose (src : ReqSrc)
  /-- KEY_ENTER (R288). Combines clear key components into a stored key. -/
  | keyEnter (src : ReqSrc)
  /-- COMMISSION (R290). Commissions the module in SEALED, or re-commissions it from tamper halt. -/
  | commission (src : ReqSrc)
  /-- LC_STATUS (R89). Returns the raw life-cycle fuses and states. -/
  | lcStatus (src : ReqSrc)
  /-- LC_NONCE (R107). Issues a 32-byte nonce. -/
  | lcNonce (src : ReqSrc)
  /-- LC_TRANSITION (R479). Accepts a life-cycle transition and writes a progress mark or sets the pending register. -/
  | lcTransition (x : BurnRequest)
  /-- DEBUG_UNLOCK (R105). Opens JTAG in PROVISIONED. -/
  | debugUnlock (src : ReqSrc)
  /-- IMAGE_INSTALL (R401). Writes a verified image to the inactive flash copy. -/
  | imageInstall (src : ReqSrc) (w : Bulk)
  /-- LIVE_UPDATE (R220). Replaces the library one counting room at a time. -/
  | liveUpdate (src : ReqSrc) (w : Bulk)
  /-- PROG_LOAD (R219). Loads or replaces a house program. -/
  | progLoad (src : ReqSrc) (w : Bulk)
  /-- PROG_REMOVE (R219). Removes a house program. -/
  | progRemove (src : ReqSrc)
  /-- LEDGER_EXPORT (R368). Copies unconfirmed ledger entries and seals to the manager window. -/
  | ledgerExport (src : ReqSrc)
  /-- LEDGER_CONFIRM (R368). Confirms ledger entries up to a sequence. -/
  | ledgerConfirm (src : ReqSrc)
  /-- NET_ADDR (R154). Sets an interface address. -/
  | netAddr (src : ReqSrc)
  /-- NET_LISTEN (R157). Configures or removes a listener. -/
  | netListen (src : ReqSrc) (w : Bulk)
  /-- PEER_CONFIG (R152). Selects port B's mode for the next reset. -/
  | peerConfig (src : ReqSrc)
  /-- PEER_PAIR (R171). Starts pairing and the first strongroom copy. -/
  | peerPair (src : ReqSrc)
  /-- PEER_UNPAIR (R171). Ends pairing. -/
  | peerUnpair (src : ReqSrc)
  /-- PEER_RESYNC (R177). Copies the SOURCE's strongroom to the TARGET. -/
  | peerResync (src : ReqSrc)
  /-- MINT_MODE (R350). Selects each die's source-failure handling. -/
  | mintMode (src : ReqSrc)
  /-- CELL_SERVICE (R45). Opens a cell service window. -/
  | cellService (src : ReqSrc)
  /-- CLASSIFY (R441). FAULT_CONFIG CLASSIFY: sets a source's classification. -/
  | classify (src : ReqSrc)
  /-- CLEAR_BRIDLE (R412). Clears bridle violation records. -/
  | clearBridle (src : ReqSrc)
  /-- ALERT_WIDTH (R441). Sets MIN_WIDTH. -/
  | alertWidth (src : ReqSrc)
  /-- DEFAULTS (R441). Returns every classification to default at the next reset. -/
  | defaults (src : ReqSrc)
  /-- GET_VERSION (R467). SPDM version request. -/
  | getVersion (msg : List Byte)
  /-- GET_CAPABILITIES (R467). SPDM capabilities request. -/
  | getCapabilities (msg : List Byte)
  /-- NEGOTIATE_ALGORITHMS (R467). SPDM algorithm negotiation. -/
  | negotiateAlgorithms (msg : List Byte)
  /-- GET_DIGESTS (R467). SPDM certificate digests. -/
  | getDigests (msg : List Byte)
  /-- GET_CERTIFICATE (R467). SPDM certificate chain. -/
  | getCertificate (msg : List Byte)
  /-- CHALLENGE (R467). SPDM challenge signed with the identity key. -/
  | challenge (msg : List Byte)
  /-- GET_MEASUREMENTS (R467). SPDM signed measurements. -/
  | getMeasurements (msg : List Byte)
  /-- KEY_EXCHANGE (R467). SPDM session key exchange. -/
  | keyExchange (msg : List Byte)
  /-- FINISH (R467). SPDM session finish. -/
  | finish (msg : List Byte)
  /-- KEY_UPDATE (R467). SPDM session key update. -/
  | keyUpdate (msg : List Byte)
  /-- END_SESSION (R467). SPDM session end. -/
  | endSession (msg : List Byte)
  /-- VENDOR_DEFINED_REQUEST (R467). SPDM vendor request carrying IDE_KM. -/
  | vendorDefinedRequest (msg : List Byte)
  /-- CELL_DOOR_OPEN (R45). The cell door switch opens inside a cell service window, setting DOOR_OPEN with no tamper and arming the close-on-door-closing condition. -/
  | cellDoorOpen
  /-- TCP_RETRANSMISSION_TIMEOUT (R154). An RFC 6298 retransmission timer of a TCP connection expires and the unacknowledged segment is resent. -/
  | tcpRetransmissionTimeout (conn : Nat)
  /-- TCP_KEEPALIVE_PROBE (R154). A TCP connection idle for 60 s sends a keep-alive probe. -/
  | tcpKeepaliveProbe (conn : Nat)
  /-- PEER_COPY_END (R171). The whole-strongroom copy from SOURCE to TARGET ends, and the TARGET stops refusing commands with STATE_REFUSED. -/
  | peerCopyEnd (slots : List (Nat × List Byte))
  /-- POLICY_RECORD_WRITTEN (R190). A booth-table, program-table, partition-map, listener or image record reaches flash, so its policy change commits and the epoch advances. -/
  | policyRecordWritten
  /-- PORT_LINK_UP (R153). An Ethernet port whose link was down regains its link. -/
  | portLinkUp (p : Port)
  /-- THROTTLE_RELEASE (R43). A throttled die falls below 92 °C and its clerk and press islands are released from thermal throttling. -/
  | throttleRelease (die : Fin 3) (temp : Int)
  /-- CEREMONY_CONSOLE_ENTRY (R481). An officer enters a card PIN or a typed key component on the ceremony console, and the waiting card signs or releases its component. -/
  | ceremonyConsoleEntry (x : ConsoleBurn)
  /-- LATCHING_REGISTER_READ (R470). A host read of an _LO register or of TIME_NS latches the companion high or seconds fields. -/
  | latchingRegisterRead (off : Nat) (size : Nat)
  /-- LINK_TRAINING_COMPLETE (R28). The host link first trains after a start, and its width and rate are recorded in the LINK register. -/
  | linkTrainingComplete (width rate : Nat) (flit : Bool)
  /-- MGMT_LINK_CHANGE (R39). The 1000BASE-T MGMT link comes up or goes down, and the green integral LED follows. -/
  | mgmtLinkChange (x : MgmtLink)
  /-- TEST_ACCESS_REQUEST (R89). A JTAG or scan request arrives at the TA island and is served, or answered with IDCODE alone, as the life-cycle state allows. -/
  | testAccessRequest (r : TestAccess)
  /-- IDENTITY_INJECTION (R459). The identity injection request burns the identity seed and check word and exports the identity public keys for certification. -/
  | identityInjection (seed : List Byte) (weak : List Fuse)
  deriving DecidableEq, Repr

end Sys2Proof
end

