-- ==== Sys2Proof/Decode.lean ====
section
/-! DEFINITION. Words of the operation table. The table gives no row any bits: every command comes from outside the
module as an event or a request, and no word spells one. -/

namespace Sys2Proof

/-- The command that a word of the table spells: none, since no row has bits. -/
def decodeTableWord (_nbits _w : Nat) : Option Instr := none

end Sys2Proof
end

