-- ==== Sys2Proof/Config.lean ====
section
/-! DEFINITION. What an implementation fixes and the spec leaves open: free values without a body (assumption log 8) and
the standard algorithms that the model keeps abstract (log 7). Nothing in Lean can see a value of these. -/

namespace Sys2Proof.Config

/-! ## Free values, read at a counter of the state -/

/-- A free clerk word: a value that the spec does not state. -/
opaque freeWord : Nat → Word

/-- Free bytes: `n` of them, at a counter value. -/
opaque freeByte : Nat → Nat → Byte

/-- The word that the job outcome word holds for a status and a reason; R212 gives no layout. -/
opaque outcomeWord : Nat → Nat → Word

/-- The entry point that the library image gives an opcode; the spec does not give the image. -/
opaque libEntry : Nat → Nat

/-- The result of a reckoner command on operands for which 15 Table 15.3 states none (an operand of MADD or MSUB that is
not below the modulus, an accumulation that does not fit, REDC or ρ² with a length that is not the modulus's): the command
code, the operands and the modulus. -/
opaque reckonerOut : Nat → Nat → Nat → Nat → Nat

/-- A base-case product's second twiddle factor for a lattice modulus that is not built in: the modulus and the index. -/
opaque baseTwiddle : Nat → Nat → Nat

/-- Whether the ladder invariant holds (15 Table 15.8, kind 2) for a modulus that is the prime of no curve of 13 Table 13.3: the operand
limbs as numbers, the base point, the modulus and the length. -/
opaque ladderCheck : Nat → Nat → Nat → Nat → Bool

/-- The meaning of a Weierstrass ladder's X, Y, Z, which the spec does not fix: x = X / Z² and y = Y / Z³, or else x = X / Z and
y = Y / Z. -/
opaque ladderJacobian : Bool

/-- The ladder's affine base point is in Montgomery form too; Table 15.8 says so of the pair alone. -/
opaque ladderBaseMont : Bool

/-- The reckoner of its die that a library program claimed, at a counter value. -/
opaque libReckoner : Nat → Nat

/-- What the gondola's root SRAM and its check value hold after the cells have decayed, at a counter value (21 R426). -/
opaque decayedRoot : Nat → BitVec 256
opaque decayedCheck : Nat → BitVec 32

/-! ## Standard algorithms kept abstract (log 7) -/

/-- The private key material that RSA key generation draws from 32 random bytes: the modulus bits and the seed. -/
opaque rsaGenerate : Nat → Bytes → Bytes

/-- The FIPS 204 private key of a size byte and a 32-byte seed. -/
opaque mlDsaGenerate : Nat → Bytes → Bytes

/-- The FIPS 204 public key of a private key. -/
opaque mlDsaPublic : Nat → Bytes → Bytes

/-- The hedged FIPS 204 signature of a message with an empty context: size byte, private key, random value, message. -/
opaque mlDsaSign : Nat → Bytes → Bytes → Bytes → Bytes

/-- FIPS 204 verification: size byte, public key, message, signature. -/
opaque mlDsaVerify : Nat → Bytes → Bytes → Bytes → Bool

/-- The FIPS 203 decapsulation key of a size byte and 64 random bytes. -/
opaque mlKemGenerate : Nat → Bytes → Bytes

/-- FIPS 203 decapsulation with implicit rejection: size byte, decapsulation key, ciphertext. -/
opaque mlKemDecaps : Nat → Bytes → Bytes → Bytes

/-- The P-384 public keys in mask ROM, which are not published (R93, R105, R478): Todrigen's production keys in order, and its debug
key. The ledger names a production key by its place from 1 (log 35), the debug key by this identifier. -/
opaque productionKeys : List (Nat × Nat)
opaque debugKey : Nat × Nat
opaque debugKeyId : Nat

/-- The regions that the boot monitor writes at step 11 to a bridle that serves neither a counting room nor the host (20 R405, R406):
the spec gives neither the regions nor the layout of the internal address space. -/
opaque fixedRegions : Nat → List Region

/-- The word of a library image, by its digest, at an address of code memory or of the library part of the room window. -/
opaque libraryWord : Bytes → Nat → Word

/-- The length, in blocks of 64 slots, of the range that commissioning gives the operator house; COMMISSION names none. -/
opaque operatorBlocks : Nat

/-- Which loom of CD1.LM1 the peer link holds: the one of the higher number. -/
opaque peerLoomHigh : Bool

/-- The HOLDER field of that loom's latch word while the peer link holds it. -/
opaque peerHolder : BitVec 7

/-- The entry table of the boot monitor in mask ROM, by entry number, and the internal registers of the head clerks that are
reserved to the monitor (10 R221, 11 R251). The spec gives neither. -/
opaque monitorEntries : List (Nat × Word)
opaque monitorRegs : List Nat

/-- The engine kinds that the program of an opcode uses: 0 presses, 1 hash units, 2 looms, 3 reckoners. The spec does not list
them. -/
opaque needsKind : Nat → Nat → Bool

/-- The salt and the info with which HKDF-SHA-384 derives a link key of the peer link; R172 names their parts, not their order:
the number of the rekeying, and nonce and serial of the sender, then of the receiver. -/
opaque peerSalt : Nat → List Bytes → Bytes
opaque peerInfo : Nat → List Bytes → Bytes

/-- A field of an SPDM response whose value the spec does not state: the field and the byte's index. -/
opaque spdmField : Nat → Nat → Byte

/-- Certificate slot 0 of the SPDM responder, as DMTF SPDM lays out a chain, by the identity area of flash. -/
opaque spdmChain : Bytes → Bytes

/-- What an SPDM signature is computed over: the request's code and the transcript. -/
opaque spdmSigned : Nat → Bytes → Bytes

/-- The HMAC of an SPDM handshake message under the SPDM key schedule: 0 the responder's, 1 the requester's; shared secret and
transcript. -/
opaque spdmMac : Nat → Bytes → Bytes → Bytes

/-- The stream identifier of the link IDE stream. -/
opaque ideLinkStream : Nat

/-- Whether a run of addresses at a bridle meets a strongroom region (12 Tables 12.8, 12.9), and whether it meets code memory;
the spec gives the internal address space no layout. -/
opaque strongRegion : Nat → Nat → Nat → Bool
opaque codeRegion : Nat → Nat → Nat → Bool

/-- The frequency correction in ppb that the clockmaker's servo takes, whose law the spec does not state: at a counter value
and the measured offset. -/
opaque servoPpb : Nat → Int → Int

/-- The five certificates of the x5chain, in DER, by the identity area of flash: the three of R459 and both device CAs'. -/
opaque certificates : Bytes → List Bytes

end Sys2Proof.Config
end

