-- ==== Sys2Proof/Machine/Bits.lean ====
section
/-! DEFINITION. Byte strings, little- and big-endian numbers (00, Notation), bit strings, and maps by key in canonical form. -/

namespace Sys2Proof.Machine

/-! ## Maps by key -/

/-- The value at a key, if the map lists one. -/
def kget {α : Type} : KMap α → Nat → Option α
  | [], _ => none
  | (k', v) :: m, k => if k' = k then some v else kget m k

/-- The value at a key, or the map's default. -/
def kgetD {α : Type} (m : KMap α) (k : Nat) (d : α) : α :=
  match kget m k with
  | some v => v
  | none => d

/-- List a value at a key, keys rising. -/
def kset {α : Type} : KMap α → Nat → α → KMap α
  | [], k, v => [(k, v)]
  | (k', v') :: m, k, v =>
    if k < k' then (k, v) :: (k', v') :: m
    else if k = k' then (k, v) :: m
    else (k', v') :: kset m k v

/-- Unlist a key. -/
def kdel {α : Type} : KMap α → Nat → KMap α
  | [], _ => []
  | (k', v') :: m, k => if k' = k then kdel m k else (k', v') :: kdel m k

/-- Write a value at a key of a map whose unlisted keys hold `d`: writing `d` unlists the key. -/
def kput {α : Type} [DecidableEq α] (d : α) (m : KMap α) (k : Nat) (v : α) : KMap α :=
  if v = d then kdel m k else kset m k v

/-- The listed keys. -/
def kkeys {α : Type} (m : KMap α) : List Nat := m.map Prod.fst

/-- Every listed key is above `lo`, and the keys rise. -/
def kabove {α : Type} (lo : Nat) : KMap α → Bool
  | [] => true
  | (k, _) :: m => decide (lo < k) && kabove k m

/-- The canonical form: keys strictly rising. -/
def ksorted {α : Type} : KMap α → Bool
  | [] => true
  | (k, _) :: m => kabove k m

/-- The canonical form of a map with a default: keys rising, and the default not listed. -/
def kcanon {α : Type} [DecidableEq α] (d : α) (m : KMap α) : Bool :=
  ksorted m && m.all fun kv => decide (kv.2 ≠ d)

/-- Apply a function to a listed value; an unlisted key stays unlisted. -/
def kmod {α : Type} (m : KMap α) (k : Nat) (f : α → α) : KMap α :=
  match kget m k with
  | some v => kset m k (f v)
  | none => m

/-! ## Lists -/

/-- Add an element to a list without repeats. -/
def addTo {α : Type} [DecidableEq α] (x : α) (l : List α) : List α := if x ∈ l then l else l ++ [x]

/-- Replace element `i`; out of range nothing changes. -/
def setAt {α : Type} : List α → Nat → α → List α
  | [], _, _ => []
  | _ :: l, 0, v => v :: l
  | x :: l, i + 1, v => x :: setAt l i v

/-- Cut a list into pieces of `n` (at most `fuel` pieces); the last may be shorter. -/
def cut {α : Type} (n : Nat) : Nat → List α → List (List α)
  | 0, _ => []
  | _, [] => []
  | fuel + 1, l => l.take n :: cut n fuel (l.drop n)

/-- Cut a list into pieces of `n`. -/
def pieces {α : Type} (n : Nat) (l : List α) : List (List α) := cut n (l.length / n + 1) l

/-! ## Bytes and numbers -/

/-- The bytes of a list of numbers. -/
def bytesOf (l : List Nat) : Bytes := l.map (BitVec.ofNat 8)

/-- `n` bytes of a number, least significant first. -/
def le : Nat → Nat → Bytes
  | 0, _ => []
  | n + 1, v => BitVec.ofNat 8 v :: le n (v / 256)

/-- `n` bytes of a number, most significant first. -/
def be (n v : Nat) : Bytes := (le n v).reverse

/-- The number that bytes give, least significant first. -/
def ofLe : Bytes → Nat
  | [] => 0
  | b :: bs => b.toNat + 256 * ofLe bs

/-- The number that bytes give, most significant first. -/
def ofBe (b : Bytes) : Nat := ofLe b.reverse

/-- `n` bytes from offset `off`. -/
def slice (b : Bytes) (off n : Nat) : Bytes := (b.drop off).take n

/-- The byte at an offset; 0 beyond the end. -/
def byteAt (b : Bytes) (i : Nat) : Nat := (b.getD i 0).toNat

/-- A little-endian field of `n` bytes at an offset; bytes beyond the end count as zero. -/
def leAt (b : Bytes) (off n : Nat) : Nat := ofLe (slice b off n)

/-- A big-endian field of `n` bytes at an offset. -/
def beAt (b : Bytes) (off n : Nat) : Nat := ofBe (slice b off n)

/-- `n` zero bytes. -/
def zeros (n : Nat) : Bytes := List.replicate n 0

/-- A string padded with zero bytes to `n`. -/
def padTo (n : Nat) (b : Bytes) : Bytes := b ++ zeros (n - b.length)

/-- Bytewise exclusive or, of the shorter length. -/
def bxor : Bytes → Bytes → Bytes
  | a :: as, b :: bs => (a ^^^ b) :: bxor as bs
  | _, _ => []

/-- Every byte is zero. -/
def allZero (b : Bytes) : Bool := b.all (· == 0)

/-- Every byte of a field is zero, bytes beyond the end counting as zero. -/
def zeroAt (b : Bytes) (off n : Nat) : Bool := allZero (slice b off n)

/-- The bits of a number from bit `lo`, `n` of them. -/
def bitsAt (v lo n : Nat) : Nat := (v >>> lo) % 2 ^ n

/-- One bit of a number. -/
def bitAt (v i : Nat) : Bool := v.testBit i

/-- A Bool as a bit. -/
def b2n (b : Bool) : Nat := if b then 1 else 0

/-- Ceiling division. -/
def cdiv (a b : Nat) : Nat := (a + b - 1) / b

/-- The nibbles of a byte string, the high nibble of each byte first. -/
def nibbles : Bytes → List Nat
  | [] => []
  | b :: bs => (b.toNat / 16) :: (b.toNat % 16) :: nibbles bs

/-- Pack nibbles into bytes, high nibble first; an odd last nibble is padded with 0. -/
def packNibbles : List Nat → Bytes
  | [] => []
  | [a] => [BitVec.ofNat 8 (a * 16)]
  | a :: b :: l => BitVec.ofNat 8 (a * 16 + b) :: packNibbles l

/-- The low `n` bits of a number, most significant first. -/
def bitsMsb : Nat → Nat → List Bool
  | 0, _ => []
  | n + 1, v => v.testBit n :: bitsMsb n v

/-- Fold a function over 0 .. n-1. -/
def forN {α : Type} : Nat → (Nat → α → α) → α → α
  | 0, _, a => a
  | n + 1, f, a => f n (forN n f a)

/-! ## Cyclic redundancy checks -/

/-- The reverse of the low `n` bits of a number. -/
def reflect (n v : Nat) : Nat := forN n (fun i a => if v.testBit i then a + 2 ^ (n - 1 - i) else a) 0

/-- One bit of a most-significant-first CRC register of width `w`. -/
def crcStep (w poly reg : Nat) : Nat :=
  if reg.testBit (w - 1) then ((reg * 2) % 2 ^ w) ^^^ poly else (reg * 2) % 2 ^ w

/-- One byte into a CRC register of width `w`, 8 to 64. -/
def crcByte (w poly : Nat) (refin : Bool) (reg : Nat) (b : Byte) : Nat :=
  let v := if refin then reflect 8 b.toNat else b.toNat
  forN 8 (fun _ r => crcStep w poly r) (reg ^^^ (v <<< (w - 8)))

/-- The check value of the usual CRC model with its six parameters (19 R396). -/
def crc (w poly init xorout : Nat) (refin refout : Bool) (data : Bytes) : Nat :=
  let r := data.foldl (crcByte w poly refin) init
  (if refout then reflect w r else r) ^^^ xorout

/-- CRC-32C (iSCSI), which the gondola root and the identity seed carry (R273, R457). -/
def crc32c (data : Bytes) : Nat := crc 32 0x1EDC6F41 0xFFFFFFFF 0xFFFFFFFF true true data

end Sys2Proof.Machine
end

