-- ==== Sys2Proof/Machine/State.lean ====
section
/-! DEFINITION. The state of the WG-4820 as plain data: everything the spec gives the module, in five parts: the
run-time state lost at a reset (Rt), what flash holds (Nv), the gondola, the fuses, and the queue of waiting commands.
Each structure's docstring names the rules it follows. Unlisted keys of a KMap hold the default that its docstring names. -/

namespace Sys2Proof.Machine

/-! ## Power, host link, start-up -/

/-- Main power and PERST# (R30, R32, R33, R66): each input within its limits, whether the first input's 100 ms ended
with another missing, the power-fail latch, the SENSE pins and the value sampled at the start. -/
structure Power where
  slot12 : Bool
  slot33 : Bool
  aux12 : Bool
  waitExpired : Bool
  powerFail : Bool
  perst : Bool
  sensePins : Cable
  cable : Cable
  deriving DecidableEq, Repr

/-- One OSFP cage (R38). -/
structure Cage where
  present : Bool
  watts : Nat
  lowPower : Bool
  deriving DecidableEq, Repr

/-- The host link: the LINK register (25 Table 25.4), the loss of R125 and what the host sets in configuration space (R108): Relaxed Ordering, and the codes of the
payload and read request sizes. `ideKeys` and `ideGo` list the key sets of IDE streams
that IDE_KM has programmed and started: stream (0 the link stream, else its identifier plus 1), direction and sub-stream. -/
structure Link where
  up : Bool
  width : Nat
  rate : Nat
  flit : Bool
  linkIde : Bool
  selIde : Nat
  ideKeys : List (Nat × Nat)
  ideGo : List (Nat × Nat)
  lost : Bool
  relaxed : Bool
  payload : Nat
  readReq : Nat
  deriving DecidableEq, Repr

/-- Life cycle and boot status (25 Table 25.4) and the progress of start-up (04 Table 4.1). -/
structure Boot where
  stage : BitVec 8
  lcState : BitVec 8
  serviceReady : Bool
  resident : Bool
  auxLow : Bool
  lastReset : Nat
  moduleResets : Nat
  counting : Bool
  srTime : Nat
  startAt : Nat
  stepsDone : List Nat
  isSealed : Bool
  recovery : Bool
  erasing : Bool
  notRecreated : List Nat
  deriving DecidableEq, Repr

/-- The values latched by reads of _LO registers (R470) and of TIME_NS (R456). -/
structure ReadLatch where
  epochHi : Option (BitVec 32)
  readyHi : Option (BitVec 32)
  waitHi : Option (BitVec 32)
  timeSec : Option Nat
  deriving DecidableEq, Repr

/-! ## Fuses and gondola -/

/-- The one-time-programmable fuses of the I/O die (R91, R97, R424, R426, R457, 25 Table 25.3). -/
structure Otp where
  lcT : BitVec 32
  lcC : BitVec 32
  mark0 : BitVec 16
  mark1 : BitVec 16
  mark2 : BitVec 16
  mark3 : BitVec 16
  tamperCnt : Nat
  rootLostCnt : Nat
  seed : BitVec 256
  seedCheck : BitVec 32
  serial : Bytes
  hwRev : BitVec 8
  romRev : BitVec 16
  romDigest : Bytes
  lastBurnFail : Bool
  deriving DecidableEq, Repr

/-- One gondola log entry, 16 bytes with its check (21 Table 21.6). -/
structure GLogEntry where
  stamp : BitVec 48
  source : BitVec 8
  site : BitVec 8
  flags : BitVec 8
  episode : BitVec 16
  deriving DecidableEq, Repr

/-- The cell service window (R45) and the door. -/
structure CellWindow where
  isOpen : Bool
  endsAt : Nat
  opened : Bool
  officers : Nat × Nat
  house : Nat
  deriving DecidableEq, Repr

/-- The gondola die (R70, R421, R422, R424, R425, R426): the root SRAM and its check value, the tamper flag, the
uncounted mark, TAMPER_OUT_N, the sources latched and the sources whose condition holds now, the log ring, the
first-cause register, and the 48-bit count as it stands at the model's time 0 (log 4). -/
structure Gondola where
  root : BitVec 256
  rootCheck : BitVec 32
  tamperFlag : Bool
  uncounted : Bool
  tamperOut : Bool
  latched : List Nat
  active : List Nat
  log : KMap GLogEntry
  logNext : Nat
  logOver : Nat
  firstCause : Option GLogEntry
  count : BitVec 48
  countRestarted : Bool
  episode : Nat
  doorOpen : Bool
  armed : Bool
  deriving DecidableEq, Repr

/-- Run-time life-cycle state: the nonce (R107), the pending register of the PS island (R94), an accepted transition
and its target (R95), and debug access (R105). -/
structure Lc where
  nonce : Option Bytes
  pendingTarget : Option (BitVec 8)
  accepted : Option (BitVec 8)
  eraseDue : Bool
  jtagOpen : Bool
  deriving DecidableEq, Repr

/-! ## Faults and alert -/

/-- The three classes of a fault record (R429). -/
inductive FClass where
  | corrected | contained | fatal
  deriving DecidableEq, Repr

/-- A source's classification (R431): class mode, report (a quiet corrected record), or count mode with N, W in ms and
the severe class. -/
inductive Classif where
  | cls (c : FClass)
  | report
  | count (n wMs : Nat) (severe : FClass)
  deriving DecidableEq, Repr

/-- A fault record (22 Table 22.2). -/
structure FaultRec where
  seq : Nat
  source : FaultSource
  cls : FClass
  escalated : Bool
  severe : Bool
  quiet : Bool
  boothAttr : Bool
  epoch : BitVec 32
  time : Nat
  island : Option Nat
  booth : Option Nat
  detail : Bytes
  deriving DecidableEq, Repr

/-- A classification that FAULT_CONFIG has changed: source, die scope (MINT_SOURCE), and the classification (R441). -/
structure ClassEntry where
  source : FaultSource
  die : Option Nat
  classif : Classif
  deriving DecidableEq, Repr

/-- One count window: source, scope and the times of the events in it (R431). -/
structure CountWin where
  source : FaultSource
  scope : Nat
  times : List Nat
  deriving DecidableEq, Repr

/-- The fault collector (22 Table 22.3): pending flags, occurrence counts (R3), the ring of 40 records, the first-record
registers, the classifications in force, the count windows, the level conditions entered (R430), and the gondola log as
last read (R425). -/
structure Collector where
  pendCorr : Bool
  pendCont : Bool
  pendFatal : Bool
  pendBooth : Bool
  halted : Bool
  cntCorr : Nat
  cntCont : Nat
  cntFatal : Nat
  cntBooth : Nat
  nextSeq : Nat
  overwritten : Nat
  newest : Nat
  quiet : Nat
  irqMask : BitVec 4
  ring : KMap FaultRec
  firstCorr : Option FaultRec
  firstCont : Option FaultRec
  firstFatal : Option FaultRec
  inForce : List ClassEntry
  wins : List CountWin
  entered : List (FaultSource × Nat)
  glog : KMap GLogEntry
  glogLost : List Nat
  glogFirst : Option GLogEntry
  glogOver : Nat
  glogNext : Nat
  deriving DecidableEq, Repr

/-- The alert block (22 Table 22.4). -/
structure Alert where
  pin : Bool
  widthActive : Bool
  widthEnds : Nat
  tamperHold : Bool
  hold : Bool
  minWidth : Nat
  deriving DecidableEq, Repr

/-! ## Ballast and islands -/

/-- A waiting ballast entry (R57). `throttle` is the count of thermal steps that a frequency step sets. -/
structure BallastEntry where
  island : Nat
  kind : BallastKind
  cost : Nat
  throttle : Nat
  cls : Nat
  since : Nat
  deriving DecidableEq, Repr

/-- The state of an island (25 Table 25.7, STATE). -/
inductive IslandState where
  | gated | starting | ready | stopping
  deriving DecidableEq, Repr

/-- One island's status: STATE and THROTTLE (25 Table 25.7), and whether the mask expanders of a press group or loom island hold
a seed (R54, R77). The other fields of the word are fixed. -/
structure Island where
  st : IslandState
  throttle : Nat
  seeded : Bool
  deriving DecidableEq, Repr

/-- The ballast and the sensors' readings (R56, R57, 25 Table 25.6). A bucket's content is counted in the nanoseconds that refill
it, 250 to a unit and 4 000 when full; `islands` lists islands that are not gated, `idlePeriod` is in µs. -/
structure Ballast where
  tokCd0 : Nat
  tokCd1 : Nat
  tokIod : Nat
  fifoCd0 : List BallastEntry
  fifoCd1 : List BallastEntry
  fifoIod : List BallastEntry
  islands : KMap Island
  idleGating : Bool
  idlePeriod : Nat
  waitMax : Nat
  detA : KMap (BitVec 16)
  detB : KMap (BitVec 16)
  inlet : BitVec 16
  power : Nat
  deriving DecidableEq, Repr

/-! ## Clockmaker -/

/-- The states of the clockmaker (23 Table 23.1). -/
inductive ClockState where
  | unset | recovered | set | locked | holdover
  deriving DecidableEq, Repr

/-- The clock configuration (23 Table 23.2). It is persisted. -/
structure ClockCfg where
  source : Nat
  maxStepMs : Nat
  holdLimit : Nat
  todPort : Nat
  todAddr : Bytes
  todKey : BitVec 64
  domain : Nat
  logSync : Int
  logAnnounce : Nat
  prio1 : Nat
  prio2 : Nat
  squelch : Bool
  deriving DecidableEq, Repr

/-- The clockmaker (R443 to R451, 23 Table 23.3). -/
structure Clock where
  sec : Nat
  ns : Nat
  st : ClockState
  uncertainty : Nat
  clockClass : Nat
  utcOffset : Nat
  sourceRefused : Bool
  warmup : Bool
  stepCount : Nat
  discHours : Nat
  lockedSecs : Nat
  holdSecs : Nat
  lastOffset : Int
  goodRun : Nat
  missed : Nat
  measured : Option Int
  freqCorr : Int
  pendingStep : Option Int
  ppsValid : Bool
  edgeSeen : Bool
  ppsInNs : Nat
  label : Option (Nat × Nat × Bool)
  leap : Bool
  todSeq : Nat
  ptpDelay : KMap Nat
  ptpSeq : KMap Nat
  ppsHigh : Bool
  deriving DecidableEq, Repr

/-- An alignment record (R453). -/
structure Alignment where
  g0 : BitVec 48
  t0Sec : Nat
  t0Ns : Nat
  u0 : Nat
  st : ClockState
  freqCorr : Int
  discHours : Nat
  utcOffset : Nat
  deriving DecidableEq, Repr

/-! ## Mints -/

/-- The states of a noise source (16 Table 16.5, SRC_STATE). -/
inductive SrcState where
  | off | test | inService | standby | out | retired | pattern
  deriving DecidableEq, Repr

/-- One noise source: state, failures since the cold reset, and its assay counters (R342, R348). -/
structure NoiseSrc where
  st : SrcState
  fails : Nat
  runVal : Byte
  runLen : Nat
  winVal : Byte
  winSeen : Nat
  winHits : Nat
  deriving DecidableEq, Repr

/-- Who waits for random bytes (16 Table 16.2): a clerk's RAND, a reckoner's RNDL, a mask expander's reseed, or the
head clerks and locksmiths, by `userRoot`, `tileKey`, `masterKey` or a command's number above them. -/
inductive MintUser where
  | rand (c : ClerkId) (nib n : Nat)
  | rndl (d : Die) (r pos n : Nat)
  | reseed (e : EngineRef)
  | firmware (who n : Nat)
  deriving DecidableEq, Repr

/-- One mint (R341 to R354). `ready` holds conditioned blocks not yet used, `delivered` what key-grade requests brought,
by user. -/
structure Mint where
  ro0 : NoiseSrc
  ro1 : NoiseSrc
  ml0 : NoiseSrc
  ml1 : NoiseSrc
  forerunner : Bool
  blockLen : Nat
  ready : List Bytes
  blocks : Nat
  key : Bytes
  v : Bytes
  seeded : Bool
  served : Nat
  seededAt : Nat
  waiting : List MintUser
  keyGrade : List MintUser
  evt : Bool
  cnt : Nat
  exhausted : Bool
  maskSeeded : Bool
  delivered : KMap Bytes
  deriving DecidableEq, Repr

/-! ## MSI-X, mailbox, manager window -/

/-- One MSI-X table entry (25 Table 25.8). The default is address 0, data 0, masked. -/
structure MsixEntry where
  addrLo : BitVec 32
  addrHi : BitVec 32
  data : BitVec 32
  mask : Bool
  deriving DecidableEq, Repr

/-- The MSI-X structures (R113, R477): entries differing from reset, vectors pending, and the Function Mask. -/
structure Msix where
  table : KMap MsixEntry
  pending : List Nat
  funcMask : Bool
  deriving DecidableEq, Repr

/-- The mailbox (25 Table 25.5). `req` lists the nonzero 32-bit words of the request buffer. -/
structure Mbx where
  busy : Bool
  done : Bool
  overrun : Bool
  seq : BitVec 32
  req : KMap (BitVec 32)
  resp : Bytes
  goAt : Nat
  deriving DecidableEq, Repr

/-! ## Booths and commands -/

/-- A data window (06 Table 6.7): START, END, and the permissions. -/
structure Window where
  start : Nat
  stop : Nat
  rd : Bool
  wr : Bool
  deriving DecidableEq, Repr

/-- The configuration of a booth (06 Table 6.7). -/
structure BoothCfg where
  pasid : Nat
  house : Nat
  fmt : Nat
  ceiling : Nat
  share : Nat
  sqLog2 : Nat
  cqLog2 : Nat
  vector : Nat
  sqIova : Nat
  cqIova : Nat
  coalCount : Nat
  coalTime : Nat
  streaming : Bool
  ringTally : Bool
  preset : Nat
  windows : List Window
  epoch : Nat
  deriving DecidableEq, Repr

/-- An open booth: configuration, the window sets that older epochs keep (R122), ring indices (R126), the
entries written and not released by CQ_HEAD (R129), the phase (R137), the negotiated version (R355), the open bundle (R144), coalescing (R114), the limit that the sum of R21 counts
(R182), and a close in progress (R123). -/
structure Booth where
  cfg : BoothCfg
  oldWindows : List (Nat × List Window)
  sqTail : Nat
  cqHead : Nat
  fetchHead : Nat
  cqTail : Nat
  cqUnread : Nat
  phase : Bool
  fetchStopped : Bool
  version : Option Nat
  heldOpen : Option CmdId
  openBundle : Option Nat
  unsignalled : Nat
  coalRunning : Bool
  counted : Nat
  closing : Bool
  closeDone : Nat
  closeAborted : Nat
  closeDiscarded : Nat
  deriving DecidableEq, Repr

/-- A submission descriptor in the format 2 layout (07 Table 7.1); a format 1 descriptor is converted (R209). -/
structure Desc where
  fmt : Byte
  flags : Byte
  opcode : BitVec 16
  tag : BitVec 32
  key1 : BitVec 64
  key2 : BitVec 64
  inIova : BitVec 64
  inLen : BitVec 32
  outLim : BitVec 32
  outIova : BitVec 64
  inl : Bytes
  prio : Byte
  rsv : Byte
  deriving DecidableEq, Repr

/-- How far a command has come along 01 Table 1.4. -/
inductive CmdStage where
  | fetched | input | admitted | dispatched | ended | committing | posted
  deriving DecidableEq, Repr

/-- A command in the module. `status` and `result` are those its completion will carry; `direct` counts plaintext bytes
already written to the host (R311); `grouped` marks a member of a bundle of 2 to 16; `prefixed` a format 1 descriptor, whose
input begins with the 16-byte prefix (R132); `inputDone` that its whole input is in the module (R11). `streaming` is the
booth's STREAMING_RELEASE at admission (R15), `trapped` the moment at which its clerk trapped (R214), `admitSeq` and `endSeq` the order of admissions and of ends, from 1 (R137,
R139). -/
structure Cmd where
  id : CmdId
  booth : Nat
  session : Option Nat
  ringIdx : Nat
  desc : Desc
  input : Bytes
  inputDone : Bool
  prefixed : Bool
  stage : CmdStage
  admitted : Bool
  admitSeq : Nat
  endSeq : Nat
  streaming : Bool
  epoch : Nat
  die : Nat
  level : Nat
  bundle : Option Nat
  grouped : Bool
  member : Nat
  fence : Bool
  preset : Nat
  resvWait : Bool
  resv : Nat
  drain : Bool
  output : Bytes
  result : Bytes
  outLen : Nat
  status : Nat
  reason : Nat
  trapped : Option Nat
  withheld : Bool
  direct : Nat
  scrubbed : Bool
  discard : Bool
  retired : Bool
  keyLoaded : Bool
  reads : List (Nat × TileImage)
  deriving DecidableEq, Repr

/-! ## Strongroom records -/

/-- A slot record (12 Table 12.4, 12.5). The echo's fields are held apart; `mat` is the slot's own share of the
material, `kind` the type byte. The default, for an unlisted slot, is free at generation 0. -/
structure SlotRec where
  kind : Nat
  fmt : Nat
  cls : Nat
  house : Nat
  gen : Nat
  flags : Nat
  alg : Nat
  size : Nat
  usage : BitVec 16
  mode : Nat
  exportab : Nat
  version : BitVec 16
  extLen : Nat
  parent : Option Nat
  parentGen : Nat
  matLen : Nat
  usageBefore : BitVec 16
  notBefore : Nat
  notAfter : Nat
  pos : Nat
  mat : Bytes
  deriving DecidableEq, Repr

/-- A slot's change in a bundle: its index, the generation before, the new record, whether it is a policy change, the
house, and the bundle member that made it (R267, R148). -/
structure SlotChange where
  slot : Nat
  genBefore : Nat
  after : SlotRec
  policy : Bool
  house : Nat
  member : Nat
  deriving DecidableEq, Repr

/-- A ledger entry (13 Table 13.10) without its chain value until it is written. -/
structure LedgerEntry where
  seq : Nat
  epoch : Nat
  sec : Nat
  ns : Nat
  event : Nat
  house : Nat
  booth : Nat
  slot : Nat
  genBefore : Nat
  genAfter : Nat
  officer1 : Nat
  officer2 : Nat
  detail : Bytes
  chain : Bytes
  deriving DecidableEq, Repr

/-- A bundle: 2 to 16 descriptors, or the bundle of one that a single strongroom change forms (R144, R264). `failed` is
the failing member with its status and inline result, `first` the first member with a change or a ledger entry,
`committed` that the commit has reached step 4 of R147. -/
structure Bundle where
  id : Nat
  booth : Nat
  members : List CmdId
  closed : Bool
  failed : Option (Nat × Nat × Bytes)
  committed : Bool
  next : Nat
  changes : List SlotChange
  reads : List Nat
  entries : List LedgerEntry
  first : Option Nat
  record : Option Nat
  single : Bool
  deriving DecidableEq, Repr

/-- A journal record (R267): on flash once `complete`; `marked` when its commit mark is on flash; `retired` by its
retire mark; `held` for a record of the twin (R173); `acked` when the twin has acknowledged or none is needed. -/
structure JRec where
  seq : Nat
  epoch : Nat
  bundle : Option Nat
  pairSeq : Option Nat
  changes : List SlotChange
  entries : List LedgerEntry
  complete : Bool
  marked : Bool
  retired : Bool
  held : Bool
  acked : Bool
  deriving DecidableEq, Repr

/-! ## Dispatch -/

/-- The kinds of policy change (09 Table 9.3) with the object each touches. -/
inductive ChangeKind where
  | boothCreate (b : Nat)
  | boothFields (b : Nat)
  | boothWindows (b : Nat)
  | boothClose (b : Nat)
  | keys (house : Nat)
  | program (house opcode : Nat)
  | liveRoom (room : Nat)
  | listener (l : Nat) (digests : List Bytes)
  | partition
  deriving DecidableEq, Repr

/-- A committed policy change that is not yet complete (R190). -/
structure Change where
  kind : ChangeKind
  epoch : Nat
  commitAt : Nat
  respond : Bool
  deriving DecidableEq, Repr

/-- A partition map (R196): the house of each room (die × 4 + room), press group, loom and reckoner. -/
structure PartMap where
  rooms : KMap Nat
  groups : KMap Nat
  looms : KMap Nat
  reckoners : KMap Nat
  epoch : Nat
  deriving DecidableEq, Repr

/-- The dispatch root and boards: the epoch (R189), changes in progress, arrival order of ready commands, drain lists,
staging (R142), the partition map in force, and the numbers that the next command, bundle, admission and end take. -/
structure Disp where
  changes : List Change
  ready : List CmdId
  drain : List CmdId
  pool : Nat
  resvQueue : List CmdId
  part : Option PartMap
  partOld : Option PartMap
  nextCmd : Nat
  nextBundle : Nat
  nextAdmit : Nat
  nextEnd : Nat
  deriving DecidableEq, Repr

/-! ## Clerks and engines -/

/-- Why a clerk is stalled (10, The job): in a latch FIFO, waiting for a place in the FIFO, WAITE and UNLATCH on an
engine, WAITE on a stream (out: the output stream), SUBMIT on a full queue, a key, random bytes, JEND, an interrupt. A
clerk at `fifo`, `submit`, `submitStream` or `ending` has not passed its instruction, which it takes up again. -/
inductive Stall where
  | latch (e : EngineRef)
  | fifo (e : EngineRef)
  | engine (e : EngineRef)
  | unlatch (e : EngineRef)
  | stream (out : Bool)
  | submit (e : EngineRef)
  | submitStream (out : Bool)
  | key
  | mint
  | ending
  | interrupt
  deriving DecidableEq, Repr

/-- A clerk is free, running, stalled or wiping (10, The job). -/
inductive ClerkSt where
  | free | running | stalled (w : Stall) | wiping
  deriving DecidableEq, Repr

/-- An engine command block: its 16 words, and whether SUBMIT ran in the library part of code memory (R325). -/
structure Block where
  words : List Word
  lib : Bool
  deriving DecidableEq, Repr

/-- One clerk (10). `mem` lists the nonzero desk words, base words and job frame included; `blocks` the 1 024-word desk
blocks written in the job (R211); `outcome` the job outcome: a status code and a reason (R212). -/
structure Clerk where
  st : ClerkSt
  ic : Word
  sw : Word
  mem : KMap Word
  job : Option CmdId
  houseProg : Bool
  dispatchedAt : Nat
  blocks : List Nat
  latches : List EngineRef
  outcome : Nat × Nat
  inPos : Nat
  inQ : List Block
  outQ : List Block
  directUsed : Bool
  streamUsed : Bool
  deriving DecidableEq, Repr

/-- The head clerks' own registers (R251): internal registers written by IOW, the monitor's entry table, and the
instruction to which MRET returns. -/
structure HeadRegs where
  regs : KMap Word
  entries : KMap Word
  retIc : Word
  monitorOnly : List Nat
  deriving DecidableEq, Repr

/-- A latch word (11 Table 11.6) and its FIFO of at most eight clerks (R242). -/
structure Latch where
  held : Bool
  wiping : Bool
  holder : Nat
  fifo : List ClerkId
  claimedAt : Nat
  deriving DecidableEq, Repr

/-- The permission groups that an engine key carries (14 Table 14.4). -/
structure Perms where
  enc : Bool
  dec : Bool
  macg : Bool
  macv : Bool
  hmacg : Bool
  hmacv : Bool
  wrap : Bool
  ecbOnly : Bool
  deriving DecidableEq, Repr

/-- The key algorithms that reach an engine register. -/
inductive KeyAlg where
  | aes | tdea | hmac
  deriving DecidableEq, Repr

/-- A key in an engine's register (R298, R301, R302). `payload` marks target 81h (R306). -/
structure EngKey where
  alg : KeyAlg
  key : Bytes
  perms : Perms
  payload : Bool
  deriving DecidableEq, Repr

/-- What every engine has: latch, queue of at most four commands, the blocks since the mask reseed, and the reseed
handshake (R240, R313). -/
structure EngCom where
  latch : Latch
  queue : List Block
  running : Bool
  blocks : Nat
  reseedAsked : Bool
  rejecting : Bool
  deriving DecidableEq, Repr

/-- A press: two key registers (R298). -/
structure Press where
  com : EngCom
  k0 : Option EngKey
  k1 : Option EngKey
  deriving DecidableEq, Repr

/-- A hash unit: a key register, a prefix register (R307, R393) and the state that CONTINUE extends: the algorithm
code, whether it is an HMAC, and the bytes absorbed. -/
structure HashUnit where
  com : EngCom
  k0 : Option EngKey
  pre : Option Bytes
  st : Option (Nat × Nat × Bytes)
  deriving DecidableEq, Repr

/-- A loom: a key register and the 64 KiB hold buffer (R298, R310). -/
structure Loom where
  com : EngCom
  k0 : Option EngKey
  hold : Bytes
  deriving DecidableEq, Repr

/-- A modulus register of a reckoner (15 Table 15.1); `len` 0 means not set in the job. -/
structure ModReg where
  len : Nat
  m : Nat
  secret : Bool
  deriving DecidableEq, Repr

/-- A reckoner (15 Table 15.1). `mem` lists nonzero limbs, `marks` the secret-marked positions; `keyPerms` is none
while no key has been delivered, else the purposes that all delivered keys allow (R336). -/
structure Reckoner where
  com : EngCom
  mem : KMap Limb
  marks : List Nat
  mod0 : ModReg
  mod1 : ModReg
  mod2 : ModReg
  mod3 : ModReg
  q : Nat
  tw : List Nat
  bc : Nat
  swap : Bool
  refused : Bool
  keyPerms : Option (List Nat)
  mlDsa : Option Nat
  list : List Block
  keySlots : List Nat
  deriving DecidableEq, Repr

/-- One counting room's memories and code (R215 to R220): room window words, code words, cached tiles, tile-check
failures, the image it runs, and whether it waits for a live update. -/
structure Room where
  window : KMap Word
  code : KMap Word
  icache : List Nat
  image : Bytes
  version : BitVec 32
  updating : Bool
  deriving DecidableEq, Repr

/-! ## Strongroom run-time, locksmith -/

/-- A locksmith request: the clerk that waits, the engine, the handle, target, derivation code and data (R246). -/
structure LockReq where
  clerk : ClerkId
  eng : Option EngineRef
  handle : BitVec 64
  target : Nat
  deriv : Nat
  data : Bytes
  deriving DecidableEq, Repr

/-- Prior images of slots that a policy change rewrote (R263). -/
structure Shadow where
  epoch : Nat
  house : Nat
  slots : KMap SlotRec
  deriving DecidableEq, Repr

/-- The keys derived from the user root (13 Table 13.1), in the registers of SC, H0 and H1. -/
structure RootKeys where
  storeEnc : Bytes
  storeSum : Bytes
  memory : Bytes
  hbm0 : Bytes
  hbm1 : Bytes
  deriving DecidableEq, Repr

/-- The strongroom's run-time state (12): the working copy, tile versions, which tiles are resident and failed, the two
key caches in recency order, shadow images, and locksmith requests; `keys` the keys of 13 Table 13.1 once derived, `tileKey`
the per-boot tile key (R252). -/
structure Strong where
  slots : KMap SlotRec
  vers : KMap Nat
  indexLoaded : Bool
  nextTile : Nat
  extra : List Nat
  failed : List Nat
  keys : Option RootKeys
  tileKey : Option Bytes
  cache0 : List Nat
  cache1 : List Nat
  shadow : List Shadow
  reqs : List LockReq
  nextSeq : Nat
  deriving DecidableEq, Repr

/-! ## Officers and latch -/

/-- A card in an officer slot, the class at which it was activated (R40), whether it is activated, and the wrong PINs that it counts (R284). -/
structure CardState where
  card : Card
  classA : Bool
  wrong : Nat
  active : Bool
  deriving DecidableEq, Repr

/-- The two-key latch (R285, R286). -/
inductive TwoKey where
  | closed
  | attempt (challenge : Bytes) (house binding : Nat) (first : Option (Nat × Bytes))
  | opened (house binding : Nat) (officers : Nat × Nat) (claim : Option Nat)
  deriving DecidableEq, Repr

/-- A request that waits for officers at the ceremony console (R481): the request, the slots whose PIN is awaited, the cards
that it registers, the components received by their place in the request, and the officers whose latch it claimed. -/
structure Ceremony where
  code : Nat
  params : Bytes
  console : Bool
  seq : BitVec 32
  pins : List CardSlot
  cards : List Card
  got : KMap Bytes
  officers : Nat × Nat
  deriving DecidableEq, Repr

/-! ## Management work in progress -/

/-- A listener (R155, R157). -/
structure Listener where
  port : Nat
  addrIdx : Nat
  tcpPort : Nat
  booth : Nat
  key : BitVec 64
  idle : Nat
  masks : BitVec 32
  tallies : Bool
  anchors : List Cert
  chain : Bytes
  allow : List Bytes
  removing : Bool
  epoch : Nat
  deriving DecidableEq, Repr

/-- A change whose record is being written to flash (09 Table 9.3, POLICY_RECORD_WRITTEN). -/
inductive Staged where
  | boothCreate (b : Nat) (cfg : BoothCfg)
  | boothModify (b : Nat) (cfg : BoothCfg) (windows : Bool)
  | progLoad (house opcode base : Nat) (digest : Bytes) (words : List Word) (window : List (Nat × Nat))
  | progRemove (house opcode : Nat)
  | partition (m : Option PartMap)
  | listener (l : Nat) (x : Listener) (digests : List Bytes)
  | liveRoom (rooms : List Nat) (digest : Bytes) (version : BitVec 32)
  deriving DecidableEq, Repr

/-- A management request whose response is still due: its code, its sequence number, whether the console sent it, what it
waits for (a record, a booth's closing, a bundle's commit), the result that the response will carry, and the moment by which a booth
request must complete, or a modification commit (R118). -/
structure Waiting where
  code : Nat
  seq : BitVec 32
  console : Bool
  staged : Option Staged
  booth : Option Nat
  bundle : Option Nat
  result : Bytes
  due : Option Nat
  deriving DecidableEq, Repr

/-! ## Network and peer -/

/-- An interface address (08 Table 8.2). -/
structure NetAddr where
  family : Nat
  prefixLen : Nat
  vlan : Nat
  mtu : Nat
  addr : Bytes
  gateway : Bytes
  deriving DecidableEq, Repr

/-- The progress of a connection: TCP accepted, a HelloRetryRequest sent or the handshake running (both hold a credit), waiting for
a credit, session established. -/
inductive ConnSt where
  | accepted | waitCredit | ready (die : Nat) | retry (die group : Nat) | handshake (die : Nat) | established (die : Nat)
  deriving DecidableEq, Repr

/-- A TCP connection and its TLS session (R154 to R169): the options of its SYN, the smoothed round trip and its variation with the
retransmission timer in µs, its handshake's epoch and place of admission, and the traffic secrets of both directions. -/
structure Conn where
  port : Nat
  listener : Nat
  booth : Nat
  st : ConnSt
  suite : Nat
  group : Nat
  scheme : Nat
  spki : Bytes
  version : Option Nat
  rxSeq : Nat
  txSeq : Nat
  records : Nat
  txEpoch : Nat
  rxEpoch : Nat
  sendQ : Nat
  unacked : Nat
  retrans : Nat
  mtu : Nat
  openBundle : Option Nat
  opts : TcpOpts
  srtt : Option (Nat × Nat)
  rto : Nat
  epoch : Nat
  arrival : Nat
  rxSecret : Bytes
  txSecret : Bytes
  deriving DecidableEq, Repr

/-- One Ethernet port (R153). -/
structure NetPort where
  link : Bool
  badFcs : Nat
  discarded : Nat
  deriving DecidableEq, Repr

/-- Network state (08), the connections in TIME_WAIT with the moment at which each began, and of the MGMT port its link and when a frame last passed (02 R39). -/
structure Net where
  portA : NetPort
  portB : NetPort
  listening : Bool
  conns : KMap Conn
  timeWait : KMap Nat
  mgmtLink : Bool
  mgmtFrame : Option Nat
  deriving DecidableEq, Repr

/-- Peer link run-time state (R170 to R177): `high` that this module's serial is the higher, which its frames' direction bit says; `mode` that port B is in peer-link mode since the last start (R152). -/
structure Peer where
  linkUp : Bool
  paired : Bool
  txKey : Bytes
  rxKey : Bytes
  txFrames : Nat
  rxFrames : Nat
  nonceOwn : Bytes
  nonceTwin : Bytes
  mode : Bool
  copying : Bool
  diverged : Bool
  lost : Bool
  high : Bool
  deriving DecidableEq, Repr

/-- The persisted pairing and replication state (R171, R173, R176, R177); `copying` that this TARGET's copy has not ended, `sending` that
this SOURCE still owes its copy, `diverged` that pairing has stopped until PEER_RESYNC. -/
structure Pairing where
  mode : Bool
  nextMode : Bool
  twin : Option Bytes
  keyHandle : BitVec 64
  target : Bool
  copying : Bool
  sending : Bool
  diverged : Bool
  nextSeq : Nat
  appliedTwin : Nat
  retained : List PeerRecord
  deriving DecidableEq, Repr

/-! ## Tally, bridles, attestation -/

/-- A tally preset (19 Table 19.3). -/
structure Preset where
  valid : Bool
  width : Nat
  poly : BitVec 64
  init : BitVec 64
  xorout : BitVec 64
  refin : Bool
  refout : Bool
  deriving DecidableEq, Repr

/-- The tally preset registers (19 Table 19.3, R403; unlisted presets are as `Preset.zero`) and tally status
(Table 19.4). -/
structure TallySt where
  presets : KMap Preset
  mismatch : Bool
  cnt : Nat
  session : Bool
  booth : Nat
  deriving DecidableEq, Repr

/-- A bridle violation record (20 Table 20.5). -/
structure VRec where
  valid : Bool
  cause : Nat
  count : Nat
  kind : Nat
  house : Nat
  initiator : Nat
  addr : Nat
  pasid : Nat
  epoch : BitVec 32
  booth : Nat
  deriving DecidableEq, Repr

/-- The protection map (R405 to R415): region tables of the 40 bridles and their violation records. -/
structure Bridles where
  tables : KMap (List Region)
  recs : KMap VRec
  deriving DecidableEq, Repr

/-- The SPDM responder (R467): the negotiated version, capabilities and algorithms exchanged, the secured session with its shared
secret, and how often each direction's keys were updated. -/
structure Spdm where
  version : Option Nat
  caps : Bool
  algs : Bool
  session : Option Nat
  finished : Bool
  transcript : Bytes
  secret : Bytes
  reqKeys : Nat
  rspKeys : Nat
  deriving DecidableEq, Repr

/-- One flash copy of an image (R73, R76, R401): its bytes, the digest that its signature covers (log 7), the check value of preset 2
that was written with it, its version, and the epoch of a live update's record. -/
structure ImageCopy where
  data : Bytes
  signed : Bytes
  tally : Nat
  version : BitVec 32
  epoch : Nat
  deriving DecidableEq, Repr

/-- The two flash copies of one image, which is active (false: copy A) (25 Table 25.3), and which the next start takes:
an installed image takes effect then (R74). -/
structure Image where
  copyA : ImageCopy
  copyB : ImageCopy
  activeB : Bool
  nextB : Bool
  failed : Bool
  deriving DecidableEq, Repr

/-- A house program's entry in the program table (R218, R219): the epochs it serves start at `since` and end before
`upto`, which a replacement or removal sets. -/
structure ProgEntry where
  house : Nat
  opcode : Nat
  digest : Bytes
  base : Nat
  code : List Word
  window : List (Nat × Nat)
  since : Nat
  upto : Option Nat
  deriving DecidableEq, Repr

/-- A ledger seal record (R295). -/
structure Seal where
  seq : Nat
  chain : Bytes
  sigEc : Bytes
  sigMl : Bytes
  deriving DecidableEq, Repr

/-- The ledger (R295 to R297, R368). -/
structure Ledger where
  entries : List LedgerEntry
  nextSeq : Nat
  confirmed : Nat
  exported : Nat
  chain : Bytes
  seals : List Seal
  deriving DecidableEq, Repr

/-! ## What the module sends -/

/-- A transaction that the module sends outward. -/
inductive Out where
  | hostWrite (pasid : Option Nat) (iova : Nat) (data : Bytes) (relaxed : Bool)
  | msix (vector : Nat) (addr : BitVec 64) (data : BitVec 32)
  | readData (off : Nat) (v : BitVec 32)
  | configRetry (off : Nat)
  | smbus (v : Nat)
  | frame (conn : Nat) (header body : Bytes)
  | alert (conn : Nat) (name : String)
  | tcpRst (port conn : Nat)
  | tcpResend (conn bytes : Nat)
  | tcpProbe (conn : Nat)
  | keyUpdate (conn : Nat)
  | tlsServer (conn suite group scheme : Nat) (retry : Bool) (chain : Bytes)
  | netReply (port : Nat) (kind : String) (data : Bytes)
  | peer (kind : String) (seq : Nat) (data : Bytes)
  | peerFrame (nonce body : Bytes)
  | ptp (port : Nat) (kind : String) (seq clockClass : Nat)
  | pps (high : Bool)
  | spdm (data : Bytes)
  | testReply (kind : String)
  | console (data : Bytes)
  | identity (keys : List Bytes)
  | bulk (off : Nat) (data : Bytes)
  deriving DecidableEq, Repr

/-! ## The whole state -/

/-- Everything that a reset of its strength discards: the module's run-time state. `now` is the module's time in ns
(log 4), `out` what it has sent (log 5), `freeCtr` the counter that free values are read at (log 8). -/
structure Rt where
  now : Nat
  freeCtr : Nat
  out : List Out
  power : Power
  boot : Boot
  link : Link
  rlatch : ReadLatch
  cageA : Cage
  cageB : Cage
  lc : Lc
  fault : Collector
  alert : Alert
  ballast : Ballast
  clock : Clock
  mint0 : Mint
  mint1 : Mint
  msix : Msix
  mbx : Mbx
  mgrWindow : Option (Nat × Nat)
  booths : KMap Booth
  cmds : KMap Cmd
  bundles : KMap Bundle
  epoch : Nat
  disp : Disp
  clerks : KMap Clerk
  head : HeadRegs
  rooms : KMap Room
  presses : KMap Press
  hashes : KMap HashUnit
  looms : KMap Loom
  reckoners : KMap Reckoner
  strong : Strong
  cardA : Option CardState
  cardB : Option CardState
  cellA : Nat
  cellB : Nat
  window : CellWindow
  twoKey : TwoKey
  ceremony : Option Ceremony
  waiting : Option Waiting
  net : Net
  peer : Peer
  tally : TallySt
  bridles : Bridles
  fabricPerm : Option Bytes
  held : Option Bytes
  spdm : Spdm
  patterns : List (Nat × Nat)
  kdbRoot : BitVec 256
  deriving DecidableEq, Repr

/-- What flash holds (R252, R76, R295, 21 Table 21.7). -/
structure Nv where
  slots : KMap SlotRec
  vers : KMap Nat
  journal : List JRec
  epochMark : Nat
  epochMarkB : Nat
  boothTable : KMap BoothCfg
  listeners : KMap Listener
  addrs : KMap NetAddr
  part : Option PartMap
  progs : List ProgEntry
  image1 : Image
  image2 : Image
  image3 : Image
  stagedLib : Option ImageCopy
  mintFore0 : Bool
  mintFore1 : Bool
  classes : List ClassEntry
  minWidth : Nat
  presets : KMap Preset
  clockCfg : ClockCfg
  pairing : Pairing
  ledger : Ledger
  align : List Alignment
  identity : Bytes
  deriving DecidableEq, Repr

/-- The state of the module. `pending` is the queue of commands that wait, first in, first out. -/
structure State where
  rt : Rt
  nv : Nv
  gon : Gondola
  otp : Otp
  pending : List Instr
  deriving DecidableEq, Repr

/-- The stops that are faults. No meaning of this model ends in one: every fault of the manual is a record in the fault
collector, after which the module goes on. -/
inductive Fault where
  /-- Raised by nothing: kept so that the type of stops is inhabited. Safe, since no step answers with it. -/
  | unused
  deriving DecidableEq, Repr

/-- The stops that are refusals. -/
inductive Refusal where
  /-- The dispatcher's answer for a command whose meaning is not written yet. Safe: the model stops. -/
  | notModelled (mnemonic : String)
  deriving DecidableEq, Repr

/-! ## Reset

`State.reset` is the shipped module, SEALED (R1), at the first instant of a cold reset: main power is within limits and
PERST# is released, and no step of Table 4.1 has run (assumption logs 1, 2 and 10). -/

/-- A latch word with no holder (R240). -/
def Latch.reset : Latch := { held := false, wiping := false, holder := 0, fifo := [], claimedAt := 0 }

/-- An engine's common part after reset. -/
def EngCom.reset : EngCom :=
  { latch := Latch.reset, queue := [], running := false, blocks := 0, reseedAsked := false, rejecting := false }

/-- A press after reset; also an unlisted press. -/
def Press.reset : Press := { com := EngCom.reset, k0 := none, k1 := none }

/-- A hash unit after reset; also an unlisted hash unit. -/
def HashUnit.reset : HashUnit := { com := EngCom.reset, k0 := none, pre := none, st := none }

/-- A loom after reset; also an unlisted loom. -/
def Loom.reset : Loom := { com := EngCom.reset, k0 := none, hold := [] }

/-- A modulus register that is not set. -/
def ModReg.reset : ModReg := { len := 0, m := 0, secret := false }

/-- A reckoner after reset or its wipe (R339); also an unlisted reckoner. -/
def Reckoner.reset : Reckoner :=
  { com := EngCom.reset, mem := [], marks := [], mod0 := ModReg.reset, mod1 := ModReg.reset, mod2 := ModReg.reset,
    mod3 := ModReg.reset, q := 0, tw := [], bc := 0, swap := false, refused := false, keyPerms := none, mlDsa := none,
    list := [], keySlots := [] }

/-- A free clerk; also an unlisted clerk. -/
def Clerk.reset : Clerk :=
  { st := .free, ic := 0, sw := 0, mem := [], job := none, houseProg := false, dispatchedAt := 0, blocks := [],
    latches := [], outcome := (0, 0), inPos := 0, inQ := [], outQ := [], directUsed := false, streamUsed := false }

/-- The head clerks' own registers after reset: the monitor's tables are those of mask ROM (free values, log 8). -/
def HeadRegs.reset : HeadRegs :=
  { regs := [], entries := Config.monitorEntries, retIc := 0, monitorOnly := Config.monitorRegs }

/-- A counting room after reset; also an unlisted room. -/
def Room.reset : Room :=
  { window := [], code := [], icache := [], image := [], version := 0, updating := false }

/-- A free slot at generation 0; also an unlisted slot. -/
def SlotRec.free : SlotRec :=
  { kind := 0, fmt := 0, cls := 0, house := 0, gen := 0, flags := 0, alg := 0, size := 0, usage := 0, mode := 0,
    exportab := 0, version := 0, extLen := 0, parent := none, parentGen := 0, matLen := 0, usageBefore := 0,
    notBefore := 0, notAfter := 0, pos := 0, mat := [] }

/-- A noise source after reset. -/
def NoiseSrc.reset : NoiseSrc :=
  { st := .off, fails := 0, runVal := 0, runLen := 0, winVal := 0, winSeen := 0, winHits := 0 }

/-- A mint after reset. -/
def Mint.reset : Mint :=
  { ro0 := NoiseSrc.reset, ro1 := NoiseSrc.reset, ml0 := NoiseSrc.reset, ml1 := NoiseSrc.reset, forerunner := false,
    blockLen := 0, ready := [], blocks := 0, key := [], v := [], seeded := false, served := 0, seededAt := 0,
    waiting := [], keyGrade := [], evt := false, cnt := 0, exhausted := false, maskSeeded := false, delivered := [] }

/-- A preset as shipped. -/
def Preset.zero : Preset :=
  { valid := false, width := 0, poly := 0, init := 0, xorout := 0, refin := false, refout := false }

/-- A bridle violation record after reset (20 Table 20.5). -/
def VRec.zero : VRec :=
  { valid := false, cause := 0, count := 0, kind := 0, house := 0, initiator := 0, addr := 0, pasid := 0, epoch := 0,
    booth := 0 }

/-- An MSI-X entry after reset (25 Table 25.8). -/
def MsixEntry.reset : MsixEntry := { addrLo := 0, addrHi := 0, data := 0, mask := true }

/-- A gated island without throttling (25 Table 25.7). -/
def Island.gated : Island := { st := .gated, throttle := 0, seeded := false }

/-- An empty officers-and-window state of R45. -/
def CellWindow.closed : CellWindow := { isOpen := false, endsAt := 0, opened := false, officers := (0, 0), house := 0 }

/-- The fault collector after a cold reset (22 Table 22.3). -/
def Collector.reset : Collector :=
  { pendCorr := false, pendCont := false, pendFatal := false, pendBooth := false, halted := false, cntCorr := 0,
    cntCont := 0, cntFatal := 0, cntBooth := 0, nextSeq := 0, overwritten := 0, newest := 0, quiet := 0, irqMask := 0,
    ring := [], firstCorr := none, firstCont := none, firstFatal := none, inForce := [], wins := [], entered := [],
    glog := [], glogLost := [], glogFirst := none, glogOver := 0, glogNext := 0 }

/-- The alert block after reset (22 Table 22.4): MIN_WIDTH 10 ms. -/
def Alert.reset : Alert :=
  { pin := false, widthActive := false, widthEnds := 0, tamperHold := false, hold := false, minWidth := 10 }

/-- BL and PS, which power up with the IOD rail and are never gated while main power is present (R53, R56). -/
def poweredIslands : KMap Island :=
  [(46, { st := .ready, throttle := 0, seeded := false }), (57, { st := .ready, throttle := 0, seeded := false })]

/-- The ballast after reset (25 Table 25.6): full buckets, empty FIFOs, metered islands gated, temperatures 8000h. -/
def Ballast.reset : Ballast :=
  { tokCd0 := 4000, tokCd1 := 4000, tokIod := 4000, fifoCd0 := [], fifoCd1 := [], fifoIod := [], islands := poweredIslands,
    idleGating := false, idlePeriod := 0, waitMax := 0, detA := [], detB := [], inlet := 0x8000#16, power := 0 }

/-- The clock configuration as shipped (23 Table 23.2 defaults). -/
def ClockCfg.shipped : ClockCfg :=
  { source := 0, maxStepMs := 0, holdLimit := 10000, todPort := 0, todAddr := [], todKey := 0, domain := 0, logSync := 0,
    logAnnounce := 1, prio1 := 0, prio2 := 0, squelch := false }

/-- The clockmaker after reset with no time: UNSET (R443, 23 Table 23.3). -/
def Clock.reset : Clock :=
  { sec := 0, ns := 0, st := .unset, uncertainty := 0xFFFFFFFF, clockClass := 248, utcOffset := 0, sourceRefused := false,
    warmup := true, stepCount := 0, discHours := 0, lockedSecs := 0, holdSecs := 0, lastOffset := 0, goodRun := 0,
    missed := 0, measured := none, freqCorr := 0, pendingStep := none, ppsValid := false, edgeSeen := false, ppsInNs := 0, label := none, leap := false,
    todSeq := 0, ptpDelay := [], ptpSeq := [], ppsHigh := false }

/-- The strongroom's run-time state after reset. -/
def Strong.reset : Strong :=
  { slots := [], vers := [], indexLoaded := false, nextTile := 0, extra := [], failed := [], keys := none, tileKey := none, cache0 := [],
    cache1 := [], shadow := [], reqs := [], nextSeq := 0 }

/-- Dispatch after reset: the pool of 16 GiB free (R142), shared mode. -/
def Disp.reset : Disp :=
  { changes := [], ready := [], drain := [], pool := 17179869184, resvQueue := [], part := none, partOld := none,
    nextCmd := 0, nextBundle := 0, nextAdmit := 1, nextEnd := 1 }

/-- An Ethernet port after reset. -/
def NetPort.reset : NetPort := { link := false, badFcs := 0, discarded := 0 }

/-- The head clerks after a cold reset: SW holds monitor mode 11b (10 Table 10.4). -/
def headClerk : Clerk := { Clerk.reset with st := .running, sw := 0x30000#20 }

/-- The run-time state after a cold reset. -/
def Rt.reset : Rt :=
  { now := 0, freeCtr := 0, out := [],
    power := { slot12 := true, slot33 := true, aux12 := true, waitExpired := false, powerFail := false, perst := false,
               sensePins := .w600, cable := .w600 },
    boot := { stage := 0x01, lcState := 0xFF, serviceReady := false, resident := false, auxLow := false, lastReset := 0,
              moduleResets := 0, counting := false, srTime := 0, startAt := 0, stepsDone := [], isSealed := false,
              recovery := false, erasing := false, notRecreated := [] },
    link := { up := false, width := 0, rate := 0, flit := false, linkIde := false, selIde := 0, ideKeys := [], ideGo := [],
              lost := false, relaxed := false, payload := 0, readReq := 2 },
    rlatch := { epochHi := none, readyHi := none, waitHi := none, timeSec := none },
    cageA := { present := false, watts := 0, lowPower := false },
    cageB := { present := false, watts := 0, lowPower := false },
    lc := { nonce := none, pendingTarget := none, accepted := none, eraseDue := false, jtagOpen := false },
    fault := Collector.reset, alert := Alert.reset, ballast := Ballast.reset, clock := Clock.reset,
    mint0 := Mint.reset, mint1 := Mint.reset,
    msix := { table := [], pending := [], funcMask := false },
    mbx := { busy := false, done := false, overrun := false, seq := 0, req := [], resp := [], goAt := 0 },
    mgrWindow := none, booths := [], cmds := [], bundles := [], epoch := 0, disp := Disp.reset,
    clerks := [(128, headClerk)], head := HeadRegs.reset,
    rooms := [], presses := [], hashes := [], looms := [], reckoners := [], strong := Strong.reset,
    cardA := none, cardB := none, cellA := 0, cellB := 0, window := CellWindow.closed, twoKey := .closed,
    ceremony := none, waiting := none,
    net := { portA := NetPort.reset, portB := NetPort.reset, listening := false, conns := [], timeWait := [], mgmtLink := false,
             mgmtFrame := none },
    peer := { linkUp := false, paired := false, txKey := [], rxKey := [], txFrames := 0, rxFrames := 0, nonceOwn := [],
              nonceTwin := [], mode := false, copying := false, diverged := false, lost := false, high := false },
    tally := { presets := [], mismatch := false, cnt := 0, session := false, booth := 0 },
    bridles := { tables := [], recs := [] }, fabricPerm := none, held := none,
    spdm := { version := none, caps := false, algs := false, session := none, finished := false, transcript := [], secret := [],
              reqKeys := 0, rspKeys := 0 },
    patterns := [], kdbRoot := 0 }

/-- The SHA-384 digest of no bytes. -/
def emptyDigest : Bytes :=
  (List.range 48).map fun i => BitVec.ofNat 8
    (0x38b060a751ac96384cd9327eb1b1e36a21fdb71114be07434c0cc7bf63f6e1da274edebfe76f65fbd51ad2f14898b95b / 256 ^ (47 - i))

/-- An image copy of the shipped module (log 10): no bytes, whose tally and signature match. -/
def ImageCopy.shipped : ImageCopy := { data := [], signed := emptyDigest, tally := 0, version := 0, epoch := 0 }

/-- An image of the shipped module: both copies good, copy A active. -/
def Image.shipped : Image :=
  { copyA := ImageCopy.shipped, copyB := ImageCopy.shipped, activeB := false, nextB := false, failed := false }

/-- Flash as shipped: no user secrets (R1), defaults where the spec states them. -/
def Nv.shipped : Nv :=
  { slots := [], vers := [], journal := [], epochMark := 0, epochMarkB := 0, boothTable := [], listeners := [],
    addrs := [], part := none, progs := [], image1 := Image.shipped, image2 := Image.shipped, image3 := Image.shipped,
    stagedLib := none, mintFore0 := false, mintFore1 := false, classes := [], minWidth := 10, presets := [],
    clockCfg := ClockCfg.shipped,
    pairing := { mode := false, nextMode := false, twin := none, keyHandle := 0, target := false, copying := false, sending := false, diverged := false, nextSeq := 0,
                 appliedTwin := 0, retained := [] },
    ledger := { entries := [], nextSeq := 0, confirmed := 0, exported := 0, chain := [], seals := [] },
    align := [], identity := [] }

/-- The gondola of the shipped module (R1): no root, flag clear, loops closed. -/
def Gondola.shipped : Gondola :=
  { root := 0, rootCheck := 0, tamperFlag := false, uncounted := false, tamperOut := false, latched := [], active := [],
    log := [], logNext := 0, logOver := 0, firstCause := none, count := 0, countRestarted := false, episode := 0,
    doorOpen := false, armed := true }

/-- The fuses of the shipped module: SEALED (R1, R91). -/
def Otp.shipped : Otp :=
  { lcT := 0x000003A5, lcC := 0x00000C5A, mark0 := 0, mark1 := 0, mark2 := 0, mark3 := 0, tamperCnt := 0,
    rootLostCnt := 0, seed := 1, seedCheck := 0xB737E661, serial := List.replicate 16 0, hwRev := 0, romRev := 0,
    romDigest := List.replicate 48 0, lastBurnFail := false }

/-- The machine right after reset. -/
def State.reset : State :=
  { rt := Rt.reset, nv := Nv.shipped, gon := Gondola.shipped, otp := Otp.shipped, pending := [] }

end Sys2Proof.Machine
end

