-- ==== Sys2Proof/Machine/Flags.lean ====
section
/-! DEFINITION. The status word of a clerk and every flag computation (10 R204, R205; 11 R226 to R237). -/

namespace Sys2Proof.Machine

/-- A bit of SW (10 Table 10.4): 0 Z, 1 N, 2 C, 3 V, 4 DC, 5 ID, 6 K, 7 E. -/
def swBit (sw : Word) (i : Nat) : Bool := sw.getLsbD i

/-- SW with one bit set or cleared. -/
def swPut (sw : Word) (i : Nat) (b : Bool) : Word :=
  if b then sw ||| (1#20 <<< i) else sw &&& ~~~(1#20 <<< i)

/-- MODE, bits 17 and 16: 0 job, 2 supervisor, 3 monitor. -/
def swMode (sw : Word) : Nat := bitsAt sw.toNat 16 2

/-- SW with another mode. -/
def swSetMode (sw : Word) (m : Nat) : Word :=
  (sw &&& ~~~(3#20 <<< 16)) ||| (BitVec.ofNat 20 m <<< 16)

/-- The flags that an instruction sets; `none` leaves a flag as it is. -/
structure FlagSet where
  z : Option Bool
  n : Option Bool
  c : Option Bool
  v : Option Bool
  dc : Option Bool
  id : Option Bool
  deriving DecidableEq, Repr

/-- No flag. -/
def noFlags : FlagSet := { z := none, n := none, c := none, v := none, dc := none, id := none }

/-- Put one optional flag. -/
def swOpt (sw : Word) (i : Nat) : Option Bool → Word
  | none => sw
  | some b => swPut sw i b

/-- SW after an instruction: its flags; and E, for every flag-setting instruction, by whether a source lies in engine
port space (R205); `sets` tells a flag-setting instruction. -/
def swFlags (sw : Word) (f : FlagSet) (sets engine : Bool) : Word :=
  let w := swOpt (swOpt (swOpt (swOpt (swOpt (swOpt sw 0 f.z) 1 f.n) 2 f.c) 3 f.v) 4 f.dc) 5 f.id
  if sets then swPut w 7 engine else w

/-- Z and N of a `w`-bit result (R226). -/
def flagsZN (w r : Nat) : FlagSet := { noFlags with z := some (r == 0), n := some (r.testBit (w - 1)) }

/-- The signed value of a `w`-bit number. -/
def signed (w v : Nat) : Int := if v.testBit (w - 1) then (v : Int) - (2 ^ w : Nat) else (v : Int)

/-- A signed value does not fit `w` bits. -/
def overflows (w : Nat) (v : Int) : Bool := decide (v < -((2 ^ (w - 1) : Nat) : Int) ∨ ((2 ^ (w - 1) : Nat) : Int) ≤ v)

/-- The low `w` bits of an integer. -/
def wrap (w : Nat) (v : Int) : Nat := (v % ((2 ^ w : Nat) : Int)).toNat

/-- Sum with carry in: the result and Z, N, C, V (R226). -/
def addFlags (w a b cin : Nat) : Nat × FlagSet :=
  let r := (a + b + cin) % 2 ^ w
  (r, { flagsZN w r with c := some (decide (2 ^ w ≤ a + b + cin)),
                         v := some (overflows w (signed w a + signed w b + cin)) })

/-- Difference with borrow in: the result and Z, N, C, V, where C is the borrow (R226). -/
def subFlags (w a b bin : Nat) : Nat × FlagSet :=
  let r := wrap w ((a : Int) - b - bin)
  (r, { flagsZN w r with c := some (decide (a < b + bin)),
                         v := some (overflows w (signed w a - signed w b - bin)) })

/-- The shift results of R228 with Z, N and C. -/
def shlFlags (a c : Nat) : Nat × FlagSet :=
  let r := if 20 ≤ c then 0 else (a <<< c) % 2 ^ 20
  (r, { flagsZN 20 r with c := some (decide (0 < c ∧ c ≤ 20) && a.testBit (20 - c)) })

/-- SHR. -/
def shrFlags (a c : Nat) : Nat × FlagSet :=
  let r := if 20 ≤ c then 0 else a >>> c
  (r, { flagsZN 20 r with c := some (decide (0 < c ∧ c ≤ 20) && a.testBit (c - 1)) })

/-- SAR: C is the last bit out, and the sign bit for a count above 20. -/
def sarFlags (a c : Nat) : Nat × FlagSet :=
  let s := a.testBit 19
  let r := if 20 ≤ c then (if s then 2 ^ 20 - 1 else 0) else wrap 20 (signed 20 a / ((2 ^ c : Nat) : Int))
  (r, { flagsZN 20 r with c := some (decide (0 < c) && (if c ≤ 20 then a.testBit (c - 1) else s)) })

/-- ROL by the count modulo 20. -/
def rolFlags (a c : Nat) : Nat × FlagSet :=
  let k := c % 20
  let r := ((a <<< k) % 2 ^ 20) ||| (a >>> (20 - k))
  (r, flagsZN 20 r)

/-! ## Decimal strings (10 R200, 11 R230, R231) -/

/-- The sign nibbles: Ah and Eh plus, Bh minus. -/
def isSign (n : Nat) : Bool := n == 0xA || n == 0xE || n == 0xB

/-- The value of a decimal string; none when a nibble is invalid (R200). A string of length 0, or a signed string of
length 1, reads as zero (R230). -/
def decVal (isSigned : Bool) (l : List Nat) : Option Int :=
  if isSigned then
    match l.getLast? with
    | none => some 0
    | some s =>
      let d := l.dropLast
      if isSign s ∧ d.all (fun x => decide (x < 10)) then
        let v : Int := (d.foldl (fun a x => a * 10 + x) 0 : Nat)
        some (if s = 0xB then -v else v)
      else none
  else if l.all (fun x => decide (x < 10)) then some ((l.foldl (fun a x => a * 10 + x) 0 : Nat) : Int)
  else none

/-- `n` decimal digits of a number, least significant first. -/
def digitsLsb : Nat → Nat → List Nat
  | 0, _ => []
  | n + 1, v => v % 10 :: digitsLsb n (v / 10)

/-- The nibbles that the store rule writes for a value that fits (R231): right-aligned digits, and the sign. -/
def decStore (sa : Bool) (la : Nat) (r : Int) : List Nat :=
  let n := if sa then la - 1 else la
  let d := (digitsLsb n r.natAbs).reverse
  if sa ∧ 0 < la then d ++ [if r < 0 then 0xB else 0xA] else d

/-- The nibbles written for an invalid source: zero digits, an Ah sign. -/
def decZero (sa : Bool) (la : Nat) : List Nat := decStore sa la 0

/-- The store rule of R231: the nibbles of A and the flags Z, N, DC, ID, from the result or from an invalid source. -/
def storeRule (sa : Bool) (la : Nat) (r : Option Int) : List Nat × FlagSet :=
  let cap : Int := ((10 ^ (la - b2n sa) : Nat) : Int)
  match r with
  | none => (decZero sa la, { noFlags with z := some true, n := some false, dc := some false, id := some true })
  | some v =>
    if sa then
      let m : Int := ((v.natAbs % cap.toNat : Nat) : Int)
      let v' := if v < 0 then -m else m
      (decStore sa la v', { noFlags with z := some (v' == 0), n := some (decide (v' < 0)),
                                         dc := some (decide (cap ≤ (v.natAbs : Int))) })
    else
      let v' := v % cap
      (decStore sa la v', { noFlags with z := some (v' == 0), n := some false,
                                         dc := some (decide (v < 0 ∨ cap ≤ v)) })

end Sys2Proof.Machine
end

