-- ==== Sys2Proof/Machine/Cipher.lean ====
section
/-! DEFINITION. The block ciphers of the presses and looms (14 Table 14.3): AES (FIPS 197) and TDEA (SP 800-67), as the
standards that 00 Table 0.7 names define them (assumption log 6). -/

namespace Sys2Proof.Machine

/-! ## AES -/

/-- The AES S-box, the image of `x` in bits 8x + 7 to 8x. -/
def aesSboxBits : Nat :=
  0x16bb54b00f2d99416842e6bf0d89a18cdf2855cee9871e9b948ed9691198f8e19e1dc186b95735610ef6034866b53e70 <<< 1664 +
  0x8a8bbd4b1f74dde8c6b4a61c2e2578ba08ae7a65eaf4566ca94ed58d6d37c8e779e4959162acd3c25c2406490a3a32e0 <<< 1280 +
  0xdb0b5ede14b8ee4688902a22dc4f816073195d643d7ea7c41744975fec130ccdd2f3ff1021dab6bcf5389d928f40a351 <<< 896 +
  0xa89f3c507f02f94585334d43fbaaefd0cf584c4a39becb6a5bb1fc20ed00d153842fe329b3d63b52a05a6e1b1a2c8309 <<< 512 +
  0x75b227ebe28012079a059618c323c7041531d871f1e5a534ccf73f362693fdb7c072a49cafa2d4adf04759fa7dc982ca <<< 128 +
  0x76abd7fe2b670130c56f6bf27b777c63 <<< 0

/-- The inverse AES S-box. -/
def aesInvBits : Nat :=
  0x7d0c2155631469e126d677ba7e042b17619953833cbbebc8b0f52aae4d3be0a0ef9cc9939f7ae52d0d4ab519a97f5160 <<< 1664 +
  0x5fec8027591012b131c7078833a8dd1ff45acd78fec0db9a2079d2c64b3e56fc1bbe18aa0e62b76f89c5291d711af147 <<< 1280 +
  0x6edf751ce837f9e28535ade72274ac9673e6b4f0cecff297eadc674f4111913a6b8a130103bdafc1020f3fca8f1e2cd0 <<< 896 +
  0x0645b3b80558e4f70ad3bc8c00abd890849d8da75746155edab9edfd5048706c92b6655dcc5ca4d41698688664f6f872 <<< 512 +
  0x25d18b6d49a25b76b224d92866a12e084ec3fa420b954cee3d23c2a632947b54cbe9dec444438e3487ff2f9b8239e37c <<< 128 +
  0xfbd7f3819ea340bf38a53630d56a0952 <<< 0

/-- SubBytes of one byte. -/
def aesSub (x : Nat) : Nat := (aesSboxBits >>> (8 * x)) % 256

/-- InvSubBytes of one byte. -/
def aesInvSub (x : Nat) : Nat := (aesInvBits >>> (8 * x)) % 256

/-- Multiply by x in GF(2^8). -/
def xtime (a : Nat) : Nat := if 128 ≤ a then ((a * 2) ^^^ 0x11B) % 256 else a * 2

/-- Multiply in GF(2^8), the second factor below 16. -/
def gmul (a b : Nat) : Nat :=
  let a2 := xtime a
  let a4 := xtime a2
  let a8 := xtime a4
  (if b.testBit 0 then a else 0) ^^^ (if b.testBit 1 then a2 else 0) ^^^ (if b.testBit 2 then a4 else 0) ^^^
    (if b.testBit 3 then a8 else 0)

/-- Exclusive or of two lists of numbers. -/
def nxor : List Nat → List Nat → List Nat
  | a :: as, b :: bs => (a ^^^ b) :: nxor as bs
  | _, _ => []

/-- The key schedule: `n` more four-byte words after the reversed list `l` of `i` words, for a key of `nk` words. -/
def aesExpand (nk : Nat) : Nat → Nat → Nat → List (List Nat) → List (List Nat)
  | 0, _, _, l => l
  | n + 1, i, rcon, l =>
    let t := l.headD []
    let u :=
      if i % nk = 0 then nxor (([t.getD 1 0, t.getD 2 0, t.getD 3 0, t.getD 0 0].map aesSub)) [rcon, 0, 0, 0]
      else if nk > 6 ∧ i % nk = 4 then t.map aesSub
      else t
    aesExpand nk n (i + 1) (if i % nk = 0 then xtime rcon else rcon) (nxor (l.getD (nk - 1) []) u :: l)

/-- The round keys of a key, 16 numbers each. -/
def aesKeys (key : Bytes) : List (List Nat) :=
  let ks := key.map BitVec.toNat
  let nk := key.length / 4
  let ws := (aesExpand nk (4 * (nk + 7) - nk) nk 1 (pieces 4 ks).reverse).reverse
  (pieces 4 ws).map List.flatten

/-- ShiftRows: row r of the column-major state moves left by r. -/
def shiftRows (s : List Nat) : List Nat := (List.range 16).map fun i => s.getD ((i + 4 * (i % 4)) % 16) 0

/-- InvShiftRows. -/
def invShiftRows (s : List Nat) : List Nat := (List.range 16).map fun i => s.getD ((i + 12 * (i % 4)) % 16) 0

/-- MixColumns with the first row of the circulant matrix. -/
def mixCols (m : List Nat) (s : List Nat) : List Nat :=
  (List.range 16).map fun i =>
    let c := i - i % 4
    let r := i % 4
    gmul (s.getD c 0) (m.getD ((4 - r) % 4) 0) ^^^ gmul (s.getD (c + 1) 0) (m.getD ((5 - r) % 4) 0) ^^^
      gmul (s.getD (c + 2) 0) (m.getD ((6 - r) % 4) 0) ^^^ gmul (s.getD (c + 3) 0) (m.getD ((7 - r) % 4) 0)

/-- The rounds after the first key addition; the last round mixes no columns. -/
def aesRounds : List (List Nat) → List Nat → List Nat
  | [], s => s
  | [k], s => nxor (shiftRows (s.map aesSub)) k
  | k :: ks, s => aesRounds ks (nxor (mixCols [2, 3, 1, 1] (shiftRows (s.map aesSub))) k)

/-- Encipher one block. -/
def aesEnc (key blk : Bytes) : Bytes :=
  let ks := aesKeys key
  bytesOf (aesRounds (ks.drop 1) (nxor (blk.map BitVec.toNat) (ks.headD [])))

/-- The inverse rounds, round keys from the last. -/
def aesInvRounds : List (List Nat) → List Nat → List Nat
  | [], s => s
  | [k], s => nxor ((invShiftRows s).map aesInvSub) k
  | k :: ks, s => aesInvRounds ks (mixCols [14, 11, 13, 9] (nxor ((invShiftRows s).map aesInvSub) k))

/-- Decipher one block. -/
def aesDec (key blk : Bytes) : Bytes :=
  let ks := (aesKeys key).reverse
  bytesOf (aesInvRounds (ks.drop 1) (nxor (blk.map BitVec.toNat) (ks.headD [])))

/-! ## TDEA -/

/-- Initial permutation. -/
def desIp : List Nat :=
  [58, 50, 42, 34, 26, 18, 10, 2, 60, 52, 44, 36, 28, 20, 12, 4,
   62, 54, 46, 38, 30, 22, 14, 6, 64, 56, 48, 40, 32, 24, 16, 8,
   57, 49, 41, 33, 25, 17, 9, 1, 59, 51, 43, 35, 27, 19, 11, 3,
   61, 53, 45, 37, 29, 21, 13, 5, 63, 55, 47, 39, 31, 23, 15, 7]

/-- Final permutation. -/
def desFp : List Nat :=
  [40, 8, 48, 16, 56, 24, 64, 32, 39, 7, 47, 15, 55, 23, 63, 31,
   38, 6, 46, 14, 54, 22, 62, 30, 37, 5, 45, 13, 53, 21, 61, 29,
   36, 4, 44, 12, 52, 20, 60, 28, 35, 3, 43, 11, 51, 19, 59, 27,
   34, 2, 42, 10, 50, 18, 58, 26, 33, 1, 41, 9, 49, 17, 57, 25]

/-- Expansion. -/
def desE : List Nat :=
  [32, 1, 2, 3, 4, 5, 4, 5, 6, 7, 8, 9, 8, 9, 10, 11,
   12, 13, 12, 13, 14, 15, 16, 17, 16, 17, 18, 19, 20, 21, 20, 21,
   22, 23, 24, 25, 24, 25, 26, 27, 28, 29, 28, 29, 30, 31, 32, 1]

/-- Permutation P. -/
def desP : List Nat :=
  [16, 7, 20, 21, 29, 12, 28, 17, 1, 15, 23, 26, 5, 18, 31, 10,
   2, 8, 24, 14, 32, 27, 3, 9, 19, 13, 30, 6, 22, 11, 4, 25]

/-- Permuted choice 1. -/
def desPc1 : List Nat :=
  [57, 49, 41, 33, 25, 17, 9, 1, 58, 50, 42, 34, 26, 18, 10, 2,
   59, 51, 43, 35, 27, 19, 11, 3, 60, 52, 44, 36, 63, 55, 47, 39,
   31, 23, 15, 7, 62, 54, 46, 38, 30, 22, 14, 6, 61, 53, 45, 37,
   29, 21, 13, 5, 28, 20, 12, 4]

/-- Permuted choice 2. -/
def desPc2 : List Nat :=
  [14, 17, 11, 24, 1, 5, 3, 28, 15, 6, 21, 10, 23, 19, 12, 4,
   26, 8, 16, 7, 27, 20, 13, 2, 41, 52, 31, 37, 47, 55, 30, 40,
   51, 45, 33, 48, 44, 49, 39, 56, 34, 53, 46, 42, 50, 36, 29, 32]

/-- The eight S-boxes, entry 16 row + column of a box in bits 4 i + 3 to 4 i. -/
def desSbox : List Nat :=
  [0xd60ae3b5719428cf05a379cfb26d8e148359bc6a1d2e47f07095c6a38bf21d4e,
   0x9e50c76b24f31a8df2396c851d4ab7e05b96a10ce82f74d3a50cd27943b6e81f,
   0xc25b3ef478960da17ea5c21b03f8946d1fbce582a643907d824b7cd15f36e90a,
   0xe27cb5498d1a60f34825e31fd7bc096a9ea1c27430f65b8df4cb5821a9603ed7,
   0x354a90f6d2e17c8be0365c9f87dab1246893af051d74c2be9e0df3586ba714c2,
   0xd80671ebaf59c2346bd1a4073c825fe983b0ed1659c724fab57e43d08629fa1c,
   0xc32ef0597a418db6295086fae73cdb4168f2c53ea1947b0d16a579c3d80fe2b4,
   0xb65309cfd8a47e12853fda602ec914b729e0b65c473a8df17c05e39a1bf6482d]

/-- Permute bits: position `p` of the table takes bit `p` from the most significant end of a number of `w` bits. -/
def permBits (w : Nat) (t : List Nat) (v : Nat) : Nat :=
  t.foldl (fun a p => a * 2 + b2n (v.testBit (w - p))) 0

/-- The round function on a 32-bit half with a 48-bit round key. -/
def desF (r k : Nat) : Nat :=
  let x := permBits 32 desE r ^^^ k
  let y := (List.range 8).foldl (fun a i =>
    let six := bitsAt x (42 - 6 * i) 6
    let row := 2 * b2n (six.testBit 5) + b2n (six.testBit 0)
    a * 16 + bitsAt (desSbox.getD i 0) (4 * (16 * row + bitsAt six 1 4)) 4) 0
  permBits 32 desP y

/-- The sixteen round keys. -/
def desKeys (key : Bytes) : List Nat :=
  let cd := permBits 64 desPc1 (ofBe key)
  (List.range 16).map fun i =>
    -- the total left rotation before round i + 1
    let n := if i = 0 then 1 else if i < 8 then 2 * i else if i < 15 then 2 * i - 1 else 28
    let rot := fun v => ((v <<< n) % 2 ^ 28) ||| (v >>> (28 - n))
    permBits 56 desPc2 (rot (cd >>> 28) * 2 ^ 28 + rot (cd % 2 ^ 28))

/-- One DES block with round keys in the order of use. -/
def desBlock (ks : List Nat) (blk : Bytes) : Bytes :=
  let x := permBits 64 desIp (ofBe blk)
  let lr := ks.foldl (fun (s : Nat × Nat) k => (s.2, s.1 ^^^ desF s.2 k)) (x >>> 32, x % 2 ^ 32)
  be 8 (permBits 64 desFp (lr.2 * 2 ^ 32 + lr.1))

/-- Single DES encryption. -/
def desEnc (key blk : Bytes) : Bytes := desBlock (desKeys key) blk

/-- Single DES decryption. -/
def desDec (key blk : Bytes) : Bytes := desBlock (desKeys key).reverse blk

/-- The three single keys of a two-key or three-key TDEA key. -/
def tdeaKeys (key : Bytes) : Bytes × Bytes × Bytes :=
  (slice key 0 8, slice key 8 8, if key.length = 24 then slice key 16 8 else slice key 0 8)

/-- TDEA encryption of a block. -/
def tdeaEnc (key blk : Bytes) : Bytes :=
  let k := tdeaKeys key
  desEnc k.2.2 (desDec k.2.1 (desEnc k.1 blk))

/-- TDEA decryption of a block. -/
def tdeaDec (key blk : Bytes) : Bytes :=
  let k := tdeaKeys key
  desDec k.1 (desEnc k.2.1 (desDec k.2.2 blk))

end Sys2Proof.Machine
end

