-- ==== Sys2Proof/Machine/Sha.lean ====
section
/-! DEFINITION. The hash functions and HMAC of the hash units (14 Table 14.6): FIPS 180-4, FIPS 202, FIPS 198-1, as the
standards that 00 Table 0.7 names define them (assumption log 6). Words are natural numbers below 2^32 or 2^64. -/

namespace Sys2Proof.Machine

/-! ## SHA-2 -/

/-- The 64 round constants of SHA-256, constant `t` in bits 32t + 31 to 32t. -/
def sha256K : Nat :=
  0xc67178f2bef9a3f7a4506ceb90befffa8cc7020884c8781478a5636f748f82ee682e6ff35b9cca4f4ed8aa4a391c0cb3 <<< 1664 +
  0x34b0bcb52748774c1e376c0819a4c116106aa070f40e3585d6990624d192e819c76c51a3c24b8b70a81a664ba2bfe8a1 <<< 1280 +
  0x92722c8581c2c92e766a0abb650a735453380d134d2c6dfc2e1b213827b70a851429296706ca6351d5a79147c6e00bf3 <<< 896 +
  0xbf597fc7b00327c8a831c66d983e515276f988da5cb0a9dc4a7484aa2de92c6f240ca1cc0fc19dc6efbe4786e49b69c1 <<< 512 +
  0xc19bf1749bdc06a780deb1fe72be5d74550c7dc3243185be12835b01d807aa98ab1c5ed5923f82a459f111f13956c25b <<< 128 +
  0xe9b5dba5b5c0fbcf71374491428a2f98 <<< 0

/-- The 80 round constants of SHA-512, constant `t` in bits 64t + 63 to 64t. -/
def sha512K : Nat :=
  0x6c44198c4a4758175fcb6fab3ad6faec597f299cfc657e2a4cc5d4becb3e42b6431d67c49c100d4c3c9ebe0a15c9bebc <<< 4736 +
  0x32caab7b40c7249328db77f523047d841b710b35131c471b113f9804bef90dae0a637dc5a2c898a606f067aa72176fba <<< 4352 +
  0xf57d4f7fee6ed178eada7dd6cde0eb1ed186b8c721c0c207ca273eceea26619cc67178f2e372532bbef9a3f7b2c67915 <<< 3968 +
  0xa4506cebde82bde990befffa23631e288cc702081a6439ec84c87814a1f0ab7278a5636f43172f60748f82ee5defb2fc <<< 3584 +
  0x682e6ff3d6b2b8a35b9cca4f7763e3734ed8aa4ae3418acb391c0cb3c5c95a6334b0bcb5e19b48a82748774cdf8eeb99 <<< 3200 +
  0x1e376c085141ab5319a4c116b8d2d0c8106aa07032bbd1b8f40e35855771202ad69906245565a910d192e819d6ef5218 <<< 2816 +
  0xc76c51a30654be30c24b8b70d0f89791a81a664bbc423001a2bfe8a14cf1036492722c851482353b81c2c92e47edaee6 <<< 2432 +
  0x766a0abb3c77b2a8650a73548baf63de53380d139d95b3df4d2c6dfc5ac42aed2e1b21385c26c92627b70a8546d22ffc <<< 2048 +
  0x142929670a0e6e7006ca6351e003826fd5a79147930aa725c6e00bf33da88fc2bf597fc7beef0ee4b00327c898fb213f <<< 1664 +
  0xa831c66d2db43210983e5152ee66dfab76f988da831153b55cb0a9dcbd41fbd44a7484aa6ea6e4832de92c6f592b0275 <<< 1280 +
  0x240ca1cc77ac9c650fc19dc68b8cd5b5efbe4786384f25e3e49b69c19ef14ad2c19bf174cf6926949bdc06a725c71235 <<< 896 +
  0x80deb1fe3b1696b172be5d74f27b896f550c7dc3d5ffb4e2243185be4ee4b28c12835b0145706fbed807aa98a3030242 <<< 512 +
  0xab1c5ed5da6d8118923f82a4af194f9b59f111f1b605d0193956c25bf348b538e9b5dba58189dbbcb5c0fbcfec4d3b2f <<< 128 +
  0x7137449123ef65cd428a2f98d728ae22 <<< 0

/-- Rotate right in `w` bits. -/
def rotr (w x n : Nat) : Nat := (x >>> n) ||| ((x <<< (w - n)) % 2 ^ w)

/-- What distinguishes the 32-bit and the 64-bit SHA-2 families: word width, rounds, constants, and the rotation counts
of the two large and two small sigma functions. -/
structure Sha2Par where
  w : Nat
  rounds : Nat
  k : Nat
  b0 : Nat × Nat × Nat
  b1 : Nat × Nat × Nat
  s0 : Nat × Nat × Nat
  s1 : Nat × Nat × Nat
  deriving DecidableEq, Repr

/-- SHA-256. -/
def sha256Par : Sha2Par :=
  { w := 32, rounds := 64, k := sha256K, b0 := (2, 13, 22), b1 := (6, 11, 25), s0 := (7, 18, 3), s1 := (17, 19, 10) }

/-- SHA-384 and SHA-512. -/
def sha512Par : Sha2Par :=
  { w := 64, rounds := 80, k := sha512K, b0 := (28, 34, 39), b1 := (14, 18, 41), s0 := (1, 8, 7), s1 := (19, 61, 6) }

/-- A large sigma: three rotations. -/
def sigBig (w : Nat) (r : Nat × Nat × Nat) (x : Nat) : Nat := rotr w x r.1 ^^^ rotr w x r.2.1 ^^^ rotr w x r.2.2

/-- A small sigma: two rotations and a shift. -/
def sigSmall (w : Nat) (r : Nat × Nat × Nat) (x : Nat) : Nat := rotr w x r.1 ^^^ rotr w x r.2.1 ^^^ (x >>> r.2.2)

/-- The message schedule: `n` more words in front of a list whose head is the latest word. -/
def sha2Sched (p : Sha2Par) : Nat → List Nat → List Nat
  | 0, l => l
  | n + 1, l =>
    let x := (sigSmall p.w p.s1 (l.getD 1 0) + l.getD 6 0 + sigSmall p.w p.s0 (l.getD 14 0) + l.getD 15 0) % 2 ^ p.w
    sha2Sched p n (x :: l)

/-- The eight working variables. -/
structure Sha2St where
  a : Nat
  b : Nat
  c : Nat
  d : Nat
  e : Nat
  f : Nat
  g : Nat
  h : Nat
  deriving DecidableEq, Repr

/-- One round with schedule word `x` and constant `kt`. -/
def sha2Round (p : Sha2Par) (s : Sha2St) (x kt : Nat) : Sha2St :=
  let m := 2 ^ p.w
  let ch := (s.e &&& s.f) ^^^ ((m - 1 - s.e) &&& s.g)
  let t1 := s.h + sigBig p.w p.b1 s.e + ch + kt + x
  let maj := (s.a &&& s.b) ^^^ (s.a &&& s.c) ^^^ (s.b &&& s.c)
  let t2 := sigBig p.w p.b0 s.a + maj
  { a := (t1 + t2) % m, b := s.a, c := s.b, d := s.c, e := (s.d + t1) % m, f := s.e, g := s.f, h := s.g }

/-- The rounds over the schedule words, `t` counting from 0. -/
def sha2Rounds (p : Sha2Par) : Nat → List Nat → Sha2St → Sha2St
  | _, [], s => s
  | t, x :: xs, s => sha2Rounds p (t + 1) xs (sha2Round p s x ((p.k >>> (p.w * t)) % 2 ^ p.w))

/-- One block into the hash value. -/
def sha2Block (p : Sha2Par) (s : Sha2St) (blk : Bytes) : Sha2St :=
  let ws := (pieces (p.w / 8) blk).map ofBe
  let sch := (sha2Sched p (p.rounds - 16) ws.reverse).reverse
  let r := sha2Rounds p 0 sch s
  let m := 2 ^ p.w
  { a := (s.a + r.a) % m, b := (s.b + r.b) % m, c := (s.c + r.c) % m, d := (s.d + r.d) % m, e := (s.e + r.e) % m,
    f := (s.f + r.f) % m, g := (s.g + r.g) % m, h := (s.h + r.h) % m }

/-- The padded message (FIPS 180-4, 5.1). -/
def sha2Pad (p : Sha2Par) (msg : Bytes) : Bytes :=
  let blk := p.w * 2
  let lenBytes := p.w / 4
  let used := (msg.length + 1 + lenBytes) % blk
  msg ++ [0x80#8] ++ zeros ((blk - used) % blk) ++ be lenBytes (8 * msg.length)

/-- The hash value as bytes, cut to `n`. -/
def sha2 (p : Sha2Par) (iv : Sha2St) (n : Nat) (msg : Bytes) : Bytes :=
  let s := (pieces (p.w * 2) (sha2Pad p msg)).foldl (sha2Block p) iv
  ((([s.a, s.b, s.c, s.d, s.e, s.f, s.g, s.h].map (be (p.w / 8))).flatten)).take n

/-- The initial value of SHA-256. -/
def sha256Iv : Sha2St :=
  { a := 0x6a09e667, b := 0xbb67ae85, c := 0x3c6ef372, d := 0xa54ff53a, e := 0x510e527f, f := 0x9b05688c, g := 0x1f83d9ab, h := 0x5be0cd19 }

/-- The initial value of SHA-384. -/
def sha384Iv : Sha2St :=
  { a := 0xcbbb9d5dc1059ed8, b := 0x629a292a367cd507, c := 0x9159015a3070dd17, d := 0x152fecd8f70e5939, e := 0x67332667ffc00b31, f := 0x8eb44a8768581511, g := 0xdb0c2e0d64f98fa7, h := 0x47b5481dbefa4fa4 }

/-- The initial value of SHA-512. -/
def sha512Iv : Sha2St :=
  { a := 0x6a09e667f3bcc908, b := 0xbb67ae8584caa73b, c := 0x3c6ef372fe94f82b, d := 0xa54ff53a5f1d36f1, e := 0x510e527fade682d1, f := 0x9b05688c2b3e6c1f, g := 0x1f83d9abfb41bd6b, h := 0x5be0cd19137e2179 }

/-- SHA-256. -/
def sha256 (m : Bytes) : Bytes := sha2 sha256Par sha256Iv 32 m

/-- SHA-384. -/
def sha384 (m : Bytes) : Bytes := sha2 sha512Par sha384Iv 48 m

/-- SHA-512. -/
def sha512 (m : Bytes) : Bytes := sha2 sha512Par sha512Iv 64 m

/-! ## SHA-3 -/

/-- The 24 round constants of Keccak-f[1600]. -/
def keccakRc : Nat :=
  0x8000000080008008000000008000000180000000000080808000000080008081800000008000000a000000000000800a <<< 1152 +
  0x8000000000000080800000000000800280000000000080038000000000008089800000000000008b000000008000808b <<< 768 +
  0x000000008000000a00000000800080090000000000000088000000000000008a80000000000080098000000080008081 <<< 384 +
  0x0000000080000001000000000000808b8000000080008000800000000000808a00000000000080820000000000000001 <<< 0

/-- The rotation offset of lane x + 5y in byte x + 5y. -/
def keccakRot : Nat := 0xe383d021208150f2d2927192b0a031437062c241b1c3e0100

/-- Rotate a 64-bit lane left. -/
def rotl64 (x n : Nat) : Nat := ((x <<< n) % 2 ^ 64) ||| (x >>> (64 - n))

/-- One round on 25 lanes, lane x + 5y at index x + 5y (theta, rho, pi, chi, iota). -/
def keccakRound (rc : Nat) (l : List Nat) : List Nat :=
  let g := fun i => l.getD i 0
  let c := (List.range 5).map fun x => g x ^^^ g (x + 5) ^^^ g (x + 10) ^^^ g (x + 15) ^^^ g (x + 20)
  let d := (List.range 5).map fun x => c.getD ((x + 4) % 5) 0 ^^^ rotl64 (c.getD ((x + 1) % 5) 0) 1
  -- lane (x, y) of the result of rho and pi is lane (x + 3y, x) before them
  let b := (List.range 25).map fun i =>
    let x := i % 5
    let y := i / 5
    let j := (x + 3 * y) % 5 + 5 * x
    rotl64 (g j ^^^ d.getD (j % 5) 0) ((keccakRot >>> (8 * j)) % 256)
  (List.range 25).map fun i =>
    let x := i % 5
    let r := i - x
    let v := b.getD i 0 ^^^ ((2 ^ 64 - 1 - b.getD (r + (x + 1) % 5) 0) &&& b.getD (r + (x + 2) % 5) 0)
    if i = 0 then v ^^^ rc else v

/-- Keccak-f[1600]. -/
def keccakF (l : List Nat) : List Nat := forN 24 (fun t s => keccakRound ((keccakRc >>> (64 * t)) % 2 ^ 64) s) l

/-- Absorb one rate block of bytes. -/
def keccakAbsorb (s : List Nat) (blk : Bytes) : List Nat :=
  let ws := (pieces 8 blk).map ofLe
  keccakF ((List.range 25).map fun i => s.getD i 0 ^^^ ws.getD i 0)

/-- Squeeze `n` blocks of rate `r` bytes. -/
def keccakSqueeze (r : Nat) : Nat → List Nat → Bytes
  | 0, _ => []
  | n + 1, s => ((s.map (le 8)).flatten).take r ++ keccakSqueeze r n (keccakF s)

/-- Pad a message to the rate with a domain byte (FIPS 202). -/
def keccakPad (r dom : Nat) (msg : Bytes) : Bytes :=
  let q := r - msg.length % r
  if q = 1 then msg ++ [BitVec.ofNat 8 (dom + 0x80)]
  else msg ++ [BitVec.ofNat 8 dom] ++ zeros (q - 2) ++ [0x80#8]

/-- The sponge: rate `r`, domain byte, `n` output bytes. -/
def keccak (r dom n : Nat) (msg : Bytes) : Bytes :=
  let s := (pieces r (keccakPad r dom msg)).foldl keccakAbsorb (List.replicate 25 0)
  (keccakSqueeze r (n / r + 1) s).take n

/-- SHA3-256. -/
def sha3_256 (m : Bytes) : Bytes := keccak 136 0x06 32 m

/-- SHA3-384. -/
def sha3_384 (m : Bytes) : Bytes := keccak 104 0x06 48 m

/-- SHA3-512. -/
def sha3_512 (m : Bytes) : Bytes := keccak 72 0x06 64 m

/-- SHAKE128 with `n` output bytes. -/
def shake128 (n : Nat) (m : Bytes) : Bytes := keccak 168 0x1F n m

/-- SHAKE256 with `n` output bytes. -/
def shake256 (n : Nat) (m : Bytes) : Bytes := keccak 136 0x1F n m

/-! ## By algorithm code -/

/-- The hash algorithms of 14 Table 14.6. -/
inductive HashAlg where
  | sha256 | sha384 | sha512 | sha3_256 | sha3_384 | sha3_512 | shake128 | shake256
  deriving DecidableEq, Repr

/-- The algorithm of a code of word 8. -/
def hashAlg (code : Nat) : Option HashAlg :=
  match code with
  | 0x01 => some .sha256
  | 0x02 => some .sha384
  | 0x03 => some .sha512
  | 0x11 => some .sha3_256
  | 0x12 => some .sha3_384
  | 0x13 => some .sha3_512
  | 0x21 => some .shake128
  | 0x22 => some .shake256
  | _ => none

/-- The block in bytes. -/
def hashBlock : HashAlg → Nat
  | .sha256 => 64
  | .sha384 => 128
  | .sha512 => 128
  | .sha3_256 => 136
  | .sha3_384 => 104
  | .sha3_512 => 72
  | .shake128 => 168
  | .shake256 => 136

/-- The digest length; the extendable functions give `n`. -/
def digestLen (n : Nat) : HashAlg → Nat
  | .sha256 => 32
  | .sha384 => 48
  | .sha512 => 64
  | .sha3_256 => 32
  | .sha3_384 => 48
  | .sha3_512 => 64
  | .shake128 => n
  | .shake256 => n

/-- An extendable-output function. -/
def isShake : HashAlg → Bool
  | .shake128 => true
  | .shake256 => true
  | _ => false

/-- The digest of a message; `n` is the output length of an extendable function. -/
def digest (a : HashAlg) (n : Nat) (m : Bytes) : Bytes :=
  match a with
  | .sha256 => sha256 m
  | .sha384 => sha384 m
  | .sha512 => sha512 m
  | .sha3_256 => sha3_256 m
  | .sha3_384 => sha3_384 m
  | .sha3_512 => sha3_512 m
  | .shake128 => shake128 n m
  | .shake256 => shake256 n m

/-- HMAC (FIPS 198-1). -/
def hmac (a : HashAlg) (key msg : Bytes) : Bytes :=
  let k := padTo (hashBlock a) (if key.length ≤ hashBlock a then key else digest a 0 key)
  digest a 0 (k.map (· ^^^ 0x5C) ++ digest a 0 (k.map (· ^^^ 0x36) ++ msg))

end Sys2Proof.Machine
end

