-- ==== Sys2Proof/Machine/Modes.lean ====
section
/-! DEFINITION. The modes of the presses and looms (R303, R308): ECB, CBC and CTR (SP 800-38A), CMAC (38B), CCM (38C),
GCM (38D), KW (38F), and ISO 9797-1 MAC algorithms 1 and 3, each with the options that chapter 14 states. -/

namespace Sys2Proof.Machine

/-- The block of a cipher: 8 bytes for TDEA, 16 for AES (R303). -/
def blockLen (tdea : Bool) : Nat := if tdea then 8 else 16

/-- Encipher a block. -/
def blkEnc (tdea : Bool) (key blk : Bytes) : Bytes := if tdea then tdeaEnc key blk else aesEnc key blk

/-- Decipher a block. -/
def blkDec (tdea : Bool) (key blk : Bytes) : Bytes := if tdea then tdeaDec key blk else aesDec key blk

/-- ECB encryption. -/
def ecbEnc (tdea : Bool) (key data : Bytes) : Bytes :=
  ((pieces (blockLen tdea) data).map (blkEnc tdea key)).flatten

/-- ECB decryption. -/
def ecbDec (tdea : Bool) (key data : Bytes) : Bytes :=
  ((pieces (blockLen tdea) data).map (blkDec tdea key)).flatten

/-- CBC encryption of blocks. -/
def cbcEncBlocks (tdea : Bool) (key : Bytes) : Bytes → List Bytes → List Bytes
  | _, [] => []
  | iv, b :: bs =>
    let c := blkEnc tdea key (bxor iv b)
    c :: cbcEncBlocks tdea key c bs

/-- CBC encryption. -/
def cbcEnc (tdea : Bool) (key iv data : Bytes) : Bytes :=
  (cbcEncBlocks tdea key iv (pieces (blockLen tdea) data)).flatten

/-- CBC decryption of blocks. -/
def cbcDecBlocks (tdea : Bool) (key : Bytes) : Bytes → List Bytes → List Bytes
  | _, [] => []
  | iv, c :: cs => bxor iv (blkDec tdea key c) :: cbcDecBlocks tdea key c cs

/-- CBC decryption. -/
def cbcDec (tdea : Bool) (key iv data : Bytes) : Bytes :=
  (cbcDecBlocks tdea key iv (pieces (blockLen tdea) data)).flatten

/-- CTR over blocks: the whole counter block is incremented modulo 2^block bits (R303). -/
def ctrBlocks (tdea : Bool) (key : Bytes) : Nat → List Bytes → List Bytes
  | _, [] => []
  | c, b :: bs => bxor b (blkEnc tdea key (be (blockLen tdea) c)) :: ctrBlocks tdea key (c + 1) bs

/-- CTR mode from an initial counter block. -/
def ctrMode (tdea : Bool) (key iv data : Bytes) : Bytes :=
  (ctrBlocks tdea key (ofBe iv) (pieces (blockLen tdea) data)).flatten

/-- The last block of a CBC chain from a zero starting value. -/
def cbcMac (tdea : Bool) (key data : Bytes) : Bytes :=
  (pieces (blockLen tdea) data).foldl (fun s b => blkEnc tdea key (bxor s b)) (zeros (blockLen tdea))

/-- Double in the CMAC field. -/
def cmacDbl (tdea : Bool) (b : Bytes) : Bytes :=
  let n := blockLen tdea
  let v := ofBe b
  let d := (v * 2) % 2 ^ (8 * n)
  be n (if v.testBit (8 * n - 1) then d ^^^ (if tdea then 0x1B else 0x87) else d)

/-- CMAC (SP 800-38B), the whole block. -/
def cmac (tdea : Bool) (key msg : Bytes) : Bytes :=
  let n := blockLen tdea
  let k1 := cmacDbl tdea (blkEnc tdea key (zeros n))
  let full := msg.length % n = 0 ∧ msg ≠ []
  let m := if full then msg else msg ++ [0x80#8] ++ zeros (n - 1 - msg.length % n)
  let last := m.drop (m.length - n)
  let k := if full then k1 else cmacDbl tdea k1
  cbcMac tdea key (m.take (m.length - n) ++ bxor last k)

/-- The paddings of ISO 9797-1 as R303 gives them, an empty message included. -/
def isoPad (n method : Nat) (msg : Bytes) : Bytes :=
  let fill := zeros ((n - msg.length % n) % n)
  match method with
  | 1 => if msg = [] then zeros n else msg ++ fill
  | 2 => msg ++ [0x80#8] ++ zeros (n - 1 - msg.length % n)
  | _ => be n (8 * msg.length) ++ msg ++ fill

/-- MAC algorithm 1, the whole block. -/
def mac1 (tdea : Bool) (key : Bytes) (method : Nat) (msg : Bytes) : Bytes :=
  cbcMac tdea key (isoPad (blockLen tdea) method msg)

/-- MAC algorithm 3 with the halves of a two-key TDEA key (R303). -/
def mac3 (key : Bytes) (method : Nat) (msg : Bytes) : Bytes :=
  let l := slice key 0 8
  let r := slice key 8 8
  let s := (pieces 8 (isoPad 8 method msg)).foldl (fun s b => desEnc l (bxor s b)) (zeros 8)
  desEnc l (desDec r s)

/-! ## Key wrap (SP 800-38F, KW) -/

/-- One wrapping step: counter value `t` on the register A and the semiblocks. -/
def kwStep (key : Bytes) (n : Nat) (s : Bytes × List Bytes) (t : Nat) : Bytes × List Bytes :=
  let i := (t - 1) % n
  let b := aesEnc key (s.1 ++ s.2.getD i [])
  (bxor (slice b 0 8) (be 8 t), setAt s.2 i (slice b 8 8))

/-- The KW integrity value. -/
def kwIv : Bytes := List.replicate 8 0xA6#8

/-- Wrap a key of whole semiblocks. -/
def kwWrap (key data : Bytes) : Bytes :=
  let r := pieces 8 data
  let n := r.length
  let s := (List.range (6 * n)).foldl (fun s j => kwStep key n s (j + 1)) (kwIv, r)
  s.1 ++ s.2.flatten

/-- One unwrapping step. -/
def kwUnstep (key : Bytes) (n : Nat) (s : Bytes × List Bytes) (t : Nat) : Bytes × List Bytes :=
  let i := (t - 1) % n
  let b := aesDec key (bxor s.1 (be 8 t) ++ s.2.getD i [])
  (slice b 0 8, setAt s.2 i (slice b 8 8))

/-- Unwrap; none when the integrity value does not match. -/
def kwUnwrap (key data : Bytes) : Option Bytes :=
  let r := pieces 8 data
  let n := r.length - 1
  let s := (List.range (6 * n)).foldl (fun s j => kwUnstep key n s (6 * n - j)) (r.headD [], r.drop 1)
  if s.1 = kwIv then some s.2.flatten else none

/-! ## GCM -/

/-- One step of the product: bit `i` of `x` from the most significant end. -/
def ghStep (x : Nat) (i : Nat) (zv : Nat × Nat) : Nat × Nat :=
  (if x.testBit (127 - i) then zv.1 ^^^ zv.2 else zv.1,
   if zv.2.testBit 0 then (zv.2 >>> 1) ^^^ (0xE1 <<< 120) else zv.2 >>> 1)

/-- The product in GCM's field, blocks read most significant byte first. -/
def ghMul (x y : Nat) : Nat := (forN 128 (ghStep x) (0, y)).1

/-- GHASH of whole blocks. -/
def ghash (h : Nat) (data : Bytes) : Nat :=
  (pieces 16 data).foldl (fun y b => ghMul (y ^^^ ofBe b) h) 0

/-- Pad to whole 16-byte blocks. -/
def pad16 (b : Bytes) : Bytes := b ++ zeros ((16 - b.length % 16) % 16)

/-- GCM's counter mode: only the low 32 bits count. -/
def gctr (key : Bytes) : Nat → List Bytes → List Bytes
  | _, [] => []
  | c, b :: bs =>
    bxor b (aesEnc key (be 16 c)) :: gctr key (c - c % 2 ^ 32 + (c + 1) % 2 ^ 32) bs

/-- The tag of a ciphertext and header under a 12-byte nonce. -/
def gcmTag (key nonce hdr ct : Bytes) : Bytes :=
  let h := ofBe (aesEnc key (zeros 16))
  let s := ghash h (pad16 hdr ++ pad16 ct ++ be 8 (8 * hdr.length) ++ be 8 (8 * ct.length))
  bxor (be 16 s) (aesEnc key (nonce ++ be 4 1))

/-- GCM's encryption of the payload, which is its own inverse. -/
def gcmCrypt (key nonce data : Bytes) : Bytes := (gctr key (ofBe (nonce ++ be 4 2)) (pieces 16 data)).flatten

/-- GCM encryption: ciphertext and 16-byte tag (R308). -/
def gcmEnc (key nonce hdr pt : Bytes) : Bytes :=
  let c := gcmCrypt key nonce pt
  c ++ gcmTag key nonce hdr c

/-- GCM decryption: the plaintext, and whether the tag verified. -/
def gcmDec (key nonce hdr ct tag : Bytes) : Bytes × Bool :=
  (gcmCrypt key nonce ct, gcmTag key nonce hdr ct = tag)

/-! ## CCM -/

/-- The formatted input of SP 800-38C, Appendix A. -/
def ccmFormat (nonce hdr pt : Bytes) (t : Nat) : Bytes :=
  let q := 15 - nonce.length
  let flags := (if hdr = [] then 0 else 64) + 8 * ((t - 2) / 2) + (q - 1)
  let enc :=
    if hdr = [] then []
    else if hdr.length < 0xFF00 then be 2 hdr.length ++ hdr
    else bytesOf [0xFF, 0xFE] ++ be 4 hdr.length ++ hdr
  [BitVec.ofNat 8 flags] ++ nonce ++ be q pt.length ++ pad16 enc ++ pad16 pt

/-- CCM's counter block `i`. -/
def ccmCtr (nonce : Bytes) (i : Nat) : Bytes :=
  [BitVec.ofNat 8 (14 - nonce.length)] ++ nonce ++ be (15 - nonce.length) i

/-- CCM's tag of a plaintext. -/
def ccmTag (key nonce hdr pt : Bytes) (t : Nat) : Bytes :=
  (bxor (cbcMac false key (ccmFormat nonce hdr pt t)) (aesEnc key (ccmCtr nonce 0))).take t

/-- CCM's encryption of the payload, which is its own inverse. -/
def ccmCrypt (key nonce data : Bytes) : Bytes :=
  ((pieces 16 data).zipIdx.map fun bi => bxor bi.1 (aesEnc key (ccmCtr nonce (bi.2 + 1)))).flatten

/-- CCM encryption with a tag of `t` bytes. -/
def ccmEnc (key nonce hdr pt : Bytes) (t : Nat) : Bytes := ccmCrypt key nonce pt ++ ccmTag key nonce hdr pt t

/-- CCM decryption: the plaintext, and whether the tag verified. -/
def ccmDec (key nonce hdr ct tag : Bytes) : Bytes × Bool :=
  let pt := ccmCrypt key nonce ct
  (pt, ccmTag key nonce hdr pt tag.length = tag)

end Sys2Proof.Machine
end

