-- ==== Sys2Proof/Machine/Ops.lean ====
section
/-! DEFINITION. The named operations that the commands share: what leaves the module, the status codes, engines, clerks
and jobs, the end of a command and of a bundle, the fault collector with escalation and ALERT_N, and tallies. -/

namespace Sys2Proof.Machine

/-- The outcome of a command. -/
abbrev Res := Host.Outcome State Fault Refusal

/-- Change the run-time state alone. -/
def onRt (f : Rt → Rt) (s : State) : State := { s with rt := f s.rt }

/-- Append to what the module sends (log 5). -/
def emit (o : Out) (rt : Rt) : Rt := { rt with out := rt.out ++ [o] }

/-- Write output data to host memory, with Relaxed Ordering when the host enables it (06 R108, R109). -/
def hostData (pasid : Option Nat) (iova : Nat) (data : Bytes) (rt : Rt) : Rt := emit (.hostWrite pasid iova data rt.link.relaxed) rt

/-- The nonce of a peer frame: the direction bit, and the 64-bit frame counter (R172; their places are log 33's choice). -/
def peerNonce (high : Bool) (n : Nat) : Bytes := [if high then 1#8 else 0#8, 0, 0, 0] ++ be 8 n

/-- A peer frame's plaintext: kind, pair sequence, data. The kinds are 1 confirmation, 2 record, 3 acknowledgement, 4 refusal, 5 commit
notice, 6 copy, 7 report (all of it is log 33's choice). -/
def peerBytes (kind seq : Nat) (data : Bytes) : Bytes := [BitVec.ofNat 8 kind] ++ le 8 seq ++ data

/-- A frame as it goes out on the peer link: AES-256-GCM under its direction's key (R172). -/
def sealPeer (p : Peer) (kind seq : Nat) (data : Bytes) : Out :=
  let n := peerNonce p.high p.txFrames
  .peerFrame n (gcmEnc p.txKey n [] (peerBytes kind seq data))

/-- Send a frame on the peer link, counted in its direction (R172). -/
def peerSend (kind seq : Nat) (data : Bytes) (rt : Rt) : Rt :=
  emit (sealPeer rt.peer kind seq data) { rt with peer := { rt.peer with txFrames := rt.peer.txFrames + 1 } }

/-- A frame of the twin has come (R172). -/
def peerGot (rt : Rt) : Rt := { rt with peer := { rt.peer with rxFrames := rt.peer.rxFrames + 1 } }

/-! ## Status codes (17 Table 17.6) -/

def stDone : Nat := 0x0000
def stQueueFull : Nat := 0x0100
def stAdmissionClosed : Nat := 0x0101
def stStateRefused : Nat := 0x0200
def stVersionUnsupported : Nat := 0x0201
def stMalformed : Nat := 0x0202
def stAccessRefused : Nat := 0x0300
def stUsageRefused : Nat := 0x0301
def stDualControl : Nat := 0x0302
def stKeyStale : Nat := 0x0400
def stParentRevoked : Nat := 0x0401
def stKeyAbsent : Nat := 0x0402
def stInputRefused : Nat := 0x0500
def stIntegrityFail : Nat := 0x0600
def stTileCheckFail : Nat := 0x0601
def stBundleAborted : Nat := 0x0700
def stAborted : Nat := 0x0701
def stRngUnavailable : Nat := 0x0800
def stTamperHalt : Nat := 0x0900
def stDeviceFault : Nat := 0x0A00

/-- The inline result of a refusal with a reason (07 Table 7.7): the reason in byte 16, the rest zero. -/
def reasonRes (r : Nat) : Bytes := padTo 16 [BitVec.ofNat 8 r]

/-- The inline result of STATE_REFUSED (R85). -/
def stateRes (rt : Rt) : Bytes := padTo 16 [rt.boot.stage, rt.boot.lcState]

/-! ## Module phases (17 Table 17.14) -/

/-- Tamper halt: BOOT_STAGE 81h or 82h. -/
def inTamperHalt (rt : Rt) : Bool := rt.boot.stage == 0x81 || rt.boot.stage == 0x82

/-- A fatal stop: BOOT_STAGE 85h, or R17 in force. -/
def inFatal (rt : Rt) : Bool := rt.boot.stage == 0x85 || rt.fault.halted

/-- The module serves: SERVICE_READY is set and no erase of R95 is under way. -/
def inService (rt : Rt) : Bool :=
  rt.boot.stage == 0x0C && rt.boot.serviceReady && !rt.boot.erasing && !inFatal rt

/-- Admitted commands may run: the map is sealed and neither a halt, a fatal fault nor an erase is in force. Before
SERVICE_READY only OPEN and ATTEST come this far (R84, Table 17.14). -/
def mayRun (rt : Rt) : Bool := rt.boot.isSealed && !rt.boot.erasing && !inFatal rt && !inTamperHalt rt

/-- Main power is present: the three inputs are within limits (R32). -/
def mainPower (rt : Rt) : Bool := rt.power.slot12 && rt.power.slot33 && rt.power.aux12

/-- Main power is present and power-fail has not latched. -/
def powered (rt : Rt) : Bool := mainPower rt && !rt.power.powerFail

/-- The islands run: main power is present and PERST# does not hold them in reset (R66). -/
def islandsRun (rt : Rt) : Bool := powered rt && !rt.power.perst

/-! ## Interrupts (R113) -/

/-- The MSI-X entry of a vector. -/
def msixEntry (m : Msix) (v : Nat) : MsixEntry := kgetD m.table v MsixEntry.reset

/-- Signal a vector: send its message, or set its pending bit while it is masked. A message raised while the host link is lost
is sent as otherwise (DESIGN CHOICE, log 50: R125 does not say whether it is lost, held or sent). -/
def signal (v : Nat) (rt : Rt) : Rt :=
  let e := msixEntry rt.msix v
  if e.mask || rt.msix.funcMask then { rt with msix := { rt.msix with pending := addTo v rt.msix.pending } }
  else emit (.msix v (e.addrHi ++ e.addrLo) e.data) rt

/-! ## Clerks and engines -/

/-- The key of an engine in its map: die × 64 + index. -/
def ekey (e : EngineRef) : Nat := e.die.val * 64 + e.idx

/-- How many engines of a kind a die has (14 Table 14.1, 01 Table 1.1). -/
def engineCount : EngineKind → Nat
  | .press => 32
  | .hash => 16
  | .loom => 4
  | .reckoner => 16

def clerkOf (rt : Rt) (c : ClerkId) : Clerk := kgetD rt.clerks c Clerk.reset
def setClerk (c : ClerkId) (k : Clerk) (rt : Rt) : Rt := { rt with clerks := kput Clerk.reset rt.clerks c k }
def pressOf (rt : Rt) (k : Nat) : Press := kgetD rt.presses k Press.reset
def setPress (k : Nat) (p : Press) (rt : Rt) : Rt := { rt with presses := kput Press.reset rt.presses k p }
def hashOf (rt : Rt) (k : Nat) : HashUnit := kgetD rt.hashes k HashUnit.reset
def setHash (k : Nat) (h : HashUnit) (rt : Rt) : Rt := { rt with hashes := kput HashUnit.reset rt.hashes k h }
def loomOf (rt : Rt) (k : Nat) : Loom := kgetD rt.looms k Loom.reset
def setLoom (k : Nat) (l : Loom) (rt : Rt) : Rt := { rt with looms := kput Loom.reset rt.looms k l }
def reckonerOf (rt : Rt) (k : Nat) : Reckoner := kgetD rt.reckoners k Reckoner.reset
def setReckoner (k : Nat) (r : Reckoner) (rt : Rt) : Rt := { rt with reckoners := kput Reckoner.reset rt.reckoners k r }
def roomOf (rt : Rt) (k : Nat) : Room := kgetD rt.rooms k Room.reset
def setRoom (k : Nat) (r : Room) (rt : Rt) : Rt := { rt with rooms := kput Room.reset rt.rooms k r }

/-- The die of a clerk: 0 or 1; the head clerks count with CD0, whose mint they draw on (16 Table 16.2). -/
def clerkDie (c : ClerkId) : Nat := if c = 128 then 0 else c / 64

/-- The room of a clerk: die × 4 + room. -/
def clerkRoom (c : ClerkId) : Nat := c / 16

/-- The common part of an engine. -/
def comOf (rt : Rt) (e : EngineRef) : EngCom :=
  match e.kind with
  | .press => (pressOf rt (ekey e)).com
  | .hash => (hashOf rt (ekey e)).com
  | .loom => (loomOf rt (ekey e)).com
  | .reckoner => (reckonerOf rt (ekey e)).com

/-- Replace the common part of an engine. -/
def setCom (e : EngineRef) (c : EngCom) (rt : Rt) : Rt :=
  match e.kind with
  | .press => setPress (ekey e) { pressOf rt (ekey e) with com := c } rt
  | .hash => setHash (ekey e) { hashOf rt (ekey e) with com := c } rt
  | .loom => setLoom (ekey e) { loomOf rt (ekey e) with com := c } rt
  | .reckoner => setReckoner (ekey e) { reckonerOf rt (ekey e) with com := c } rt

/-- The common part at a release: the latch free but wiping, the queue cleared, the mask expander's state kept (R300). -/
def comWiping (c : EngCom) : EngCom :=
  { c with latch := { c.latch with held := false, wiping := true, holder := 0, claimedAt := 0 }, queue := [],
           running := false }

/-- A mint request is an RNDL of a reckoner. -/
def userIsRndl (e : EngineRef) : MintUser → Bool
  | .rndl d r _ _ => d == e.die && r == e.idx
  | _ => false

/-- Withdraw an RNDL's request from its mint. -/
def dropRndl (e : EngineRef) (rt : Rt) : Rt :=
  let f := fun (m : Mint) => { m with waiting := m.waiting.filter fun u => !userIsRndl e u }
  { rt with mint0 := f rt.mint0, mint1 := f rt.mint1 }

/-- Release an engine: keys, permissions, data and hold buffer are cleared and WIPING is set (R300). A reckoner keeps
its state until its wipe of 512 cycles (R339). -/
def zeroEngine (e : EngineRef) (rt : Rt) : Rt :=
  match e.kind with
  | .press => setPress (ekey e) { com := comWiping (comOf rt e), k0 := none, k1 := none } rt
  | .hash => setHash (ekey e) { com := comWiping (comOf rt e), k0 := none, pre := none, st := none } rt
  | .loom => setLoom (ekey e) { com := comWiping (comOf rt e), k0 := none, hold := [] } rt
  | .reckoner => setCom e (comWiping (comOf rt e)) (dropRndl e rt)

/-- Remove a clerk from a latch FIFO. -/
def comLeave (c : ClerkId) (x : EngCom) : EngCom :=
  { x with latch := { x.latch with fifo := x.latch.fifo.filter (· ≠ c) } }

/-- Remove a clerk from every latch FIFO. -/
def leaveFifos (c : ClerkId) (rt : Rt) : Rt :=
  { rt with
    presses := rt.presses.map fun kv => (kv.1, { kv.2 with com := comLeave c kv.2.com })
    hashes := rt.hashes.map fun kv => (kv.1, { kv.2 with com := comLeave c kv.2.com })
    looms := rt.looms.map fun kv => (kv.1, { kv.2 with com := comLeave c kv.2.com })
    reckoners := rt.reckoners.map fun kv => (kv.1, { kv.2 with com := comLeave c kv.2.com }) }

/-- Stalled clerks whose wait satisfies a predicate run again. -/
def wake (p : Stall → Bool) (rt : Rt) : Rt :=
  { rt with clerks := rt.clerks.map fun kv =>
      (kv.1, match kv.2.st with
             | .stalled w => if p w then { kv.2 with st := .running } else kv.2
             | _ => kv.2) }

/-- A clerk waits for a place in a latch FIFO that has one (R187, R242). -/
def placeFree (rt : Rt) : Stall → Bool
  | .fifo e => decide ((comOf rt e).latch.fifo.length < 8)
  | _ => false

/-- A mint request belongs to a clerk. -/
def userIsClerk (c : ClerkId) : MintUser → Bool
  | .rand c' _ _ => c' == c
  | _ => false

/-- A mint without the waiting requests of a clerk. -/
def mintDrop (c : ClerkId) (m : Mint) : Mint :=
  { m with waiting := m.waiting.filter fun u => !userIsClerk c u
           keyGrade := m.keyGrade.filter fun u => !userIsClerk c u }

/-- End the job of a clerk (R211, R214): its latches are released and their engines zero, K clears (R205), its waits end, its places
in latch FIFOs pass to clerks that wait for one, and the clerk wipes. `blocks` are the desk blocks to be wiped with the job
frame. -/
def endJob (c : ClerkId) (blocks : List Nat) (rt : Rt) : Rt :=
  let k := clerkOf rt c
  let rt := k.latches.foldl (fun r e => zeroEngine e r) rt
  let rt := leaveFifos c rt
  let rt := { rt with mint0 := mintDrop c rt.mint0, mint1 := mintDrop c rt.mint1,
                      strong := { rt.strong with reqs := rt.strong.reqs.filter fun q => q.clerk ≠ c } }
  let rt := setClerk c { k with st := .wiping, sw := swPut k.sw 6 false, job := none, latches := [], inQ := [], outQ := [],
                                blocks := blocks } rt
  wake (placeFree rt) rt

/-- End the job that runs a command, if a clerk runs it, wiping every desk block that it wrote. -/
def endJobOf (id : CmdId) (rt : Rt) : Rt :=
  (rt.clerks.filter fun kv => kv.2.job = some id).foldl (fun r kv => endJob kv.1 kv.2.blocks r) rt

/-! ## Mints -/

/-- The mint of a die. -/
def mintOf (rt : Rt) (d : Nat) : Mint := if d = 0 then rt.mint0 else rt.mint1

/-- Replace the mint of a die. -/
def setMint (d : Nat) (m : Mint) (rt : Rt) : Rt := if d = 0 then { rt with mint0 := m } else { rt with mint1 := m }

/-! ## Booths and commands -/

/-- A booth is open. -/
def boothOf (rt : Rt) (b : Nat) : Option Booth := kget rt.booths b

/-- Replace an open booth. -/
def setBooth (b : Nat) (x : Booth) (rt : Rt) : Rt := { rt with booths := kset rt.booths b x }

/-- Change an open booth. -/
def modBooth (b : Nat) (f : Booth → Booth) (rt : Rt) : Rt := { rt with booths := kmod rt.booths b f }

/-- Change a command. -/
def modCmd (id : CmdId) (f : Cmd → Cmd) (rt : Rt) : Rt := { rt with cmds := kmod rt.cmds id f }

/-- A flag of the descriptor (07 Table 7.2). -/
def dflag (d : Desc) (i : Nat) : Bool := d.flags.toNat.testBit i

def isInline (d : Desc) : Bool := dflag d 5
def hasTallyIn (d : Desc) : Bool := dflag d 3
def hasTallyOut (d : Desc) : Bool := dflag d 4

/-- A handshake that holds a credit of its booth (R159). -/
def holdsCredit (b : Nat) (c : Conn) : Bool :=
  c.booth == b && (match c.st with
    | .ready _ => true
    | .handshake _ => true
    | .retry _ _ => true
    | _ => false)

/-- A booth's occupancy: its admitted commands that are not retired, and its handshakes (R159, R178). -/
def occupancy (rt : Rt) (b : Nat) : Nat :=
  (rt.cmds.filter fun kv => kv.2.booth = b && kv.2.admitted && !kv.2.retired).length +
  (rt.net.conns.filter fun kv => holdsCredit b kv.2).length

/-- The limit at which the sum of R21 counts a booth falls to its share once its occupancy is below it (R182). -/
def recount (b : Nat) (rt : Rt) : Rt :=
  modBooth b (fun x => if occupancy rt b < x.cfg.share ∨ (x.cfg.share = 0 ∧ occupancy rt b = 0) then
    { x with counted := x.cfg.share } else x) rt

/-- A bundle of 2 to 16 descriptors, not the bundle of one of a single strongroom change. -/
def multiOf (rt : Rt) (c : Cmd) : Option Bundle :=
  match c.bundle with
  | none => none
  | some u => match kget rt.bundles u with
    | none => none
    | some x => if x.single then none else some x

/-- Close the two-key latch if a bundle has claimed it (R286). -/
def closeClaimed (u : Nat) (rt : Rt) : Rt :=
  match rt.twoKey with
  | .opened _ _ _ (some v) => if v = u then { rt with twoKey := .closed } else rt
  | _ => rt

/-- Take a command off the ready and drain lists. -/
def unready (id : CmdId) (rt : Rt) : Rt :=
  { rt with disp := { rt.disp with ready := rt.disp.ready.filter (· ≠ id), drain := rt.disp.drain.filter (· ≠ id),
                                   resvQueue := rt.disp.resvQueue.filter (· ≠ id) } }

/-- Return a command's staging reservation to the pool (R142). -/
def returnResv (id : CmdId) (rt : Rt) : Rt :=
  match kget rt.cmds id with
  | none => rt
  | some c => modCmd id (fun c => { c with resv := 0 })
      { rt with disp := { rt.disp with pool := rt.disp.pool + c.resv } }

/-! ## Tallies (R143, R395, R396) -/

/-- The parameters of a preset: 0 to 2 are fixed (19 Table 19.2). -/
def presetOf (rt : Rt) (p : Nat) : Preset :=
  match p with
  | 0 => { valid := true, width := 32, poly := 0x1EDC6F41, init := 0xFFFFFFFF, xorout := 0xFFFFFFFF, refin := true, refout := true }
  | 1 => { valid := true, width := 16, poly := 0x1021, init := 0xFFFF, xorout := 0, refin := false, refout := false }
  | 2 => { valid := true, width := 64, poly := 0x42F0E1EBA9EA3693, init := 0xFFFFFFFFFFFFFFFF,
           xorout := 0xFFFFFFFFFFFFFFFF, refin := true, refout := true }
  | _ => kgetD rt.tally.presets p Preset.zero

/-- The bytes of a check value (R396). -/
def tallyWidth (p : Preset) : Nat := cdiv p.width 8

/-- The check value of a byte string as its bytes: least significant first when REFOUT is set (R395, R396). -/
def tallyBytes (p : Preset) (m : Bytes) : Bytes :=
  let c := crc p.width p.poly.toNat p.init.toNat p.xorout.toNat p.refin p.refout m
  if p.refout then le (tallyWidth p) c else be (tallyWidth p) c

/-! ## The end of a command -/

/-- A strongroom command alone whose bundle of one has not committed (R264). -/
def uncommitted (rt : Rt) (c : Cmd) : Bool :=
  match c.bundle.bind (kget rt.bundles) with
  | some x => x.single && !x.committed
  | none => false

/-- An ended ring command retires at once when it has no output to write and no strongroom change to commit; a session
command when its response is sent or discarded (R178). -/
def retiresNow (rt : Rt) (st : Nat) (out : Bytes) (c : Cmd) : Bool :=
  out.isEmpty && c.session.isNone && !(st == stDone && uncommitted rt c)

/-- Record the end of a command with its status, inline result, output and output length: it takes the next number in the
order of ends (R137), its reservation returns when nothing is to be written, and it retires when it can (R178). -/
def setEnded (id : CmdId) (st : Nat) (res out : Bytes) (outLen : Nat) (rt : Rt) : Rt :=
  let rt := unready id rt
  let rt := if out = [] then returnResv id rt else rt
  let rt := modCmd id (fun c => { c with stage := .ended, status := st, result := padTo 16 (res.take 16), output := out,
                                         outLen := outLen, endSeq := rt.disp.nextEnd,
                                         retired := c.retired || retiresNow rt st out c }) rt
  let rt := { rt with disp := { rt.disp with nextEnd := rt.disp.nextEnd + 1 } }
  match kget rt.cmds id with
  | none => rt
  | some c => recount c.booth rt

/-- A member that the refusal of its bundle refuses carries the epoch at that refusal; one that failed itself keeps the
epoch of its own (R10, R148). -/
def refusalEpoch (id : CmdId) (rt : Rt) : Rt :=
  modCmd id (fun c => if c.admitted || c.stage == .ended then c else { c with epoch := rt.epoch }) rt

/-- Every member of a failed bundle whose last member has been fetched completes with BUNDLE_ABORTED; its changes are
discarded (R148). -/
def settleBundle (u : Nat) (rt : Rt) : Rt :=
  match kget rt.bundles u with
  | none => rt
  | some x =>
    match x.failed with
    | none => rt
    | some (_, st, res) =>
      if x.closed then
        let rt := x.members.foldl (fun r id =>
          setEnded id stBundleAborted (le 2 st ++ res.take 14) [] 0 (endJobOf id (refusalEpoch id r))) rt
        closeClaimed u { rt with bundles := kset rt.bundles u { x with changes := [], reads := [], entries := [] } }
      else rt

/-- A member of a bundle fails: the bundle keeps the first failing member, with its status and inline result (R148). -/
def failBundle (u idx st : Nat) (res : Bytes) (rt : Rt) : Rt :=
  match kget rt.bundles u with
  | none => rt
  | some x =>
    if x.committed then rt
    else
      let x' := if x.failed = none then { x with failed := some (idx, st, padTo 16 res) } else x
      settleBundle u { rt with bundles := kset rt.bundles u x' }

/-- Refuse or fail a command with a status and inline result: alone, or with its whole bundle (R148). A command not yet
admitted carries the current epoch (R10). -/
def failCmd (id : CmdId) (st : Nat) (res : Bytes) (rt : Rt) : Rt :=
  match kget rt.cmds id with
  | none => rt
  | some c =>
    let rt := endJobOf id rt
    let rt := if c.admitted then rt else modCmd id (fun c => { c with epoch := rt.epoch }) rt
    match c.bundle with
    | none => setEnded id st res [] 0 rt
    | some u =>
      match kget rt.bundles u with
      | none => setEnded id st res [] 0 rt
      | some x =>
        if x.single then
          closeClaimed u (setEnded id st res [] 0 { rt with bundles := kdel rt.bundles u })
        else
          let rt := modCmd id (fun c => { c with stage := .ended }) rt
          failBundle u c.member st res rt

/-- Fail with INPUT_REFUSED and a reason. -/
def refuseInput (id : CmdId) (reason : Nat) (rt : Rt) : Rt := failCmd id stInputRefused (reasonRes reason) rt

/-- Fail with a status whose inline result is zero. -/
def failWith (id : CmdId) (st : Nat) (rt : Rt) : Rt := failCmd id st (zeros 16) rt

/-- A command ends with DONE (R140, R141, R143, R399): `span` is the count of valid inline bytes. TALLY_OUT appends the
check value; a limit below the length completes with MALFORMED and the length needed; withheld output is not written
(R312). A bundle member waits for its bundle. -/
def doneCmd (id : CmdId) (res out : Bytes) (span : Nat) (rt : Rt) : Rt :=
  match kget rt.cmds id with
  | none => rt
  | some c =>
    let rt := endJobOf id rt
    let full :=
      if c.withheld then [] else if hasTallyOut c.desc then out ++ tallyBytes (presetOf rt c.preset) out else out
    let len := if c.withheld then 0 else if isInline c.desc then span else full.length + c.direct
    if c.desc.outLim.toNat < len then
      let rt := failCmd id stMalformed (zeros 16) rt
      if (multiOf rt c).isSome then rt else modCmd id (fun c => { c with outLen := len }) rt
    else
      match multiOf rt c with
      | none => setEnded id stDone res (if isInline c.desc then [] else full) len rt
      | some x =>
        let rt := { rt with bundles := kset rt.bundles x.id { x with next := c.member + 1 } }
        modCmd id (fun c => { c with stage := .ended, status := stDone, result := padTo 16 (res.take 16),
                                     output := if isInline c.desc then [] else full, outLen := len }) rt

/-! ## R16 and R17: every admitted command ends -/

/-- A command that R16 or R17 ends: admitted and not yet posted. They end together, as number `n` in the order of ends. -/
def stopCmd (st n : Nat) (c : Cmd) : Cmd :=
  if c.admitted then { c with stage := .ended, status := st, result := zeros 16, output := [], outLen := 0, resv := 0,
                              endSeq := n, retired := c.session.isNone, bundle := none }
  else c

/-- A bundle whose members arrive still: none is admitted. It goes on to gather them, and each meets stage 3 (R145). -/
def gathering (rt : Rt) (x : Bundle) : Bool :=
  !x.single && !x.members.isEmpty && x.members.all fun id => ((kget rt.cmds id).map Cmd.admitted) == some false

/-- Every admitted command whose entry is not posted completes with a status, its output discarded; every job and engine
stops; bundles of admitted commands whose mark is not on flash are withdrawn (R16, R17, R483). -/
def stopAll (st : Nat) (rt : Rt) : Rt :=
  let rt := (rt.clerks.filter fun kv => kv.2.job.isSome).foldl (fun r kv => endJob kv.1 kv.2.blocks r) rt
  { rt with
    cmds := rt.cmds.map fun kv => (kv.1, stopCmd st rt.disp.nextEnd kv.2)
    bundles := rt.bundles.filter fun kv => gathering rt kv.2
    disp := { rt.disp with ready := [], drain := [], resvQueue := [], pool := 17179869184, nextEnd := rt.disp.nextEnd + 1 }
    strong := { rt.strong with reqs := [] }
    booths := rt.booths.map fun kv => (kv.1, { kv.2 with counted := kv.2.cfg.share }) }

/-! ## The fault collector (22) -/

/-- The source code of Table 22.1. -/
def faultCode : FaultSource → Nat
  | .fabricCe => 0x0001 | .fabricUe => 0x0002 | .thermalHigh => 0x0010 | .thermalFatal => 0x0011
  | .railWarn => 0x0012 | .loopDrift => 0x0013 | .cellLow => 0x0014 | .cagePower => 0x0015
  | .imageFallback => 0x0020 | .otpBurn => 0x0021 | .lockstep => 0x0022 | .boothTable => 0x0023
  | .hostLink => 0x0030 | .hostDma => 0x0031 | .doorbellInvalid => 0x0032 | .portDown => 0x0033
  | .peerAuth => 0x0034 | .peerLink => 0x0035 | .peerDiverged => 0x0036 | .clerkTrap => 0x0040
  | .codeTile => 0x0041 | .latchBreak => 0x0042 | .reckonerInvariant => 0x0043 | .drainAbort => 0x0044
  | .tileCheck => 0x0050 | .tileFallback => 0x0051 | .ledgerHigh => 0x0052 | .ledgerFull => 0x0053
  | .mintSource => 0x0060 | .mintRetired => 0x0061 | .mintExhausted => 0x0062 | .bridle => 0x0070
  | .bridleRequest => 0x0071

/-- The default classification of Table 22.1; MINT_SOURCE by the handling of its die (16 Table 16.3). -/
def defaultClassif (forerunner : Bool) : FaultSource → Classif
  | .fabricCe => .count 16 1000 .contained
  | .fabricUe => .cls .contained
  | .thermalHigh => .count 255 60000 .contained
  | .thermalFatal => .cls .fatal
  | .railWarn => .cls .fatal
  | .loopDrift => .report
  | .cellLow => .report
  | .cagePower => .report
  | .imageFallback => .cls .corrected
  | .otpBurn => .cls .fatal
  | .lockstep => .cls .fatal
  | .boothTable => .cls .contained
  | .hostLink => .cls .contained
  | .hostDma => .cls .contained
  | .doorbellInvalid => .cls .contained
  | .portDown => .cls .corrected
  | .peerAuth => .cls .contained
  | .peerLink => .cls .contained
  | .peerDiverged => .cls .contained
  | .clerkTrap => .cls .contained
  | .codeTile => .count 3 1000 .fatal
  | .latchBreak => .cls .contained
  | .reckonerInvariant => .cls .contained
  | .drainAbort => .count 255 1000 .contained
  | .tileCheck => .count 3 1000 .fatal
  | .tileFallback => .cls .corrected
  | .ledgerHigh => .report
  | .ledgerFull => .cls .contained
  | .mintSource => if forerunner then .count 3 1000 .fatal else .count 16 60000 .contained
  | .mintRetired => .cls .contained
  | .mintExhausted => .cls .fatal
  | .bridle => .cls .contained
  | .bridleRequest => .cls .contained

/-- The sources marked Fixed in Table 22.1, MINT_SOURCE in forerunner-compatible handling among them (R433). -/
def isFixed (forerunner : Bool) : FaultSource → Bool
  | .thermalFatal | .railWarn | .loopDrift | .cellLow | .cagePower | .otpBurn | .lockstep | .ledgerHigh
  | .mintExhausted => true
  | .mintSource => forerunner
  | _ => false

/-- A booth-attributed event (R435). -/
def boothAttr (e : FaultEvent) : Bool :=
  match e.source with
  | .doorbellInvalid | .hostDma => true
  | .clerkTrap | .latchBreak => e.houseProg
  | _ => false

/-- The classification in force for an event (R431); for MINT_SOURCE the scope is the die. -/
def classifOf (rt : Rt) (e : FaultEvent) : Classif :=
  let fore := (mintOf rt e.scope).forerunner
  let d := defaultClassif fore e.source
  if isFixed fore e.source then d
  else
    match rt.fault.inForce.find? fun x => x.source = e.source && (x.die = none || x.die = some e.scope) with
    | some x => x.classif
    | none => d

/-- The class of an event with SEVERE and QUIET, and the count windows after it (R431). -/
def classify (rt : Rt) (e : FaultEvent) : FClass × Bool × Bool × List CountWin :=
  match classifOf rt e with
  | .cls c => (c, false, false, rt.fault.wins)
  | .report => (.corrected, false, true, rt.fault.wins)
  | .count n w sev =>
    let same := fun (x : CountWin) => x.source = e.source && x.scope = e.scope
    let old := ((rt.fault.wins.find? same).map CountWin.times).getD []
    let times := old.filter (fun t => rt.now < t + w * 1000000) ++ [rt.now]
    let rest := rt.fault.wins.filter fun x => !same x
    if n ≤ times.length then (sev, true, false, rest)
    else (.corrected, false, true, rest ++ [{ source := e.source, scope := e.scope, times := times }])

/-- The pending flag of a class. -/
def pendOf (f : Collector) : FClass → Bool
  | .corrected => f.pendCorr
  | .contained => f.pendCont
  | .fatal => f.pendFatal

/-- One class higher; fatal is the ceiling (R432). -/
def escalate : FClass → FClass
  | .corrected => .contained
  | .contained => .fatal
  | .fatal => .fatal

/-- An 8-bit occurrence count that saturates (R3). -/
def sat8 (n : Nat) : Nat := min (n + 1) 0xFF

/-- A 16-bit count that saturates. -/
def sat16 (n : Nat) : Nat := min (n + 1) 0xFFFF

/-- The clockmaker's time in nanoseconds (R436). -/
def timeNs (rt : Rt) : Nat := rt.clock.sec * 1000000000 + rt.clock.ns

/-- The record of an event. -/
def mkRecord (rt : Rt) (e : FaultEvent) (c : FClass) (esc sev quiet : Bool) : FaultRec :=
  { seq := rt.fault.nextSeq, source := e.source, cls := c, escalated := esc, severe := sev, quiet := quiet,
    boothAttr := boothAttr e, epoch := BitVec.ofNat 32 rt.epoch, time := timeNs rt, island := e.island, booth := e.booth,
    detail := padTo 8 (e.detail.take 8) }

/-- Write a record into the ring of 40 (R436). -/
def writeRecord (r : FaultRec) (f : Collector) : Collector :=
  { f with ring := kset f.ring (r.seq % 40) r, newest := r.seq % 40, nextSeq := (r.seq + 1) % 2 ^ 32,
           overwritten := if (kget f.ring (r.seq % 40)).isSome then sat16 f.overwritten else f.overwritten,
           quiet := if r.quiet then sat16 f.quiet else f.quiet }

/-- Set the pending flag of a class, count it, and latch the first record (R3, R436). -/
def setPending (r : FaultRec) (f : Collector) : Collector :=
  match r.cls with
  | .corrected => { f with pendCorr := true, cntCorr := sat8 f.cntCorr,
                           firstCorr := if f.pendCorr then f.firstCorr else some r }
  | .contained => { f with pendCont := true, cntCont := sat8 f.cntCont,
                           firstCont := if f.pendCont then f.firstCont else some r }
  | .fatal => { f with pendFatal := true, cntFatal := sat8 f.cntFatal, halted := true,
                       firstFatal := if f.pendFatal then f.firstFatal else some r }

/-- The bit of IRQ_MASK for a class. -/
def classBit : FClass → Nat
  | .corrected => 0
  | .contained => 1
  | .fatal => 2

/-- ALERT_N as its block drives it (R439, R440): low while tamper holds it, a width runs or HOLD is 1, with main power. -/
def alertPin (rt : Rt) : Rt :=
  { rt with alert := { rt.alert with
    pin := mainPower rt && (rt.alert.tamperHold || rt.alert.widthActive || rt.alert.hold) } }

/-- The pin follows its drivers; a change signals vector 0 (R113, R439). -/
def repin (rt : Rt) : Rt :=
  let rt' := alertPin rt
  if rt'.alert.pin = rt.alert.pin then rt' else signal 0 rt'

/-- A contained or fatal record drives ALERT_N low and restarts the width; the firmware sets HOLD (R439). -/
def alertAssert (rt : Rt) : Rt :=
  alertPin { rt with alert := { rt.alert with widthActive := true, hold := true,
                                              widthEnds := rt.now + rt.alert.minWidth * 1000000 } }

/-- Start-up ends at a stop code of 04 Table 4.5; a module reset in progress is then counted (25 Table 25.4). -/
def stopAt (code : BitVec 8) (rt : Rt) : Rt :=
  { rt with boot := { rt.boot with
      stage := code
      counting := false
      moduleResets := if rt.boot.counting then sat8 rt.boot.moduleResets else rt.boot.moduleResets } }

/-- A fatal fault before SERVICE_READY stops start-up with 85h; tamper halt and the stops at step 4 stand (R87). -/
def fatalStage (rt : Rt) : Rt :=
  if rt.boot.serviceReady || rt.boot.stage ∈ [0x81#8, 0x82#8, 0x86#8, 0x87#8] then rt else stopAt 0x85 rt

/-- A fault event reaches the collector: classified, escalated, recorded and signalled (R429 to R439). A fatal record
puts R17 into force: admitted commands end with DEVICE_FAULT, but in tamper halt, where they have ended with TAMPER_HALT
(R418). An event that its own class's flag escalates is counted under its final class alone, not under the class whose flag
it found set (DESIGN CHOICE, log 48: R3 and R433 leave open whether it raises both counts). IRQ_MASK holds back the class's message, not
the one for an alert change (06 R113; DEDUCED, log 50). -/
def report (e : FaultEvent) (rt : Rt) : Rt :=
  let (c, sev, quiet, wins) := if boothAttr e then (FClass.contained, false, false, rt.fault.wins) else classify rt e
  let rt := { rt with fault := { rt.fault with wins := wins } }
  if quiet then { rt with fault := writeRecord (mkRecord rt e .corrected false false true) rt.fault }
  else if rt.fault.halted then { rt with fault := writeRecord (mkRecord rt e c false sev false) rt.fault }
  else if boothAttr e then
    let f := writeRecord (mkRecord rt e .contained false false false) rt.fault
    let rt := { rt with fault := { f with pendBooth := true, cntBooth := sat8 f.cntBooth } }
    if rt.fault.irqMask.getLsbD 3 then rt else signal 0 rt
  else
    let esc := pendOf rt.fault c && decide (c ≠ .fatal)
    let c' := if esc then escalate c else c
    let r := mkRecord rt e c' esc sev false
    let rt := { rt with fault := setPending r (writeRecord r rt.fault) }
    let was := rt.alert.pin
    let rt := if c' = .corrected then rt else alertAssert rt
    let rt := if rt.fault.irqMask.getLsbD (classBit c') && rt.alert.pin == was then rt else signal 0 rt
    if c' = .fatal then fatalStage (if inTamperHalt rt then rt else stopAll stDeviceFault rt) else rt

/-- An event with no scope, island or booth. -/
def plainEvent (src : FaultSource) (detail : Bytes) : FaultEvent :=
  { source := src, scope := 0, island := none, booth := none, detail := detail, houseProg := false }

/-- The twin stops being paired, if it was: PEER_LINK, and PEER_LOST (08 R175). -/
def unpair (rt : Rt) : Rt :=
  if rt.peer.paired then report (plainEvent .peerLink []) { rt with peer := { rt.peer with paired := false, lost := true } } else rt

/-- A fault event reaches the collector; a fatal fault ends the pairing with the twin (08 R175). -/
def raise (e : FaultEvent) (rt : Rt) : Rt :=
  let rt := report e rt
  if inFatal rt then unpair rt else rt

/-- A level condition is recorded once each time it is entered (R430). -/
def raiseLevel (src : FaultSource) (k : Nat) (holds : Bool) (rt : Rt) : Rt :=
  let mem := decide ((src, k) ∈ rt.fault.entered)
  if holds && !mem then
    raise (plainEvent src [BitVec.ofNat 8 k])
      { rt with fault := { rt.fault with entered := rt.fault.entered ++ [(src, k)] } }
  else if !holds && mem then
    { rt with fault := { rt.fault with entered := rt.fault.entered.filter (· ≠ (src, k)) } }
  else rt

end Sys2Proof.Machine
end

