-- ==== Sys2Proof/Machine/Slots.lean ====
section
/-! DEFINITION. Key handles and the bytes of a strongroom slot (12 Tables 12.2, 12.4, 12.5). -/

namespace Sys2Proof.Machine

/-- The fields of a handle (Table 12.2). -/
structure Handle where
  fmt : Nat
  cls : Nat
  house : Nat
  gen : Nat
  slot : Nat
  deriving DecidableEq, Repr

/-- Split a handle. -/
def handleOf (h : BitVec 64) : Handle :=
  let v := h.toNat
  { fmt := bitsAt v 59 5, cls := bitsAt v 51 8, house := bitsAt v 41 10, gen := bitsAt v 25 16, slot := bitsAt v 0 25 }

/-- The handle of a record in a slot; a free slot's echo has FMT and CLASS zero. -/
def echoOf (slot : Nat) (r : SlotRec) : Nat :=
  r.fmt * 2 ^ 59 + r.cls * 2 ^ 51 + r.house * 2 ^ 41 + r.gen * 2 ^ 25 + (slot - r.pos)

/-- A slot holds a key: single or extent head. -/
def isKey (r : SlotRec) : Bool := r.kind == 1 || r.kind == 2

/-- A slot is occupied: single, extent head or continuation. -/
def isOccupied (r : SlotRec) : Bool := r.kind == 1 || r.kind == 2 || r.kind == 3

/-- Bytes 0 to 63 of a head record (Table 12.4). -/
def headBytes (slot : Nat) (r : SlotRec) : Bytes :=
  le 8 (echoOf slot r) ++ [BitVec.ofNat 8 r.kind, BitVec.ofNat 8 r.flags, BitVec.ofNat 8 r.alg, BitVec.ofNat 8 r.size] ++
  le 2 r.usage.toNat ++ [BitVec.ofNat 8 r.mode, BitVec.ofNat 8 r.exportab] ++ le 2 r.version.toNat ++
  [BitVec.ofNat 8 r.extLen, 0] ++ le 4 (match r.parent with
    | none => 2 ^ 31
    | some p => p) ++ le 2 r.parentGen ++ le 2 r.matLen ++ le 2 r.usageBefore.toNat ++ zeros 2 ++ le 8 r.notBefore ++
  le 8 r.notAfter ++ zeros 16

/-- The 128 bytes of a slot (Tables 12.4, 12.5). -/
def slotBytes (slot : Nat) (r : SlotRec) : Bytes :=
  if r.kind = 3 then le 8 (echoOf slot r) ++ [3, BitVec.ofNat 8 r.pos] ++ zeros 2 ++ padTo 116 (r.mat.take 116)
  else if isKey r then headBytes slot r ++ padTo 64 (r.mat.take 64)
  else padTo 128 (le 8 (echoOf slot r) ++ [BitVec.ofNat 8 r.kind])

/-- The record that 128 bytes hold. -/
def slotOfBytes (b : Bytes) : SlotRec :=
  let h := handleOf (BitVec.ofNat 64 (leAt b 0 8))
  let k := byteAt b 8
  let base : SlotRec := { SlotRec.free with kind := k, fmt := h.fmt, cls := h.cls, house := h.house, gen := h.gen }
  if k = 3 then { base with pos := byteAt b 9, mat := slice b 12 116 }
  else if k = 1 ∨ k = 2 then
    { base with flags := byteAt b 9, alg := byteAt b 10, size := byteAt b 11, usage := BitVec.ofNat 16 (leAt b 12 2),
                mode := byteAt b 14, exportab := byteAt b 15, version := BitVec.ofNat 16 (leAt b 16 2),
                extLen := byteAt b 18, parent := if (leAt b 20 4).testBit 31 then none else some (leAt b 20 4 % 2 ^ 25),
                parentGen := leAt b 24 2, matLen := leAt b 26 2, usageBefore := BitVec.ofNat 16 (leAt b 28 2),
                notBefore := leAt b 32 8, notAfter := leAt b 40 8, mat := slice b 64 (min 64 (leAt b 26 2)) }
  else base

end Sys2Proof.Machine
end

