-- ==== Sys2Proof/Machine/Bridle.lean ====
section
/-! DEFINITION. The region check of a bridle and its violation record (20 R405 to R412). -/

namespace Sys2Proof.Machine

/-- The permission bit of an access kind (20 Table 20.2). -/
def kindBit : AccKind → Nat
  | .read => 0
  | .write => 1
  | .fill => 2

/-- A region covers an address. -/
def covers (r : Region) (addr : Nat) : Bool := decide (r.start ≤ addr ∧ addr ≤ r.stop)

/-- A region's permission covers the kind. -/
def permits (r : Region) (k : AccKind) : Bool := r.perm.getLsbD (kindBit k)

/-- A region admits the initiator and the house (R407). -/
def admitsWho (r : Region) (initiator house : Nat) : Bool :=
  r.initiators.getLsbD initiator && (r.house == 0x7FF || r.house == house)

/-- The verdict of an island or HBM bridle on the beat at an address: none when a region admits it, else the cause of
20 Table 20.5 (R407, R411). -/
def islandVerdict (tbl : List Region) (addr : Nat) (k : AccKind) (initiator house : Nat) : Option Nat :=
  let cov := tbl.filter fun r => covers r addr
  if cov.any fun r => permits r k && admitsWho r initiator house then none
  else if cov = [] then some 0
  else if cov.any fun r => permits r k then some 2
  else some 1

/-- The verdict of a host bridle: the entries carry the booth's PASID; ring windows serve ring transfers only, and the
manager window mailbox transfers only (R406, R117). -/
def hostVerdict (tbl : List Region) (a : Access) (addr : Nat) : Option Nat :=
  let cov := tbl.filter fun r => covers r addr
  let who := fun (r : Region) => r.mailbox == a.mailbox && r.ring == a.ring && r.pasid == a.pasid && r.house == a.house
  if cov.any fun r => permits r a.kind && (if a.mailbox then r.mailbox else who r) then none
  else if cov = [] then some 0
  else if cov.any fun r => permits r a.kind then some 2
  else some 1

/-- The region table of a bridle. -/
def bridleTable (rt : Rt) (b : Nat) : List Region := kgetD rt.bridles.tables b []

/-- The code of a kind in a violation record. -/
def kindCode (k : AccKind) : Nat := kindBit k

/-- The epoch of an access: its admitted command's, else the present one. -/
def accessEpoch (rt : Rt) (a : Access) : Nat :=
  match a.cmd.bind (kget rt.cmds) with
  | some c => if c.admitted then c.epoch else rt.epoch
  | none => rt.epoch

/-- Latch a refusal: the first fills the record, every one counts (R411). -/
def latchViolation (b addr : Nat) (a : Access) (cause : Nat) (rt : Rt) : Rt :=
  let v := kgetD rt.bridles.recs b VRec.zero
  let epoch := accessEpoch rt a
  let v' : VRec :=
    if v.valid then { v with count := sat8 v.count }
    else { valid := true, cause := cause, count := sat8 v.count, kind := kindCode a.kind, house := a.house,
           initiator := a.initiator, addr := addr, pasid := a.pasid.getD 0, epoch := BitVec.ofNat 32 epoch,
           booth := a.booth.getD 0xFFFF }
  { rt with bridles := { rt.bridles with recs := kset rt.bridles.recs b v' } }

/-- The bridle of a counting room, die × 4 + room (20 Table 20.1). -/
def roomBridle (room : Nat) : Nat := if room < 4 then room else 14 + (room - 4)

/-- The island of a counting room (R51). -/
def roomIsland (room : Nat) : Nat := if room < 4 then room else 18 + (room - 4)

/-- The byte address at which the room bridle sees a clerk word: 4 bytes each (20, Regions). The base of a room in the
internal address space is not in the spec; the model takes 4 × the clerk's word address (log 13). -/
def roomByte (a : Nat) : Nat := 4 * a

/-- The first refused word among `n` words from `a` of the room window's house part, with its cause. -/
def roomRefusal (rt : Rt) (room house : Nat) (wr : Bool) : Nat → Nat → Option (Nat × Nat)
  | 0, _ => none
  | n + 1, a =>
    match islandVerdict (bridleTable rt (roomBridle room)) (roomByte a) (if wr then .write else .read)
        (roomIsland room) house with
    | some cause => some (a, cause)
    | none => roomRefusal rt room house wr n (a + 1)

end Sys2Proof.Machine
end

