-- ==== Sys2Proof/Machine/Fabric.lean ====
section
/-! DEFINITION. The integrity code of the fabric (03 R61 to R63): the shortened cyclic code that the model takes, its mapping
onto the code field, and what a checker and a sink do with a flit. The spec lets a part use any code with the properties of
R61 (DESIGN CHOICE, log 51). Bits of a flit are numbered 0 to 15 in the code field, 16 to 79 in the header, 80 to 335 in
the data. -/

namespace Sys2Proof.Machine

/-- The generator: x + 1 times a primitive polynomial of degree 15 (R61). -/
def fabricPoly : Nat := 0x1D635

/-- x times a residue modulo the generator. -/
def fabricNext (s : Nat) : Nat := if (2 * s).testBit 16 then (2 * s) ^^^ fabricPoly else 2 * s

/-- The residues of s, s x, s x², …: from 1, the syndromes of an error in bit 0, 1, 2, … -/
def fabricCols : Nat → Nat → List Nat
  | 0, _ => []
  | n + 1, s => s :: fabricCols n (fabricNext s)

/-- The mappings of the 16 check bits onto the code field that a drawn value selects (R63): bit j of the field carries the check
bit that stands at j. With each of them the code keeps the properties of R61. -/
def fabricMaps : List (List Nat) :=
  [[14, 3, 6, 2, 1, 13, 10, 5, 4, 15, 0, 8, 7, 12, 9, 11], [7, 9, 0, 1, 4, 2, 3, 8, 5, 15, 6, 13, 11, 14, 12, 10],
   [10, 15, 12, 14, 4, 13, 8, 11, 5, 6, 7, 2, 9, 0, 1, 3], [6, 7, 15, 14, 12, 13, 4, 8, 2, 3, 1, 0, 9, 5, 10, 11],
   [8, 5, 2, 7, 1, 0, 10, 3, 6, 4, 12, 13, 11, 9, 14, 15], [1, 9, 2, 6, 5, 3, 4, 14, 10, 7, 13, 11, 12, 15, 8, 0],
   [6, 3, 14, 15, 10, 5, 1, 4, 12, 7, 0, 2, 8, 11, 13, 9], [1, 13, 11, 0, 2, 7, 4, 8, 6, 5, 3, 10, 9, 14, 12, 15],
   [1, 2, 4, 14, 11, 3, 13, 5, 10, 6, 8, 12, 7, 15, 9, 0], [14, 6, 11, 15, 10, 8, 2, 4, 13, 5, 9, 3, 1, 7, 0, 12],
   [0, 3, 4, 1, 5, 11, 10, 2, 12, 9, 7, 6, 8, 15, 14, 13], [7, 0, 4, 1, 5, 2, 11, 3, 6, 10, 8, 15, 9, 14, 13, 12],
   [15, 10, 3, 13, 4, 8, 5, 12, 2, 1, 0, 6, 11, 7, 14, 9], [11, 3, 9, 7, 13, 12, 10, 14, 4, 8, 5, 6, 2, 1, 15, 0],
   [6, 7, 14, 3, 2, 1, 5, 9, 13, 10, 4, 0, 8, 11, 12, 15], [0, 1, 7, 2, 6, 3, 4, 8, 10, 5, 14, 9, 11, 15, 13, 12]]

/-- The mapping in force: the identity until the seal, then the one that the value drawn from CD0's mint selects (R63). -/
def fabricMap (v : Option Bytes) : List Nat :=
  match v with
  | none => List.range 16
  | some b => fabricMaps.getD (ofLe b % 16) (List.range 16)

/-- The syndrome of an error in each bit of a flit, by its place (R61, R63). -/
def flitCols (v : Option Bytes) : List Nat :=
  let cols := fabricCols 336 1
  (fabricMap v).map (fun j => cols.getD j 0) ++ cols.drop 16

/-- The bits of a flit as one number. -/
def flitBits (f : Flit) : Nat := f.data.toNat * 2 ^ 80 + f.header.toNat * 2 ^ 16 + f.code.toNat

/-- The flit of such a number. -/
def flitOf (n : Nat) : Flit :=
  { data := BitVec.ofNat 256 (n / 2 ^ 80), header := BitVec.ofNat 64 (n / 2 ^ 16), code := BitVec.ofNat 16 n, poison := false }

/-- The sum of the columns of the bits that are set, from place i on. -/
def sumCols (n : Nat) : Nat → List Nat → Nat
  | _, [] => 0
  | i, c :: l => (if n.testBit i then c else 0) ^^^ sumCols n (i + 1) l

/-- The syndrome of a flit: 0 where the code agrees with data and header. -/
def syndrome (v : Option Bytes) (f : Flit) : Nat := sumCols (flitBits f) 0 (flitCols v)

/-- The code that a source computes (R62): check bit k of the sum over data and header stands where the mapping puts it. -/
def flitCode (v : Option Bytes) (data : BitVec 256) (header : BitVec 64) : BitVec 16 :=
  let s := sumCols (data.toNat * 2 ^ 80 + header.toNat * 2 ^ 16) 0 (flitCols v)
  BitVec.ofNat 16 (forN 16 (fun j a => a + if s.testBit ((fabricMap v).getD j 0) then 2 ^ j else 0) 0)

/-- What a checker finds. -/
inductive FlitCheck where
  | clean | corrected (f : Flit) | uncorrectable | poisoned
  deriving DecidableEq, Repr

/-- A checker: it passes a clean flit, corrects a single-bit error, and neither corrects nor passes anything else (R61, R62). A flit that
carries the poison mark is not checked again (R65). -/
def checkFlit (v : Option Bytes) (f : Flit) : FlitCheck :=
  if f.poison then .poisoned
  else
    let s := syndrome v f
    if s = 0 then .clean
    else match (flitCols v).findIdx? (· == s) with
      | some i => .corrected (flitOf (flitBits f ^^^ 2 ^ i))
      | none => .uncorrectable

/-- What a bridle forwards (R62). -/
def forwarded (v : Option Bytes) (f : Flit) : Flit :=
  match checkFlit v f with
  | .corrected g => g
  | .uncorrectable => { f with poison := true }
  | _ => f

/-- What a sink uses of a flit: nothing of a poisoned one; a poisoned write is dropped, poisoned read data is not handed on (R62). -/
def sinkTakes (v : Option Bytes) (f : Flit) : Option (BitVec 256) :=
  match checkFlit v f with
  | .clean => some f.data
  | .corrected g => some g.data
  | _ => none

end Sys2Proof.Machine
end

