-- ==== Sys2Proof/Machine/Ballast.lean ====
section
/-! DEFINITION. The ballast: islands, their costs and classes, the three FIFOs and buckets (03 R51 to R60), the steps of
start-up that they end (04 Table 4.1), and the thermal responses (02 R42, R43). -/

namespace Sys2Proof.Machine

/-! ## The steps of start-up -/

/-- The steps that a step of Table 4.1 waits for, without those of each compute die (7 and 8). -/
def stepAfter : Nat → List Nat
  | 2 => [1] | 3 => [2] | 4 => [3] | 5 => [4] | 6 => [4] | 9 => [4] | 10 => [5, 9] | 11 => [10] | 12 => [11] | 13 => [12]
  | 14 => [13]
  | _ => []

/-- Step 7 has ended on a die when its mint is seeded, step 8 when its masks are (R77). -/
def stepDone (rt : Rt) (n : Nat) : Bool :=
  if n = 7 then rt.mint0.seeded && rt.mint1.seeded
  else if n = 8 then rt.mint0.maskSeeded && rt.mint1.maskSeeded
  else decide (n ∈ rt.boot.stepsDone)

/-- Every step in the "After" column has ended; step 11 waits for CD0's mint, step 14 for both dies' masks. -/
def stepReady (rt : Rt) (n : Nat) : Bool :=
  (stepAfter n).all (stepDone rt) && (n ≠ 11 || rt.mint0.seeded) && (n ≠ 14 || stepDone rt 8)

/-- The steps from 1 to 14 with BOOT_STAGE while each runs. -/
def stepCodes : List (Nat × BitVec 8) :=
  [(1, 0x01), (2, 0x02), (3, 0x03), (4, 0x04), (5, 0x04), (6, 0x04), (9, 0x05), (10, 0x06), (7, 0x07), (8, 0x08),
   (11, 0x09), (12, 0x0A), (13, 0x0B), (14, 0x0C)]

/-- A step runs: it has not ended and what it waits for has. -/
def stepRunning (rt : Rt) (n : Nat) : Bool :=
  !stepDone rt n && (if n = 7 then stepDone rt 6 else if n = 8 then rt.mint0.seeded || rt.mint1.seeded else stepReady rt n)

/-- BOOT_STAGE shows the lowest code of the steps that run (R68, R472); a stop code stands. -/
def showStage (rt : Rt) : Rt :=
  if 0x80 ≤ rt.boot.stage.toNat ∨ rt.boot.serviceReady then rt
  else
    match stepCodes.find? fun x => stepRunning rt x.1 with
    | some x => { rt with boot := { rt.boot with stage := x.2 } }
    | none => rt

/-- A step ends. -/
def endStep (n : Nat) (rt : Rt) : Rt :=
  showStage { rt with boot := { rt.boot with stepsDone := addTo n rt.boot.stepsDone } }

/-! ## Islands (Tables 3.1 and 3.2) -/

/-- The island's index within its die's order; I/O die and gondola islands from 36. -/
def dieIndex (i : Nat) : Nat := if i < 18 then i else if i < 36 then i - 18 else i

/-- The ballast cost; 0 for the islands that are not metered (BL, PS, GA, GW). -/
def islandCost (i : Nat) : Nat :=
  let k := dieIndex i
  if k < 8 then 6 else if k < 10 then 3 else if k < 12 then 6
  else match k with
    | 12 => 2 | 13 => 1 | 14 => 1 | 15 => 3 | 16 => 2 | 17 => 1
    | 36 => 2 | 37 => 3 | 38 => 2 | 39 => 2 | 40 => 3 | 41 => 3 | 42 => 2 | 43 => 2 | 44 => 1 | 45 => 2
    | 47 => 2 | 48 => 1 | 49 => 2 | 50 => 2 | 51 => 1 | 52 => 1 | 53 => 1 | 54 => 1 | 55 => 1 | 56 => 1
    | _ => 0

/-- The ballast priority class. -/
def islandClass (i : Nat) : Nat :=
  let k := dieIndex i
  if k < 4 then 1 else if k < 8 then 2 else if k < 12 then 3
  else if 38 ≤ k ∧ k ≤ 41 then 1 else 0

/-- The gating class as Table 25.7 codes it: 0 Idle, 1 Managed, 2 Die, 3 None. -/
def islandGating (i : Nat) : Nat :=
  let k := dieIndex i
  if k < 4 then 1 else if k < 12 then 0 else if k < 18 then 2
  else if 38 ≤ k ∧ k ≤ 41 then 1 else if k = 54 ∨ k = 55 then 2 else 3

/-- The rail of an island: 0 CD0, 1 CD1, 2 the I/O die. -/
def islandRail (i : Nat) : Nat := if i < 18 then 0 else if i < 36 then 1 else 2

def islandOf (rt : Rt) (i : Nat) : Island := kgetD rt.ballast.islands i Island.gated

/-- Replace an island's status. -/
def setIsland (i : Nat) (x : Island) (rt : Rt) : Rt :=
  { rt with ballast := { rt.ballast with islands := kput Island.gated rt.ballast.islands i x } }

/-- The island of an engine (03 R51). -/
def engineIsland (e : EngineRef) : Nat :=
  18 * e.die.val + (match e.kind with
    | .press => 4 + e.idx / 8
    | .hash => 4 + e.idx / 4
    | .loom => 8 + e.idx / 2
    | .reckoner => 10 + e.idx / 8)

/-- An island is ready. -/
def islandReady (rt : Rt) (i : Nat) : Bool := (islandOf rt i).st == .ready

/-- An engine can start work: its island is ready and, but for a reckoner, its mask expander holds a seed (R54, R77). -/
def engineReady (rt : Rt) (e : EngineRef) : Bool :=
  islandReady rt (engineIsland e) && (e.kind == .reckoner || (islandOf rt (engineIsland e)).seeded)

/-- A compute die is powered: one of its islands is not gated. -/
def diePowered (rt : Rt) (d : Nat) : Bool := (List.range 18).any fun k => (islandOf rt (18 * d + k)).st != .gated

/-! ## FIFOs and buckets (R56, R57) -/

def fifoOf (rt : Rt) (rail : Nat) : List BallastEntry :=
  if rail = 0 then rt.ballast.fifoCd0 else if rail = 1 then rt.ballast.fifoCd1 else rt.ballast.fifoIod

/-- Replace a rail's FIFO. -/
def setFifo (rail : Nat) (f : List BallastEntry) (rt : Rt) : Rt :=
  { rt with ballast :=
      if rail = 0 then { rt.ballast with fifoCd0 := f }
      else if rail = 1 then { rt.ballast with fifoCd1 := f } else { rt.ballast with fifoIod := f } }

def tokensOf (rt : Rt) (rail : Nat) : Nat :=
  if rail = 0 then rt.ballast.tokCd0 else if rail = 1 then rt.ballast.tokCd1 else rt.ballast.tokIod

/-- Replace a rail's bucket. -/
def setTokens (rail n : Nat) (rt : Rt) : Rt :=
  { rt with ballast :=
      if rail = 0 then { rt.ballast with tokCd0 := n }
      else if rail = 1 then { rt.ballast with tokCd1 := n } else { rt.ballast with tokIod := n } }

/-- The content of a full bucket, and of n units: a unit refills in 250 ns (R56). -/
def bucketFull : Nat := 4000
def unitsNs (n : Nat) : Nat := 250 * n

/-- Time passes (log 4): every bucket refills continuously up to 16 units, and the clockmaker counts. -/
def advanceNs (dt : Nat) (rt : Rt) : Rt :=
  let ns := rt.clock.ns + dt
  { rt with
    now := rt.now + dt
    clock := { rt.clock with sec := (rt.clock.sec + ns / 1000000000) % 2 ^ 48, ns := ns % 1000000000,
                             ppsHigh := rt.clock.ppsHigh && decide (ns % 1000000000 < 100000000) }
    ballast := { rt.ballast with tokCd0 := min bucketFull (rt.ballast.tokCd0 + dt), tokCd1 := min bucketFull (rt.ballast.tokCd1 + dt),
                                 tokIod := min bucketFull (rt.ballast.tokIod + dt) } }

/-- `us` microseconds pass. -/
def advance (us : Nat) (rt : Rt) : Rt := advanceNs (1000 * us) rt

/-- A timer's moment is reached: the time to it passes (log 4). -/
def advanceTo (t : Nat) (rt : Rt) : Rt := advanceNs (t - rt.now) rt

/-! The limits of the timers whose start the state holds, in nanoseconds. -/

/-- The hold limit of a latch (Table 14.1). -/
def holdLimit : Nat := 16000

/-- The time limit of a job (R213). -/
def jobLimit : Nat := 4200000

/-- The time after which a touched command must be dispatched (R194). -/
def drainLimit : Nat := 400000

/-- The time after which a touched bundle no longer waits for the twin (R195). -/
def drainTwinLimit : Nat := 4700000

/-- Insert by class, then by arrival. -/
def insertEntry (e : BallastEntry) : List BallastEntry → List BallastEntry
  | [] => [e]
  | x :: l => if e.cls < x.cls then e :: x :: l else x :: insertEntry e l

/-- An entry enters its rail's FIFO, or replaces the island's waiting entry (R57). The new entry keeps the replaced one's place, and
its wait begins anew (DESIGN CHOICE, log 47: R57 does not say which place it takes). -/
def enqueue (e : BallastEntry) (rt : Rt) : Rt :=
  let r := islandRail e.island
  let f := fifoOf rt r
  if f.any fun x => x.island = e.island then setFifo r (f.map fun x => if x.island = e.island then e else x) rt
  else setFifo r (insertEntry e f) rt

/-- The entry of an island for a request. -/
def entryFor (rt : Rt) (i : Nat) (k : BallastKind) (cost thr : Nat) : BallastEntry :=
  { island := i, kind := k, cost := cost, throttle := thr, cls := islandClass i, since := rt.now }

/-- Ask for an island's start: a metered island waits in the FIFO (R57). After power-fail nothing is asked (R60), and PERST# holds
the islands in reset (R66). -/
def askStart (i : Nat) (rt : Rt) : Rt :=
  if rt.power.powerFail ∨ rt.power.perst ∨ islandCost i = 0 ∨ islandReady rt i ∨ (islandOf rt i).st = .starting then rt
  else setIsland i { islandOf rt i with st := .starting } (enqueue (entryFor rt i .start (islandCost i) 0) rt)

/-- Ask for an island's stop; a stop costs the same (R58). -/
def askStop (i : Nat) (rt : Rt) : Rt :=
  if rt.power.powerFail ∨ islandCost i = 0 ∨ (islandOf rt i).st = .gated ∨ (islandOf rt i).st = .stopping then rt
  else setIsland i { islandOf rt i with st := .stopping } (enqueue (entryFor rt i .stop (islandCost i) 0) rt)

/-- The islands that are gated with a compute die: its own, and the die link end of the I/O die (Tables 3.1 and 3.2). -/
def dieIslands (d : Nat) : List Nat := (List.range 18).map (18 * d + ·) ++ [54 + d]

/-- Every island of a compute die asks for its start, in ascending order, with the bucket of its rail full as the die begins to
power up (R56, Table 3.4). -/
def wakeDie (d : Nat) (rt : Rt) : Rt :=
  (dieIslands d).foldl (fun r i => askStart i r) (if diePowered rt d then rt else setTokens d bucketFull rt)

/-- A compute die powers down by metered stops (R60, R72). -/
def sleepDie (d : Nat) (rt : Rt) : Rt := (dieIslands d).foldl (fun r i => askStop i r) rt

/-! ## Gating (R54) -/

/-- The engines whose state an island holds. -/
def inIsland (i : Nat) (lo per key : Nat) : Bool :=
  key / 64 == i / 18 && dieIndex i == lo + key % 64 / per

/-- The port whose MAC or sessions an island of the I/O die serves: PA and SA port A, PB and SB port B. -/
def islandPort (i : Nat) : Option Nat :=
  if i = 38 ∨ i = 40 then some 0 else if i = 39 ∨ i = 41 then some 1 else none

/-- An island holds no open job and no held latch, and nothing of it is in flight (R54): a port's islands serve no connection, and
those of port B no peer link (DEDUCED, log 47). -/
def islandIdle (rt : Rt) (i : Nat) : Bool :=
  (rt.clerks.all fun kv => kv.1 = 128 || !(18 * clerkDie kv.1 + kv.1 % 64 / 16 == i) || kv.2.job.isNone) &&
  (rt.presses.all fun kv => !inIsland i 4 8 kv.1 || !kv.2.com.latch.held) &&
  (rt.hashes.all fun kv => !inIsland i 4 4 kv.1 || !kv.2.com.latch.held) &&
  (rt.looms.all fun kv => !inIsland i 8 2 kv.1 || !kv.2.com.latch.held) &&
  (rt.reckoners.all fun kv => !inIsland i 10 8 kv.1 || !kv.2.com.latch.held) &&
  (match islandPort i with
   | none => true
   | some p => (rt.net.conns.all fun kv => kv.2.port != p) && (p = 0 || !rt.peer.linkUp))

/-- A mint loses everything but what a cold reset alone clears: the failure counts and the event flag (R353). -/
def coldSrc (x : NoiseSrc) : NoiseSrc :=
  { NoiseSrc.reset with fails := x.fails, st := if x.st = .retired then .retired else .off }

/-- A mint after a reset or the rip line. -/
def clearMint (m : Mint) : Mint :=
  { Mint.reset with ro0 := coldSrc m.ro0, ro1 := coldSrc m.ro1, ml0 := coldSrc m.ml0, ml1 := coldSrc m.ml1,
                    forerunner := m.forerunner, evt := m.evt, cnt := m.cnt }

/-- Gating removes power: every value the island held is lost (R54). -/
def gateIsland (i : Nat) (rt : Rt) : Rt :=
  let d := i / 18
  let k := dieIndex i
  let rt := setIsland i Island.gated rt
  let rt := { rt with
    presses := rt.presses.filter fun kv => !inIsland i 4 8 kv.1
    hashes := rt.hashes.filter fun kv => !inIsland i 4 4 kv.1
    looms := rt.looms.filter fun kv => !inIsland i 8 2 kv.1
    reckoners := rt.reckoners.filter fun kv => !inIsland i 10 8 kv.1 }
  if k < 4 then
    { rt with rooms := kdel rt.rooms (4 * d + k),
              clerks := rt.clerks.filter fun kv => kv.1 = 128 || !(18 * clerkDie kv.1 + kv.1 % 64 / 16 == i) }
  else if k = 13 then setMint d (clearMint (mintOf rt d)) rt
  else if k = 15 then
    { rt with strong := if d = 0 then { rt.strong with cache0 := [] } else { rt.strong with cache1 := [] } }
  else if k = 38 then { rt with net := { rt.net with portA := { rt.net.portA with link := false } } }
  else if k = 39 then { rt with net := { rt.net with portB := { rt.net.portB with link := false } } }
  else rt

/-! ## The rows -/

/-- A die's temperature as its two detectors read it, in units of 0.125 °C (25 Table 25.6). -/
def dieTemp (rt : Rt) (d : Nat) : Int :=
  max (kgetD rt.ballast.detA d 0x8000#16).toInt (kgetD rt.ballast.detB d 0x8000#16).toInt

/-- The islands that thermal throttling slows: counting rooms and press groups (Table 2.13, R58). -/
def throttles (i : Nat) : Bool := decide (i < 36 ∧ dieIndex i < 8)

/-- A further 10 % step of an island waits for its grant. -/
def stepWaits (rt : Rt) (i : Nat) : Bool :=
  (fifoOf rt (islandRail i)).any fun x => x.island == i && x.kind == .freq && decide ((islandOf rt i).throttle < x.throttle)

/-- The islands of a die that throttling slows. -/
def throttled (d : Nat) : List Nat := if d < 2 then (List.range 8).map (18 * d + ·) else []

/-- An island that a further step slows: ready, above the lowest speed, and with no step waiting. -/
def canSlow (rt : Rt) (i : Nat) : Bool := throttles i && islandReady rt i && decide ((islandOf rt i).throttle < 9) && !stepWaits rt i

/-- A die is being throttled. -/
def throttling (rt : Rt) (d : Nat) : Bool := (throttled d).any fun i => decide (0 < (islandOf rt i).throttle) || stepWaits rt i

/-- A further step is due: above 95 °C, and once the die is throttled until it falls below 92 °C (Table 2.13). -/
def stepDue (rt : Rt) (d : Nat) (t : Int) : Bool := decide (760 < t) || (decide (736 ≤ t) && throttling rt d)

/-- One 10 % step of the listed islands, 1 unit each (R58), counted as one event of THERMAL_HIGH with the step number (R43);
nothing where no island can be slowed. -/
def slow (d : Nat) (l : List Nat) (rt : Rt) : Rt :=
  if l = [] then rt
  else
    let step := l.foldl (fun m i => max m ((islandOf rt i).throttle + 1)) 0
    let rt := l.foldl (fun r i => enqueue (entryFor r i .freq 1 ((islandOf r i).throttle + 1)) r) rt
    raise { source := .thermalHigh, scope := d, island := some (18 * d + 17), booth := none,
            detail := [BitVec.ofNat 8 step], houseProg := false } rt

/-- One 10 % step back toward full speed, 1 unit (R58): it replaces a step that still waits. -/
def release (i : Nat) (rt : Rt) : Rt :=
  if islandReady rt i && (decide (0 < (islandOf rt i).throttle) || stepWaits rt i) then
    enqueue (entryFor rt i .freq 1 ((islandOf rt i).throttle - 1)) rt
  else rt

/-- BALLAST_REQUEST: an island start, stop or frequency step enters its FIFO. A stop needs an idle island that is gated
on request (Idle or Managed); a frequency step is the one that its die's temperature asks for (R54, R57, R58). In the
auxiliary-power hold the compute dies stay powered down (R30). -/
def doBallastRequest (i : Nat) (k : BallastKind) (rt : Rt) : Rt :=
  if 60 ≤ i ∨ !islandsRun rt ∨ (rt.boot.auxLow ∧ i < 36) then rt
  else match k with
    | .start => askStart i rt
    | .stop => if islandGating i ≤ 1 && islandIdle rt i then askStop i rt else rt
    | .freq =>
      let t := dieTemp rt (i / 18)
      if stepDue rt (i / 18) t then (if canSlow rt i then slow (i / 18) [i] rt else rt)
      else if throttles i && decide (t < 736) then release i rt
      else rt

/-- BALLAST_REQUEST. -/
def execBallastRequest (i : Nat) (k : BallastKind) (s : State) : Res := .next (onRt (doBallastRequest i k) s)

/-- A frequency step takes effect; a step back is followed by the next one until the island runs at full speed (Table 2.13). -/
def takeStep (i thr : Nat) (rt : Rt) : Rt :=
  let old := (islandOf rt i).throttle
  let rt := setIsland i { islandOf rt i with throttle := thr } rt
  if thr < old then release i rt else rt

/-- BALLAST_GRANT: once the bucket holds the head entry's cost, it is removed and the entry proceeds; the row's moment is
the first at which it does, so the time to refill passes (R57). An island with a job or a latch is not gated: its stop waits (R54). -/
def doBallastGrant (rail : Nat) (rt : Rt) : Rt :=
  match fifoOf rt rail with
  | [] => rt
  | e :: f =>
    if !islandsRun rt ∨ (e.kind = .stop ∧ !islandIdle rt e.island) then rt
    else
      let rt := advanceNs (unitsNs e.cost - tokensOf rt rail) rt
      let rt := setTokens rail (tokensOf rt rail - unitsNs e.cost) (setFifo rail f rt)
      let rt := { rt with ballast := { rt.ballast with waitMax := max rt.ballast.waitMax (min 0xFFFF (rt.now - e.since)) } }
      match e.kind with
      | .start => rt
      | .stop => gateIsland e.island rt
      | .freq => takeStep e.island e.throttle rt

/-- BALLAST_GRANT. -/
def execBallastGrant (rail : Fin 3) (s : State) : Res := .next (onRt (doBallastGrant rail.val) s)

/-- An island's entry waits in a FIFO. -/
def islandWaiting (rt : Rt) (i : Nat) : Bool := (fifoOf rt (islandRail i)).any fun x => x.island = i

/-- Lay words over a memory from an address. -/
def putCode : Nat → List Word → KMap Word → KMap Word
  | _, [], m => m
  | a, w :: l, m => putCode (a + 1) l (kput 0 m a w)

/-- The house part of every room's code memory (R218). -/
def houseCode (progs : List ProgEntry) : KMap Word := progs.foldl (fun m p => putCode p.base p.code m) []

/-- A counting room at its ungating: memories zero, code memory loaded from the active library image and the house programs
(R54, R218). -/
def loadRoom (nv : Nv) (i : Nat) (rt : Rt) : Rt :=
  if i < 36 ∧ dieIndex i < 4 then
    let c := if nv.image3.activeB then nv.image3.copyB else nv.image3.copyA
    setRoom (4 * (i / 18) + dieIndex i) { Room.reset with code := houseCode nv.progs, image := c.signed, version := c.version } rt
  else rt

/-- The firmware turns idle gating on with a period of 10 µs to 10 ms, or off (R55, R475): 0 turns it off. -/
def setIdle (p : Nat) (rt : Rt) : Rt :=
  if p = 0 then { rt with ballast := { rt.ballast with idleGating := false, idlePeriod := 0 } }
  else if 10 ≤ p ∧ p ≤ 10000 then { rt with ballast := { rt.ballast with idleGating := true, idlePeriod := p } }
  else rt

/-- IDLE_GATING_TIMER: with idle gating on, an Idle-class island that has been idle for the period is gated (R55). The row carries
the period where the firmware has set it since the last such row (log 47). -/
def doIdleGatingTimer (i : Nat) (period : Option Nat) (rt : Rt) : Rt :=
  let rt := if inService rt then (period.map fun p => setIdle p rt).getD rt else rt
  if islandsRun rt && rt.ballast.idleGating && decide (i < 36) && islandGating i == 0 && islandReady rt i && islandIdle rt i then askStop i rt
  else rt

/-- IDLE_GATING_TIMER. -/
def execIdleGatingTimer (isl : IdleTimer) (s : State) : Res := .next (onRt (doIdleGatingTimer isl.island isl.period) s)

/-- The temperature detectors of a site read a temperature in units of 0.125 °C. -/
def readTemp (d : Nat) (t : Int) (rt : Rt) : Rt :=
  let v : BitVec 16 := BitVec.ofInt 16 t
  { rt with ballast := { rt.ballast with detA := kput 0x8000#16 rt.ballast.detA d v,
                                         detB := kput 0x8000#16 rt.ballast.detB d v } }

/-- The hottest powered die among those read. -/
def isHottest (rt : Rt) (d : Nat) : Bool := (List.range 3).all fun e => e = d || decide (dieTemp rt e ≤ dieTemp rt d)

/-- THERMAL_THROTTLE_STEP: above 95 °C, and then until it falls below 92 °C, the ballast slows the hottest die's clerk and press
islands by one 10 % step (R43, R58, Table 2.13). The I/O die has no such island. -/
def doThermalThrottleStep (d : Nat) (t : Int) (rt : Rt) : Rt :=
  let rt := readTemp d t rt
  if stepDue rt d t && isHottest rt d && islandsRun rt then slow d ((throttled d).filter (canSlow rt)) rt else rt

/-- THERMAL_THROTTLE_STEP. -/
def execThermalThrottleStep (d : Fin 3) (t : Int) (s : State) : Res := .next (onRt (doThermalThrottleStep d.val t) s)

/-- THROTTLE_RELEASE: below 92 °C the throttled islands return to full speed step by step, each step an entry of one unit, the next
of which follows its grant (R43, R58, R59). -/
def doThrottleRelease (d : Nat) (t : Int) (rt : Rt) : Rt :=
  let rt := readTemp d t rt
  if t < 736 ∧ islandsRun rt then (throttled d).foldl (fun r i => release i r) rt else rt

/-- THROTTLE_RELEASE. -/
def execThrottleRelease (d : Fin 3) (t : Int) (s : State) : Res := .next (onRt (doThrottleRelease d.val t) s)

/-- THERMAL_FATAL: above 105 °C a fatal fault, the compute dies powered down, keys kept (Table 2.13, R88). -/
def doThermalFatal (d : Nat) (t : Int) (rt : Rt) : Rt :=
  let rt := readTemp d t rt
  if 840 < t ∧ mainPower rt ∧ !rt.power.powerFail then
    let rt := raise { source := .thermalFatal, scope := d, island := some (if d < 2 then 18 * d + 17 else 46), booth := none,
                      detail := [], houseProg := false } rt
    sleepDie 1 (sleepDie 0 rt)
  else rt

/-- THERMAL_FATAL. -/
def execThermalFatal (d : Fin 3) (t : Int) (s : State) : Res := .next (onRt (doThermalFatal d.val t) s)

/-- RAIL_WARN: a rail of Table 2.8 outside ±8 % for 50 µs halts service (Table 21.3, R418). -/
def doRailWarn (row : Nat) (rt : Rt) : Rt :=
  if row < 8 ∧ mainPower rt ∧ !rt.power.powerFail then raise (plainEvent .railWarn [BitVec.ofNat 8 row]) rt else rt

/-- RAIL_WARN. -/
def execRailWarn (row : Nat) (s : State) : Res := .next (onRt (doRailWarn row) s)

end Sys2Proof.Machine
end

