-- ==== Sys2Proof/Machine/Faults.lean ====
section
/-! DEFINITION. The rows of the fault collector and the alert pin (22), the fabric's integrity errors (03 Table 3.5), and
which BAR0 blocks are served in each phase (25 Table 25.2). -/

namespace Sys2Proof.Machine

/-! ## Service of BAR0 -/

/-- The host reaches the module: main power is present, PERST# released and the link up (Table 25.2). -/
def hostReaches (rt : Rt) : Bool := mainPower rt && !rt.power.powerFail && !rt.power.perst && rt.link.up

/-- The phases in which every block is served: from the seal onward, in tamper halt and after a fatal fault (R469). -/
def allServed (rt : Rt) : Bool := rt.boot.isSealed || inTamperHalt rt || inFatal rt

/-- Configuration space is served: from 100 ms after the start, or from the seal; a module reset leaves it served (R84, R67). -/
def configServed (rt : Rt) : Bool :=
  allServed rt || rt.boot.lastReset == 2 || decide (rt.boot.startAt + 100000000 ≤ rt.now)

/-- The block of an offset is served: clockmaker, mint status, tally presets and violation records only when all are, configuration space
(log 27) as R84 says. -/
def blockServed (rt : Rt) (off : Nat) : Bool :=
  hostReaches rt && (if 0x1400000 ≤ off then configServed rt else allServed rt || !(decide (0x7000 ≤ off ∧ off < 0xB000)))

/-! ## Rows -/

/-- The event as its source gives it: the record of LOCKSTEP names the head clerks' IC and the address at which the comparator found a
difference, the first five bytes of the row's detail (R222, Table 22.1). -/
def sourceEvent (rt : Rt) (e : FaultEvent) : FaultEvent :=
  if e.source = .lockstep then { e with detail := le 3 (clerkOf rt 128).ic.toNat ++ padTo 5 (e.detail.take 5) } else e

/-- FAULT_EVENT: classified, escalated, recorded and signalled (R429 to R436). -/
def doFaultEvent (e : FaultEvent) (rt : Rt) : Rt := if powered rt then raise (sourceEvent rt e) rt else rt

/-- FAULT_EVENT. -/
def execFaultEvent (e : FaultEvent) (s : State) : Res := .next (onRt (doFaultEvent e) s)

/-- Write one to a flag's clear bit: a flag that is clear clears its count, a set flag clears (R3, R434). -/
def clearFlag (w flag : Bool) (n : Nat) : Bool × Nat := if w then (false, if flag then n else 0) else (flag, n)

/-- FAULT_ACK: writing 1 to PEND_CORR, PEND_CONT, PEND_FATAL or PEND_BOOTH; HALTED stays set (R434, R435). -/
def doFaultAck (v : BitVec 32) (rt : Rt) : Rt :=
  if hostReaches rt then
    let f := rt.fault
    let a := clearFlag (v.getLsbD 0) f.pendCorr f.cntCorr
    let b := clearFlag (v.getLsbD 1) f.pendCont f.cntCont
    let c := clearFlag (v.getLsbD 2) f.pendFatal f.cntFatal
    let d := clearFlag (v.getLsbD 4) f.pendBooth f.cntBooth
    { rt with fault := { f with pendCorr := a.1, cntCorr := a.2, pendCont := b.1, cntCont := b.2, pendFatal := c.1,
                                cntFatal := c.2, pendBooth := d.1, cntBooth := d.2 } }
  else rt

/-- FAULT_ACK. -/
def execFaultAck (v : BitVec 32) (s : State) : Res := .next (onRt (doFaultAck v) s)

/-- ALERT_WIDTH_EXPIRY: the width has run and the pin follows HOLD (R439). -/
def doAlertWidthExpiry (rt : Rt) : Rt :=
  if rt.alert.widthActive then
    let rt := advanceTo rt.alert.widthEnds rt
    repin { rt with alert := { rt.alert with widthActive := false } }
  else rt

/-- ALERT_WIDTH_EXPIRY. -/
def execAlertWidthExpiry (s : State) : Res := .next (onRt doAlertWidthExpiry s)

/-- ALERT_HOLD_CLEAR: the firmware clears HOLD after PEND_CONT, PEND_FATAL and HALTED have cleared (R439). -/
def doAlertHoldClear (rt : Rt) : Rt :=
  if rt.fault.pendCont || rt.fault.pendFatal || rt.fault.halted then rt
  else repin { rt with alert := { rt.alert with hold := false } }

/-- ALERT_HOLD_CLEAR. -/
def execAlertHoldClear (s : State) : Res := .next (onRt doAlertHoldClear s)

/-- The detail of a fabric event: source island and destination address (Table 22.1). -/
def fabricDetail (src : Nat) (addr : BitVec 56) : Bytes := BitVec.ofNat 8 src :: le 7 addr.toNat

/-- The checker's finding is a correction. -/
def isCorrected : FlitCheck → Bool
  | .corrected _ => true
  | _ => false

/-- FABRIC_CE: a checker that finds a single-bit error corrects the flit, delivers it and counts the event (R61, R62, Table 3.5). -/
def doFabricCe (die checker src : Nat) (addr : BitVec 56) (f : Flit) (rt : Rt) : Rt :=
  if isCorrected (checkFlit rt.fabricPerm f) then
    doFaultEvent { source := .fabricCe, scope := die, island := some checker, booth := none,
                   detail := fabricDetail src addr, houseProg := false } rt
  else rt

/-- FABRIC_CE. -/
def execFabricCe (die : Fin 3) (checker src : Nat) (f : PassingFlit) (s : State) : Res :=
  .next (onRt (doFabricCe die.val checker src f.addr f.flit) s)

end Sys2Proof.Machine
end

