-- ==== Sys2Proof/Machine/Kdf.lean ====
section
/-! DEFINITION. The DRBG of the mints (R344) and the key derivations of the locksmith (R272, R279, R289, R392): CTR_DRBG
of SP 800-90A, SP 800-108, HKDF-Expand, one-step KDF, AES DUKPT, EMV option A and the common session key, as the
standards of 00 Table 0.7 define them (assumption log 6). -/

namespace Sys2Proof.Machine

/-! ## CTR_DRBG with AES-256 and the derivation function (R344) -/

/-- BCC of SP 800-90A: a CBC chain from zero. -/
def drbgBcc (key data : Bytes) : Bytes := cbcMac false key data

/-- `n` chained blocks of the derivation function. -/
def drbgDfOut (key : Bytes) : Nat → Bytes → Bytes
  | 0, _ => []
  | n + 1, x =>
    let y := aesEnc key x
    y ++ drbgDfOut key n y

/-- Block_Cipher_df with 48 output bytes. -/
def drbgDf (input : Bytes) : Bytes :=
  let s := pad16 (be 4 input.length ++ be 4 48 ++ input ++ [0x80#8])
  let k := bytesOf (List.range 32)
  let t := drbgBcc k (be 4 0 ++ zeros 12 ++ s) ++ drbgBcc k (be 4 1 ++ zeros 12 ++ s) ++
    drbgBcc k (be 4 2 ++ zeros 12 ++ s)
  drbgDfOut (slice t 0 32) 3 (slice t 32 16)

/-- `n` keystream blocks after counter V; the counter counts modulo 2^128. -/
def drbgBlocks (key : Bytes) : Nat → Nat → Bytes
  | 0, _ => []
  | n + 1, v => aesEnc key (be 16 (v + 1)) ++ drbgBlocks key n (v + 1)

/-- CTR_DRBG_Update: the new key and V. -/
def drbgUpdate (data key v : Bytes) : Bytes × Bytes :=
  let t := bxor (drbgBlocks key 3 (ofBe v)) data
  (slice t 0 32, slice t 32 16)

/-- Instantiate with entropy, nonce and personalisation string. -/
def drbgInst (entropy nonce pers : Bytes) : Bytes × Bytes :=
  drbgUpdate (drbgDf (entropy ++ nonce ++ pers)) (zeros 32) (zeros 16)

/-- Reseed with entropy and no additional input. -/
def drbgReseed (entropy key v : Bytes) : Bytes × Bytes := drbgUpdate (drbgDf entropy) key v

/-- One generate request: the output, and the next key and V. -/
def drbgGen (n : Nat) (key v : Bytes) : Bytes × Bytes × Bytes :=
  let m := cdiv n 16
  let out := (drbgBlocks key m (ofBe v)).take n
  (out, drbgUpdate (zeros 48) key (be 16 (ofBe v + m)))

/-! ## SP 800-108, HKDF, one-step -/

/-- SP 800-108 counter mode with a 4-byte counter: the counter, then the fixed input, `n` blocks from counter `i`. -/
def kbkdfBlocks (prf : Bytes → Bytes) (fixed : Bytes) : Nat → Nat → Bytes
  | 0, _ => []
  | n + 1, i => prf (be 4 i ++ fixed) ++ kbkdfBlocks prf fixed n (i + 1)

/-- SP 800-108 counter mode with HMAC-SHA-384: label, 00h, context and the length in bits (R272). -/
def kbkdfHmac (key label ctx : Bytes) (bits : Nat) : Bytes :=
  (kbkdfBlocks (hmac .sha384 key) (label ++ [0x00#8] ++ ctx ++ be 4 bits) (cdiv bits 384) 1).take (bits / 8)

/-- SP 800-108 counter mode with CMAC-AES over data that already holds label, 00h and context (Table 13.5, 0001h). -/
def kbkdfCmac (key data : Bytes) (n : Nat) : Bytes :=
  (kbkdfBlocks (cmac false key) (data ++ be 4 (8 * n)) (cdiv n 16) 1).take n

/-- HKDF-Expand blocks (RFC 5869). -/
def hkdfBlocks (prk info : Bytes) : Nat → Nat → Bytes → Bytes
  | 0, _, _ => []
  | n + 1, i, t =>
    let t' := hmac .sha384 prk (t ++ info ++ [BitVec.ofNat 8 i])
    t' ++ hkdfBlocks prk info n (i + 1) t'

/-- HKDF-SHA-384, expand only (Table 13.5, 0002h). -/
def hkdfExpand (prk info : Bytes) (n : Nat) : Bytes := (hkdfBlocks prk info (cdiv n 48) 1 []).take n

/-- The one-step KDF of SP 800-56C with a hash (R392). -/
def oneStepKdf (a : HashAlg) (z info : Bytes) (n : Nat) : Bytes :=
  (kbkdfBlocks (digest a 0) (z ++ info) (cdiv n (digestLen 0 a)) 1).take n

/-- TLS 1.3's HKDF-Expand-Label (RFC 8446, 7.1) with SHA-384 and an empty context, for "traffic upd" and the like. -/
def hkdfLabel (secret label : Bytes) (n : Nat) : Bytes :=
  let full := bytesOf [0x74, 0x6C, 0x73, 0x31, 0x33, 0x20] ++ label
  hkdfExpand secret (be 2 n ++ [BitVec.ofNat 8 full.length] ++ full ++ [0x00#8]) n

/-! ## Check values (R289) -/

/-- The check value of algorithm T: 3 bytes. -/
def checkT (key : Bytes) : Bytes := (tdeaEnc key (zeros 8)).take 3

/-- The check value of algorithm A: 5 bytes. -/
def checkA (key : Bytes) : Bytes := (cmac false key (zeros 16)).take 5

/-- The check value of algorithm H: 5 bytes. -/
def checkH (key : Bytes) : Bytes := (hmac .sha256 key (zeros 32)).take 5

/-! ## AES DUKPT (ANSI X9.24-3) -/

/-- The algorithm indicator and length of a working key type (R384): 02h AES-128, 03h AES-192, 04h AES-256. -/
def dukptKeyLen (ty : Nat) : Nat :=
  match ty with
  | 2 => 16
  | 3 => 24
  | _ => 32

/-- Derivation data: version, block count, usage, algorithm, length in bits, and the 8 bytes of context. -/
def dukptData (usage ty blk : Nat) (ctx : Bytes) : Bytes :=
  [0x01#8, BitVec.ofNat 8 blk] ++ be 2 usage ++ be 2 ty ++ be 2 (8 * dukptKeyLen ty) ++ ctx

/-- Derive a key of a type from a key and derivation context. -/
def dukptDerive (key : Bytes) (usage ty : Nat) (ctx : Bytes) : Bytes :=
  (((List.range (cdiv (dukptKeyLen ty) 16)).map fun i => aesEnc key (dukptData usage ty (i + 1) ctx)).flatten).take
    (dukptKeyLen ty)

/-- The key type of a key's own length. -/
def dukptType (n : Nat) : Nat := if n = 16 then 2 else if n = 24 then 3 else 4

/-- The intermediate key of a counter: one derivation for each set bit, from the most significant (usage 8000h). -/
def dukptWalk (ty : Nat) (id4 : Bytes) (counter : Nat) : Nat → Nat → Bytes → Bytes
  | 0, _, key => key
  | n + 1, acc, key =>
    if counter.testBit n then
      let a := acc + 2 ^ n
      dukptWalk ty id4 counter n a (dukptDerive key 0x8000 ty (id4 ++ be 4 a))
    else dukptWalk ty id4 counter n acc key

/-- The working key of a 12-byte KSN: the initial key (usage 8001h), the intermediate key, then the working key. -/
def dukptWorking (bdk ksn : Bytes) (usage ty : Nat) : Bytes :=
  let kty := dukptType bdk.length
  let ik := dukptDerive bdk 0x8001 kty (slice ksn 0 8)
  let ctr := beAt ksn 8 4
  let ink := dukptWalk kty (slice ksn 4 4) ctr 32 0 ik
  dukptDerive ink usage ty (slice ksn 4 8)

/-- The number of set bits among the low `n` bits. -/
def popcount : Nat → Nat → Nat
  | 0, _ => 0
  | n + 1, v => popcount n v + b2n (v.testBit n)

/-! ## EMV (Book 2, Annex A1) -/

/-- The option A preparation of R381: PAN digits and PSN digits, their rightmost 16, left-padded with 0. -/
def emvOptionA (panDigits psn : List Nat) : Bytes :=
  let d := panDigits ++ psn
  packNibbles (List.replicate (16 - d.length) 0 ++ d.drop (d.length - 16))

/-- The card master key of option A: the halves are the encipherments of Y and of its complement. An AES key enciphers
Y followed by its complement as one block. -/
def emvCardKey (tdea : Bool) (imk y : Bytes) : Bytes :=
  let ny := y.map (· ^^^ 0xFF)
  if tdea then tdeaEnc imk y ++ tdeaEnc imk ny
  else aesEnc imk (y ++ ny) ++ (if imk.length = 16 then [] else aesEnc imk (ny ++ y)).take (imk.length - 16)

/-- The common session key derivation from the 2-byte ATC. -/
def emvSession (tdea : Bool) (mk atc : Bytes) : Bytes :=
  if tdea then tdeaEnc mk (atc ++ bytesOf [0xF0, 0, 0, 0, 0, 0]) ++ tdeaEnc mk (atc ++ bytesOf [0x0F, 0, 0, 0, 0, 0])
  else if mk.length = 16 then aesEnc mk (atc ++ zeros 14)
  else (aesEnc mk (atc ++ bytesOf [0xF0] ++ zeros 13) ++ aesEnc mk (atc ++ bytesOf [0x0F] ++ zeros 13)).take mk.length

/-- Derivation 0004h: 8 bytes of prepared PAN and the 2-byte ATC. -/
def emvDerive (tdea : Bool) (imk data : Bytes) : Bytes :=
  emvSession tdea (emvCardKey tdea imk (slice data 0 8)) (slice data 8 2)

end Sys2Proof.Machine
end

