-- ==== Sys2Proof/Machine/TileSum.lean ====
section
/-! DEFINITION. Tile checksums (12 R257, R258; 10 R215): the polynomial checksum in GF(2^64) under a key (h, s), for the tiles of the
strongroom and of code memory, and the check of what a place returned. -/

namespace Sys2Proof.Machine

/-- x times an element of GF(2^64), modulo x^64 + x^4 + x^3 + x + 1. -/
def gf64Next (v : Nat) : Nat := if (2 * v).testBit 64 then (2 * v) ^^^ (2 ^ 64 + 0x1B) else 2 * v

/-- Multiplication in GF(2^64): `n` bits of the second factor, the highest first. -/
def gf64Steps (a b : Nat) : Nat → Nat → Nat
  | 0, acc => acc
  | n + 1, acc => gf64Steps a b n (gf64Next acc ^^^ (if b.testBit n then a else 0))

def gf64Mul (a b : Nat) : Nat := gf64Steps a b 64 0

/-- The two halves of a 16-byte checksum key: h from bytes 0 to 7, s from bytes 8 to 15, little-endian. A drawn h of 0 counts as 1
(DESIGN CHOICE, log 52: R257 says only that h is nonzero). -/
def sumKey (b : Bytes) : Nat × Nat := (if leAt b 0 8 = 0 then 1 else leAt b 0 8, leAt b 8 8)

/-- The checksum of a list of 64-bit values (R257). -/
def polySum (k : Nat × Nat) (m : List Nat) : Nat := gf64Mul (m.foldl (fun c x => gf64Mul c k.1 ^^^ x) 0) k.1 ^^^ k.2

/-- The 64-bit values of a tile's plaintext, little-endian. -/
def tileWords (d : Bytes) : List Nat := (List.range 128).map fun i => leAt d (8 * i) 8

/-- The checksum of strongroom tile `t` at version `v`. -/
def tileSum (k : Nat × Nat) (t v : Nat) (d : Bytes) : Nat := polySum k (t :: tileWords d ++ [v])

/-- The checksum of a code memory tile of 64 words at an image version (R215). -/
def codeSum (k : Nat × Nat) (t v : Nat) (w : List Word) : Nat := polySum k (t :: w.map BitVec.toNat ++ [v])

/-- The per-boot tile key as (h, s). No command runs before the boot monitor has drawn it (R252). -/
def bootKey (rt : Rt) : Nat × Nat := sumKey (rt.strong.tileKey.getD [])

/-- A tile that a place returned fails its check under a key. -/
def tileBad (k : Nat × Nat) (t : Nat) (x : TileImage) : Bool := tileSum k t x.version.toNat x.data != x.sum.toNat

/-- What a place returned for a tile, where it did not return the tile as it was stored, fails the check under the per-boot key. -/
def readBad (rt : Rt) (l : List (Nat × TileImage)) (t : Nat) : Bool :=
  match kget l t with
  | none => false
  | some x => tileBad (bootKey rt) t x

end Sys2Proof.Machine
end

