-- ==== Sys2Proof/Machine/Operands.lean ====
section
/-! DEFINITION. The operand forms of the Karua-20: addressing modes and their legality (10 R206 to R208), the address
space and engine ports (10 R202, 11 R239, R240), extents, and reading and writing words, doubles and strings (R224). -/

namespace Sys2Proof.Machine

/-! ## Trap codes (10 Table 10.11) -/

/-- A trap: its code and, for BRIDLE, the refused word with its direction and cause. -/
structure Trap where
  code : Nat
  refused : Option (Nat × Bool × Nat)
  deriving DecidableEq, Repr

/-- A trap without a refused access. -/
def trapOf (n : Nat) : Trap := { code := n, refused := none }

def trapOpcode : Trap := trapOf 0x01
def trapMode : Trap := trapOf 0x02
def trapAddress : Trap := trapOf 0x03
def trapPrivileged : Trap := trapOf 0x05
def trapKBranch : Trap := trapOf 0x06
def trapLength : Trap := trapOf 0x07
def trapDivide : Trap := trapOf 0x08
def trapLatchHouse : Trap := trapOf 0x09
def trapTime : Trap := trapOf 0x0A
def trapStatus : Trap := trapOf 0x0B
def trapStack : Trap := trapOf 0x0C

/-- BRIDLE: the room bridle refused the word at `a`. -/
def trapBridle (a : Nat) (wr : Bool) (cause : Nat) : Trap := { code := 0x04, refused := some (a, wr, cause) }

/-! ## Jobs and houses -/

/-- The house of the job that a clerk runs: the house of its command's booth; 400h for a clerk without a job. -/
def jobHouse (rt : Rt) (c : ClerkId) : Nat :=
  match (clerkOf rt c).job with
  | none => 0x400
  | some id => match kget rt.cmds id with
    | none => 0x400
    | some m => match boothOf rt m.booth with
      | none => 0x400
      | some b => b.cfg.house

/-- The epoch of the job that a clerk runs; the present one for a clerk without a job. -/
def jobEpoch (rt : Rt) (c : ClerkId) : Nat :=
  match (clerkOf rt c).job.bind (kget rt.cmds) with
  | none => rt.epoch
  | some m => m.epoch

/-- The epoch of a partition change in progress. -/
def partEpoch (rt : Rt) : Option Nat := (rt.disp.changes.find? fun x => x.kind == .partition).map Change.epoch

/-- The partition map that a command of an epoch lives under: while a change is in progress, older commands keep the map that was in
force at their admission (R15, R191, R198). -/
def mapFor (rt : Rt) (epoch : Nat) : Option PartMap :=
  match partEpoch rt with
  | some e => if epoch < e then rt.disp.partOld else rt.disp.part
  | none => rt.disp.part

/-- The house that a unit is bound to by a partition map (R196); none in shared mode. -/
def engineHouse (map : Option PartMap) (e : EngineRef) : Option Nat :=
  match map with
  | none => none
  | some m =>
    match e.kind with
    | .press => kget m.groups (e.die.val * 4 + e.idx / 8)
    | .hash => kget m.groups (e.die.val * 4 + e.idx / 4)
    | .loom => kget m.looms (e.die.val * 4 + e.idx)
    | .reckoner => kget m.reckoners (e.die.val * 16 + e.idx)

/-- The loom of CD1.LM1 that the peer link holds (R170); which of its two the spec does not say. -/
def peerLoom (rt : Rt) (e : EngineRef) : Bool :=
  rt.peer.mode && e.die == 1 && (match e.kind with
    | .loom => e.idx == (if Config.peerLoomHigh then 3 else 2)
    | _ => false)

/-- The engine is bound to another house than the job's in partitioned mode, by the map of the job's epoch (R15, R23). -/
def otherHouse (rt : Rt) (c : ClerkId) (e : EngineRef) : Bool :=
  match engineHouse (mapFor rt (jobEpoch rt c)) e with
  | none => false
  | some h => h != jobHouse rt c

/-! ## Engine ports (11 Table 11.5) -/

/-- What a port address names, with the word offset in its block. -/
inductive PortRef where
  | engine (e : EngineRef) (off : Nat)
  | mint
  | input (off : Nat)
  | output (off : Nat)
  | reserved
  deriving DecidableEq, Repr

/-- The die of a clerk as a `Die`. -/
def clerkDieF (c : ClerkId) : Die := if c / 64 = 1 then 1 else 0

/-- Decode a port address of a clerk's die. -/
def portRef (c : ClerkId) (a : Nat) : PortRef :=
  let o := a - 0xF0000
  let d := clerkDieF c
  if o < 0x800 then .engine { die := d, kind := .press, idx := o / 64 } (o % 64)
  else if o < 0xC00 then .engine { die := d, kind := .hash, idx := (o - 0x800) / 64 } (o % 64)
  else if o < 0xD00 then .engine { die := d, kind := .loom, idx := (o - 0xC00) / 64 } (o % 64)
  else if o < 0x1100 then .engine { die := d, kind := .reckoner, idx := (o - 0xD00) / 64 } (o % 64)
  else if o < 0x1140 then .mint
  else if o < 0x1180 then .input (o % 64)
  else if o < 0x11C0 then .output (o % 64)
  else .reserved

/-- The port that a clerk's address names; the head clerks reach no engine port (R222). -/
def portOf (c : ClerkId) (a : Nat) : PortRef := if c = 128 ∨ a < 0xF0000 then .reserved else portRef c a

/-- The latch word of an engine (11 Table 11.6). -/
def latchWord (x : EngCom) : Nat :=
  b2n x.latch.held * 2 ^ 19 + b2n x.latch.wiping * 2 ^ 18 + (if x.latch.held then x.latch.holder % 128 else 0)

/-- The latch word of the loom that the peer link holds: HELD, with a HOLDER that the spec does not state (R170, log 33). -/
def peerLatchWord : Nat := 2 ^ 19 + Config.peerHolder.toNat

/-- The status word of an engine (11 Table 11.7). -/
def statusWord (x : EngCom) : Nat :=
  b2n x.latch.wiping * 4 + b2n (4 ≤ x.queue.length) * 2 + b2n (x.queue ≠ [] || x.running)

/-- A clerk holds an engine's latch. -/
def holds (rt : Rt) (c : ClerkId) (e : EngineRef) : Bool := decide (e ∈ (clerkOf rt c).latches)

/-- Read a port word: a trap, or the word (R240). -/
def readPort (rt : Rt) (c : ClerkId) (a : Nat) : Except Trap Nat :=
  match portOf c a with
  | .engine e off =>
    let x := comOf rt e
    if off = 0 then
      if otherHouse rt c e then .error trapLatchHouse else .ok (if peerLoom rt e then peerLatchWord else latchWord x)
    else if !holds rt c e then .error trapAddress
    else if off = 1 then .ok (statusWord x)
    else if off = 2 then .ok x.queue.length
    else .ok 0
  | _ => .error trapAddress

/-! ## The address space (10 Table 10.2) -/

/-- Address is in engine port space. -/
def isPort (a : Nat) : Bool := decide (0xF0000 ≤ a)

/-- May a clerk read the word at an address? `code` is set for operand modes 1, 2 and Ch, which may read code memory.
The head clerks' space beyond the desk is internal to the module (R222). -/
def canRead (rt : Rt) (c : ClerkId) (code : Bool) (a : Nat) : Except Trap Unit :=
  if c = 128 then .ok ()
  else if a < 0x60000 then .ok ()
  else if a < 0x80000 then
    match roomRefusal rt (clerkRoom c) (jobHouse rt c) false 1 a with
    | some x => .error (trapBridle a false x.2)
    | none => .ok ()
  else if a < 0x90000 then if code then .ok () else .error trapAddress
  else if a < 0xF0000 then .error trapAddress
  else match readPort rt c a with
    | .error t => .error t
    | .ok _ => .ok ()

/-- May a clerk write the word at an address? -/
def canWrite (rt : Rt) (c : ClerkId) (a : Nat) : Except Trap Unit :=
  if c = 128 then .ok ()
  else if a < 0x200 then .ok ()
  else if a < 0x300 then .error trapAddress
  else if a < 0x40000 then .ok ()
  else if a < 0x60000 then .error trapAddress
  else if a < 0x80000 then
    match roomRefusal rt (clerkRoom c) (jobHouse rt c) true 1 a with
    | some x => .error (trapBridle a true x.2)
    | none => .ok ()
  else if a < 0xF0000 then .error trapAddress
  else match portOf c a with
    | .engine e off => if off = 0 ∨ !holds rt c e then .error trapAddress else .ok ()
    | _ => .error trapAddress

/-- A word of a room's memories that the library image fills, its code from 80000h and its tables from 40000h, or of the
house part of code memory (R215, R216). The image's words are not in the spec. -/
def codeWord (r : Room) (a : Nat) : Word := if 0x8C000 ≤ a then kgetD r.code a 0 else Config.libraryWord r.image a

/-- The word at an address that may be read. -/
def readWord (rt : Rt) (c : ClerkId) (a : Nat) : Nat :=
  if c = 128 ∨ a < 0x40000 then (kgetD (clerkOf rt c).mem a 0).toNat
  else if a < 0x60000 then (codeWord (roomOf rt (clerkRoom c)) a).toNat
  else if a < 0x80000 then (kgetD (roomOf rt (clerkRoom c)).window a 0).toNat
  else if a < 0x90000 then (codeWord (roomOf rt (clerkRoom c)) a).toNat
  else match readPort rt c a with
    | .ok v => v
    | .error _ => 0

/-- Write a word that may be written. A desk write marks its 1 024-word block (R211); an engine block's words ignore
writes. -/
def writeWord (c : ClerkId) (a v : Nat) (rt : Rt) : Rt :=
  let w : Word := BitVec.ofNat 20 v
  if c = 128 ∨ a < 0x40000 then
    let k := clerkOf rt c
    setClerk c { k with mem := kput 0 k.mem a w, blocks := addTo (a / 1024) k.blocks } rt
  else if a < 0x80000 then
    let r := roomOf rt (clerkRoom c)
    setRoom (clerkRoom c) { r with window := kput 0 r.window a w } rt
  else rt

/-- Write consecutive words from an address, modulo 2^20. -/
def writeWords (c : ClerkId) : Nat → List Nat → Rt → Rt
  | _, [], rt => rt
  | a, v :: vs, rt => writeWords c ((a + 1) % 2 ^ 20) vs (writeWord c a v rt)

/-! ## Nibbles and strings (10 R201) -/

/-- The number of nibble addresses. -/
def nibbleSpace : Nat := 5242880

/-- The nibble at a nibble address. -/
def readNibble (rt : Rt) (c : ClerkId) (p : Nat) : Nat :=
  bitsAt (readWord rt c (p / 5)) (4 * (4 - p % 5)) 4

/-- `n` nibbles from a nibble address. -/
def readNibbles (rt : Rt) (c : ClerkId) : Nat → Nat → List Nat
  | 0, _ => []
  | n + 1, p => readNibble rt c p :: readNibbles rt c n ((p + 1) % nibbleSpace)

/-- Write nibbles from a nibble address. -/
def writeNibbles (c : ClerkId) : Nat → List Nat → Rt → Rt
  | _, [], rt => rt
  | p, v :: vs, rt =>
    let w := readWord rt c (p / 5)
    let sh := 4 * (4 - p % 5)
    let w' := w - bitsAt w sh 4 * 2 ^ sh + (v % 16) * 2 ^ sh
    writeNibbles c ((p + 1) % nibbleSpace) vs (writeWord c (p / 5) w' rt)

/-- `n` bytes of a byte string. -/
def readBytes (rt : Rt) (c : ClerkId) (n p : Nat) : Bytes := packNibbles (readNibbles rt c (2 * n) p)

/-- Write a byte string. -/
def writeBytes (c : ClerkId) (p : Nat) (b : Bytes) (rt : Rt) : Rt := writeNibbles c p (nibbles b) rt

/-- The words that `n` nibbles from `p` touch: the first word and how many. -/
def nibbleExtent (n p : Nat) : Nat × Nat := if n = 0 then (p / 5, 0) else (p / 5, (p % 5 + n + 4) / 5)

/-- A long pointer in two words: bits 22 to 20 in the high word; none when it is no nibble address. -/
def longPtr (hi lo : Nat) : Option Nat :=
  let v := hi * 2 ^ 20 + lo
  if 8 ≤ hi ∨ nibbleSpace ≤ v then none else some v

/-! ## Addressing modes -/

/-- The operand kinds of 11 Table 11.1: word or double, read or written; string read or written; branch target; key;
engine. -/
inductive Kind where
  | w | W | d | D | s | S | t | k | e
  deriving DecidableEq, Repr

/-- The legality of a mode for a kind (10 Table 10.6). -/
def legalMode (kd : Kind) (m : Nat) : Bool :=
  match kd with
  | .W | .D | .e => (1 ≤ m && m ≤ 6) || m == 0xA || m == 0xB || m == 0xE
  | .w => (1 ≤ m && m ≤ 7) || m == 0xA || m == 0xB || m == 0xC || m == 0xE
  | .d => (1 ≤ m && m ≤ 7) || m == 0xA || m == 0xB || m == 0xC || m == 0xE || m == 0xF
  | .s => (1 ≤ m && m ≤ 6) || m == 8 || m == 9 || m == 0xA || m == 0xB || m == 0xC || m == 0xE
  | .S => (1 ≤ m && m ≤ 6) || m == 8 || m == 9 || m == 0xA || m == 0xB || m == 0xE
  | .t => (1 ≤ m && m ≤ 4) || m == 0xA || m == 0xC
  | .k => m == 0xD

/-- Extension words of a mode (10 Table 10.5). -/
def extWords (m : Nat) : Nat :=
  match m with
  | 0 => 0
  | 8 => 2
  | 0xF => 2
  | _ => 1

/-- The words of an instruction by its first word (R206). -/
def insnLen (w : Word) : Nat := 1 + extWords (bitsAt w.toNat 8 4) + extWords (bitsAt w.toNat 4 4) + extWords (bitsAt w.toNat 0 4)

/-- The opcode in the first word of an instruction (R206). -/
def opcodeOf (w : Word) : Nat := bitsAt w.toNat 12 8

/-- An opcode that Table 11.3 lists. -/
def opDefined (n : Nat) : Bool :=
  decide ((1 ≤ n ∧ n ≤ 0x0A) ∨ (0x10 ≤ n ∧ n ≤ 0x1D) ∨ (0x20 ≤ n ∧ n ≤ 0x28) ∨ (0x30 ≤ n ∧ n ≤ 0x38) ∨ (0x40 ≤ n ∧ n ≤ 0x52) ∨
    (0x60 ≤ n ∧ n ≤ 0x64) ∨ (0x70 ≤ n ∧ n ≤ 0x77) ∨ n = 0x80 ∨ n = 0x81 ∨ (0x90 ≤ n ∧ n ≤ 0x94))

/-- A privileged opcode, defined or not (R223, R251). -/
def opPrivileged (n : Nat) : Bool := decide (0x90 ≤ n ∧ n < 0xA0)

/-- The words of an instruction: the first word, then the extension words of A, B and C (R206). -/
def encodeInsn (op : Nat) (o : Opnds) : List Word :=
  let m := fun (x : Opnd) => x.mode.toNat
  let ext := fun (x : Opnd) => (List.range (extWords (m x))).map fun i => x.ext.getD i 0
  BitVec.ofNat 20 (op * 2 ^ 12 + m o.a * 2 ^ 8 + m o.b * 2 ^ 4 + m o.c) :: (ext o.a ++ ext o.b ++ ext o.c)

/-- Reserved extension fields are zero (R207); an odd base word in mode 9 counts as reserved. -/
def extOk (m x : Nat) : Bool :=
  match m with
  | 4 => bitsAt x 0 10 == 0
  | 5 | 6 => bitsAt x 0 16 == 0
  | 9 => bitsAt x 16 1 == 0
  | 0xB => bitsAt x 9 11 == 0
  | 0xD => bitsAt x 0 14 == 0 && bitsAt x 18 2 != 3
  | 0xE => bitsAt x 18 2 == 0
  | _ => true

/-- Where an operand is: a word address (with its mode), a nibble address, a value, or a key handle. -/
inductive Loc where
  | word (a : Nat) (mode : Nat)
  | nib (p : Nat) (mode : Nat)
  | imm (v : Nat)
  | key (sel n : Nat)
  | none
  deriving DecidableEq, Repr

/-- A base word. -/
def baseWord (rt : Rt) (c : ClerkId) (n : Nat) : Nat := (kgetD (clerkOf rt c).mem n 0).toNat

/-- The effective address of an operand (10 Table 10.5) and the state after a base word update of mode 5 or 6. `ic` is
the address of the instruction's first word and `len` the operand's length in words. -/
def effAddr (rt : Rt) (c : ClerkId) (ic len : Nat) (o : Opnd) : Except Trap (Loc × Rt) :=
  let m := o.mode.toNat
  let x := (o.ext.getD 0 0).toNat
  let y := (o.ext.getD 1 0).toNat
  let n := bitsAt x 16 4
  let word := fun (v : Int) => Loc.word (wrap 20 v) m
  let sx16 := signed 16 (x % 2 ^ 16)
  let b := fun i => (baseWord rt c i : Int)
  match m with
  | 1 => .ok (word x, rt)
  | 2 =>
    match canRead rt c true x with
    | .error t => .error t
    | .ok _ => .ok (word (readWord rt c x), rt)
  | 3 => .ok (word (b n + sx16), rt)
  | 4 => .ok (word (b n + b (bitsAt x 12 4) * ((2 ^ bitsAt x 10 2 : Nat) : Int)), rt)
  | 5 => .ok (word (b n), writeWord c n (wrap 20 (b n + len)) rt)
  | 6 =>
    let v := wrap 20 (b n - len)
    .ok (word v, writeWord c n v rt)
  | 7 => .ok (.imm x, rt)
  | 8 =>
    match longPtr x y with
    | none => .error trapAddress
    | some p => .ok (.nib p m, rt)
  | 9 =>
    match longPtr (baseWord rt c n) (baseWord rt c (n + 1)) with
    | none => .error trapAddress
    | some p => .ok (.nib (((p : Int) + sx16) % (nibbleSpace : Int)).toNat m, rt)
  | 0xA => .ok (word (b 15 + signed 20 x), rt)
  | 0xB => .ok (word (0x200 + bitsAt x 0 9), rt)
  | 0xC => .ok (word (ic + signed 20 x), rt)
  | 0xD => .ok (.key (bitsAt x 18 2) (bitsAt x 14 4), rt)
  | 0xE => .ok (word (0x40000 + bitsAt x 0 18), rt)
  | 0xF => .ok (.imm (x * 2 ^ 20 + y), rt)
  | _ => .ok (.none, rt)

/-- The nibble address of a string operand: a word address starts at nibble 0 (R208). -/
def nibOf : Loc → Nat
  | .word a _ => a * 5
  | .nib p _ => p
  | _ => 0

/-- The mode of a location. -/
def locMode : Loc → Nat
  | .word _ m => m
  | .nib _ m => m
  | _ => 0

/-- Check that `n` words from `a` may be accessed. -/
def checkWords (f : Nat → Except Trap Unit) : Nat → Nat → Except Trap Unit
  | 0, _ => .ok ()
  | n + 1, a =>
    match f a with
    | .error t => .error t
    | .ok _ => checkWords f n ((a + 1) % 2 ^ 20)

/-- Check the whole extent of an operand of a kind; a string's length is in nibbles (R224). -/
def checkOpnd (rt : Rt) (c : ClerkId) (kd : Kind) (nibs : Nat) (l : Loc) : Except Trap Unit :=
  let code := locMode l == 1 || locMode l == 2 || locMode l == 0xC
  let rd := canRead rt c code
  let wr := canWrite rt c
  match kd, l with
  | .w, .word a _ => checkWords rd 1 a
  | .d, .word a _ => checkWords rd 2 a
  | .W, .word a _ => checkWords wr 1 a
  | .D, .word a _ => checkWords wr 2 a
  | .s, l => checkWords rd (nibbleExtent nibs (nibOf l)).2 (nibbleExtent nibs (nibOf l)).1
  | .S, l => checkWords wr (nibbleExtent nibs (nibOf l)).2 (nibbleExtent nibs (nibOf l)).1
  | _, _ => .ok ()

/-- Any word of the operand lies in engine port space (R205). -/
def inPort (words : Nat) : Loc → Bool
  | .word a _ => isPort a || (decide (0 < words) && isPort ((a + words - 1) % 2 ^ 20))
  | .nib p _ => isPort (p / 5)
  | _ => false

/-- The value of a word operand. -/
def valW (rt : Rt) (c : ClerkId) : Loc → Nat
  | .word a _ => readWord rt c a
  | .imm v => v % 2 ^ 20
  | _ => 0

/-- The value of a double operand; a one-word immediate is sign-extended by `effAddr`'s caller. -/
def valD (rt : Rt) (c : ClerkId) : Loc → Nat
  | .word a _ => readWord rt c a * 2 ^ 20 + readWord rt c ((a + 1) % 2 ^ 20)
  | .imm v => v % 2 ^ 40
  | _ => 0

/-- A double's immediate of mode 7 is sign-extended to 40 bits (R207). -/
def extendImm (kd : Kind) (m : Nat) : Loc → Loc
  | .imm v => if kd = .d ∧ m = 7 then .imm (wrap 40 (signed 20 v)) else .imm v
  | l => l

/-- Write a word destination. -/
def putW (c : ClerkId) (l : Loc) (v : Nat) (rt : Rt) : Rt :=
  match l with
  | .word a _ => writeWord c a v rt
  | _ => rt

/-- Write a double destination, high word first. -/
def putD (c : ClerkId) (l : Loc) (v : Nat) (rt : Rt) : Rt :=
  match l with
  | .word a _ => writeWords c a [v / 2 ^ 20 % 2 ^ 20, v % 2 ^ 20] rt
  | _ => rt

end Sys2Proof.Machine
end

