-- ==== Sys2Proof/Machine/Karua.lean ====
section
/-! DEFINITION. How a clerk runs one instruction: the fetch (10 R204, R215 to R217), the checks and their order (11 R223,
R224), the end of an instruction, traps (10 R214) and the job outcome word (R212). A row's operand words stand for the
instruction at IC (log 14). -/

namespace Sys2Proof.Machine

/-! ## Formats -/

/-- A row of 11 Table 11.3: the opcode, the operand kinds, whether it sets flags, and whether it also reads A. -/
structure Fmt where
  op : Nat
  a : Option Kind
  b : Option Kind
  c : Option Kind
  sets : Bool
  rmw : Bool
  deriving DecidableEq, Repr

/-- The operands of an instruction that passed its checks. -/
structure Args where
  ck : ClerkId
  ic : Nat
  next : Nat
  la : Loc
  lb : Loc
  lc : Loc
  deriving DecidableEq, Repr

/-- What an instruction's operation comes to. -/
inductive KOut where
  | trap (t : Trap)
  | go (f : FlagSet) (rt : Rt)
  | jump (ic : Nat) (rt : Rt)
  | wait (w : Stall) (f : FlagSet) (rt : Rt)
  | again (w : Stall)
  | over (rt : Rt)
  deriving DecidableEq, Repr

/-- The nibble lengths of the string operands A, B and C. -/
abbrev Nibs := Nat × Nat × Nat

/-! ## Fetch -/

/-- A job in house code: IC in 8C000h to 8FFFFh (R216). -/
def inHouse (a : Nat) : Bool := decide (0x8C000 ≤ a ∧ a < 0x90000)

/-- The house that owns a house-code tile, given by its first word; none for a free tile. -/
def tileOwner (progs : List ProgEntry) (a : Nat) : Option Nat :=
  (progs.find? fun p => decide (p.base / 64 ≤ a / 64 ∧ a / 64 < p.base / 64 + cdiv p.code.length 64)).map ProgEntry.house

/-- The instruction cache holds 128 tiles; which tile a fill replaces is not stated, and the model drops the one filled
first (log 14). -/
def cacheTile (t : Nat) (l : List Nat) : List Nat :=
  if t ∈ l then l else if l.length < 128 then l ++ [t] else l.drop 1 ++ [t]

/-- What a fetch comes to: the state with its tiles cached, a trap, or a tile whose check fails. -/
inductive Fetch where
  | ok (rt : Rt)
  | trap (t : Trap)
  | tile (t : Nat)
  deriving DecidableEq, Repr

/-- The image version that a room's code carries: the version of the library that it runs. -/
def codeVersion (r : Room) : Nat := r.version.toNat

/-- What a fill read of a tile fails its check, under the per-boot key, the tile's number and the image version (R215); a tile that is
read as it was stored passes. -/
def fillBad (rt : Rt) (room : Nat) (fill : List (Nat × CodeRead)) (t : Nat) : Bool :=
  match kget fill t with
  | none => false
  | some x => codeSum (bootKey rt) t (codeVersion (roomOf rt room)) x.words != x.sum.toNat

/-- Fill a tile into a room's instruction cache. -/
def fillTile (room t : Nat) (rt : Rt) : Rt :=
  let r := roomOf rt room
  setRoom room { r with icache := cacheTile t r.icache } rt

/-- Fill the tiles of a list that are not cached, each with its check; the first whose check fails stops (R215, R217). -/
def fillTiles (room : Nat) (fill : List (Nat × CodeRead)) : List Nat → Rt → Except Nat Rt
  | [], rt => .ok rt
  | t :: l, rt =>
    if t ∈ (roomOf rt room).icache then fillTiles room fill l rt
    else if fillBad rt room fill t then .error t
    else fillTiles room fill l (fillTile room t rt)

/-- Fetch `n` words from `a` for a clerk: each lies in code memory, in a tile that its job's house may run, and each
tile that is not cached is filled with its check (R204, R215, R216). The head clerks' code is internal (R222). -/
def fetchWords (progs : List ProgEntry) (c : ClerkId) (fill : List (Nat × CodeRead)) : Nat → Nat → Rt → Fetch
  | 0, _, rt => .ok rt
  | n + 1, a, rt =>
    if c = 128 then .ok rt
    else if a < 0x80000 ∨ 0x90000 ≤ a then .trap trapAddress
    else if inHouse a && tileOwner progs a != some (jobHouse rt c) then .trap trapAddress
    else
      match fillTiles (clerkRoom c) fill [(a - 0x80000) / 64] rt with
      | .error t => .tile t
      | .ok rt' => fetchWords progs c fill n ((a + 1) % 2 ^ 20) rt'

/-! ## Checks -/

/-- The operand exists exactly if its mode field is nonzero, and its mode and extension words are legal (R206 to
R208). -/
def opndOk (kd : Option Kind) (o : Opnd) : Bool :=
  match kd with
  | none => o.mode == 0
  | some x => legalMode x o.mode.toNat && extOk o.mode.toNat (o.ext.getD 0 0).toNat

/-- The length of an operand in words. -/
def opndLen (kd : Option Kind) (nibs : Nat) : Nat :=
  match kd with
  | none => 0
  | some .d => 2
  | some .D => 2
  | some .s => (nibs + 4) / 5
  | some .S => (nibs + 4) / 5
  | some _ => 1

/-- One operand's location, and the state after its base word update. -/
def locate (rt : Rt) (c : ClerkId) (ic : Nat) (kd : Option Kind) (nibs : Nat) (o : Opnd) : Except Trap (Loc × Rt) :=
  match kd with
  | none => .ok (.none, rt)
  | some x =>
    match effAddr rt c ic (opndLen kd nibs) o with
    | .error t => .error t
    | .ok (l, rt') => .ok (extendImm x o.mode.toNat l, rt')

/-- Check an operand if it exists and if it is, or is not, a string. -/
def checkKind (rt : Rt) (c : ClerkId) (strings : Bool) (kd : Option Kind) (nibs : Nat) (l : Loc) : Except Trap Unit :=
  match kd with
  | none => .ok ()
  | some x => if (x == .s || x == .S) == strings then checkOpnd rt c x nibs l else .ok ()

/-- The first failing check of a list. -/
def allOk : List (Except Trap Unit) → Except Trap Unit
  | [] => .ok ()
  | .error t :: _ => .error t
  | .ok _ :: l => allOk l

/-- The value of an operand as a number, for a length word. -/
def lenVal (rt : Rt) (c : ClerkId) (kd : Option Kind) (l : Loc) : Nat :=
  match kd with
  | some .w => valW rt c l
  | some .d => valD rt c l
  | _ => 0

/-- Which operand gives the lengths, the nibble lengths that its value gives for the extents, and those that give the
step L of modes 5 and 6. -/
structure LenSpec where
  idx : Nat
  nibs : Nat → Nibs
  step : Nat → Nibs

/-- Lengths from operand `i` (2 for B, 3 for C). -/
def lenBy (i : Nat) (f : Nat → Nibs) : LenSpec := { idx := i, nibs := f, step := f }

/-- No string operand. -/
def noLen : LenSpec := lenBy 0 fun _ => (0, 0, 0)

/-- The value of the length operand before any base word update; the step of mode 5 or 6 on a string uses it (log 14). -/
def peekLen (rt : Rt) (c : ClerkId) (ic : Nat) (f : Fmt) (o : Opnds) (ls : LenSpec) : Nat :=
  let p := fun kd x => match locate rt c ic kd 0 x with
    | .ok (l, _) => lenVal rt c kd l
    | .error _ => 0
  if ls.idx = 2 then p f.b o.b else if ls.idx = 3 then p f.c o.c else 0

/-- Addresses in the order A, B, C, then the extents (R224). -/
def prepare (rt : Rt) (c : ClerkId) (ic next : Nat) (f : Fmt) (ls : LenSpec) (o : Opnds) : Except Trap (Args × Rt) :=
  let n0 := ls.step (peekLen rt c ic f o ls)
  match locate rt c ic f.a n0.1 o.a with
  | .error t => .error t
  | .ok (la, r1) =>
    match locate r1 c ic f.b n0.2.1 o.b with
    | .error t => .error t
    | .ok (lb, r2) =>
      match locate r2 c ic f.c n0.2.2 o.c with
      | .error t => .error t
      | .ok (lc, r3) =>
        let v := if ls.idx = 2 then lenVal r3 c f.b lb else if ls.idx = 3 then lenVal r3 c f.c lc else 0
        let n := ls.nibs v
        match allOk [checkKind r3 c false f.a 0 la, checkKind r3 c false f.b 0 lb, checkKind r3 c false f.c 0 lc,
                     checkKind r3 c true f.a n.1 la, checkKind r3 c true f.b n.2.1 lb,
                     checkKind r3 c true f.c n.2.2 lc] with
        | .error t => .error t
        | .ok _ => .ok ({ ck := c, ic := ic, next := next, la := la, lb := lb, lc := lc }, r3)

/-- The tiles of code memory that `n` words from `a` touch. -/
def tilesIn (a n : Nat) : List Nat :=
  let lo := max a 0x80000
  let hi := min (a + n) 0x90000
  if hi ≤ lo then [] else (List.range ((hi - 1) / 64 - lo / 64 + 1)).map (· + (lo - 0x80000) / 64)

/-- The tiles that a source operand reads, and the pointer of mode 2 (10 Table 10.3, R215). -/
def opndTiles (kd : Option Kind) (nibs : Nat) (o : Opnd) (l : Loc) : List Nat :=
  (if o.mode == 2 then tilesIn (o.ext.getD 0 0).toNat 1 else []) ++
  (match kd, l with
   | some .w, .word a _ => tilesIn a 1
   | some .d, .word a _ => tilesIn a 2
   | some .s, l => tilesIn (nibbleExtent nibs (nibOf l)).1 (nibbleExtent nibs (nibOf l)).2
   | _, _ => [])

/-- The tiles that an instruction's operands read; TRN reads its table too (R237). -/
def readTilesOf (rt : Rt) (f : Fmt) (ls : LenSpec) (o : Opnds) (x : Args) : List Nat :=
  let v := if ls.idx = 2 then lenVal rt x.ck f.b x.lb else if ls.idx = 3 then lenVal rt x.ck f.c x.lc else 0
  let n := ls.nibs v
  opndTiles f.a n.1 o.a x.la ++ opndTiles f.b n.2.1 o.b x.lb ++ opndTiles f.c n.2.2 o.c x.lc ++
    (if f.op = 0x09 then tilesIn (valW rt x.ck x.lb) 256 else [])

/-- Some source operand lies in engine port space (R205). -/
def readsPort (f : Fmt) (x : Args) : Bool :=
  let src := fun (kd : Option Kind) (l : Loc) => match kd with
    | some .w => inPort 1 l
    | some .d => inPort 2 l
    | some .s => inPort 0 l
    | some .e => inPort 1 l
    | _ => false
  (f.rmw && inPort 1 x.la) || src f.a x.la || src f.b x.lb || src f.c x.lc

/-! ## Ends of an instruction -/

/-- The words of code memory from an address, `n` of them. -/
def codeAt (rt : Rt) (c : ClerkId) (a n : Nat) : List Word :=
  (List.range n).map fun i => codeWord (roomOf rt (clerkRoom c)) (a + i)

/-- K follows the clerk's latches and reckoner jobs (R205). -/
def refreshK (k : Clerk) : Clerk := { k with sw := swPut k.sw 6 (k.latches ≠ []) }

/-- The clerk after an instruction: flags, K, IC and run state. -/
def finish (c : ClerkId) (f : FlagSet) (sets engine : Bool) (ic : Nat) (st : ClerkSt) (rt : Rt) : Rt :=
  let k := clerkOf rt c
  setClerk c (refreshK { k with sw := swFlags k.sw f sets engine, ic := BitVec.ofNat 20 ic, st := st }) rt

/-- A trap ends the job with DEVICE_FAULT and a contained CLERK_TRAP, and notes its moment, since an ABORT at the same instruction
boundary prevails (Table 10.10); a refused room window access latches the room bridle's record (R214, R410). A trap of the head
clerks has no effect (log 14). -/
def clerkTrap (c : ClerkId) (t : Trap) (op : Nat) (rt : Rt) : Rt :=
  let k := clerkOf rt c
  match k.job with
  | none => rt
  | some id =>
    let booth := (kget rt.cmds id).map Cmd.booth
    let e : FaultEvent :=
      { source := .clerkTrap, scope := 0, island := some (roomIsland (clerkRoom c)), booth := booth,
        detail := [BitVec.ofNat 8 t.code, BitVec.ofNat 8 (clerkRoom c % 4 * 16 + c % 16)] ++ le 3 k.ic.toNat
          ++ [BitVec.ofNat 8 op], houseProg := k.houseProg }
    let rt1 := match t.refused with
      | none => rt
      | some (a, wr, cause) =>
        latchViolation (roomBridle (clerkRoom c)) (roomByte a)
          { addr := roomByte a, len := 4, kind := if wr then .write else .read, initiator := roomIsland (clerkRoom c),
            house := jobHouse rt c, booth := booth, pasid := none, ring := false, mailbox := false, cmd := some id }
          cause rt
    raise e (modCmd id (fun m => { m with trapped := some rt1.now }) (failWith id stDeviceFault rt1))

/-- The room reloads a tile from the image in HBM (R217): a house-code tile from the programs that HBM holds; the library's words
are those of the image that the room runs. -/
def reloadTile (progs : List ProgEntry) (room t : Nat) (rt : Rt) : Rt :=
  let r := roomOf rt room
  let mine := fun (kv : Nat × Word) => decide ((kv.1 - 0x80000) / 64 = t)
  setRoom room { r with code := (houseCode progs).filter mine |>.foldl (fun m kv => kput 0 m kv.1 kv.2) (r.code.filter fun kv => !mine kv) } rt

/-- A tile that fails its check is not filled; it ends the job with TILE_CHECK_FAIL, counts one CODE_TILE event, and is reloaded before
any fill of it (R214, R217). -/
def tileFail (progs : List ProgEntry) (c : ClerkId) (t : Nat) (rt : Rt) : Rt :=
  match (clerkOf rt c).job with
  | none => rt
  | some id =>
    raise { source := .codeTile, scope := clerkRoom c * 1024 + t, island := some (roomIsland (clerkRoom c)),
            booth := (kget rt.cmds id).map Cmd.booth, detail := le 4 t, houseProg := false }
      (failWith id stTileCheckFail (reloadTile progs (clerkRoom c) t rt))

/-- Engines and locksmiths report to the job outcome word; DEVICE_FAULT replaces an earlier INPUT_REFUSED or
USAGE_REFUSED, and nothing else replaces a recorded outcome (R212). -/
def recordOutcome (c : ClerkId) (st reason : Nat) (rt : Rt) : Rt :=
  let k := clerkOf rt c
  if k.outcome.1 = 0 ∨ (st = stDeviceFault ∧ (k.outcome.1 = stInputRefused ∨ k.outcome.1 = stUsageRefused)) then
    setClerk c { k with outcome := (st, reason), mem := kput 0 k.mem 0x227 (Config.outcomeWord st reason) } rt
  else rt

/-- A refusal that ends the job at once, as a locksmith's or the mint's (R212, R247). -/
def refuseJob (c : ClerkId) (st : Nat) (res : Bytes) (rt : Rt) : Rt :=
  match (clerkOf rt c).job with
  | none => rt
  | some id => failCmd id st res rt

/-! ## Running an instruction -/

/-- The number of words of an instruction. -/
def insnWords (o : Opnds) : Nat :=
  1 + extWords o.a.mode.toNat + extWords o.b.mode.toNat + extWords o.c.mode.toNat

/-- Apply what an operation came to. A trap, and an instruction to be taken up again, leave all else unchanged. -/
def settle (f : Fmt) (x : Args) (rt0 : Rt) : KOut → Rt
  | .trap t => clerkTrap x.ck t f.op rt0
  | .go fl rt => finish x.ck fl f.sets (readsPort f x) x.next .running rt
  | .jump ic rt => finish x.ck noFlags f.sets (readsPort f x) ic .running rt
  | .wait w fl rt => finish x.ck fl f.sets (readsPort f x) x.next (.stalled w) rt
  | .again w => setClerk x.ck { clerkOf rt0 x.ck with st := .stalled w } rt0
  | .over rt => rt

/-- The clerk can run an instruction: it is running, and neither a fatal fault nor a tamper halt stops it. -/
def clerkReady (rt : Rt) (c : ClerkId) : Bool :=
  (clerkOf rt c).st == .running && !inFatal rt && !inTamperHalt rt

/-- The words at IC are the row's instruction (R206, R223). The state holds the words of house programs; for the library, whose words
the spec does not give, and for the head clerks' code, the row's words stand for those at IC (log 14). -/
def insnFits (rt : Rt) (c : ClerkId) (ic op : Nat) (o : Opnds) : Bool :=
  c == 128 || !inHouse ic || codeAt rt c ic (insnWords o) == encodeInsn op o

/-- How an instruction begins: the words at IC are another instruction's, the fetch, the opcode, a mode or an operand traps, a tile fails
its check, or the operation runs on its located operands, with the state that a trap of it leaves. -/
inductive Begun where
  | other
  | trap (t : Trap) (op : Nat) (rt : Rt)
  | tile (t : Nat)
  | go (x : Args) (rt1 rt2 : Rt)
  deriving DecidableEq, Repr

/-- The clerk meets the words at IC that are not the row's: an opcode that Table 11.3 does not list traps ILLEGAL_OPCODE, one of the
privileged range PRIVILEGED (R223); any other instruction is run by its own row. -/
def beginOther (progs : List ProgEntry) (c : ClerkId) (o : Opnds) (rt : Rt) : Begun :=
  let ic := (clerkOf rt c).ic.toNat
  let op := opcodeOf (codeWord (roomOf rt (clerkRoom c)) ic)
  match fetchWords progs c o.fill 1 ic rt with
  | .trap t => .trap t op rt
  | .tile t => .tile t
  | .ok rt1 =>
    if opPrivileged op then .trap trapPrivileged op rt1
    else if opDefined op then .other
    else .trap trapOpcode op rt1

/-- The fetch, the checks of R223 and R224 in their order, and the fills that the operand reads need. -/
def beginInsn (progs : List ProgEntry) (f : Fmt) (ls : LenSpec) (c : ClerkId) (o : Opnds) (rt : Rt) : Begun :=
  let ic := (clerkOf rt c).ic.toNat
  match fetchWords progs c o.fill (insnWords o) ic rt with
  | .trap t => .trap t f.op rt
  | .tile t => .tile t
  | .ok rt1 =>
    if opPrivileged f.op && c != 128 then .trap trapPrivileged f.op rt1
    else if !(opndOk f.a o.a && opndOk f.b o.b && opndOk f.c o.c) then .trap trapMode f.op rt1
    else
      match prepare rt1 c ic ((ic + insnWords o) % 2 ^ 20) f ls o with
      | .error t => .trap t f.op rt1
      | .ok (x, rt2) =>
        match fillTiles (clerkRoom c) o.fill (if c = 128 then [] else readTilesOf rt2 f ls o x) rt2 with
        | .error t => .tile t
        | .ok rt3 => .go x rt1 rt3

/-- A clerk takes up the row's instruction. -/
def begun (progs : List ProgEntry) (f : Fmt) (ls : LenSpec) (c : ClerkId) (o : Opnds) (rt : Rt) : Begun :=
  if insnFits rt c (clerkOf rt c).ic.toNat f.op o then beginInsn progs f ls c o rt else beginOther progs c o rt

/-- A clerk runs one instruction of a format with its operation. -/
def runInsn (progs : List ProgEntry) (f : Fmt) (ls : LenSpec) (body : Args → Rt → KOut) (c : ClerkId) (o : Opnds)
    (rt : Rt) : Rt :=
  if !clerkReady rt c then rt
  else
    match begun progs f ls c o rt with
    | .other => rt
    | .trap t op rt1 => clerkTrap c t op rt1
    | .tile t => tileFail progs c t rt
    | .go x rt1 rt2 => settle f x rt1 (body x rt2)

/-- An instruction row: the queue and all but the run-time state stay as they are. -/
def karua (f : Fmt) (ls : LenSpec) (body : Args → Rt → KOut) (c : ClerkId) (o : Opnds) (s : State) : Res :=
  .next (onRt (runInsn s.nv.progs f ls body c o) s)

end Sys2Proof.Machine
end

