-- ==== Sys2Proof/Machine/Engines.lean ====
section
/-! DEFINITION. What presses, hash units, looms and reckoners share: latches and their FIFOs (11 R241 to R243), command
blocks and their checks (11 R244), waking stalled clerks, and taking the front command of a queue. -/

namespace Sys2Proof.Machine

/-! ## Command blocks (11 Table 11.8) -/

/-- A word of a command block. -/
def blkW (b : Block) (i : Nat) : Nat := (b.words.getD i 0).toNat

/-- A double of a command block. -/
def blkD (b : Block) (i : Nat) : Nat := blkW b i * 2 ^ 20 + blkW b (i + 1)

/-- A long pointer of a command block. -/
def blkP (b : Block) (i : Nat) : Option Nat := longPtr (blkW b i) (blkW b (i + 1))

/-- Words from `i`, `n` of them, are zero. -/
def blkZero (b : Block) (i n : Nat) : Bool := ((b.words.drop i).take n).all (· == 0)

/-- An extent of nibbles lies in desk words 00400h to 3FFFFh. -/
def inDesk (p nibs : Nat) : Bool :=
  decide (0x400 ≤ p / 5) && decide ((nibbleExtent nibs p).1 + (nibbleExtent nibs p).2 ≤ 0x40000)

/-- A pointer of a block as a desk extent. -/
def deskPtr (b : Block) (i nibs : Nat) : Bool :=
  match blkP b i with
  | none => false
  | some p => inDesk p nibs

/-- The command code is defined for the engine (14 Tables 14.3, 14.6, 14.7; 15 Table 15.3). -/
def codeDefined (kind : EngineKind) (n : Nat) : Bool :=
  match kind with
  | .press => decide (1 ≤ n ∧ n ≤ 0x0C)
  | .hash => decide (1 ≤ n ∧ n ≤ 3)
  | .loom => decide (1 ≤ n ∧ n ≤ 4)
  | .reckoner => decide ((1 ≤ n ∧ n ≤ 0x0D) ∨ (0x10 ≤ n ∧ n ≤ 0x17))

/-- Every pointer that the command uses as a desk pointer has its extent in the desk (R244). -/
def desksOk (kind : EngineKind) (b : Block) : Bool :=
  let n := 2 * blkD b 6
  let fl := blkW b 1
  match kind with
  | .press =>
    let op := blkW b 0
    (op == 0x0C || deskPtr b 2 n) && (op == 0x07 || op == 0x09 || op == 0x0B || deskPtr b 4 n)
  | .hash => (fl.testBit 2 || deskPtr b 2 n) && (!fl.testBit 1 || blkW b 0 == 3 || deskPtr b 4 n)
  | .loom => (fl.testBit 0 || deskPtr b 2 n) && (bitsAt fl 1 2 != 0 || deskPtr b 4 n)
  | .reckoner =>
    match blkW b 0 with
    | 0x01 => deskPtr b 2 n
    | 0x02 => deskPtr b 4 n
    | 0x0C => deskPtr b 2 (40 * blkW b 11)
    | _ => true

/-! ## Latches -/

/-- The clerk that holds an engine's latch. -/
def holderOf (rt : Rt) (e : EngineRef) : Option ClerkId :=
  let x := comOf rt e
  if x.latch.held then some (e.die.val * 64 + x.latch.holder) else none

/-- An engine accepts a claim at all: its island is ready and its mask expander seeded, its mask expander does not reject claims,
and the peer link does not hold it (R54, R77, R170, R313). -/
def takesClaims (rt : Rt) (e : EngineRef) : Bool := engineReady rt e && !(comOf rt e).rejecting && !peerLoom rt e

/-- The latch is free: neither held nor wiping. -/
def latchFree (x : EngCom) : Bool := !x.latch.held && !x.latch.wiping

/-- A claim succeeds (R241, R313). -/
def canClaim (rt : Rt) (e : EngineRef) : Bool :=
  takesClaims rt e && latchFree (comOf rt e) && (comOf rt e).latch.fifo.isEmpty

/-- Give an engine's latch to a clerk. -/
def grant (e : EngineRef) (c : ClerkId) (rt : Rt) : Rt :=
  let x := comOf rt e
  let rt := setCom e { x with latch := { x.latch with held := true, holder := c % 64, claimedAt := rt.now,
                                                      fifo := x.latch.fifo.filter (· ≠ c) } } rt
  let k := clerkOf rt c
  setClerk c (refreshK { k with latches := addTo e k.latches }) rt

/-- Pass a free latch to the head of its FIFO (R241, R242); clerks that wait for a place in the FIFO try again. -/
def passLatch (e : EngineRef) (rt : Rt) : Rt :=
  let x := comOf rt e
  match x.latch.fifo with
  | [] => wake (· == .fifo e) rt
  | c :: _ =>
    if !latchFree x || !takesClaims rt e then rt
    else
      let rt := grant e c rt
      wake (· == .fifo e) (setClerk c { clerkOf rt c with st := .running } rt)

/-- A clerk releases an engine: it leaves the clerk's latches and starts zeroing (R243, R300). -/
def releaseLatch (e : EngineRef) (c : ClerkId) (rt : Rt) : Rt :=
  let rt := zeroEngine e rt
  let k := clerkOf rt c
  setClerk c (refreshK { k with latches := k.latches.filter (· ≠ e) }) rt

/-- A clerk that waited at UNLATCH releases and runs on. -/
def unlatchWaiter (e : EngineRef) (rt : Rt) : Rt :=
  match holderOf rt e with
  | none => rt
  | some c =>
    if (clerkOf rt c).st == .stalled (.unlatch e) then
      let rt := releaseLatch e c rt
      setClerk c { clerkOf rt c with st := .running } rt
    else rt

/-- After a command of an engine has ended: clerks that waited for a place try again; when the queue is empty, WAITE
returns, UNLATCH releases and JEND tries again (R243 to R245, R249). -/
def afterCommand (e : EngineRef) (rt : Rt) : Rt :=
  let rt := wake (· == .submit e) rt
  if (comOf rt e).queue.isEmpty then
    unlatchWaiter e (wake (fun w => w == .engine e || w == .ending) rt)
  else rt

/-- Take the front command off an engine's queue. -/
def popQueue (e : EngineRef) (rt : Rt) : Rt :=
  let x := comOf rt e
  setCom e { x with queue := x.queue.drop 1, running := false } rt

/-- The mask expander's reseed period and the count at which it asks (R313). -/
def maskLimit : Nat := 2 ^ 20
def maskAsk : Nat := 2 ^ 20 - 2 ^ 16

/-- An engine number exists on a die. -/
def engineExists (e : EngineRef) : Bool := decide (e.idx < engineCount e.kind)

/-- Run the front command of an engine if its code is `op` and its holder's job runs: the command's body, then the end
of the command. With 2^20 blocks since the reseed, a press, hash unit or loom holds (R313); the count is compared between
commands (log 15). -/
def runFront (e : EngineRef) (op : Nat) (blocks : Block → Nat) (body : ClerkId → Block → Rt → Rt) (rt : Rt) : Rt :=
  let x := comOf rt e
  match x.queue, holderOf rt e with
  | b :: _, some c =>
    if blkW b 0 ≠ op ∨ inFatal rt ∨ inTamperHalt rt then rt
    else if maskLimit ≤ x.blocks then setCom e { x with running := true } rt
    else
      let rt := setCom e { x with blocks := x.blocks + blocks b } rt
      afterCommand e (popQueue e (body c b rt))
  | _, _ => rt

end Sys2Proof.Machine
end

