-- ==== Sys2Proof/Machine/Ports.lean ====
section
/-! DEFINITION. Karua-20 engine instructions (11 Table 11.3, R241 to R247). -/

namespace Sys2Proof.Machine

def randLen : LenSpec := lenBy 2 fun n => (2 * n, 0, 0)

/-- The word address of an engine operand. -/
def targetWord : Loc → Nat
  | .word a _ => a
  | _ => 0

/-- The command that the clerk runs has INLINE set. -/
def jobInline (rt : Rt) (c : ClerkId) : Bool :=
  match (clerkOf rt c).job with
  | none => false
  | some id => match kget rt.cmds id with
    | none => false
    | some m => isInline m.desc

/-- The operand names an engine's latch word. One that the clerk holds already sets Z and returns at once; in partitioned mode a claim
on another house's engine traps; else the claim goes on (R241). -/
def withLatch (x : Args) (rt : Rt) (f : EngineRef → KOut) : KOut :=
  match portOf x.ck (targetWord x.la) with
  | .engine e off =>
    if off ≠ 0 then .trap trapAddress
    else if holds rt x.ck e then .go { noFlags with z := some true } rt
    else if otherHouse rt x.ck e then .trap trapLatchHouse
    else f e
  | _ => .trap trapAddress

/-- The operand names the latch word of an engine that the clerk holds. -/
def withHeld (x : Args) (rt : Rt) (f : EngineRef → KOut) : KOut :=
  match portOf x.ck (targetWord x.la) with
  | .engine e off => if off ≠ 0 ∨ !holds rt x.ck e then .trap trapAddress else f e
  | _ => .trap trapAddress

/-- The queue of a clerk's stream. -/
def streamQ (k : Clerk) (out : Bool) : List Block := if out then k.outQ else k.inQ

/-- Replace the queue of a clerk's stream. -/
def setStreamQ (k : Clerk) (out : Bool) (q : List Block) : Clerk := if out then { k with outQ := q } else { k with inQ := q }

/-- SUBMIT to a stream: READ has code 1 and its destination in the desk, WRITE code 1 and its source (R244). -/
def submitStream (x : Args) (rt : Rt) (b : Block) (out : Bool) : KOut :=
  let k := clerkOf rt x.ck
  if blkW b 0 ≠ 1 then .trap trapOpcode
  else if !deskPtr b (if out then 2 else 4) (2 * blkD b 6) then .trap trapAddress
  else if 4 ≤ (streamQ k out).length then .again (.submitStream out)
  else .go noFlags (setClerk x.ck (setStreamQ k out (streamQ k out ++ [b])) rt)

/-- WAITE on a stream. -/
def waitStream (x : Args) (rt : Rt) (out : Bool) : KOut :=
  if (streamQ (clerkOf rt x.ck) out).isEmpty then .go noFlags rt else .wait (.stream out) noFlags rt

/-- The descriptor of the clerk's job. -/
def jobDesc (rt : Rt) (c : ClerkId) : Option Desc :=
  match (clerkOf rt c).job with
  | none => none
  | some id => (kget rt.cmds id).map Cmd.desc

/-- The handle that a key operand names: a descriptor's key handle, or four words at B[n] (10 Table 10.5). -/
def keyHandle (rt : Rt) (c : ClerkId) : Loc → Except Trap (BitVec 64)
  | .key 0 _ => .ok (((jobDesc rt c).map Desc.key1).getD 0)
  | .key 1 _ => .ok (((jobDesc rt c).map Desc.key2).getD 0)
  | .key _ n =>
    let a := baseWord rt c n
    match checkWords (canRead rt c false) 4 a with
    | .error t => .error t
    | .ok _ =>
      let g := fun i => readWord rt c ((a + i) % 2 ^ 20) % 2 ^ 16
      .ok (BitVec.ofNat 64 (((g 0 * 2 ^ 16 + g 1) * 2 ^ 16 + g 2) * 2 ^ 16 + g 3))
  | _ => .ok 0

/-- Ask the locksmith for a key; the clerk stalls until the delivery ends (R246). -/
def askKey (x : Args) (rt : Rt) (e : Option EngineRef) (target deriv : Nat) (data : Bytes) : KOut :=
  match keyHandle rt x.ck x.lb with
  | .error t => .trap t
  | .ok h =>
    let q : LockReq := { clerk := x.ck, eng := e, handle := h, target := target, deriv := deriv, data := data }
    .wait .key noFlags { rt with strong := { rt.strong with reqs := rt.strong.reqs ++ [q] } }

/-- The key-load target is defined for the engine kind (14 Table 14.2; for a reckoner, R329: bits 19 to 16 zero). -/
def targetDefined (kind : EngineKind) (w : Nat) : Bool :=
  match kind with
  | .press => w == 0 || w == 1 || w == 0x81
  | .hash => w == 0 || (w % 4096 == 2 && bitsAt w 16 4 == 0)
  | .loom => w == 0
  | .reckoner => bitsAt w 16 4 == 0

/-- LATCH claims the engine whose latch word A names; Z tells whether it holds it, and E is always set (R241). -/
def opLatch (x : Args) (rt : Rt) : KOut :=
  withLatch x rt fun e =>
    if canClaim rt e then .go { noFlags with z := some true } (grant e x.ck rt)
    else .go { noFlags with z := some false } rt

/-- The row of LATCH (11 Table 11.3). -/
def fmtLatch : Fmt := { op := 0x70, a := some .e, b := none, c := none, sets := true, rmw := false }

/-- LATCH. -/
def execLatch (c : ClerkId) (o : Opnds) (s : State) : Res := karua fmtLatch noLen opLatch c o s

/-- WAITL claims the latch, or enters its FIFO of eight and stalls (R242); the island of a gated engine starts (R55). -/
def opWaitl (x : Args) (rt : Rt) : KOut :=
  withLatch x rt fun e =>
    let y := comOf rt e
    if canClaim rt e then .go noFlags (grant e x.ck rt)
    else if 8 ≤ y.latch.fifo.length then .again (.fifo e)
    else .wait (.latch e) noFlags (askStart (engineIsland e)
      (setCom e { y with latch := { y.latch with fifo := addTo x.ck y.latch.fifo } } rt))

/-- The row of WAITL (11 Table 11.3). -/
def fmtWaitl : Fmt := { op := 0x71, a := some .e, b := none, c := none, sets := false, rmw := false }

/-- WAITL. -/
def execWaitl (c : ClerkId) (o : Opnds) (s : State) : Res := karua fmtWaitl noLen opWaitl c o s

/-- UNLATCH waits for the submitted commands, then releases the latch and starts zeroing (R243). -/
def opUnlatch (x : Args) (rt : Rt) : KOut :=
  withHeld x rt fun e =>
    if (comOf rt e).queue.isEmpty then .go noFlags (releaseLatch e x.ck rt)
    else .wait (.unlatch e) noFlags rt

/-- The row of UNLATCH (11 Table 11.3). -/
def fmtUnlatch : Fmt := { op := 0x72, a := some .e, b := none, c := none, sets := false, rmw := false }

/-- UNLATCH. -/
def execUnlatch (c : ClerkId) (o : Opnds) (s : State) : Res := karua fmtUnlatch noLen opUnlatch c o s

/-- SUBMIT copies a command block into an engine or stream queue, stalling while the queue is full (R244). -/
def opSubmit (x : Args) (rt : Rt) : KOut :=
  let b := valW rt x.ck x.lb
  if 0x40000 < b + 16 then .trap trapAddress
  else
    let blk : Block := { words := (List.range 16).map (fun i => BitVec.ofNat 20 (readWord rt x.ck (b + i))),
                         lib := decide (0x80000 ≤ x.ic ∧ x.ic < 0x8C000) }
    match portOf x.ck (targetWord x.la) with
    | .engine e off =>
      if off ≠ 0 ∨ !holds rt x.ck e then .trap trapAddress
      else if !codeDefined e.kind (blkW blk 0) then .trap trapOpcode
      else if !desksOk e.kind blk then .trap trapAddress
      else
        let y := comOf rt e
        if 4 ≤ y.queue.length then .again (.submit e)
        else .go noFlags (setCom e { y with queue := y.queue ++ [blk] } rt)
    | .input off => if off ≠ 0 then .trap trapAddress else submitStream x rt blk false
    | .output off =>
      if off ≠ 0 ∨ jobInline rt x.ck then .trap trapAddress else submitStream x rt blk true
    | _ => .trap trapAddress

/-- The row of SUBMIT (11 Table 11.3). -/
def fmtSubmit : Fmt := { op := 0x73, a := some .e, b := some .w, c := none, sets := false, rmw := false }

/-- SUBMIT. -/
def execSubmit (c : ClerkId) (o : Opnds) (s : State) : Res := karua fmtSubmit noLen opSubmit c o s

/-- WAITE waits until the engine or stream has finished its queue (R245). -/
def opWaite (x : Args) (rt : Rt) : KOut :=
  match portOf x.ck (targetWord x.la) with
  | .engine e off =>
    if off ≠ 0 ∨ !holds rt x.ck e then .trap trapAddress
    else if (comOf rt e).queue.isEmpty then .go noFlags rt
    else .wait (.engine e) noFlags rt
  | .input off => if off ≠ 0 then .trap trapAddress else waitStream x rt false
  | .output off => if off ≠ 0 then .trap trapAddress else waitStream x rt true
  | _ => .trap trapAddress

/-- The row of WAITE (11 Table 11.3). -/
def fmtWaite : Fmt := { op := 0x74, a := some .e, b := none, c := none, sets := false, rmw := false }

/-- WAITE. -/
def execWaite (c : ClerkId) (o : Opnds) (s : State) : Res := karua fmtWaite noLen opWaite c o s

/-- KLOAD asks the locksmith for the key of a handle in key register 0 of the engine (R246). -/
def opKload (x : Args) (rt : Rt) : KOut :=
  withHeld x rt fun e => askKey x rt (some e) 0 0 []

/-- The row of KLOAD (11 Table 11.3). -/
def fmtKload : Fmt := { op := 0x75, a := some .e, b := some .k, c := none, sets := false, rmw := false }

/-- KLOAD. -/
def execKload (c : ClerkId) (o : Opnds) (s : State) : Res := karua fmtKload noLen opKload c o s

/-- KLOADX is KLOAD with a key-load block; derivation 0007h names the output stream (R246, R281). -/
def opKloadx (x : Args) (rt : Rt) : KOut :=
  let a := valW rt x.ck x.lc
  if 0x40000 < a + 8 then .trap trapAddress
  else
    let w := fun i => readWord rt x.ck (a + i)
    let n := w 4 * 2 ^ 20 + w 5
    match longPtr (w 2) (w 3) with
    | none => .trap trapAddress
    | some p =>
      if n ≠ 0 && !inDesk p (2 * n) then .trap trapAddress
      else
        let data := readBytes rt x.ck n p
        match portOf x.ck (targetWord x.la) with
        | .engine e off =>
          if off ≠ 0 ∨ !holds rt x.ck e then .trap trapAddress
          else if !targetDefined e.kind (w 0) then .over (refuseJob x.ck stMalformed (zeros 16) rt)
          else askKey x rt (some e) (w 0) (w 1) data
        | .output off => if off = 0 ∧ w 1 = 7 then askKey x rt none (w 0) 7 data else .trap trapAddress
        | _ => .trap trapAddress

/-- The row of KLOADX (11 Table 11.3). -/
def fmtKloadx : Fmt := { op := 0x76, a := some .e, b := some .k, c := some .w, sets := false, rmw := false }

/-- KLOADX. -/
def execKloadx (c : ClerkId) (o : Opnds) (s : State) : Res := karua fmtKloadx noLen opKloadx c o s

/-- RAND stalls until the mint of the die has delivered n bytes to A; RNG_UNAVAILABLE ends the job (R247). -/
def opRand (x : Args) (rt : Rt) : KOut :=
  let n := valW rt x.ck x.lb
  if 65536 < n then .trap trapLength
  else if n = 0 then .go noFlags rt
  else
    let m := mintOf rt (clerkDie x.ck)
    if m.exhausted then .over (refuseJob x.ck stRngUnavailable (zeros 16) rt)
    else .wait .mint noFlags (setMint (clerkDie x.ck) { m with waiting := m.waiting ++ [.rand x.ck (nibOf x.la) n] } rt)

/-- The row of RAND (11 Table 11.3). -/
def fmtRand : Fmt := { op := 0x77, a := some .S, b := some .w, c := none, sets := false, rmw := false }

/-- RAND. -/
def execRand (c : ClerkId) (o : Opnds) (s : State) : Res := karua fmtRand randLen opRand c o s

end Sys2Proof.Machine
end

