-- ==== Sys2Proof/Machine/Jobs.lean ====
section
/-! DEFINITION. The life of a job: dispatch (09 R184 to R187, 10 R209, 07 R142), JEND and JFAIL (11 R249, R250), the wipe
(10 R211), TIME_LIMIT (10 R213), the staging pool, and the windows that a command's host accesses use (06 R119, 07 R122, R135). -/

namespace Sys2Proof.Machine

/-! ## Booth windows (R119, R122, R135) -/

/-- The window set that a command of an epoch uses: the set kept for older epochs, or the booth's own (R122, R191). -/
def windowsFor (x : Booth) (epoch : Nat) : List Window :=
  match x.oldWindows.find? fun w => decide (epoch < w.1) with
  | some w => w.2
  | none => x.cfg.windows

/-- A window allows a direction: reads by the module for input, writes for output (06 Table 6.7). -/
def winAllows (wr : Bool) (w : Window) : Bool := if wr then w.wr else w.rd

/-- One past the farthest byte that the windows which cover `a` reach. -/
def winReach (ws : List Window) (wr : Bool) (a : Nat) : Nat :=
  ws.foldl (fun m w => if winAllows wr w ∧ w.start ≤ a ∧ a ≤ w.stop then max m (w.stop + 1) else m) 0

/-- Every byte from `a` up to but not including `e` lies in windows; window bounds are multiples of 64, so beats are decided
as their first bytes are (R119, R408). Each window is used at most once. -/
def winCovers (ws : List Window) (wr : Bool) (e : Nat) : Nat → Nat → Bool
  | 0, a => decide (e ≤ a)
  | n + 1, a =>
    if e ≤ a then true
    else if winReach ws wr a ≤ a then false
    else winCovers ws wr e n (winReach ws wr a)

/-- A range of `n` bytes at an IOVA lies in the windows. -/
def rangeOk (ws : List Window) (wr : Bool) (a n : Nat) : Bool := winCovers ws wr (a + n) (ws.length + 1) a

/-- The windows of a command at an epoch; none for a closed booth. -/
def cmdWindows (rt : Rt) (c : Cmd) (epoch : Nat) : List Window :=
  match boothOf rt c.booth with
  | none => []
  | some x => windowsFor x epoch

/-- The whole input range of a ring command lies in windows that allow module reads; a session command reads nothing
(R135). -/
def inputRangeOk (rt : Rt) (c : Cmd) (epoch : Nat) : Bool :=
  c.session.isSome || c.desc.inLen == 0 || (isInline c.desc && !c.prefixed) ||
    rangeOk (cmdWindows rt c epoch) false c.desc.inIova.toNat c.desc.inLen.toNat

/-- The whole output buffer of a ring command lies in windows that allow module writes (R122). -/
def outputRangeOk (rt : Rt) (c : Cmd) (epoch : Nat) : Bool :=
  c.session.isSome || isInline c.desc || c.desc.outLim == 0 ||
    rangeOk (cmdWindows rt c epoch) true c.desc.outIova.toNat c.desc.outLim.toNat

/-- A failed input read after the descriptor: booth-attributed HOST_DMA with byte 26 set to 1 (R135). -/
def inputDmaFault (c : Cmd) (rt : Rt) : Rt :=
  raise { source := .hostDma, scope := 0, island := some 37, booth := some c.booth, detail := le 2 c.ringIdx ++ [1],
          houseProg := false } rt

/-- The bytes of a ring command's input that lie in host memory behind a format 1 prefix (R132). -/
def hostInput (c : Cmd) : Nat :=
  if c.session.isSome || (isInline c.desc && !c.prefixed) then 0 else c.desc.inLen.toNat - (if c.prefixed then 16 else 0)

/-- Where they begin. -/
def hostBase (c : Cmd) : Nat := c.desc.inIova.toNat + (if c.prefixed then 16 else 0)

/-- The length of a command's input, any tally stripped: known from the descriptor before the input is read. -/
def inputLen (c : Cmd) : Nat := if c.inputDone then c.input.length else hostInput c

/-! ## Descriptors -/

/-- A descriptor's 64 bytes in the format 2 layout (07 Table 7.1). -/
def descBytes (d : Desc) : Bytes :=
  [d.fmt, d.flags] ++ le 2 d.opcode.toNat ++ le 4 d.tag.toNat ++ le 8 d.key1.toNat ++ le 8 d.key2.toNat
    ++ le 8 d.inIova.toNat ++ le 4 d.inLen.toNat ++ le 4 d.outLim.toNat ++ le 8 d.outIova.toNat
    ++ padTo 14 (d.inl.take 14) ++ [d.prio, d.rsv]

/-- The house of a booth; 400h when it is not open. -/
def boothHouse (rt : Rt) (b : Nat) : Nat := ((boothOf rt b).map fun x => x.cfg.house).getD 0x400

/-- An AEAD_DECRYPT whose descriptor shows that its plaintext goes direct (R142), by the booth's streaming flag at its
admission (R15). -/
def directByDesc (rt : Rt) (c : Cmd) : Bool :=
  let p := c.desc.inl
  c.desc.opcode == 0x0171 && c.session.isNone && c.streaming && (multiOf rt c).isNone && !isInline c.desc
    && !hasTallyOut c.desc && decide (65536 + byteAt p 1 + byteAt p 2 + leAt p 4 4 < inputLen c)

/-- The staging that a command reserves at dispatch (R142). -/
def resvNeed (rt : Rt) (c : Cmd) : Nat :=
  if 4096 < c.desc.outLim.toNat ∧ !isInline c.desc ∧ !directByDesc rt c then c.desc.outLim.toNat else 0

/-! ## Eligibility (R139, R146, R185, R198) -/

/-- A command, or its whole bundle, is fenced. -/
def isFenced (rt : Rt) (c : Cmd) : Bool :=
  c.fence || (match multiOf rt c with
    | none => false
    | some x => x.members.any fun id => ((kget rt.cmds id).map Cmd.fence).getD false)

/-- A command admitted earlier in the booth, outside the command's own bundle, whose entry is not posted (R139). -/
def isPredecessor (c d : Cmd) : Bool :=
  decide (d.booth = c.booth ∧ d.admitSeq < c.admitSeq) && d.admitted && d.stage != .posted && (c.bundle.isNone || d.bundle != c.bundle)

/-- No fence holds a command (R139). -/
def fenceFree (rt : Rt) (c : Cmd) : Bool :=
  rt.cmds.all fun kv => !isPredecessor c kv.2 || (!isFenced rt c && !isFenced rt kv.2)

/-- It is the command's turn in its bundle (R146). -/
def bundleTurn (rt : Rt) (c : Cmd) : Bool :=
  match multiOf rt c with
  | none => true
  | some x => x.next == c.member && x.failed.isNone

/-- The house that a room is bound to; none in shared mode. -/
def roomHouse (m : Option PartMap) (room : Nat) : Option Nat := m.bind fun x => kget x.rooms room

/-- A room serves a command by the partition map; during a change, older-epoch commands may use any room of their die,
and a room whose binding changes takes no new work until its older jobs have ended (R196 to R198). -/
def roomServes (rt : Rt) (room : Nat) (c : Cmd) : Bool :=
  match partEpoch rt with
  | some e =>
    if c.epoch < e then true
    else
      let older := rt.clerks.any fun kv => decide (kv.1 < 128 ∧ clerkRoom kv.1 = room) &&
        (match kv.2.job with
         | none => false
         | some id => decide (((kget rt.cmds id).map Cmd.epoch).getD 0 < e))
      (roomHouse rt.disp.part room == roomHouse rt.disp.partOld room || !older) &&
        (rt.disp.part.isNone || roomHouse rt.disp.part room == some (boothHouse rt c.booth))
  | none => rt.disp.part.isNone || roomHouse rt.disp.part room == some (boothHouse rt c.booth)

/-- The engines of a kind on a die. -/
def kindEngines (d : Die) (k : EngineKind) : List EngineRef :=
  (List.range (engineCount k)).map fun i => { die := d, kind := k, idx := i }

/-- Those of them that a command may claim, by the partition map of its epoch. -/
def cmdEngines (rt : Rt) (c : Cmd) (k : EngineKind) : List EngineRef :=
  (kindEngines (if c.die = 1 then 1 else 0) k).filter fun e => match engineHouse (mapFor rt c.epoch) e with
    | none => true
    | some h => h == boothHouse rt c.booth

/-- The kinds of engine with their numbers in `Config.needsKind`. -/
def engineKinds : List (Nat × EngineKind) := [(0, .press), (1, .hash), (2, .loom), (3, .reckoner)]

/-- No dependency of Table 1.6 holds a command back: of each kind of engine that its program uses, one is in an island that is ready
and, but for a reckoner, whose mask expanders hold a seed (R55, R185). -/
def enginesAwake (rt : Rt) (c : Cmd) : Bool :=
  engineKinds.all fun k => (cmdEngines rt c k.2).any (engineReady rt) || !Config.needsKind c.desc.opcode.toNat k.1

/-- The islands of the engines that a command needs and does not find awake start (R55). -/
def wakeEngines (c : Cmd) (rt : Rt) : Rt :=
  engineKinds.foldl (fun r k =>
    if (cmdEngines r c k.2).any (engineReady r) || !Config.needsKind c.desc.opcode.toNat k.1 then r
    else (cmdEngines r c k.2).foldl (fun q e => askStart (engineIsland e) q) r) rt

/-- A command may be given to a clerk, its staging and its engines' start apart. -/
def candidate (rt : Rt) (ck : ClerkId) (c : Cmd) : Bool :=
  c.stage == .admitted && c.die == clerkDie ck && fenceFree rt c && bundleTurn rt c && roomServes rt (clerkRoom ck) c

/-- A command may be given to a clerk, its staging apart (R185). -/
def eligible (rt : Rt) (ck : ClerkId) (c : Cmd) : Bool := candidate rt ck c && enginesAwake rt c

/-- The candidates in the order of the pick: the drain list, then the levels from 7 down, in arrival order (R186). -/
def pickOrder (rt : Rt) : List Cmd :=
  let get := fun l => l.filterMap fun id => kget rt.cmds id
  let r := get (rt.disp.ready.filter fun id => id ∉ rt.disp.drain)
  get rt.disp.drain ++ [7, 6, 5, 4, 3, 2, 1, 0].flatMap fun v => r.filter fun c => c.level == v

/-- A command can be given its reservation now: none needed, granted, or the pool suffices and none waits before it. -/
def resvReady (rt : Rt) (c : Cmd) : Bool :=
  let n := resvNeed rt c
  decide (n ≤ c.resv) || (!c.resvWait && rt.disp.resvQueue.isEmpty && decide (n ≤ rt.disp.pool))

/-- The first candidate with its reservation; those met before it that lack one wait for the pool (R142, R185). -/
def pick (ck : ClerkId) : List Cmd → Rt → Option Cmd × Rt
  | [], rt => (none, rt)
  | c :: l, rt =>
    if !candidate rt ck c then pick ck l rt
    else if !enginesAwake rt c then pick ck l (wakeEngines c rt)
    else if resvReady rt c then (some c, rt)
    else if c.resvWait then pick ck l rt
    else
      let rt := modCmd c.id (fun c => { c with resvWait := true }) rt
      pick ck l { rt with disp := { rt.disp with resvQueue := rt.disp.resvQueue ++ [c.id] } }

/-- Take a command's reservation from the pool. -/
def takeResv (c : Cmd) (rt : Rt) : Rt :=
  let n := resvNeed rt c
  if n ≤ c.resv then rt
  else modCmd c.id (fun c => { c with resv := n }) { rt with disp := { rt.disp with pool := rt.disp.pool - n } }

/-! ## Dispatch (R209) -/

/-- The house program that serves a command, by house, opcode and epoch (R218, R219). -/
def progFor (progs : List ProgEntry) (house op epoch : Nat) : Option ProgEntry :=
  progs.find? fun p => decide (p.house = house ∧ p.opcode = op ∧ p.since ≤ epoch) &&
    (match p.upto with
     | none => true
     | some e => decide (epoch < e))

/-- The entry point of a job: the house program's, or the library's, which lies in 80100h to 8BFFFh (R209, R216). -/
def entryPoint (p : Option ProgEntry) (op : Nat) : Word :=
  match p with
  | some x => BitVec.ofNat 20 x.base
  | none => BitVec.ofNat 20 (0x80100 + Config.libEntry op % 0xBF00)

/-- The words of a 64-bit value as four 16-bit groups, highest first. -/
def groups16 (v : Nat) : List Nat := [v / 2 ^ 48 % 2 ^ 16, v / 2 ^ 32 % 2 ^ 16, v / 2 ^ 16 % 2 ^ 16, v % 2 ^ 16]

/-- The module-written job frame, base words and desk input (10 Tables 10.8 and 10.9), the input being in the module. -/
def jobSetup (ck : ClerkId) (c : Cmd) (house : Nat) (partitioned : Bool) (rt : Rt) : Rt :=
  let n := min c.input.length 65536
  let d : Nat → List Nat := fun v => [v / 2 ^ 20 % 2 ^ 20, v % 2 ^ 20]
  let flags := b2n (multiOf rt c).isSome + b2n c.session.isSome * 2 + c.member % 16 * 4 + b2n partitioned * 64
  let rt := writeWords ck 0x200 (List.replicate 0x100 0) rt
  let rt := writeBytes ck (0x200 * 5) (descBytes c.desc) rt
  let rt := writeWords ck 0x21A
    (d c.input.length ++ d c.desc.outLim.toNat ++ [c.booth, house] ++ groups16 c.epoch ++ [flags, c.level, n, 0]) rt
  let rt := writeBytes ck (0x10000 * 5) (c.input.take n) rt
  writeWords ck 0 [0, 0, 0, 0, 0, 0, 0, 0, 0, 0, 0, 0, 0, 0x50000, 0x10000, 0x10000] rt

/-- A clerk that is free. -/
def clerkFree (rt : Rt) (c : ClerkId) : Bool := decide (c < 128) && (clerkOf rt c).st == .free

/-- A clerk takes commands: it is free, and its counting room's island is ready and not under live update (R54, R220). -/
def clerkTakes (rt : Rt) (c : ClerkId) : Bool :=
  clerkFree rt c && islandReady rt (roomIsland (clerkRoom c)) && !(roomOf rt (clerkRoom c)).updating

/-- Give a picked command to a clerk. -/
def startJob (progs : List ProgEntry) (ck : ClerkId) (c : Cmd) (reads : List (Nat × TileImage)) (rt : Rt) : Rt :=
  let house := boothHouse rt c.booth
  let p := progFor progs house c.desc.opcode.toNat c.epoch
  let rt := unready c.id (takeResv c rt)
  let rt := modCmd c.id (fun c => { c with stage := .dispatched, resvWait := false, reads := reads }) rt
  let rt := jobSetup ck c house (mapFor rt c.epoch).isSome rt
  let k := clerkOf rt ck
  setClerk ck { k with st := .running, ic := entryPoint p c.desc.opcode.toNat, sw := 0, job := some c.id,
                       houseProg := p.isSome, dispatchedAt := rt.now, latches := [], outcome := (0, 0),
                       inPos := min c.input.length 65536, inQ := [], outQ := [], directUsed := false,
                       streamUsed := false } rt

/-- A picked command whose input lies in host memory has it read through the host bridle under its epoch's windows: a refused
beat or a failed read ends it with ACCESS_REFUSED (R11, R122, R135). The bytes beyond the first 65 536 come with the same row
and are checked again as the job reads them (log 5). None: the row's bytes are not those of this command's input. -/
def readHost (m : Cmd) (data : Option Bytes) (rt : Rt) : Option (Rt × Option Cmd) :=
  if m.inputDone then some (rt, some m)
  else if !rangeOk (cmdWindows rt m m.epoch) false (hostBase m) (min (hostInput m) 65536) then
    some (failWith m.id stAccessRefused rt, none)
  else match data with
    | none => some (inputDmaFault m (failWith m.id stAccessRefused rt), none)
    | some d =>
      if d.length = hostInput m then
        let m' := { m with input := d, inputDone := true }
        some ({ rt with cmds := kset rt.cmds m.id m' }, some m')
      else none

/-- DISPATCH: a free clerk receives the first eligible command (R186, R209), with its input as host memory gives it. A room
under live update takes none (R220). -/
def doDispatch (c : ClerkId) (data : Option Bytes) (reads : List (Nat × TileImage)) (s : State) : State :=
  let rt := s.rt
  if !clerkTakes rt c || !mayRun rt then s
  else
    match pick c (pickOrder rt) rt with
    | (none, rt') => { s with rt := rt' }
    | (some m, rt') =>
      match readHost m data rt' with
      | none => { s with rt := rt' }
      | some (rt'', none) => { s with rt := rt'' }
      | some (rt'', some m') => { s with rt := startJob s.nv.progs c m' reads rt'' }

/-- DISPATCH. -/
def execDispatch (c : ClerkInput) (s : State) : Res := .next (doDispatch c.clerk c.data c.reads s)

/-- STAGING_RESERVATION_GRANT: reservations are served in order of arrival, those of drain-list commands first (R142,
R193). -/
def doStagingGrant (rt : Rt) : Rt :=
  let q := rt.disp.resvQueue
  let first := match q.find? fun id => id ∈ rt.disp.drain with
    | some id => some id
    | none => q.head?
  match first with
  | none => rt
  | some id =>
    match kget rt.cmds id with
    | none => { rt with disp := { rt.disp with resvQueue := q.filter (· ≠ id) } }
    | some c =>
      let n := resvNeed rt c
      if rt.disp.pool < n then rt
      else modCmd id (fun c => { c with resv := n, resvWait := false })
        { rt with disp := { rt.disp with pool := rt.disp.pool - n, resvQueue := q.filter (· ≠ id) } }

/-- STAGING_RESERVATION_GRANT. -/
def execStagingReservationGrant (s : State) : Res := .next (onRt doStagingGrant s)

/-! ## The wipe and the time limit -/

/-- A block of 1 024 desk words, or the job frame, is wiped. -/
def wipedWord (blocks : List Nat) (a : Nat) : Bool := decide (0x200 ≤ a ∧ a < 0x400) || decide (a / 1024 ∈ blocks)

/-- CLERK_WIPE: the job frame and the blocks noted at the job's end are wiped, and the clerk becomes free (R211). -/
def doClerkWipe (c : ClerkId) (rt : Rt) : Rt :=
  let k := clerkOf rt c
  if k.st == .wiping then
    setClerk c { k with st := .free, mem := k.mem.filter (fun kv => !wipedWord k.blocks kv.1), blocks := [],
                        sw := swPut k.sw 6 false, outcome := (0, 0), houseProg := false } rt
  else rt

/-- CLERK_WIPE. -/
def execClerkWipe (c : ClerkId) (s : State) : Res := .next (onRt (doClerkWipe c) s)

/-- The opcode that the code memory holds at a clerk's IC. -/
def opcodeAt (rt : Rt) (c : ClerkId) : Nat :=
  opcodeOf (codeWord (roomOf rt (clerkRoom c)) (clerkOf rt c).ic.toNat)

/-- TIME_LIMIT: 4.2 ms after dispatch without JEND or JFAIL, the job traps (R213). -/
def doTimeLimit (c : ClerkId) (rt : Rt) : Rt :=
  if c < 128 ∧ (clerkOf rt c).job.isSome ∧ !inFatal rt ∧ !inTamperHalt rt then
    clerkTrap c trapTime (opcodeAt rt c) (advanceTo ((clerkOf rt c).dispatchedAt + jobLimit) rt)
  else rt

/-- TIME_LIMIT. -/
def execTimeLimit (c : ClerkId) (s : State) : Res := .next (onRt (doTimeLimit c) s)

/-! ## JEND and JFAIL -/

/-- The length operand of JEND is B; A is checked by the operation, and the inline result is 16 bytes. -/
def jendLen : LenSpec := { idx := 2, nibs := fun _ => (0, 0, 32), step := fun n => (2 * n, 0, 32) }

/-- An engine or stream that the clerk uses still has work (R249). -/
def workPending (rt : Rt) (k : Clerk) : Bool :=
  !k.inQ.isEmpty || !k.outQ.isEmpty || k.latches.any fun e => !(comOf rt e).queue.isEmpty

/-- A recorded outcome replaces the program's status: INPUT_REFUSED with its reason, MALFORMED of a direct decryption with
the length needed (R212, R311). -/
def endOutcome (id : CmdId) (o : Nat × Nat) (rt : Rt) : Rt :=
  if o.1 = stInputRefused then refuseInput id o.2 rt
  else
    let alone := match kget rt.cmds id with
      | none => false
      | some c => (multiOf rt c).isNone
    let rt := failWith id o.1 rt
    if o.1 == stMalformed && alone then modCmd id (fun c => { c with outLen := o.2 }) rt else rt

/-- JEND waits for the engines and streams, releases every latch and ends the job; a recorded outcome replaces the program's (R249, R212, R211). -/
def opJend (x : Args) (rt : Rt) : KOut :=
  let k := clerkOf rt x.ck
  match k.job with
  | none => .go noFlags rt
  | some id =>
    let n := valD rt x.ck x.lb
    let inl := jobInline rt x.ck
    let p := nibOf x.la
    if !inl && decide (0x40000 < (nibbleExtent (2 * n) p).1 + (nibbleExtent (2 * n) p).2) then .trap trapAddress
    else if !inl && decide (65536 < n) then .trap trapLength
    else if workPending rt k then .again .ending
    else
      let res := readBytes rt x.ck 16 (nibOf x.lc)
      let own := ((kget rt.cmds id).map Cmd.output).getD []
      let out := if inl then [] else own ++ readBytes rt x.ck n p
      let rt := if k.houseProg then rt else setClerk x.ck { k with blocks := [] } rt
      if k.outcome.1 ≠ 0 then .over (endOutcome id k.outcome rt)
      else if inl && decide (16 < n) then .over (failWith id stMalformed rt)
      else .over (doneCmd id res out n rt)

/-- The row of JEND (11 Table 11.3). -/
def fmtJend : Fmt := { op := 0x80, a := some .s, b := some .d, c := some .s, sets := false, rmw := false }

/-- JEND. -/
def execJend (c : ClerkId) (o : Opnds) (s : State) : Res := karua fmtJend jendLen opJend c o s

/-- JFAIL ends the job with the status in A, discarding queued engine work; R210 limits the statuses, and any other gives DEVICE_FAULT with ILLEGAL_STATUS (R250). -/
def opJfail (x : Args) (rt : Rt) : KOut :=
  let k := clerkOf rt x.ck
  let st := valW rt x.ck x.la % 2 ^ 16
  match k.job with
  | none => .go noFlags rt
  | some id =>
    if k.outcome.1 ≠ 0 then .over (endOutcome id k.outcome rt)
    else if st = stInputRefused then .over (refuseInput id (valW rt x.ck x.lb % 256) rt)
    else if st = stMalformed ∨ st = stUsageRefused ∨ st = stDualControl then .over (failWith id st rt)
    else .trap trapStatus

/-- The row of JFAIL (11 Table 11.3). -/
def fmtJfail : Fmt := { op := 0x81, a := some .w, b := some .w, c := none, sets := false, rmw := false }

/-- JFAIL. -/
def execJfail (c : ClerkId) (o : Opnds) (s : State) : Res := karua fmtJfail noLen opJfail c o s

end Sys2Proof.Machine
end

