-- ==== Sys2Proof/Machine/Windows.lean ====
section
/-! DEFINITION. The input and output streams of a job (11 R244, 07 R135). -/

namespace Sys2Proof.Machine

/-- The input bytes of a job from an offset, padded with zero bytes beyond the end (R244). -/
def inputAt (c : Cmd) (off n : Nat) : Bytes := padTo n (slice c.input off n)

/-! ## The input and output streams (11 R244) -/

/-- Replace a clerk's stream queue by its rest and wake what waited for it. -/
def streamDone (c : ClerkId) (out : Bool) (rt : Rt) : Rt :=
  let k := clerkOf rt c
  let k := setStreamQ k out ((streamQ k out).drop 1)
  let empty := (streamQ k out).isEmpty
  let st := match k.st with
    | .stalled w => if w == .submitStream out || (empty && (w == .stream out || w == .ending)) then .running else k.st
    | _ => k.st
  setClerk c { k with st := st } rt

/-- INPUT_STREAM_READ: the next bytes of the input go to the desk, each beat under the booth's windows of the command's
epoch; a refused beat or a failed read ends the command with ACCESS_REFUSED (R135, R244). -/
def doInputStreamRead (c : ClerkId) (srcOk : Bool) (rt : Rt) : Rt :=
  let k := clerkOf rt c
  match k.inQ, k.job with
  | b :: _, some id =>
    match kget rt.cmds id, blkP b 4 with
    | some m, some p =>
      let n := blkD b 6
      let got := min n (m.input.length - k.inPos)
      if inFatal rt ∨ inTamperHalt rt then rt
      else if m.session.isNone && decide (0 < got) && !rangeOk (cmdWindows rt m m.epoch) false (hostBase m + k.inPos) got then
        failWith id stAccessRefused rt
      else if !srcOk && m.session.isNone && decide (0 < got) then inputDmaFault m (failWith id stAccessRefused rt)
      else
        let rt := writeBytes c p (inputAt m k.inPos n) rt
        streamDone c false (setClerk c { clerkOf rt c with inPos := k.inPos + got } rt)
    | _, _ => rt
  | _, _ => rt

/-- INPUT_STREAM_READ. -/
def execInputStreamRead (c : ClerkId) (srcOk : Bool) (s : State) : Res := .next (onRt (doInputStreamRead c srcOk) s)

/-- OUTPUT_STREAM_WRITE: the source bytes are appended to the command's staged output (R244). -/
def doOutputStreamWrite (c : ClerkId) (rt : Rt) : Rt :=
  let k := clerkOf rt c
  match k.outQ, k.job with
  | b :: _, some id =>
    match blkP b 2 with
    | some p =>
      if inFatal rt ∨ inTamperHalt rt then rt
      else
        let data := readBytes rt c (blkD b 6) p
        let rt := modCmd id (fun m => { m with output := m.output ++ data }) rt
        streamDone c true (setClerk c { clerkOf rt c with streamUsed := true } rt)
    | none => rt
  | _, _ => rt

/-- OUTPUT_STREAM_WRITE. -/
def execOutputStreamWrite (c : ClerkId) (s : State) : Res := .next (onRt (doOutputStreamWrite c) s)

end Sys2Proof.Machine
end

