-- ==== Sys2Proof/Machine/Presses.lean ====
section
/-! DEFINITION. The press commands (14 R301 to R306, Tables 14.3 to 14.5). Each row runs the front command of a press's
queue if it is that command. -/

namespace Sys2Proof.Machine

/-- What a press command asks of its key, its source and its destination (14 Table 14.3). -/
structure PressCmd where
  op : Nat
  group : Perms → Bool
  mac : Bool
  ver : Bool
  iso : Bool
  iv : Bool

/-- The key register that a block names. -/
def pressKey (p : Press) (i : Nat) : Option EngKey := if i = 1 then p.k1 else p.k0

/-- The number of cipher blocks of `n` bytes. -/
def blockCount (tdea : Bool) (n : Nat) : Nat := max 1 (cdiv n (blockLen tdea))

/-- The length field is in the range of 14 Table 14.3. -/
def pressLenOk (q : PressCmd) (tdea : Bool) (n : Nat) : Bool :=
  if q.op = 0x0C then n == 0
  else if q.mac then decide (n ≤ 2048)
  else if q.op = 0x05 then decide (1 ≤ n ∧ n ≤ 2048)
  else decide (8 ≤ n ∧ n ≤ 2048) && n % blockLen tdea == 0

/-- The parameters are those of 14 Table 14.5, with unused fields zero. -/
def pressParOk (q : PressCmd) (key : EngKey) (b : Block) : Bool :=
  let tdea := key.alg == .tdea
  let bl := blockLen tdea
  (if q.iv then deskPtr b 8 (2 * (if q.ver then blkW b 11 else bl)) else blkZero b 8 2)
    && decide (blkW b 10 ≤ 1) && (q.op != 0x0C || blkW b 10 == 0)
    && (if q.mac then decide (4 ≤ blkW b 11 ∧ blkW b 11 ≤ bl) else blkW b 11 == 0)
    && (if q.iso then decide (1 ≤ blkW b 12 ∧ blkW b 12 ≤ 3) else blkW b 12 == 0)
    && (if q.ver then decide (0x400 ≤ blkW b 13 ∧ blkW b 13 < 0x40000) else blkW b 13 == 0)
    && !(q.op == 0x0C && tdea)
    && !((q.op == 0x0A || q.op == 0x0B) && (!tdea || key.key.length != 16))

/-- The MAC that a MAC command computes, whole. -/
def pressMac (op : Nat) (key : EngKey) (method : Nat) (msg : Bytes) : Bytes :=
  let tdea := key.alg == .tdea
  if op = 0x06 ∨ op = 0x07 then cmac tdea key.key msg
  else if op = 0x08 ∨ op = 0x09 then mac1 tdea key.key method msg
  else mac3 key.key method msg

/-- The data that a cipher command produces. -/
def pressCipher (op : Nat) (key : EngKey) (iv data : Bytes) : Bytes :=
  let tdea := key.alg == .tdea
  match op with
  | 0x01 => ecbEnc tdea key.key data
  | 0x02 => ecbDec tdea key.key data
  | 0x03 => cbcEnc tdea key.key iv data
  | 0x04 => cbcDec tdea key.key iv data
  | _ => ctrMode tdea key.key iv data

/-- Write bytes at a block's destination pointer. -/
def putDest (c : ClerkId) (b : Block) (v : Bytes) (rt : Rt) : Rt :=
  match blkP b 4 with
  | none => rt
  | some p => writeBytes c p v rt

/-- Read `n` bytes at a block's pointer. -/
def getPtr (rt : Rt) (c : ClerkId) (b : Block) (i n : Nat) : Bytes :=
  match blkP b i with
  | none => zeros n
  | some p => readBytes rt c n p

/-- How many bytes a command writes to its destination. -/
def pressDestLen (q : PressCmd) (p : Press) (b : Block) : Nat :=
  if q.op = 0x0C then (match p.k1 with
    | none => 0
    | some k => k.key.length + 8)
  else if q.ver then 0
  else if q.mac then min (blkW b 11) 16
  else min (blkD b 6) 2048

/-- A refused command writes zeros to its destination and result word, and records the outcome (R302, R304). -/
def pressRefuse (q : PressCmd) (p : Press) (c : ClerkId) (b : Block) (st reason : Nat) (rt : Rt) : Rt :=
  let rt := putDest c b (zeros (pressDestLen q p b)) rt
  let rt := if q.ver && decide (0x400 ≤ blkW b 13 ∧ blkW b 13 < 0x40000) then writeWord c (blkW b 13) 0 rt else rt
  recordOutcome c st reason rt

/-- A press command on its front block: reserved words, the permission of the register, the length and the parameters,
then the work (R302 to R306). -/
def pressBody (q : PressCmd) (e : EngineRef) (c : ClerkId) (b : Block) (rt : Rt) : Rt :=
  let p := pressOf rt (ekey e)
  if !(blkW b 1 == 0 && blkZero b 14 2) then recordOutcome c stMalformed 0 rt
  else
    match pressKey p (blkW b 10) with
    | none => pressRefuse q p c b stUsageRefused 0 rt
    | some key =>
      if !q.group key.perms || (key.perms.ecbOnly && q.op != 0x01) then pressRefuse q p c b stUsageRefused 0 rt
      else if !pressLenOk q (key.alg == .tdea) (blkD b 6) then pressRefuse q p c b stInputRefused 0x20 rt
      else if !pressParOk q key b then pressRefuse q p c b stInputRefused 0x21 rt
      else if q.op = 0x0C then
        match p.k1 with
        | none => pressRefuse q p c b stUsageRefused 0 rt
        | some k1 =>
          if k1.payload then putDest c b (kwWrap key.key k1.key) rt else pressRefuse q p c b stUsageRefused 0 rt
      else
        let src := getPtr rt c b 2 (blkD b 6)
        if q.mac then
          let m := (pressMac q.op key (blkW b 12) src).take (blkW b 11)
          if q.ver then writeWord c (blkW b 13) (b2n (m != getPtr rt c b 8 (blkW b 11))) rt
          else putDest c b m rt
        else putDest c b (pressCipher q.op key (if q.iv then getPtr rt c b 8 (blockLen (key.alg == .tdea)) else []) src) rt

/-- The cipher blocks of a press command, for the mask expander (R313, Table 14.11). -/
def pressBlocks (rt : Rt) (e : EngineRef) (b : Block) : Nat :=
  let tdea := match pressKey (pressOf rt (ekey e)) (blkW b 10) with
    | some k => k.alg == .tdea
    | none => false
  blockCount tdea (min (blkD b 6) 2048)

/-- Press `p` of a die. -/
def pressRef (d : Die) (p : Nat) : EngineRef := { die := d, kind := .press, idx := p }

/-- Run the front command of a press. -/
def pressRow (q : PressCmd) (d : Die) (p : Nat) (s : State) : Res :=
  let e := pressRef d p
  .next (onRt (fun rt => runFront e q.op (pressBlocks rt e) (pressBody q e) rt) s)

def ecbEncCmd : PressCmd := { op := 0x01, group := Perms.enc, mac := false, ver := false, iso := false, iv := false }
def ecbDecCmd : PressCmd := { op := 0x02, group := Perms.dec, mac := false, ver := false, iso := false, iv := false }
def cbcEncCmd : PressCmd := { op := 0x03, group := Perms.enc, mac := false, ver := false, iso := false, iv := true }
def cbcDecCmd : PressCmd := { op := 0x04, group := Perms.dec, mac := false, ver := false, iso := false, iv := true }
def ctrCmd : PressCmd := { op := 0x05, group := Perms.enc, mac := false, ver := false, iso := false, iv := true }
def cmacGenCmd : PressCmd := { op := 0x06, group := Perms.macg, mac := true, ver := false, iso := false, iv := false }
def cmacVerCmd : PressCmd := { op := 0x07, group := Perms.macv, mac := true, ver := true, iso := false, iv := true }
def mac1GenCmd : PressCmd := { op := 0x08, group := Perms.macg, mac := true, ver := false, iso := true, iv := false }
def mac1VerCmd : PressCmd := { op := 0x09, group := Perms.macv, mac := true, ver := true, iso := true, iv := true }
def mac3GenCmd : PressCmd := { op := 0x0A, group := Perms.macg, mac := true, ver := false, iso := true, iv := false }
def mac3VerCmd : PressCmd := { op := 0x0B, group := Perms.macv, mac := true, ver := true, iso := true, iv := true }
def kwWrapCmd : PressCmd := { op := 0x0C, group := Perms.wrap, mac := false, ver := false, iso := false, iv := false }

/-- ECB_ENC (R303). -/
def execEcbEnc (d : Die) (p : Nat) (s : State) : Res := pressRow ecbEncCmd d p s
/-- ECB_DEC (R303). -/
def execEcbDec (d : Die) (p : Nat) (s : State) : Res := pressRow ecbDecCmd d p s
/-- CBC_ENC (R303). -/
def execCbcEnc (d : Die) (p : Nat) (s : State) : Res := pressRow cbcEncCmd d p s
/-- CBC_DEC (R303). -/
def execCbcDec (d : Die) (p : Nat) (s : State) : Res := pressRow cbcDecCmd d p s
/-- CTR (R303). -/
def execCtr (d : Die) (p : Nat) (s : State) : Res := pressRow ctrCmd d p s
/-- CMAC_GEN (R303). -/
def execCmacGen (d : Die) (p : Nat) (s : State) : Res := pressRow cmacGenCmd d p s
/-- CMAC_VER (R305). -/
def execCmacVer (d : Die) (p : Nat) (s : State) : Res := pressRow cmacVerCmd d p s
/-- MAC1_GEN (R303). -/
def execMac1Gen (d : Die) (p : Nat) (s : State) : Res := pressRow mac1GenCmd d p s
/-- MAC1_VER (R305). -/
def execMac1Ver (d : Die) (p : Nat) (s : State) : Res := pressRow mac1VerCmd d p s
/-- MAC3_GEN (R303). -/
def execMac3Gen (d : Die) (p : Nat) (s : State) : Res := pressRow mac3GenCmd d p s
/-- MAC3_VER (R305). -/
def execMac3Ver (d : Die) (p : Nat) (s : State) : Res := pressRow mac3VerCmd d p s
/-- KW_WRAP (R306). -/
def execKwWrap (d : Die) (p : Nat) (s : State) : Res := pressRow kwWrapCmd d p s

end Sys2Proof.Machine
end

