-- ==== Sys2Proof/Machine/Hashes.lean ====
section
/-! DEFINITION. The hash unit commands (14 R307, Tables 14.2 and 14.6). -/

namespace Sys2Proof.Machine

/-- A command flag of an engine block. -/
def blkFlag (b : Block) (i : Nat) : Bool := (blkW b 1).testBit i

/-- Hash unit `h` of a die. -/
def hashRef (d : Die) (h : Nat) : EngineRef := { die := d, kind := .hash, idx := h }

/-- The input of the job that a clerk runs. -/
def jobCmd (rt : Rt) (c : ClerkId) : Option Cmd :=
  match (clerkOf rt c).job with
  | none => none
  | some id => kget rt.cmds id

/-- What reading an engine's source comes to: the bytes, a read that the booth's windows refuse, or a failed read. -/
inductive SrcRead where
  | ok (b : Bytes)
  | refused (m : Cmd)
  | failed (m : Cmd)
  deriving DecidableEq, Repr

/-- Read `n` source bytes, from the desk or, with SRC, from the command's input at a byte offset through the host bridle
(R307, R308, R135). -/
def readSource (rt : Rt) (c : ClerkId) (b : Block) (src srcOk : Bool) (n : Nat) : SrcRead :=
  if src then
    match jobCmd rt c with
    | none => .ok (zeros n)
    | some m =>
      let off := blkD b 2
      let got := min n (m.input.length - off)
      if m.session.isSome || got == 0 then .ok (inputAt m off n)
      else if !rangeOk (cmdWindows rt m m.epoch) false (hostBase m + off) got then .refused m
      else if !srcOk then .failed m
      else .ok (inputAt m off n)
  else .ok (getPtr rt c b 2 n)

/-- A failed or refused input read ends the command with ACCESS_REFUSED (R135). -/
def endRead (x : SrcRead) (f : Bytes → Rt) (rt : Rt) : Rt :=
  match x with
  | .ok v => f v
  | .refused m => failWith m.id stAccessRefused rt
  | .failed m => inputDmaFault m (failWith m.id stAccessRefused rt)

/-- The algorithm of a hash block. -/
def hashOfBlock (b : Block) : Option HashAlg := hashAlg (blkW b 8)

/-- A refused hash command writes zeros to its destination and result word and records the outcome. -/
def hashRefuse (c : ClerkId) (b : Block) (st reason : Nat) (rt : Rt) : Rt :=
  let n := match hashOfBlock b with
    | some a => digestLen (min (blkW b 9) 512) a
    | none => 0
  let rt := if blkFlag b 1 && blkW b 0 != 3 then putDest c b (zeros n) rt else rt
  let rt := if blkW b 0 == 3 && decide (0x400 ≤ blkW b 10 ∧ blkW b 10 < 0x40000) then writeWord c (blkW b 10) 0 rt else rt
  recordOutcome c st reason rt

/-- The parameters of a hash command (14 Table 14.6): a defined algorithm, no SHAKE in HMAC, an output length of 1 to 512
for SHAKE, and a result word in the desk for HMAC_VER. -/
def hashParOk (b : Block) (a : HashAlg) : Bool :=
  let op := blkW b 0
  (op == 1 || !isShake a) && (if isShake a then decide (1 ≤ blkW b 9 ∧ blkW b 9 ≤ 512) else blkW b 9 == 0)
    && (if op = 3 then decide (0x400 ≤ blkW b 10 ∧ blkW b 10 < 0x40000) else blkW b 10 == 0)

/-- PREFIX serves HASH with SHA3 and SHAKE (R307). -/
def prefixAllowed (b : Block) : Bool :=
  let a := blkW b 8
  blkW b 0 == 1 && (a == 0x11 || a == 0x12 || a == 0x13 || a == 0x21 || a == 0x22)

/-- The key of an HMAC command, if its register allows it (R302). -/
def hmacKey (u : HashUnit) (op : Nat) : Option Bytes :=
  match u.k0 with
  | none => none
  | some k => if (if op = 2 then k.perms.hmacg else k.perms.hmacv) then some k.key else none

/-- The end of a hash command on its source: absorb, and at FINAL write the digest, the MAC or the result word. -/
def hashWork (e : EngineRef) (c : ClerkId) (b : Block) (a : HashAlg) (before src : Bytes) (rt : Rt) : Rt :=
  let u := hashOf rt (ekey e)
  let op := blkW b 0
  let n := digestLen (blkW b 9) a
  let pre := if blkFlag b 3 then u.pre.getD [] else []
  let all := if blkFlag b 4 then before ++ src ++ pre else before ++ pre ++ src
  if !blkFlag b 1 then setHash (ekey e) { u with st := some (blkW b 8, op, all) } rt
  else
    let rt := setHash (ekey e) { u with st := none } rt
    if op = 1 then putDest c b (digest a n all) rt
    else
      match hmacKey u op with
      | none => hashRefuse c b stUsageRefused 0 rt
      | some key =>
        if op = 2 then putDest c b (hmac a key all) rt
        else if src.length < n then hashRefuse c b stInputRefused 0x20 rt
        else
          let m := all.take (all.length - n)
          writeWord c (blkW b 10) (b2n (hmac a key m != all.drop (all.length - n))) rt

/-- A hash command on its front block (R307). -/
def hashBody (e : EngineRef) (srcOk : Bool) (c : ClerkId) (b : Block) (rt : Rt) : Rt :=
  let u := hashOf rt (ekey e)
  let op := blkW b 0
  if !(decide (blkW b 1 < 32) && blkZero b 11 5) then recordOutcome c stMalformed 0 rt
  else
    match hashOfBlock b with
    | none => hashRefuse c b stInputRefused 0x21 rt
    | some a =>
      if op != 1 && (hmacKey u op).isNone then hashRefuse c b stUsageRefused 0 rt
      else if !hashParOk b a then hashRefuse c b stInputRefused 0x21 rt
      else if blkFlag b 3 && !prefixAllowed b then hashRefuse c b stInputRefused 0x24 rt
      else if blkFlag b 3 && u.pre.isNone then hashRefuse c b stUsageRefused 0 rt
      else if decide (16777216 < blkD b 6) || (!blkFlag b 1 && blkD b 6 % hashBlock a != 0) then
        hashRefuse c b stInputRefused 0x20 rt
      else
        match (if blkFlag b 0 then u.st else some (blkW b 8, op, [])) with
        | none => hashRefuse c b stInputRefused 0x22 rt
        | some (al, o, before) =>
          if al = blkW b 8 ∧ o = op then
            endRead (readSource rt c b (blkFlag b 2) srcOk (blkD b 6)) (fun src => hashWork e c b a before src rt) rt
          else hashRefuse c b stInputRefused 0x22 rt

/-- The hash blocks of a command, for the mask expander (R313). -/
def hashBlocks (b : Block) : Nat :=
  match hashOfBlock b with
  | some a => blkD b 6 / hashBlock a + 1
  | none => 0

/-- Run the front command of a hash unit. -/
def hashRow (op : Nat) (d : Die) (h : Nat) (srcOk : Bool) (s : State) : Res :=
  let e := hashRef d h
  .next (onRt (fun rt => runFront e op hashBlocks (hashBody e srcOk) rt) s)

/-- HASH (R307). -/
def execHash (d : Die) (h : Nat) (srcOk : Bool) (s : State) : Res := hashRow 1 d h srcOk s
/-- HMAC_GEN (R307). -/
def execHmacGen (d : Die) (h : Nat) (srcOk : Bool) (s : State) : Res := hashRow 2 d h srcOk s
/-- HMAC_VER (R307). -/
def execHmacVer (d : Die) (h : Nat) (srcOk : Bool) (s : State) : Res := hashRow 3 d h srcOk s

end Sys2Proof.Machine
end

