-- ==== Sys2Proof/Machine/Looms.lean ====
section
/-! DEFINITION. The loom commands (14 R308 to R312, Tables 14.7 to 14.9). -/

namespace Sys2Proof.Machine

/-- Loom `l` of a die. -/
def loomRef (d : Die) (l : Nat) : EngineRef := { die := d, kind := .loom, idx := l }

/-- A loom command decrypts. -/
def loomDec (op : Nat) : Bool := op == 2 || op == 4

/-- A loom command uses CCM. -/
def loomCcm (op : Nat) : Bool := 3 ≤ op

/-- The destination field: 0 desk, 1 staged, 2 direct, 3 reserved. -/
def loomDst (b : Block) : Nat := bitsAt (blkW b 1) 1 2

/-- The payload length: the source length, less the tag for a decryption. -/
def loomPayload (b : Block) : Nat := if loomDec (blkW b 0) then blkD b 6 - blkW b 11 else blkD b 6

/-- Nonce and tag lengths of R308, and the pointers and result word in the desk. -/
def loomParOk (b : Block) : Bool :=
  let op := blkW b 0
  (if loomCcm op then decide (7 ≤ blkW b 10 ∧ blkW b 10 ≤ 13 ∧ 4 ≤ blkW b 11 ∧ blkW b 11 ≤ 16 ∧ blkW b 11 % 2 = 0)
   else blkW b 10 == 12 && blkW b 11 == 16)
    && deskPtr b 8 (2 * blkW b 10) && (blkW b 14 == 0 || deskPtr b 12 (2 * blkW b 14))
    && decide (0x400 ≤ blkW b 15 ∧ blkW b 15 < 0x40000) && (loomDst b == 0 || blkZero b 4 2)

/-- The limits of 14 Table 14.9 and the header limit. -/
def loomLenOk (b : Block) : Bool :=
  let p := loomPayload b
  decide (blkW b 14 ≤ 65536) && !(loomDec (blkW b 0) && decide (blkD b 6 < blkW b 11)) &&
    (match loomDst b with
     | 0 => decide (p ≤ 65536)
     | 1 => decide (p ≤ 16777216)
     | _ => loomDec (blkW b 0) && decide (65537 ≤ p ∧ p ≤ 33554432))

/-- A staged encryption's payload lies within the command's output length limit (Table 14.9). -/
def loomFits (m : Option Cmd) (b : Block) : Bool :=
  loomDec (blkW b 0) || loomDst b != 1 || (match m with
    | some m => decide (loomPayload b ≤ m.desc.outLim.toNat)
    | none => true)

/-- The six conditions of R311 on a direct decryption, by the streaming flag at the command's admission (R15). -/
def directOk (rt : Rt) (k : Clerk) (m : Cmd) : Bool :=
  m.session.isNone && m.streaming && (multiOf rt m).isNone
    && !isInline m.desc && !hasTallyOut m.desc && !k.directUsed && !k.streamUsed

/-- The tag and payload of a source, or the whole output of an encryption. -/
def loomOut (key : Bytes) (b : Block) (nonce hdr src : Bytes) : Bytes × Bool :=
  let op := blkW b 0
  let t := blkW b 11
  if loomDec op then
    let ct := src.take (src.length - t)
    let tag := src.drop (src.length - t)
    if loomCcm op then ccmDec key nonce hdr ct tag else gcmDec key nonce hdr ct tag
  else (if loomCcm op then ccmEnc key nonce hdr src t else gcmEnc key nonce hdr src, true)

/-- A refused loom command writes zeros to its desk destination and result word and records the outcome (R310). -/
def loomRefuse (c : ClerkId) (b : Block) (st reason : Nat) (rt : Rt) : Rt :=
  let n := if loomDec (blkW b 0) then loomPayload b else blkD b 6 + min (blkW b 11) 16
  let rt := if loomDst b = 0 then putDest c b (zeros (min n 65552)) rt else rt
  let rt := if 0x400 ≤ blkW b 15 ∧ blkW b 15 < 0x40000 then writeWord c (blkW b 15) 0 rt else rt
  recordOutcome c st reason rt

/-- Deliver a loom's output: to the desk, to staging, or to the host output buffer as it is produced (R309, R311). -/
def loomDeliver (c : ClerkId) (b : Block) (m : Option Cmd) (out : Bytes) (rt : Rt) : Rt :=
  match loomDst b, m with
  | 0, _ => putDest c b out rt
  | 1, some m => modCmd m.id (fun m => { m with output := m.output ++ out }) rt
  | _, some m =>
    let pasid := (boothOf rt m.booth).map fun x => x.cfg.pasid
    let rt := hostData pasid m.desc.outIova.toNat out rt
    let rt := modCmd m.id (fun m => { m with direct := out.length }) rt
    setClerk c { clerkOf rt c with directUsed := true } rt
  | _, none => rt

/-- The work of a loom command: the output, zeros in place of a payload of at most 65 536 bytes whose tag does not verify,
the result word, and the output withheld on a mismatch (R309, R310, R312). -/
def loomWork (e : EngineRef) (key : Bytes) (c : ClerkId) (b : Block) (src : Bytes) (rt : Rt) : Rt :=
  let nonce := getPtr rt c b 8 (blkW b 10)
  let hdr := if blkW b 14 = 0 then [] else getPtr rt c b 12 (blkW b 14)
  let m := jobCmd rt c
  let r := loomOut key b nonce hdr src
  let short := loomDec (blkW b 0) && decide (loomPayload b ≤ 65536)
  let out := if !r.2 && short then zeros r.1.length else r.1
  let rt := if short then setLoom (ekey e) { loomOf rt (ekey e) with hold := out } rt else rt
  let rt := loomDeliver c b m out rt
  let rt := writeWord c (blkW b 15) (b2n (!r.2)) rt
  match m with
  | some m => if r.2 then rt else modCmd m.id (fun m => { m with withheld := true }) rt
  | none => rt

/-- A loom command on its front block (R308 to R311). -/
def loomBody (e : EngineRef) (srcOk : Bool) (c : ClerkId) (b : Block) (rt : Rt) : Rt :=
  let u := loomOf rt (ekey e)
  if !(decide (blkW b 1 < 8) && loomDst b != 3) then recordOutcome c stMalformed 0 rt
  else
    match u.k0 with
    | none => loomRefuse c b stUsageRefused 0 rt
    | some key =>
      if !(if loomDec (blkW b 0) then key.perms.dec else key.perms.enc) || key.perms.ecbOnly then
        loomRefuse c b stUsageRefused 0 rt
      else if key.alg != .aes || !loomParOk b then loomRefuse c b stInputRefused 0x21 rt
      else if !(loomLenOk b && loomFits (jobCmd rt c) b) then loomRefuse c b stInputRefused 0x20 rt
      else
        let go := endRead (readSource rt c b (blkFlag b 0) srcOk (blkD b 6)) (fun src => loomWork e key.key c b src rt) rt
        if loomDst b = 2 then
          match jobCmd rt c with
          | none => rt
          | some m =>
            if !directOk rt (clerkOf rt c) m then loomRefuse c b stInputRefused 0x23 rt
            else if m.desc.outLim.toNat < loomPayload b then recordOutcome c stMalformed (loomPayload b) rt
            else go
        else go

/-- The keystream blocks of a loom command, for the mask expander (R313). -/
def loomBlocks (b : Block) : Nat := cdiv (blkW b 14) 16 + cdiv (blkD b 6) 16

/-- Run the front command of a loom. -/
def loomRow (op : Nat) (d : Die) (l : Nat) (srcOk : Bool) (s : State) : Res :=
  let e := loomRef d l
  .next (onRt (fun rt => runFront e op loomBlocks (loomBody e srcOk) rt) s)

/-- GCM_ENC (R308). -/
def execGcmEnc (d : Die) (l : Nat) (srcOk : Bool) (s : State) : Res := loomRow 1 d l srcOk s
/-- GCM_DEC (R310, R311). -/
def execGcmDec (d : Die) (l : Nat) (srcOk : Bool) (s : State) : Res := loomRow 2 d l srcOk s
/-- CCM_ENC (R308). -/
def execCcmEnc (d : Die) (l : Nat) (srcOk : Bool) (s : State) : Res := loomRow 3 d l srcOk s
/-- CCM_DEC (R310, R311). -/
def execCcmDec (d : Die) (l : Nat) (srcOk : Bool) (s : State) : Res := loomRow 4 d l srcOk s

end Sys2Proof.Machine
end

