-- ==== Sys2Proof/Machine/EngineEvents.lean ====
section
/-! DEFINITION. What happens to an engine beside its commands: a latch at its hold limit (14 R299), the end of zeroing
(14 R300, 11 R241), and the mask expander's reseed (14 R313). -/

namespace Sys2Proof.Machine

/-- The number of an engine's block in port space (11 Table 11.5). -/
def engineBlock (e : EngineRef) : Nat :=
  match e.kind with
  | .press => e.idx
  | .hash => 0x20 + e.idx
  | .loom => 0x30 + e.idx
  | .reckoner => 0x34 + e.idx

/-- LATCH_BREAK: at the hold limit, 16 µs from the claim or later, the engine stops, zeroes itself, and its holder's job ends with DEVICE_FAULT. A hash
unit's and a loom's limit counts idle holding only, and a stall for a reseed stops the count; a reckoner has none (R298,
R299, R317). -/
def doLatchBreak (e : EngineRef) (rt : Rt) : Rt :=
  let x := comOf rt e
  match holderOf rt e with
  | none => rt
  | some c =>
    match (clerkOf rt c).job with
    | none => rt
    | some id =>
      if e.kind == .reckoner || x.running || (e.kind != .press && !x.queue.isEmpty) || inFatal rt || inTamperHalt rt then rt
      else
        let rt := advanceTo (x.latch.claimedAt + holdLimit) rt
        raise { source := .latchBreak, scope := 0, island := some (engineIsland e), booth := (kget rt.cmds id).map Cmd.booth,
                detail := le 2 (engineBlock e) ++ [BitVec.ofNat 8 (c % 64)] ++ le 4 (rt.now - x.latch.claimedAt),
                houseProg := (clerkOf rt c).houseProg }
          (failWith id stDeviceFault rt)

/-- LATCH_BREAK. -/
def execLatchBreak (e : EngineRef) (s : State) : Res := .next (onRt (doLatchBreak e) s)

/-- The engine after its zeroing or wipe: WIPING clears; a reckoner's contents were wiped by RECKONER_WIPE. -/
def clearWiping (e : EngineRef) (rt : Rt) : Rt :=
  let x := comOf rt e
  setCom e { x with latch := { x.latch with wiping := false } } rt

/-- ENGINE_ZEROING_END: WIPING clears and the latch passes to the head of the FIFO (R300, R241). A reckoner's wipe has its
own row (R339). -/
def doEngineZeroingEnd (e : EngineRef) (rt : Rt) : Rt :=
  if e.kind != .reckoner && (comOf rt e).latch.wiping then passLatch e (clearWiping e rt) else rt

/-- ENGINE_ZEROING_END. -/
def execEngineZeroingEnd (e : EngineRef) (s : State) : Res := .next (onRt (doEngineZeroingEnd e) s)

/-- MASK_RESEED_REQUEST: from 2^20 − 2^16 blocks the mask expander asks its die's DRBG for 256 bits; the request passes
every other (R313, R344). -/
def doMaskReseedRequest (e : EngineRef) (rt : Rt) : Rt :=
  let x := comOf rt e
  if e.kind != .reckoner && engineExists e && decide (maskAsk ≤ x.blocks) && !x.reseedAsked then
    let rt := setCom e { x with reseedAsked := true } rt
    let m := mintOf rt e.die.val
    setMint e.die.val { m with waiting := .reseed e :: m.waiting } rt
  else rt

/-- MASK_RESEED_REQUEST. -/
def execMaskReseedRequest (e : EngineRef) (s : State) : Res := .next (onRt (doMaskReseedRequest e) s)

/-- MASK_RESEED_TIMEOUT: a command that has been held 50 µs ends, RNG_UNAVAILABLE is recorded, and the engine rejects
every claim until a reseed arrives (R313). -/
def doMaskReseedTimeout (e : EngineRef) (rt : Rt) : Rt :=
  let x := comOf rt e
  match holderOf rt e with
  | some c =>
    if e.kind != .reckoner && x.running then
      let rt := setCom e { x with rejecting := true } rt
      afterCommand e (popQueue e (recordOutcome c stRngUnavailable 0 rt))
    else rt
  | none => rt

/-- MASK_RESEED_TIMEOUT. -/
def execMaskReseedTimeout (e : EngineRef) (s : State) : Res := .next (onRt (doMaskReseedTimeout e) s)

/-- A reseed reaches a mask expander: its count starts again and a held engine continues (R313). -/
def maskReseed (e : EngineRef) (rt : Rt) : Rt :=
  let x := comOf rt e
  let rt := setCom e { x with blocks := 0, reseedAsked := false, rejecting := false, running := false } rt
  passLatch e rt

/-- Without a request of its engine. -/
def dropReseed (e : EngineRef) (m : Mint) : Mint := { m with waiting := m.waiting.filter (· != .reseed e) }

/-- MASK_RESEED_ARRIVAL: an asked-for reseed arrives from a DRBG that is instantiated (R313). -/
def doMaskReseedArrival (e : EngineRef) (rt : Rt) : Rt :=
  let m := mintOf rt e.die.val
  if (comOf rt e).reseedAsked && m.seeded then maskReseed e (setMint e.die.val (dropReseed e m) rt) else rt

/-- MASK_RESEED_ARRIVAL. -/
def execMaskReseedArrival (e : EngineRef) (s : State) : Res := .next (onRt (doMaskReseedArrival e) s)

end Sys2Proof.Machine
end

