-- ==== Sys2Proof/Machine/Lattice.lean ====
section
/-! DEFINITION. Lattice arithmetic of the reckoner: NTT layers, base-case products and rounding functions of FIPS 203 and
FIPS 204 on polynomials of 256 coefficients (15 R333 to R335, Table 15.7). -/

namespace Sys2Proof.Machine

/-- The built-in moduli (R333). -/
def qKyber : Nat := 3329
def qDil : Nat := 8380417

/-- The reverse of the low `n` bits. -/
def brv (n v : Nat) : Nat := reflect n v

/-- `b` to the power `e` modulo `q`, for small exponents. -/
def smallPow (b q : Nat) : Nat → Nat
  | 0 => 1 % q
  | e + 1 => b * smallPow b q e % q

/-- Twiddle `i` of the forward transform: FIPS 203's 17^brv7(i), FIPS 204's 1753^brv8(i), or the twiddles set with q. -/
def twiddle (q : Nat) (tw : List Nat) (i : Nat) : Nat :=
  if q = qKyber then smallPow 17 q (brv 7 i)
  else if q = qDil then smallPow 1753 q (brv 8 i)
  else tw.getD i 0

/-- The number of layers of a modulus (R334). -/
def layerCount (q : Nat) : Nat := if q = qKyber then 7 else 8

/-- One layer of the NTT on 256 coefficients: groups of 2 × len, len = 128 / 2^layer; with `inv` the inverse layer. -/
def nttLayer (q : Nat) (tw : List Nat) (layer : Nat) (inv : Bool) (p : List Nat) : List Nat :=
  let len := 128 / 2 ^ layer
  (List.range 256).map fun i =>
    let g := i / (2 * len)
    let lo := i % (2 * len) < len
    let a := p.getD (if lo then i else i - len) 0 % q
    let b := p.getD (if lo then i + len else i) 0 % q
    if inv then
      let z := twiddle q tw (2 ^ (layer + 1) - 1 - g)
      if lo then (a + b) % q else z * (b + q - a) % q
    else
      let t := twiddle q tw (2 ^ layer + g) * b % q
      if lo then (a + t) % q else (a + q - t) % q

/-- The whole inverse transform of FIPS 203 or FIPS 204, the final scaling included. -/
def nttInverse (q : Nat) (tw : List Nat) (p : List Nat) : List Nat :=
  let n := layerCount q
  let r := (List.range n).foldl (fun p i => nttLayer q tw (n - 1 - i) true p) p
  let s := smallPow ((q + 1) / 2) q n
  r.map fun x => x * s % q

/-- FIPS 203's base-case products of two transformed polynomials. -/
def baseMul (q : Nat) (a b : List Nat) : List Nat :=
  (List.range 256).map fun i =>
    let j := i / 2
    let g := if q = qKyber then smallPow 17 q (2 * brv 7 j + 1) else Config.baseTwiddle q j
    let a0 := a.getD (2 * j) 0
    let a1 := a.getD (2 * j + 1) 0
    let b0 := b.getD (2 * j) 0
    let b1 := b.getD (2 * j + 1) 0
    if i % 2 = 0 then (a0 * b0 + a1 * b1 * g) % q else (a0 * b1 + a1 * b0) % q

/-- The centred residue of `r` modulo `m`, in (−m/2, m/2]. -/
def centred (m r : Nat) : Int :=
  let v := r % m
  if m < 2 * v then (v : Int) - m else (v : Int)

/-- A residue modulo q of an integer. -/
def toRes (q : Nat) (v : Int) : Nat := (v % (q : Int)).toNat

/-- FIPS 204 Decompose: high part and low part. -/
def decomp (q g r : Nat) : Nat × Int :=
  let r0 := centred (2 * g) (r % q)
  let d := ((r % q : Nat) : Int) - r0
  if d = (q : Int) - 1 then (0, r0 - 1) else ((d / ((2 * g : Nat) : Int)).toNat, r0)

/-- γ2 selected by word 14 (Table 15.7). -/
def gamma2 (q sel : Nat) : Nat := if sel = 1 then (q - 1) / 88 else (q - 1) / 32

/-- FIPS 204 UseHint. -/
def useHint (q g h r : Nat) : Nat :=
  let m := (q - 1) / (2 * g)
  let d := decomp q g r
  if h = 1 then (if 0 < d.2 then (d.1 + 1) % m else (d.1 + m - 1) % m) else d.1

/-- The parameter of an LROUND function is one that Table 15.7 allows. -/
def lroundOk (q fn p : Nat) : Bool :=
  match fn with
  | 0 => decide (p < q)
  | 1 => decide (1 ≤ p ∧ p ≤ 11)
  | 2 => decide (1 ≤ p ∧ p ≤ 11)
  | 3 => p == 0
  | 4 => p == 1 || p == 2
  | 5 => p == 1 || p == 2
  | 6 => p == 1 || p == 2
  | 7 => p == 1 || p == 2
  | _ => false

/-- LROUND on one coefficient of A (and of B for 06h and 07h): the output to D. -/
def lroundD (q fn p a b : Nat) : Nat :=
  match fn with
  | 0 => a * p % q
  | 1 => (2 ^ (p + 1) * (a % q) + q) / (2 * q) % 2 ^ p
  | 2 => (q * (a % 2 ^ p) + 2 ^ (p - 1)) / 2 ^ p
  | 3 => toRes q ((((a % q : Nat) : Int) - centred 8192 (a % q)) / 8192)
  | 4 => (decomp q (gamma2 q p) a).1
  | 5 => toRes q (decomp q (gamma2 q p) a).2
  | 6 => b2n ((decomp q (gamma2 q p) b).1 != (decomp q (gamma2 q p) ((a + b) % q)).1)
  | _ => useHint q (gamma2 q p) a b

/-- The second output of Power2Round, to B. -/
def lroundB (q a : Nat) : Nat := toRes q (centred 8192 (a % q))

/-- The rejection bit of LNORM: a magnitude at or above the bound, or with `count` more nonzero coefficients than the
bound (R335). -/
def rejection (q bound : Nat) (count : Bool) (p : List Nat) : Bool :=
  if count then decide (bound < (p.filter (· ≠ 0)).length)
  else p.any fun a => decide (bound ≤ (centred q a).natAbs)

/-- The FIPS 204 bounds of ML-DSA-65 (size code 2) and ML-DSA-87 (3): γ1 − β, γ2 − β, ω. -/
def mlDsaBounds (size : Nat) : List Nat :=
  if size = 2 then [524288 - 196, 261888 - 196, 55] else [524288 - 120, 261888 - 120, 75]

end Sys2Proof.Machine
end

