-- ==== Sys2Proof/Machine/PubKey.lean ====
section
/-! DEFINITION. Public-key arithmetic that the command programs run on the reckoners (R391, R392, R478): RSA, ECDSA and
ECDH on the NIST curves, X25519 and X448, as the standards of 00 Table 0.7 define them (assumption log 6). -/

namespace Sys2Proof.Machine

/-- x^e mod m. -/
def powMod (x e m : Nat) : Nat :=
  (bitsMsb (Nat.log2 e + 1) e).foldl (fun a b =>
    let s := a * a % m
    if b then s * x % m else s) (1 % m)

/-- The inverse modulo a prime; 0 for 0. -/
def invMod (x p : Nat) : Nat := powMod x (p - 2) p

/-- a − b modulo m, for b below m. -/
def subMod (a b m : Nat) : Nat := (a + (m - b % m)) % m

/-! ## Weierstrass curves with a = −3 -/

/-- A NIST curve: the field prime, b, the base point, the group order, and the field's byte length. -/
structure Curve where
  p : Nat
  b : Nat
  gx : Nat
  gy : Nat
  n : Nat
  len : Nat
  deriving DecidableEq, Repr

/-- P-256 (FIPS 186-5, SP 800-186). -/
def p256 : Curve :=
  { p := 0xFFFFFFFF00000001000000000000000000000000FFFFFFFFFFFFFFFFFFFFFFFF
    b := 0x5AC635D8AA3A93E7B3EBBD55769886BC651D06B0CC53B0F63BCE3C3E27D2604B
    gx := 0x6B17D1F2E12C4247F8BCE6E563A440F277037D812DEB33A0F4A13945D898C296
    gy := 0x4FE342E2FE1A7F9B8EE7EB4A7C0F9E162BCE33576B315ECECBB6406837BF51F5
    n := 0xFFFFFFFF00000000FFFFFFFFFFFFFFFFBCE6FAADA7179E84F3B9CAC2FC632551
    len := 32 }

/-- P-384. -/
def p384 : Curve :=
  { p := 2 ^ 384 - 2 ^ 128 - 2 ^ 96 + 2 ^ 32 - 1
    b := 0xB3312FA7E23EE7E4988E056BE3F82D19181D9C6EFE8141120314088F5013875AC656398D8A2ED19D2A85C8EDD3EC2AEF
    gx := 0xAA87CA22BE8B05378EB1C71EF320AD746E1D3B628BA79B9859F741E082542A385502F25DBF55296C3A545E3872760AB7
    gy := 0x3617DE4A96262C6F5D9E98BF9292DC29F8F41DBD289A147CE9DA3113B5F0B8C00A60B1CE1D7E819D7A431D7C90EA0E5F
    n := 0xFFFFFFFFFFFFFFFFFFFFFFFFFFFFFFFFFFFFFFFFFFFFFFFFC7634D81F4372DDF581A0DB248B0A77AECEC196ACCC52973
    len := 48 }

/-- P-521. -/
def p521 : Curve :=
  { p := 2 ^ 521 - 1
    b := 0x0051953EB9618E1C9A1F929A21A0B68540EEA2DA725B99B315F3B8B489918EF109E156193951EC7E937B1652C0BD3BB1BF073573DF883D2C34F1EF451FD46B503F00
    gx := 0x00C6858E06B70404E9CD9E3ECB662395B4429C648139053FB521F828AF606B4D3DBAA14B5E77EFE75928FE1DC127A2FFA8DE3348B3C1856A429BF97E7E31C2E5BD66
    gy := 0x011839296A789A3BC0045C8A5FB42C7D1BD998F54449579B446817AFBD17273E662C97EE72995EF42640C550B9013FAD0761353C7086A272C24088BE94769FD16650
    n := 2 ^ 521 - 657877501894328237357444332315020117536923257219387276263472201219398408051703
    len := 66 }

/-- A point on a curve; none is the point at infinity. -/
abbrev Point := Option (Nat × Nat)

/-- The point is on the curve, both coordinates below p. -/
def onCurve (c : Curve) (q : Nat × Nat) : Bool :=
  decide (q.1 < c.p ∧ q.2 < c.p ∧ q.2 * q.2 % c.p = subMod (q.1 * q.1 * q.1 + c.b) (3 * q.1) c.p)

/-- Add points. -/
def ptAdd (c : Curve) : Point → Point → Point
  | none, q => q
  | q, none => q
  | some (x1, y1), some (x2, y2) =>
    if x1 = x2 ∧ (y1 + y2) % c.p = 0 then none
    else
      let l :=
        if x1 = x2 then subMod (3 * x1 * x1) 3 c.p * invMod (2 * y1 % c.p) c.p % c.p
        else subMod y2 y1 c.p * invMod (subMod x2 x1 c.p) c.p % c.p
      let x3 := subMod (subMod (l * l) x1 c.p) x2 c.p
      some (x3, subMod (l * subMod x1 x3 c.p) y1 c.p)

/-- Multiply a point by a scalar. -/
def ptMul (c : Curve) (k : Nat) (q : Point) : Point :=
  (bitsMsb (Nat.log2 k + 1) k).foldl (fun a b =>
    let d := ptAdd c a a
    if b then ptAdd c d q else d) none

/-- The point of a compressed encoding (p ≡ 3 mod 4 for every curve here). -/
def decompress (c : Curve) (b : Bytes) : Option (Nat × Nat) :=
  let x := ofBe (b.drop 1)
  let t := byteAt b 0
  let y := powMod (subMod (x * x * x + c.b) (3 * x) c.p) ((c.p + 1) / 4) c.p
  let y := if y % 2 = t % 2 then y else (c.p - y) % c.p
  if b.length = c.len + 1 ∧ (t = 2 ∨ t = 3) ∧ onCurve c (x, y) then some (x, y) else none

/-- The leftmost bits of a digest as ECDSA takes them. -/
def ecdsaHash (c : Curve) (dig : Bytes) : Nat :=
  let bits := Nat.log2 c.n + 1
  if 8 * dig.length ≤ bits then ofBe dig else ofBe dig >>> (8 * dig.length - bits)

/-- ECDSA signature with per-message secret k: r and s, or none where a component is zero. -/
def ecdsaSign (c : Curve) (d k : Nat) (dig : Bytes) : Option (Nat × Nat) :=
  match ptMul c k (some (c.gx, c.gy)) with
  | none => none
  | some (x, _) =>
    let r := x % c.n
    let s := invMod (k % c.n) c.n * (ecdsaHash c dig + r * d) % c.n
    if r = 0 ∨ s = 0 then none else some (r, s)

/-- ECDSA verification with r and s in 1 to n − 1. -/
def ecdsaVerify (c : Curve) (q : Nat × Nat) (dig : Bytes) (r s : Nat) : Bool :=
  if r = 0 ∨ c.n ≤ r ∨ s = 0 ∨ c.n ≤ s then false
  else
    let w := invMod s c.n
    match ptAdd c (ptMul c (ecdsaHash c dig * w % c.n) (some (c.gx, c.gy))) (ptMul c (r * w % c.n) (some q)) with
    | none => false
    | some (x, _) => x % c.n = r

/-! ## Montgomery curves (RFC 7748) -/

/-- One ladder step on (x2, z2, x3, z3) for a bit, with the swap done by selection. -/
def ladderStep (p a24 u : Nat) (s : Nat × Nat × Nat × Nat) (bit : Bool) : Nat × Nat × Nat × Nat :=
  let (x2, z2, x3, z3) := if bit then (s.2.2.1, s.2.2.2, s.1, s.2.1) else s
  let a := (x2 + z2) % p
  let aa := a * a % p
  let b := subMod x2 z2 p
  let bb := b * b % p
  let e := subMod aa bb p
  let c := (x3 + z3) % p
  let d := subMod x3 z3 p
  let da := d * a % p
  let cb := c * b % p
  let x5 := (da + cb) * (da + cb) % p
  let t := subMod da cb p
  let z5 := u * (t * t % p) % p
  let x4 := aa * bb % p
  let z4 := e * ((aa + a24 * e) % p) % p
  if bit then (x5, z5, x4, z4) else (x4, z4, x5, z5)

/-- The u-coordinate of k times a point. -/
def ladder (p a24 bits k u : Nat) : Nat :=
  let s := (bitsMsb bits k).foldl (ladderStep p a24 u) (1, 0, u, 1)
  s.1 * invMod s.2.1 p % p

/-- X25519 on encoded scalar and u. -/
def x25519 (k u : Bytes) : Bytes :=
  let kv := ofLe k
  let kc := kv % 2 ^ 254 - kv % 8 + 2 ^ 254
  le 32 (ladder (2 ^ 255 - 19) 121665 255 kc (ofLe u % 2 ^ 255 % (2 ^ 255 - 19)))

/-- X448 on encoded scalar and u. -/
def x448 (k u : Bytes) : Bytes :=
  let p := 2 ^ 448 - 2 ^ 224 - 1
  let kv := ofLe k
  let kc := kv % 2 ^ 447 - kv % 4 + 2 ^ 447
  le 56 (ladder p 39081 448 kc (ofLe u % p))

/-! ## RSA (PKCS #1 v2.2) -/

/-- The DER prefix of DigestInfo for SHA-256, SHA-384 and SHA-512. -/
def digestInfo : HashAlg → Bytes
  | .sha384 => bytesOf [0x30, 0x41, 0x30, 0x0D, 0x06, 0x09, 0x60, 0x86, 0x48, 0x01, 0x65, 0x03, 0x04, 0x02, 0x02, 0x05, 0x00, 0x04, 0x30]
  | .sha512 => bytesOf [0x30, 0x51, 0x30, 0x0D, 0x06, 0x09, 0x60, 0x86, 0x48, 0x01, 0x65, 0x03, 0x04, 0x02, 0x03, 0x05, 0x00, 0x04, 0x40]
  | _ => bytesOf [0x30, 0x31, 0x30, 0x0D, 0x06, 0x09, 0x60, 0x86, 0x48, 0x01, 0x65, 0x03, 0x04, 0x02, 0x01, 0x05, 0x00, 0x04, 0x20]

/-- EMSA-PKCS1-v1_5 with an encoded length of `k` bytes. -/
def emsaPkcs1 (a : HashAlg) (k : Nat) (dig : Bytes) : Bytes :=
  let t := digestInfo a ++ dig
  bytesOf [0x00, 0x01] ++ List.replicate (k - t.length - 3) 0xFF#8 ++ [0x00#8] ++ t

/-- MGF1. -/
def mgf1 (a : HashAlg) (seed : Bytes) (n : Nat) : Bytes :=
  (((List.range (cdiv n (digestLen 0 a))).map fun i => digest a 0 (seed ++ be 4 i)).flatten).take n

/-- EMSA-PSS with the salt given, for a modulus of `bits` bits. -/
def emsaPss (a : HashAlg) (bits : Nat) (dig salt : Bytes) : Bytes :=
  let emLen := cdiv (bits - 1) 8
  let h := digest a 0 (zeros 8 ++ dig ++ salt)
  let db := zeros (emLen - salt.length - h.length - 2) ++ [0x01#8] ++ salt
  let m := bxor db (mgf1 a h db.length)
  let top := 8 * emLen - (bits - 1)
  let m := match m with
    | [] => []
    | x :: xs => (x &&& BitVec.ofNat 8 (2 ^ (8 - top) - 1)) :: xs
  m ++ h ++ [0xBC#8]

/-- EMSA-PSS verification with a salt of the hash's length (R391). -/
def pssVerify (a : HashAlg) (bits : Nat) (dig em : Bytes) : Bool :=
  let emLen := cdiv (bits - 1) 8
  let hl := digestLen 0 a
  let dbLen := emLen - hl - 1
  let h := slice em dbLen hl
  let top := 8 * emLen - (bits - 1)
  let db := bxor (em.take dbLen) (mgf1 a h dbLen)
  let db := match db with
    | [] => []
    | x :: xs => (x &&& BitVec.ofNat 8 (2 ^ (8 - top) - 1)) :: xs
  decide (em.length = emLen ∧ emLen ≥ 2 * hl + 2 ∧ em.getLast? = some 0xBC#8 ∧
    emsaPss a bits dig (db.drop (dbLen - hl)) = em)

end Sys2Proof.Machine
end

