-- ==== Sys2Proof/Machine/Reckoners.lean ====
section
/-! DEFINITION. The reckoner (15): operand memory and secret marks, the command list of Table 15.3, command lists, key
delivery checks, invariants and release, and the wipe. -/

namespace Sys2Proof.Machine

/-! ## Operand memory (R319, R323) -/

/-- The limb at a position. -/
def limbAt (r : Reckoner) (p : Nat) : Nat := (kgetD r.mem p 0).toNat

/-- The operand of `n` limbs at a position. -/
def numAt (r : Reckoner) : Nat → Nat → Nat
  | 0, _ => 0
  | n + 1, p => limbAt r p + 2 ^ 64 * numAt r n (p + 1)

/-- Some limb of a range is secret-marked. -/
def anySecret (r : Reckoner) (p n : Nat) : Bool := r.marks.any fun i => decide (p ≤ i ∧ i < p + n)

/-- Set or clear the marks of a range. -/
def markRange (p n : Nat) (sec : Bool) (r : Reckoner) : Reckoner :=
  let m := r.marks.filter fun i => decide (i < p ∨ p + n ≤ i)
  { r with marks := if sec then m ++ (List.range n).map (· + p) else m }

/-- Write limbs from a position, without their marks. -/
def putLimbs : Nat → List Nat → Reckoner → Reckoner
  | _, [], r => r
  | p, v :: vs, r => putLimbs (p + 1) vs { r with mem := kput 0 r.mem p (BitVec.ofNat 64 v) }

/-- `n` limbs of a number. -/
def limbsOf : Nat → Nat → List Nat
  | 0, _ => []
  | n + 1, v => v % 2 ^ 64 :: limbsOf n (v / 2 ^ 64)

/-- Write a number to `n` limbs with a mark. -/
def putNum (p n v : Nat) (sec : Bool) (r : Reckoner) : Reckoner := markRange p n sec (putLimbs p (limbsOf n v) r)

/-- Two ranges overlap. -/
def overlap (a n b m : Nat) : Bool := decide (a < b + m ∧ b < a + n ∧ 0 < n ∧ 0 < m)

/-- Two ranges overlap without being equal. -/
def overlapPart (a b n : Nat) : Bool := a != b && overlap a n b n

/-- A range lies in operand memory. -/
def inMem (p n : Nat) : Bool := decide (p + n ≤ 4096)

/-- A modulus register. -/
def modReg (r : Reckoner) (i : Nat) : ModReg :=
  if i = 0 then r.mod0 else if i = 1 then r.mod1 else if i = 2 then r.mod2 else r.mod3

/-- Load a modulus register. -/
def setModReg (i : Nat) (m : ModReg) (r : Reckoner) : Reckoner :=
  if i = 0 then { r with mod0 := m } else if i = 1 then { r with mod1 := m } else if i = 2 then { r with mod2 := m }
  else { r with mod3 := m }

/-- ρ² mod M of a modulus register, ρ = 2^(64 n) (Table 15.1). -/
def rhoSq (m : ModReg) : Nat := 2 ^ (128 * m.len) % m.m

/-- The Montgomery reduction t × ρ⁻¹ mod M for an odd M, by halving. -/
def montReduce (m : ModReg) (t : Nat) : Nat :=
  forN (64 * m.len) (fun _ x => if x % 2 = 1 then (x + m.m) / 2 else x / 2) (t % m.m)

/-! ## Polynomials (R333) -/

/-- The 256 coefficients of the polynomial at a position. -/
def polyAt (r : Reckoner) (p : Nat) : List Nat :=
  (List.range 256).map fun i => bitsAt (limbAt r (p + i / 2)) (32 * (i % 2)) 32

/-- The limbs of 256 coefficients. -/
def polyLimbs (l : List Nat) : List Nat :=
  (List.range 128).map fun j => l.getD (2 * j) 0 + 2 ^ 32 * l.getD (2 * j + 1) 0

/-- Write polynomials from a position. -/
def putPolys : Nat → List (List Nat) → Reckoner → Reckoner
  | _, [], r => r
  | p, l :: ls, r => putPolys (p + 128) ls (putLimbs p (polyLimbs l) r)

/-- `k` polynomials at a position. -/
def polysAt (r : Reckoner) (k p : Nat) : List (List Nat) := (List.range k).map fun i => polyAt r (p + 128 * i)

/-! ## Command fields (15 Table 15.2) -/

/-- The fields of a reckoner command: flags and words 8 to 15. -/
structure RecCmd where
  op : Nat
  fl : Nat
  a : Nat
  b : Nat
  d : Nat
  n : Nat
  m : Nat
  p : Nat
  x : Nat
  y : Nat
  lib : Bool
  deriving DecidableEq, Repr

/-- The command that a block holds. -/
def recCmd (b : Block) : RecCmd :=
  { op := blkW b 0, fl := blkW b 1, a := blkW b 8, b := blkW b 9, d := blkW b 10, n := blkW b 11, m := blkW b 12,
    p := blkW b 13, x := blkW b 14, y := blkW b 15, lib := b.lib }

/-- The command that a list entry holds: words 2 to 7 as block words 8 to 13 (R331). -/
def listCmd (b : Block) (lib : Bool) : RecCmd :=
  { op := blkW b 0, fl := blkW b 1, a := blkW b 2, b := blkW b 3, d := blkW b 4, n := blkW b 5, m := blkW b 6,
    p := blkW b 7, x := 0, y := 0, lib := lib }

def fAcc (c : RecCmd) : Bool := c.fl.testBit 0
def fRsq (c : RecCmd) : Bool := c.fl.testBit 1
def fZx (c : RecCmd) : Bool := c.fl.testBit 2
def fDec (c : RecCmd) : Bool := c.fl.testBit 3
def fFin (c : RecCmd) : Bool := c.fl.testBit 4
def fRaw (c : RecCmd) : Bool := c.fl.testBit 5
def fSec (c : RecCmd) : Bool := c.fl.testBit 6
def fInv (c : RecCmd) : Bool := c.fl.testBit 7

/-- Reserved bits of the common fields are zero (Table 15.2). -/
def fieldsOk (c : RecCmd) : Bool :=
  decide (c.fl < 256 ∧ c.a < 4096 ∧ c.b < 4096 ∧ c.d < 4096 ∧ c.m < 4)

/-- The reckoner after a command, and the outcomes that it records, in order. -/
abbrev RecOut := Reckoner × List (Nat × Nat)

/-- MALFORMED and nothing else (R319). -/
def malformedRec (r : Reckoner) : RecOut := (r, [(stMalformed, 0)])

/-- Refused: the reason, and the refused state (R328). -/
def refusedRec (reason : Nat) (r : Reckoner) : RecOut := ({ r with refused := true }, [(stInputRefused, reason)])

/-! ## Limb commands -/

/-- MOVL: D := A. -/
def recMovl (c : RecCmd) (r : Reckoner) : RecOut :=
  if !(decide (1 ≤ c.n ∧ c.n ≤ 4096) && inMem c.a c.n && inMem c.d c.n) || overlap c.a c.n c.d c.n || c.p != 0 then
    malformedRec r
  else (putNum c.d c.n (numAt r c.n c.a) (anySecret r c.a c.n) r, [])

/-- SETMOD: MODi := A; an even modulus or one below 3 is refused and all-ones limbs are loaded (R328). -/
def recSetmod (c : RecCmd) (r : Reckoner) : RecOut :=
  if !(decide (1 ≤ c.n ∧ c.n ≤ 128) && inMem c.a c.n) || c.p != 0 then malformedRec r
  else
    let v := numAt r c.n c.a
    let sec := anySecret r c.a c.n
    if v % 2 = 0 ∨ v < 3 then
      refusedRec 0x37 (setModReg c.m { len := c.n, m := 2 ^ (64 * c.n) - 1, secret := sec } r)
    else (setModReg c.m { len := c.n, m := v, secret := sec } r, [])

/-- MACP: D (2n limbs) := A × B, with ACC D + A × B; with RSQ, B is MODi's ρ². -/
def recMacp (c : RecCmd) (r : Reckoner) : RecOut :=
  let m := modReg r c.m
  if !(decide (1 ≤ c.n ∧ c.n ≤ 128) && inMem c.a c.n && (fRsq c || inMem c.b c.n) && inMem c.d (2 * c.n))
      || overlap c.a c.n c.d (2 * c.n) || (!fRsq c && overlap c.b c.n c.d (2 * c.n)) || (fRsq c && m.len == 0) || c.p != 0 then
    malformedRec r
  else
    let x := numAt r c.n c.a
    let y := if !fRsq c then numAt r c.n c.b
      else if m.len = c.n then rhoSq m else Config.reckonerOut 5 (numAt r c.n c.a) c.n m.m % 2 ^ (64 * c.n)
    let acc := if fAcc c then numAt r (2 * c.n) c.d else 0
    let v := acc + x * y
    let cap := 2 ^ (128 * c.n)
    let v := if v < cap then v else Config.reckonerOut 5 acc (x * y) cap % cap
    let sec := anySecret r c.a c.n || (if fRsq c then m.secret else anySecret r c.b c.n)
      || (fAcc c && anySecret r c.d (2 * c.n))
    (putNum c.d (2 * c.n) v sec r, [])

/-- REDC: D (n limbs) := A × ρ⁻¹ mod MODi, fully reduced; a length that is not the modulus's has no stated result (log 17). -/
def recRedc (c : RecCmd) (r : Reckoner) : RecOut :=
  let m := modReg r c.m
  let w := if fZx c then c.n else 2 * c.n
  if !(decide (1 ≤ c.n ∧ c.n ≤ 128) && (fRsq c || inMem c.a w) && inMem c.d c.n)
      || (!fRsq c && overlap c.a w c.d c.n) || m.len == 0 || c.p != 0 then malformedRec r
  else
    let t := if fRsq c then rhoSq m else numAt r w c.a
    let sec := m.secret || (!fRsq c && anySecret r c.a w)
    let v := if m.len = c.n then montReduce m t else Config.reckonerOut 6 t c.n m.m
    (putNum c.d c.n v sec r, [])

/-- MADD and MSUB: operands below the modulus; other operands have no stated result. -/
def recModAdd (sub : Bool) (c : RecCmd) (r : Reckoner) : RecOut :=
  let m := modReg r c.m
  if !(decide (1 ≤ c.n ∧ c.n ≤ 128) && inMem c.a c.n && inMem c.b c.n && inMem c.d c.n)
      || overlapPart c.a c.d c.n || overlapPart c.b c.d c.n || m.len == 0 || c.p != 0 then malformedRec r
  else
    let x := numAt r c.n c.a
    let y := numAt r c.n c.b
    let v := if x < m.m ∧ y < m.m then (if sub then (x + m.m - y) % m.m else (x + y) % m.m)
      else Config.reckonerOut (if sub then 8 else 7) x y m.m
    (putNum c.d c.n v (m.secret || anySecret r c.a c.n || anySecret r c.b c.n) r, [])

/-- The bit that CSWAP_BIT reads: bit BC of the operand at S, zero beyond limb 4 095 (R330). -/
def selBit (r : Reckoner) (s : Nat) : Bool :=
  let p := s + r.bc / 64
  decide (p < 4096) && (limbAt r p).testBit (r.bc % 64)

/-- CSWAP_BIT (R330). -/
def recCswap (c : RecCmd) (r : Reckoner) : RecOut :=
  if !(decide (1 ≤ c.n ∧ c.n ≤ 256) && inMem c.a c.n && inMem c.b c.n && decide (c.p < 4096)) || overlap c.a c.n c.b c.n then
    malformedRec r
  else
    let b := selBit r c.p
    let s := if fFin c then r.swap else if fRaw c then b else b != r.swap
    let x := numAt r c.n c.a
    let y := numAt r c.n c.b
    let sec := anySecret r c.a c.n || anySecret r c.b c.n || anySecret r c.p 1 || anySecret r (c.p + r.bc / 64) 1
    let r' := putNum c.b c.n (if s then x else y) sec (putNum c.a c.n (if s then y else x) sec r)
    let latch := if fFin c then false else if fRaw c then r.swap else b
    let bc := if !fFin c && fDec c && decide (0 < r.bc) then r.bc - 1 else r.bc
    ({ r' with swap := latch, bc := bc }, [])

/-- BSET: BC := word 13; the swap latch is cleared. -/
def recBset (c : RecCmd) (r : Reckoner) : RecOut :=
  if 262143 < c.p then malformedRec r else ({ r with bc := c.p, swap := false }, [])

/-! ## Lattice commands -/

/-- SETQ (R333). -/
def recSetq (c : RecCmd) (r : Reckoner) : RecOut :=
  let q := c.p + 2 ^ 20 * bitsAt c.x 0 4
  if 16 ≤ c.x then malformedRec r
  else if q % 2 = 0 ∨ q < 3 ∨ 2 ^ 24 ≤ q then refusedRec 0x37 r
  else if q = qKyber ∨ q = qDil then ({ r with q := q, tw := [] }, [])
  else if !inMem c.a 128 then malformedRec r
  else ({ r with q := q, tw := polyAt r c.a }, [])

/-- The polynomial count and ranges of a lattice command are sound, and SETQ has run. -/
def polyOk (r : Reckoner) (k : Nat) (ps : List Nat) : Bool :=
  decide (1 ≤ k ∧ k ≤ 8) && r.q != 0 && ps.all fun p => inMem p (128 * k)

/-- Write a lattice result. -/
def putLattice (c : RecCmd) (p : Nat) (l : List (List Nat)) (sec : Bool) (r : Reckoner) : Reckoner :=
  markRange p (128 * c.n) sec (putPolys p l r)

/-- LBFLY: one NTT layer on k polynomials at A in place. -/
def recLbfly (c : RecCmd) (r : Reckoner) : RecOut :=
  if !polyOk r c.n [c.a] || decide (layerCount r.q ≤ c.p) || c.x != 0 then malformedRec r
  else
    let l := (polysAt r c.n c.a).map (nttLayer r.q r.tw c.p (fInv c))
    (putLattice c c.a l (anySecret r c.a (128 * c.n)) r, [])

/-- A coefficientwise or base-case operation of A and B into D; `same` tells that D may equal a source. -/
def recLattice2 (f : Nat → List Nat → List Nat → List Nat) (same acc : Bool) (c : RecCmd) (r : Reckoner) : RecOut :=
  let n := 128 * c.n
  let bad := fun (p : Nat) => if same then overlapPart p c.d n else overlap p n c.d n
  if !polyOk r c.n [c.a, c.b, c.d] || bad c.a || bad c.b || c.p != 0 || c.x != 0 then malformedRec r
  else
    let pa := polysAt r c.n c.a
    let pb := polysAt r c.n c.b
    let pd := polysAt r c.n c.d
    let l := (List.range c.n).map fun i =>
      let v := f r.q (pa.getD i []) (pb.getD i [])
      if acc then List.zipWith (fun x y => (x + y) % r.q) (pd.getD i []) v else v
    let sec := anySecret r c.a n || anySecret r c.b n || (acc && anySecret r c.d n)
    (putLattice c c.d l sec r, [])

/-- Coefficientwise functions of two polynomials modulo q. -/
def polyMul (q : Nat) (a b : List Nat) : List Nat := List.zipWith (fun x y => x * y % q) a b
def polyAdd (q : Nat) (a b : List Nat) : List Nat := List.zipWith (fun x y => (x + y) % q) a b
def polySub (q : Nat) (a b : List Nat) : List Nat := List.zipWith (fun x y => (x % q + q - y % q) % q) a b

/-- LROUND (Table 15.7). -/
def recLround (c : RecCmd) (r : Reckoner) : RecOut :=
  let n := 128 * c.n
  let two := c.p == 6 || c.p == 7
  if !polyOk r c.n ([c.a, c.d] ++ (if two || c.p == 3 then [c.b] else [])) || decide (256 ≤ c.p) || !lroundOk r.q c.p c.x
      || overlapPart c.a c.d n || (two && overlapPart c.b c.d n)
      || (c.p == 3 && (overlap c.b n c.d n || overlapPart c.a c.b n)) then malformedRec r
  else
    let pa := polysAt r c.n c.a
    let pb := polysAt r c.n c.b
    let sec := anySecret r c.a n || (two && anySecret r c.b n)
    let l := List.zipWith (List.zipWith fun x y => lroundD r.q c.p c.x x y) pa pb
    let r' := putLattice c c.d l sec r
    let r' := if c.p = 3 then putLattice c c.b (pa.map fun v => v.map (lroundB r.q)) sec r' else r'
    (r', [])

/-- LNORM (R335): the rejection bit to limb D, if the job signs with an ML-DSA key, the bound is one of FIPS 204 and the
library issued the command. -/
def recLnorm (c : RecCmd) (r : Reckoner) : RecOut :=
  let bound := c.p + 2 ^ 20 * bitsAt c.x 0 4
  if !polyOk r c.n [c.a] || bitsAt c.x 4 4 != 0 || decide (512 ≤ c.x) then malformedRec r
  else
    let allowed := c.lib && (match r.keyPerms with
      | some l => l.contains 1
      | none => false) && (match r.mlDsa with
      | some z => (mlDsaBounds z).contains bound
      | none => false)
    if allowed then
      let bit := rejection r.q bound (c.x.testBit 8) (polysAt r c.n c.a).flatten
      (putNum c.d 1 (b2n bit) false r, [])
    else (putNum c.d 1 0 false r, [(stUsageRefused, 0)])

/-! ## Commands of a list -/

/-- A command that acts on the reckoner alone and may stand in a list (R331). -/
def recPure (c : RecCmd) (r : Reckoner) : RecOut :=
  if !fieldsOk c || c.y != 0 then malformedRec r
  else
    match c.op with
    | 0x03 => recMovl c r
    | 0x05 => recMacp c r
    | 0x06 => recRedc c r
    | 0x07 => recModAdd false c r
    | 0x08 => recModAdd true c r
    | 0x09 => recCswap c r
    | 0x0A => recBset c r
    | 0x11 => recLbfly c r
    | 0x12 => recLattice2 polyMul (!fAcc c) (fAcc c) c r
    | 0x13 => recLattice2 baseMul false (fAcc c) c r
    | 0x14 => recLattice2 polyAdd true false c r
    | 0x15 => recLattice2 polySub true false c r
    | 0x16 => recLround c r
    | _ => malformedRec r

/-- The codes that a list may hold (R331). -/
def inList (op : Nat) : Bool :=
  [0x03, 0x05, 0x06, 0x07, 0x08, 0x09, 0x0A, 0x11, 0x12, 0x13, 0x14, 0x15, 0x16].contains op

/-- Run the entries of a list once. -/
def runEntries (l : List RecCmd) (s : RecOut) : RecOut :=
  l.foldl (fun s c => let o := recPure c s.1; (o.1, s.2 ++ o.2.take (1 - s.2.length))) s

/-! ## LOADL, STOREL -/

/-- A curve of 13 Table 13.3 as LOADL names it: prime, limbs, field bytes. -/
def wCurve (code : Nat) : Option (Curve × Nat × Nat) :=
  if code = 1 then some (p256, 4, 32) else if code = 2 then some (p384, 6, 48) else if code = 3 then some (p521, 9, 66)
  else none

/-- The reason that a validation class refuses a value with (Tables 15.4 and 15.5). -/
def valReason (cls v m : Nat) : Option Nat :=
  match cls with
  | 1 => if v = 0 then some 0x30 else if v = 1 then some 0x31 else if m ≤ v then some 0x32 else none
  | 2 => if m ≤ v then some 0x32 else none
  | 3 => if v = 0 then some 0x30 else if m ≤ v then some 0x32 else none
  | 5 => if v = 0 then some 0x30 else if v = 1 then some 0x31 else if m ≤ v then some 0x32 else none
  | _ => none

/-- The reason that a point is refused with. -/
def pointReason (c : Curve) (x y : Nat) : Option Nat :=
  if x = 0 ∧ y = 0 then some 0x34
  else if c.p ≤ x ∨ c.p ≤ y then some 0x32
  else if onCurve c (x, y) then none
  else some 0x33

/-- LOADL on the bytes it reads (R326 to R328). -/
def recLoadl (c : RecCmd) (src : Bytes) (r : Reckoner) : RecOut :=
  let cls := bitsAt c.x 0 4
  let curve := bitsAt c.x 4 4
  let raw := c.x.testBit 8
  let m := modReg r c.m
  let sec := fSec c
  let bad := !fieldsOk c || decide (512 ≤ c.x) || c.p != 0 || c.y != 0 || decide (6 < cls)
    || !decide (1 ≤ c.n ∧ c.n ≤ 256) || (decide (1 ≤ cls ∧ cls ≤ 5) && m.len == 0) || (cls == 6 && r.q == 0)
    || (cls == 6 && !raw) || (if cls = 4 then decide (curve < 1 ∨ 3 < curve) else if cls = 5 then decide (curve < 4 ∨ 5 < curve) else curve != 0)
  if bad then malformedRec r
  else if cls = 4 then
    match wCurve curve with
    | none => malformedRec r
    | some (cv, l, fb) =>
      if src.length ≠ 2 * fb ∨ !inMem c.a (2 * l) ∨ (!m.secret && m.m != cv.p) then malformedRec r
      else if m.secret then (putNum c.a (2 * l) 0 sec r, [(stUsageRefused, 0)])
      else
        let x := ofBe (src.take fb)
        let y := ofBe (src.drop fb)
        match pointReason cv x y with
        | some why => refusedRec why (putNum c.a (2 * l) 0 sec r)
        | none => (putNum (c.a + l) l y sec (putNum c.a l x sec r), [])
  else if !inMem c.a c.n || (if raw then src.length != 8 * c.n else decide (8 * c.n < src.length)) then malformedRec r
  else
    let v := if raw then ofLe src else ofBe src
    if 1 ≤ cls ∧ cls ≤ 5 ∧ m.secret then (putNum c.a c.n 0 sec r, [(stUsageRefused, 0)])
    else if cls = 6 then
      let r' := putNum c.a c.n v sec r
      let halves := (limbsOf c.n v).flatMap fun x => [x % 2 ^ 32, x / 2 ^ 32]
      if halves.all fun x => decide (x < r.q) then (r', []) else refusedRec 0x35 (putNum c.a c.n 0 sec r)
    else
      match valReason cls v m.m with
      | some why => refusedRec why (putNum c.a c.n 0 sec r)
      | none => (putNum c.a c.n v sec r, [])

/-! ## CHK (R336, R337) -/

/-- A point of a Weierstrass ladder in affine coordinates; what X, Y and Z mean is free (log 17). -/
def ladderPoint (p x y z : Nat) : Point :=
  if z % p = 0 then none
  else
    let i := invMod z p
    if Config.ladderJacobian then some (x * i * i % p, y * i * i * i % p) else some (x * i % p, y * i % p)

/-- The inverse of a point. -/
def ptNeg (p : Nat) (q : Point) : Point := q.map fun v => (v.1, (p - v.2) % p)

/-- The Weierstrass curve of a prime. -/
def primeCurve (p : Nat) : Option Curve := [p256, p384, p521].find? fun c => c.p == p

/-- The coefficient A of the Montgomery curve of a prime: Curve25519's and Curve448's. -/
def montA (p : Nat) : Option Nat :=
  if p = 2 ^ 255 - 19 then some 486662 else if p = 2 ^ 448 - 2 ^ 224 - 1 then some 156326 else none

/-- On a Montgomery curve, u is the abscissa of the difference or the sum of the points X1 : Z1 and X2 : Z2: both are the roots of
(X1 Z2 − X2 Z1)² u² + (X1 X2 − Z1 Z2)² = 2 ((X1 Z2 + X2 Z1) (X1 X2 + Z1 Z2) + 2 A X1 X2 Z1 Z2) u. -/
def montDiff (p a x1 z1 x2 z2 u : Nat) : Bool :=
  let d := subMod (x1 * z2) (x2 * z1) p
  let e := subMod (x1 * x2) (z1 * z2) p
  (d * d * u * u + e * e) % p == 2 * ((x1 * z2 + x2 * z1) * (x1 * x2 + z1 * z2) + 2 * a * x1 * x2 * z1 * z2) * u % p

/-- The ladder invariant: the second point less the first is the base point (Table 15.8). `f` gives the coordinates of the pair, out of
Montgomery form, `g` those of the base point. With X and Z alone the sign of a point is lost. -/
def ladderHolds (m : ModReg) (n : Nat) (f g : Nat → Nat) : Bool :=
  match primeCurve m.m, montA m.m with
  | some c, _ => ptAdd c (ladderPoint c.p (f 3) (f 4) (f 5)) (ptNeg c.p (ladderPoint c.p (f 0) (f 1) (f 2))) == some (g 0, g 1)
  | none, some a => montDiff m.m a (f 0) (f 1) (f 2) (f 3) (g 0)
  | none, none => Config.ladderCheck ((List.range 6).foldl (fun v i => v * 2 ^ (64 * n) + f i) 0) (g 0 + 2 ^ (64 * n) * g 1) m.m n

/-- At 16 coefficient indices for each polynomial, a byte of `idx` each, the inverse transform of A equals B (Table 15.8, kind 3). -/
def nttAgrees (idx : Bytes) (c : RecCmd) (r : Reckoner) : Bool :=
  (List.range c.n).all fun i =>
    let inv := nttInverse r.q r.tw (polyAt r (c.a + 128 * i))
    let want := polyAt r (c.b + 128 * i)
    (List.range 16).all fun j =>
      let k := byteAt idx (16 * i + j)
      inv.getD k 0 == want.getD k 0

/-- The check of an invariant kind (Table 15.8); `none` where the command is malformed. -/
def chkPasses (idx : Bytes) (c : RecCmd) (r : Reckoner) : Option Bool :=
  let m := modReg r c.m
  match bitsAt c.p 0 4 with
  | 1 =>
    if !(decide (1 ≤ c.n ∧ c.n ≤ 128) && inMem c.a c.n && inMem c.b c.n && inMem c.d 1) || m.len == 0 || anySecret r c.d 1 then
      none
    else some (powMod (numAt r c.n c.a) (limbAt r c.d) m.m == numAt r c.n c.b)
  | 2 =>
    let w := if (montA m.m).isSome then (4, 1) else (6, 2)
    if !(decide (1 ≤ c.n ∧ c.n ≤ 128) && inMem c.a (w.1 * c.n) && inMem c.b (w.2 * c.n)) || m.len == 0 then none
    else some (ladderHolds m c.n (fun i => montReduce m (numAt r c.n (c.a + i * c.n)))
      (fun i => let v := numAt r c.n (c.b + i * c.n)
                if Config.ladderBaseMont then montReduce m v else v % m.m))
  | 3 =>
    if !polyOk r c.n [c.a, c.b] then none
    else some (nttAgrees idx c r)
  | _ => none

/-- A CHK whose fields are malformed: the purpose, the release range, or the operands of its kind (R319, R336). -/
def chkBad (c : RecCmd) (r : Reckoner) : Bool :=
  !fieldsOk c || decide (256 ≤ c.p) || decide (bitsAt c.p 4 4 = 0 ∨ 4 < bitsAt c.p 4 4) || decide (4096 ≤ c.x)
    || !decide (1 ≤ c.y ∧ c.y ≤ 1024) || !inMem c.x c.y || (chkPasses [] c r).isNone

/-- CHK: the outcomes of Table 15.9, first matching row; the last component tells that the invariant failed. -/
def recChk (idx : Bytes) (c : RecCmd) (r : Reckoner) : RecOut × Bool :=
  let purpose := bitsAt c.p 4 4
  match (if chkBad c r then none else chkPasses idx c r) with
  | none => (malformedRec r, false)
  | some pass =>
    let zero := putNum c.x c.y 0 false r
    let allowed := match r.keyPerms with
      | none => true
      | some l => l.contains purpose
    if !c.lib then ((zero, [(stUsageRefused, 0)]), false)
    else if r.refused then ((zero, []), false)
    else if !allowed then ((zero, [(stUsageRefused, 0)]), false)
    else if !pass then ((zero, [(stDeviceFault, 0)]), true)
    else ((markRange c.x c.y false r, []), false)

/-! ## Rows -/

/-- Reckoner `i` of a die. -/
def recRef (d : Die) (i : Nat) : EngineRef := { die := d, kind := .reckoner, idx := i }

/-- Record outcomes in order. -/
def recordAll (c : ClerkId) (l : List (Nat × Nat)) (rt : Rt) : Rt := l.foldl (fun rt o => recordOutcome c o.1 o.2 rt) rt

/-- Put back a reckoner after a command, keeping its common part, and record its outcomes. -/
def recFinish (e : EngineRef) (c : ClerkId) (o : RecOut) (rt : Rt) : Rt :=
  let com := comOf rt e
  recordAll c o.2 (setReckoner (ekey e) { o.1 with com := com } rt)

/-- Words 2 to 7 are zero, as for every command but LOADL, STOREL and RUNL (R320). -/
def noPtrs (b : Block) : Bool := blkZero b 2 6

/-- A reckoner row: the front command's effect. -/
def recRow (op : Nat) (f : EngineRef → ClerkId → Block → Rt → Rt) (d : Die) (i : Nat) (s : State) : Res :=
  let e := recRef d i
  .next (onRt (fun rt => runFront e op (fun _ => 0) (f e) rt) s)

/-- A command on the reckoner alone. -/
def recBody (f : RecCmd → Reckoner → RecOut) (e : EngineRef) (c : ClerkId) (b : Block) (rt : Rt) : Rt :=
  let r := reckonerOf rt (ekey e)
  let x := recCmd b
  recFinish e c (if noPtrs b && fieldsOk x && x.y == 0 then f x r else malformedRec r) rt

/-- LOADL reads its desk string at words 2 to 3 (R326). -/
def loadlBody (e : EngineRef) (c : ClerkId) (b : Block) (rt : Rt) : Rt :=
  let r := reckonerOf rt (ekey e)
  recFinish e c (if blkZero b 4 2 then recLoadl (recCmd b) (getPtr rt c b 2 (blkD b 6)) r else malformedRec r) rt

/-- STOREL writes n limbs as a big-endian integer, or with SEC raw; a secret limb gives zeros and USAGE_REFUSED (R324). -/
def storelBody (e : EngineRef) (c : ClerkId) (b : Block) (rt : Rt) : Rt :=
  let r := reckonerOf rt (ekey e)
  let x := recCmd b
  let len := blkD b 6
  if !fieldsOk x || !blkZero b 2 2 || x.p != 0 || x.x != 0 || x.y != 0 || !decide (1 ≤ x.n ∧ x.n ≤ 256) || !inMem x.a x.n
      || (if fSec x then len != 8 * x.n else decide (8 * x.n < len)) then recFinish e c (malformedRec r) rt
  else if anySecret r x.a x.n then putDest c b (zeros len) (recordOutcome c stUsageRefused 0 rt)
  else
    let v := numAt r x.n x.a
    putDest c b (if fSec x then le len v else be len v) rt

/-- The entries of a list at a word address. -/
def readList (rt : Rt) (c : ClerkId) (a n : Nat) : List Block :=
  (List.range n).map fun i =>
    { words := (List.range 8).map (fun j => BitVec.ofNat 20 (readWord rt c (a + 8 * i + j))), lib := false }

/-- RUNL: copy the list, then run it in order as many times as word 15 gives (R331). -/
def runlBody (e : EngineRef) (c : ClerkId) (b : Block) (rt : Rt) : Rt :=
  let r := reckonerOf rt (ekey e)
  let x := recCmd b
  match blkP b 2 with
  | none => recFinish e c (malformedRec r) rt
  | some p =>
    if !fieldsOk x || !blkZero b 4 4 || x.p != 0 || x.x != 0 || p % 5 != 0 || !decide (1 ≤ x.n ∧ x.n ≤ 64)
        || !decide (1 ≤ x.y ∧ x.y ≤ 8192) then recFinish e c (malformedRec r) rt
    else
      let l := readList rt c (p / 5) x.n
      let r := { r with list := l }
      if !l.all (fun y => inList (blkW y 0)) then recFinish e c (malformedRec r) rt
      else
        let cmds := l.map fun y => listCmd y b.lib
        recFinish e c (forN x.y (fun _ s => runEntries cmds s) (r, [])) rt

/-- LOADL. -/
def execLoadl (d : Die) (r : Nat) (s : State) : Res := recRow 0x01 loadlBody d r s
/-- STOREL. -/
def execStorel (d : Die) (r : Nat) (s : State) : Res := recRow 0x02 storelBody d r s
/-- MOVL. -/
def execMovl (d : Die) (r : Nat) (s : State) : Res := recRow 0x03 (recBody recPure) d r s
/-- SETMOD. -/
def execSetmod (d : Die) (r : Nat) (s : State) : Res := recRow 0x04 (recBody recSetmod) d r s
/-- MACP. -/
def execMacp (d : Die) (r : Nat) (s : State) : Res := recRow 0x05 (recBody recPure) d r s
/-- REDC. -/
def execRedc (d : Die) (r : Nat) (s : State) : Res := recRow 0x06 (recBody recPure) d r s
/-- MADD. -/
def execMadd (d : Die) (r : Nat) (s : State) : Res := recRow 0x07 (recBody recPure) d r s
/-- MSUB. -/
def execMsub (d : Die) (r : Nat) (s : State) : Res := recRow 0x08 (recBody recPure) d r s
/-- CSWAP_BIT. -/
def execCswapBit (d : Die) (r : Nat) (s : State) : Res := recRow 0x09 (recBody recPure) d r s
/-- BSET. -/
def execBset (d : Die) (r : Nat) (s : State) : Res := recRow 0x0A (recBody recPure) d r s
/-- RUNL. -/
def execRunl (d : Die) (r : Nat) (s : State) : Res := recRow 0x0C runlBody d r s
/-- SETQ. -/
def execSetq (d : Die) (r : Nat) (s : State) : Res := recRow 0x10 (recBody recSetq) d r s
/-- LBFLY. -/
def execLbfly (d : Die) (r : Nat) (s : State) : Res := recRow 0x11 (recBody recPure) d r s
/-- LPMUL. -/
def execLpmul (d : Die) (r : Nat) (s : State) : Res := recRow 0x12 (recBody recPure) d r s
/-- LBASEM. -/
def execLbasem (d : Die) (r : Nat) (s : State) : Res := recRow 0x13 (recBody recPure) d r s
/-- LPADD. -/
def execLpadd (d : Die) (r : Nat) (s : State) : Res := recRow 0x14 (recBody recPure) d r s
/-- LPSUB. -/
def execLpsub (d : Die) (r : Nat) (s : State) : Res := recRow 0x15 (recBody recPure) d r s
/-- LROUND. -/
def execLround (d : Die) (r : Nat) (s : State) : Res := recRow 0x16 (recBody recPure) d r s
/-- LNORM. -/
def execLnorm (d : Die) (r : Nat) (s : State) : Res := recRow 0x17 (recBody recLnorm) d r s

/-! ## RNDL (R332) and the wipe (R339) -/

/-- The end of a job by the mint's RNG_UNAVAILABLE (R332, R247). -/
def rndlFail (e : EngineRef) (c : ClerkId) (b : Block) (rt : Rt) : Rt :=
  let x := recCmd b
  let r := reckonerOf rt (ekey e)
  refuseJob c stRngUnavailable (zeros 16) (recFinish e c (putNum x.d x.n 0 true r, [(stRngUnavailable, 0)]) rt)

/-- RNDL asks the die's mint for its limbs and runs until they arrive. -/
def doRndl (d : Die) (i : Nat) (rt : Rt) : Rt :=
  let e := recRef d i
  let y := comOf rt e
  match y.queue, holderOf rt e with
  | b :: _, some c =>
    let x := recCmd b
    if x.op ≠ 0x0B ∨ y.running ∨ inFatal rt ∨ inTamperHalt rt then rt
    else if !(noPtrs b && fieldsOk x && x.p == 0 && x.x == 0 && x.y == 0 && decide (1 ≤ x.n ∧ x.n ≤ 256) && inMem x.d x.n) then
      afterCommand e (popQueue e (recordOutcome c stMalformed 0 rt))
    else
      let m := mintOf rt d.val
      if m.exhausted then rndlFail e c b rt
      else setMint d.val { m with waiting := m.waiting ++ [.rndl d i x.d x.n] } (setCom e { y with running := true } rt)
  | _, _ => rt

/-- RNDL. -/
def execRndl (d : Die) (r : Nat) (s : State) : Res := .next (onRt (doRndl d r) s)

/-- The mint delivers the bytes of an RNDL: limbs, secret-marked, and the command ends. -/
def rndlDeliver (d : Die) (i pos n : Nat) (v : Bytes) (rt : Rt) : Rt :=
  let e := recRef d i
  let r := reckonerOf rt (ekey e)
  afterCommand e (popQueue e (setReckoner (ekey e) (putNum pos n (ofLe v) true r) rt))

/-- RECKONER_WIPE: the whole of Table 15.1 is wiped, WIPING clears and the latch passes to the FIFO's head (R339). -/
def doReckonerWipe (d : Die) (i : Nat) (rt : Rt) : Rt :=
  let e := recRef d i
  let y := comOf rt e
  if y.latch.wiping then
    passLatch e (setReckoner (ekey e) { Reckoner.reset with
      com := { EngCom.reset with latch := { y.latch with wiping := false } } } rt)
  else rt

/-- RECKONER_WIPE. -/
def execReckonerWipe (d : Die) (r : Nat) (s : State) : Res := .next (onRt (doReckonerWipe d r) s)

end Sys2Proof.Machine
end

