-- ==== Sys2Proof/Machine/Mint.lean ====
section
/-! DEFINITION. The mints: sources, the assay, conditioning, the DRBG and its requests (16 R341 to R353), and mask
expander seeding (04 R77, R78). -/

namespace Sys2Proof.Machine

/-! ## The assay (R342) -/

/-- One sample into a source's counters: the new counters and the test that it completes, if any. -/
def assaySample (x : NoiseSrc) (b : Byte) : NoiseSrc × Option HealthTest :=
  let run := if x.runLen ≠ 0 ∧ x.runVal = b then x.runLen + 1 else 1
  let first := x.winSeen = 0
  let val := if first then b else x.winVal
  let hits := if first then 1 else if b = x.winVal then x.winHits + 1 else x.winHits
  let seen := if x.winSeen + 1 = 1024 then 0 else x.winSeen + 1
  let y := { x with runVal := b, runLen := run, winVal := val, winSeen := seen, winHits := hits }
  (y, if 11 ≤ run then some .repetition else if 325 ≤ hits then some .proportion else none)

/-- Samples in order, up to the first failure. -/
def assay : NoiseSrc → Bytes → NoiseSrc × Option HealthTest
  | x, [] => (x, none)
  | x, b :: l =>
    match assaySample x b with
    | (y, none) => assay y l
    | r => r

/-- A source without its counters. -/
def freshSrc (x : NoiseSrc) : NoiseSrc := { NoiseSrc.reset with st := x.st, fails := x.fails }

/-- The sources of a mint by number: RO0, RO1, ML0, ML1. -/
def srcOf (m : Mint) : Fin 4 → NoiseSrc
  | 0 => m.ro0
  | 1 => m.ro1
  | 2 => m.ml0
  | 3 => m.ml1

/-- Replace a source. -/
def setSrc (i : Fin 4) (x : NoiseSrc) (m : Mint) : Mint :=
  match i with
  | 0 => { m with ro0 := x }
  | 1 => { m with ro1 := x }
  | 2 => { m with ml0 := x }
  | 3 => { m with ml1 := x }

/-- The sources in the order of R348. -/
def srcs : List (Fin 4) := [0, 1, 2, 3]

/-- A source is in service. -/
def serving (m : Mint) (i : Fin 4) : Bool := (srcOf m i).st == .inService

/-- The sources in service. -/
def inServiceList (m : Mint) : List (Fin 4) := srcs.filter (serving m)

/-- A source stands by. -/
def onStandby (m : Mint) (i : Fin 4) : Bool := (srcOf m i).st == .standby

/-- The sources of the other design, then those of the same design (R347, R346). -/
def replacements (i : Fin 4) : List (Fin 4) := if i.val < 2 then [2, 3, 0, 1] else [0, 1, 2, 3]

/-- Bring a standby source into service in place of a failed one, if any stands by. -/
def bringIn (i : Fin 4) (m : Mint) : Mint :=
  match (replacements i).find? (onStandby m) with
  | some j => setSrc j { srcOf m j with st := .inService } m
  | none => m

/-- The code of a test in a MINT_SOURCE record. -/
def testCode : HealthTest → Nat
  | .repetition => 1
  | .proportion => 2

/-- The MT island of a die. -/
def mintIsland (d : Nat) : Nat := 18 * d + 13

/-- The MINT_SOURCE event of a failure: the die's event flag and count, and the fault record (Table 16.3, R3). -/
def mintEvent (d : Nat) (i : Fin 4) (t : HealthTest) (startUp service : Bool) (rt : Rt) : Rt :=
  let m := mintOf rt d
  raise { source := .mintSource, scope := d, island := some (mintIsland d), booth := none,
          detail := bytesOf [i.val, testCode t + 128 * b2n startUp, b2n service], houseProg := false }
    (setMint d { m with evt := true, cnt := sat8 m.cnt } rt)

/-- Count a failure of a source since the cold reset, saturating (Table 16.5). -/
def countFail (i : Fin 4) (m : Mint) : Mint := setSrc i { srcOf m i with fails := sat8 (srcOf m i).fails } m

/-- A source out of service; after 8 failures it is retired (R348). -/
def takeOut (i : Fin 4) (m : Mint) : Mint :=
  let x := freshSrc (srcOf m i)
  setSrc i { x with st := if 8 ≤ x.fails then .retired else .out } m

/-- MINT_RETIRED follows a retirement. -/
def retiredEvent (d : Nat) (i : Fin 4) (rt : Rt) : Rt :=
  if (srcOf (mintOf rt d) i).st == .retired then
    raise { source := .mintRetired, scope := d, island := some (mintIsland d), booth := none,
            detail := [BitVec.ofNat 8 i.val], houseProg := false } rt
  else rt

/-! ## The DRBG (R344) -/

/-- The personalisation string: the serial, then the die number. -/
def drbgPers (serial : Bytes) (d : Nat) : Bytes := serial ++ [BitVec.ofNat 8 d]

/-- One seed serves at most 4 096 requests, for 1 ms. -/
def canServe (rt : Rt) (m : Mint) : Bool := m.seeded && decide (m.served < 4096 ∧ rt.now < m.seededAt + 1000000)

/-- Reseed from a conditioned block. -/
def reseedWith (rt : Rt) (blk : Bytes) (m : Mint) : Mint :=
  let kv := drbgReseed blk m.key m.v
  { m with key := kv.1, v := kv.2, served := 0, seededAt := rt.now }

/-- Generate n bytes: one request. -/
def generate (n : Nat) (m : Mint) : Bytes × Mint :=
  let r := drbgGen n m.key m.v
  (r.1, { m with key := r.2.1, v := r.2.2, served := m.served + 1 })

/-- Bytes for a head clerk at once, when the mint can serve it and no one waits before it (R344). -/
def drawNow (d n : Nat) (rt : Rt) : Option (Bytes × Rt) :=
  let m := mintOf rt d
  if canServe rt m && m.waiting.isEmpty then
    let r := generate n m
    some (r.1, setMint d r.2 rt)
  else none

/-- The numbers of the users of key-grade requests that are not commands; a command counts from 1 000. -/
def userTileKey : Nat := 1
def userRoot : Nat := 2
def userMasterKey : Nat := 3
def userCmd (id : CmdId) : Nat := 1000 + id

/-- A key-grade request: blocks already complete reseed at this boundary, and the request waits for the next (R345). A
user asks once. -/
def askKeyGrade (d who n : Nat) (rt : Rt) : Rt :=
  let m := mintOf rt d
  if m.keyGrade.any (· == .firmware who n) then rt
  else
    let m := if m.seeded then m.ready.foldl (fun m b => reseedWith rt b m) m else m
    setMint d { m with ready := if m.seeded then [] else m.ready, keyGrade := m.keyGrade ++ [.firmware who n] } rt

/-- The bytes that a user's key-grade request has brought, which it takes. -/
def takeDelivered (d who : Nat) (rt : Rt) : Option (Bytes × Rt) :=
  let m := mintOf rt d
  match kget m.delivered who with
  | some b => some (b, setMint d { m with delivered := kdel m.delivered who } rt)
  | none => none

/-! ## CHK (15 R336, R337), whose coefficient indices the die's mint gives -/

/-- CHK; a failed invariant raises RECKONER_INVARIANT (R337). -/
def chkBody (idx : Bytes) (e : EngineRef) (c : ClerkId) (b : Block) (rt : Rt) : Rt :=
  let r := reckonerOf rt (ekey e)
  let o := if noPtrs b then recChk idx (recCmd b) r else (malformedRec r, false)
  let rt := recFinish e c o.1 rt
  if o.2 then
    let slot := r.keySlots.headD 0xFFFFFFFF
    raise { source := .reckonerInvariant, scope := 0, island := some (engineIsland e),
            booth := (jobCmd rt c).map Cmd.booth,
            detail := [BitVec.ofNat 8 e.idx, BitVec.ofNat 8 (bitsAt (blkW b 13) 0 4)] ++ le 4 slot, houseProg := false } rt
  else rt

/-- The bytes that the command at the front of a reckoner's queue draws: for CHK kind 3, an index for each of 16 coefficients of each
polynomial (Table 15.8, Table 16.2). -/
def chkDraw (rt : Rt) (e : EngineRef) : Nat :=
  match (comOf rt e).queue with
  | b :: _ => if noPtrs b && bitsAt (blkW b 13) 0 4 == 3 && !chkBad (recCmd b) (reckonerOf rt (ekey e)) then 16 * blkW b 11 else 0
  | [] => 0

/-- CHK stands at the front of the queue of a reckoner whose job is open. -/
def chkFront (rt : Rt) (e : EngineRef) : Bool := (holderOf rt e).isSome && (comOf rt e).queue.head?.any fun b => blkW b 0 == 0x0D

/-- CHK at the front of a reckoner's queue; while the mint cannot serve its indices it has not run. -/
def doChk (d : Die) (i : Nat) (rt : Rt) : Rt :=
  let e := recRef d i
  if inFatal rt || inTamperHalt rt || !chkFront rt e then rt
  else if chkDraw rt e = 0 then runFront e 0x0D (fun _ => 0) (chkBody [] e) rt
  else match drawNow d.val (chkDraw rt e) rt with
    | none => rt
    | some (v, rt) => runFront e 0x0D (fun _ => 0) (chkBody v e) rt

/-- CHK. -/
def execChk (d : Die) (r : Nat) (s : State) : Res := .next (onRt (doChk d r) s)

/-! ## Start-up (R346, R77, R78) -/

/-- The samples of a source at start-up. -/
def sampleOf (s : Samples) : Fin 4 → Bytes
  | 0 => s.ro0
  | 1 => s.ro1
  | 2 => s.ml0
  | 3 => s.ml1

/-- The start-up tests of one source on its first 4 096 samples: passed to standby, or out of service. -/
def startSource (d : Nat) (s : Samples) (i : Fin 4) (rt : Rt) : Rt :=
  let m := mintOf rt d
  let x := srcOf m i
  if x.st == .retired || (m.forerunner && i.val % 2 == 1) then rt
  else
    match assay (freshSrc x) ((sampleOf s i).take 4096) with
    | (y, none) => setMint d (setSrc i { y with st := .standby } m) rt
    | (_, some t) =>
      retiredEvent d i (mintEvent d i t true false (setMint d (takeOut i (countFail i m)) rt))

/-- RO0 and ML0 enter service; a failed one is replaced from the other design, else from the one that remains. -/
def enterService (m : Mint) : Mint :=
  let put := fun (j : Fin 4) (m : Mint) => setSrc j { srcOf m j with st := .inService } m
  let m := if onStandby m 0 then put 0 m else m
  let m := if onStandby m 2 then put 2 m else m
  if m.forerunner then m
  else
    let m := if serving m 0 then m else bringIn 0 m
    if serving m 2 ∨ (inServiceList m).length = 2 then m else bringIn 2 m

/-- The samples of a block: alternately from two sources, or all from one (R343). -/
def interleave : Bytes → Bytes → Bytes
  | a :: as, b :: bs => a :: b :: interleave as bs
  | _, _ => []

/-- The last n of the first 4 096 samples. -/
def lastOf (n : Nat) (b : Bytes) : Bytes := ((b.take 4096).drop (4096 - n))

/-- The first two blocks, from the last 256 start-up samples of each in-service source, or the last 512 of one. -/
def firstBlocks (s : Samples) (m : Mint) : Option (Bytes × Bytes) :=
  match inServiceList m with
  | [i] => let l := lastOf 512 (sampleOf s i); some (sha3_256 (l.take 256), sha3_256 (l.drop 256))
  | i :: j :: _ =>
    let l := interleave (lastOf 256 (sampleOf s i)) (lastOf 256 (sampleOf s j))
    some (sha3_256 (l.take 256), sha3_256 (l.drop 256))
  | [] => none

/-- CD0's mint starts alone where CD0 is woken for one request: outside service, tamper halt and the stops of a start (R72, R423). -/
def cd0Alone (rt : Rt) (d : Nat) : Bool := decide (d = 0) && decide (0x80 ≤ rt.boot.stage.toNat)

/-- MINT_START_UP_TESTS: at step 7 each source of the die runs the start-up tests, the passing ones enter service and the
DRBG is instantiated; the tests also run when CD0 is woken for one request (R72, R423). A source's row of samples is 4 096
long. -/
def doMintStartUpTests (d : Nat) (smp : Samples) (s : State) : State :=
  let rt := s.rt
  let m := mintOf rt d
  let full := srcs.all fun i => (m.forerunner && i.val % 2 == 1) || (srcOf m i).st == .retired ||
    decide (4096 ≤ (sampleOf smp i).length)
  if islandReady rt (mintIsland d) && !m.seeded && full && (stepDone rt 6 || cd0Alone rt d) then
    let rt := srcs.foldl (fun r i => startSource d smp i r) rt
    let m := enterService (mintOf rt d)
    match firstBlocks smp m with
    | none => { s with rt := setMint d m rt }
    | some (e, n) =>
      let kv := drbgInst e (n.take 16) (drbgPers s.otp.serial d)
      { s with rt := showStage (setMint d { m with key := kv.1, v := kv.2, seeded := true, served := 0,
                                                   seededAt := rt.now, blocks := m.blocks + 2, ready := [] } rt) }
  else s

/-- MINT_START_UP_TESTS. -/
def execMintStartUpTests (d : Die) (smp : Samples) (s : State) : Res := .next (doMintStartUpTests d.val smp s)

/-- MINT_START_TIMEOUT: no source passes within 10 ms of step 7: a fatal fault, BOOT_STAGE 85h (R78). -/
def doMintStartTimeout (d : Nat) (rt : Rt) : Rt :=
  let m := mintOf rt d
  if stepDone rt 6 && !m.seeded && (inServiceList m).isEmpty && !inTamperHalt rt && !inFatal rt then
    raise { source := .mintExhausted, scope := d, island := some (mintIsland d), booth := none, detail := [],
            houseProg := false } rt
  else rt

/-- MINT_START_TIMEOUT. -/
def execMintStartTimeout (d : Die) (s : State) : Res := .next (onRt (doMintStartTimeout d.val) s)

/-- The press groups and loom islands of a die that are ready and whose mask expanders hold no seed. -/
def unseeded (rt : Rt) (d : Nat) : List Nat :=
  ((List.range 6).map (18 * d + 4 + ·)).filter fun i => islandReady rt i && !(islandOf rt i).seeded

/-- The mask expanders of an island: 8 presses and 4 hash units, or 2 looms. -/
def expanders (i : Nat) : Nat := if dieIndex i < 8 then 12 else 2

/-- The engines of an island (03 R51). -/
def islandEngines (i : Nat) : List EngineRef :=
  if 36 ≤ i then []
  else
    let d : Die := if i < 18 then 0 else 1
    let k := dieIndex i
    let row := fun (kd : EngineKind) (lo n : Nat) => (List.range n).map fun j => ({ die := d, kind := kd, idx := lo + j } : EngineRef)
    if 4 ≤ k ∧ k < 8 then row .press (8 * (k - 4)) 8 ++ row .hash (4 * (k - 4)) 4
    else if k = 8 ∨ k = 9 then row .loom (2 * (k - 8)) 2
    else if k = 10 ∨ k = 11 then row .reckoner (8 * (k - 10)) 8
    else []

/-- Free latches of an island's engines pass to the clerks that wait for them. -/
def passIsland (i : Nat) (rt : Rt) : Rt := (islandEngines i).foldl (fun r e => passLatch e r) rt

/-- MASK_EXPANDER_SEEDING: the mask expanders of the die's press groups and loom islands that hold no seed are seeded from its DRBG, 256
bits each, and their engines accept latches (R77, Table 16.2): at step 8 all of them, later those of an island that was gated
(R54). The seeds themselves reach no operation of the module, so that the model keeps only that they are held. -/
def doMaskExpanderSeeding (d : Nat) (rt : Rt) : Rt :=
  let m := mintOf rt d
  let l := unseeded rt d
  if m.seeded && stepDone rt 6 && (!m.maskSeeded || !l.isEmpty) then
    let m := forN ((l.map expanders).sum) (fun _ m => (generate 32 m).2) m
    let rt := setMint d { m with maskSeeded := true } rt
    let rt := l.foldl (fun r i => setIsland i { islandOf r i with seeded := true } r) rt
    showStage (l.foldl (fun r i => passIsland i r) rt)
  else rt

/-- MASK_EXPANDER_SEEDING. -/
def execMaskExpanderSeeding (d : Die) (s : State) : Res := .next (onRt (doMaskExpanderSeeding d.val) s)

/-! ## Islands ready (R54, Table 3.3) -/

/-- A room that is ungated verifies the tile checksums of the code that it reloads (R54): each tile of a list fails its check, counts one
CODE_TILE event and is reloaded (R217). -/
def badTiles (progs : List ProgEntry) (i : Nat) (bad : List Nat) (rt : Rt) : Rt :=
  if i < 36 ∧ dieIndex i < 4 then
    let room := 4 * (i / 18) + dieIndex i
    bad.foldl (fun r t =>
      if t < 1024 then
        raise { source := .codeTile, scope := room * 1024 + t, island := some i, booth := none, detail := le 4 t, houseProg := false }
          (reloadTile progs room t r)
      else r) rt
  else rt

/-- ISLAND_READY: a granted start has finished its ramp, lock, zeroing and reload. The last island of the I/O die ends
step 1, the last of the compute dies step 6 (R54, Table 3.3, Table 4.1). Clerks that wait for a reckoner of the island go on; presses,
hash units and looms wait for their seeds. -/
def doIslandReady (i : Nat) (bad : List Nat) (s : State) : State :=
  let rt := s.rt
  if (islandOf rt i).st = .starting ∧ !islandWaiting rt i ∧ islandsRun rt then
    let rt := badTiles s.nv.progs i bad (setIsland i { st := .ready, throttle := 0, seeded := false } (loadRoom s.nv i rt))
    let all := fun (l : List Nat) => l.all fun j => islandCost j = 0 || islandReady rt j
    let rt := if !stepDone rt 1 && all ((List.range 22).map (· + 36)) then endStep 1 rt else rt
    let rt := if stepDone rt 4 && !stepDone rt 6 && all (List.range 36) then endStep 6 rt else rt
    { s with rt := passIsland i rt }
  else s

/-- ISLAND_READY. -/
def execIslandReady (isl : IslandStart) (s : State) : Res := .next (doIslandReady isl.island isl.bad s)

/-! ## Failures (R347 to R349) -/

/-- NOISE_SAMPLE_TEST_FAIL: in native handling a running source that fails leaves service; a failure of one in service
discards the block in assembly and a standby source replaces it (R347). -/
def doNoiseSampleTestFail (d : Nat) (i : Fin 4) (t : HealthTest) (rt : Rt) : Rt :=
  let m := mintOf rt d
  let service := serving m i
  if m.seeded && !m.forerunner && (service || onStandby m i) then
    let m := takeOut i (countFail i m)
    let m := if service then bringIn i { m with blockLen := 0 } else m
    retiredEvent d i (mintEvent d i t false service (setMint d m rt))
  else rt

/-- NOISE_SAMPLE_TEST_FAIL. -/
def execNoiseSampleTestFail (d : Die) (i : Fin 4) (t : HealthTest) (s : State) : Res :=
  .next (onRt (doNoiseSampleTestFail d.val i t) s)

/-- A source runs the start-up tests again: passed to a state, or failed and counted. -/
def restart (d : Nat) (i : Fin 4) (smp : Bytes) (pass : SrcState) (failed : Fin 4 → Mint → Mint) (rt : Rt) : Rt :=
  let m := mintOf rt d
  if smp.length < 4096 then setMint d (setSrc i { freshSrc (srcOf m i) with st := .test } m) rt
  else
    match assay (freshSrc (srcOf m i)) (smp.take 4096) with
    | (y, none) => setMint d (setSrc i { y with st := pass } m) rt
    | (_, some t) => retiredEvent d i (mintEvent d i t true false (setMint d (failed i (countFail i m)) rt))

/-- A source under test. -/
def underTest (i : Fin 4) (m : Mint) : Mint := setSrc i { freshSrc (srcOf m i) with st := .test } m

/-- FORERUNNER_SOURCE_FAIL: in forerunner-compatible handling the block in assembly is discarded, the failure is counted,
and the same source restarts at once with the start-up tests on `smp` (with fewer than 4 096 samples it is still under
test). A source already under test only restarts (R349). -/
def doForerunnerSourceFail (d : Nat) (i : Fin 4) (t : HealthTest) (smp : Bytes) (rt : Rt) : Rt :=
  let m := mintOf rt d
  if m.forerunner && i.val % 2 == 0 && m.seeded then
    if serving m i then
      let rt := mintEvent d i t false true (setMint d (underTest i (countFail i { m with blockLen := 0 })) rt)
      restart d i smp .inService underTest rt
    else if (srcOf m i).st == .test || (srcOf m i).st == .out then restart d i smp .inService underTest rt
    else rt
  else rt

/-- FORERUNNER_SOURCE_FAIL. -/
def execForerunnerSourceFail (d : Die) (i : Fin 4) (t : HealthTest) (smp : List Byte) (s : State) : Res :=
  .next (onRt (doForerunnerSourceFail d.val i t smp) s)

/-- SOURCE_RESTART: 100 ms after leaving service a source runs the start-up tests, and on passing becomes standby (R348);
with fewer than 4 096 samples it is still under test. -/
def doSourceRestart (d : Nat) (i : Fin 4) (smp : Bytes) (rt : Rt) : Rt :=
  let m := mintOf rt d
  if !m.forerunner && ((srcOf m i).st == .out || (srcOf m i).st == .test) then
    restart d i smp .standby takeOut rt
  else rt

/-- SOURCE_RESTART. -/
def execSourceRestart (d : Die) (i : Fin 4) (smp : List Byte) (s : State) : Res :=
  .next (onRt (doSourceRestart d.val i smp) s)

/-! ## Blocks and requests (R343 to R345) -/

/-- Samples of a block into the counters of their sources, in turn; the first failure if any. -/
def assayBlock : List (Fin 4) → Bytes → Mint → Mint × Bool
  | i :: is, b :: bs, m =>
    match assaySample (srcOf m i) b with
    | (y, none) => assayBlock is bs (setSrc i y m)
    | (_, some _) => (m, false)
  | _, _, m => (m, true)

/-- The sources of the 256 samples of a block. -/
def blockOrder (m : Mint) : List (Fin 4) :=
  match inServiceList m with
  | [i] => List.replicate 256 i
  | i :: j :: _ => (List.replicate 128 [i, j]).flatten
  | [] => []

/-- MINT_BLOCK_COMPLETE: 256 samples that pass both tests form a block, conditioned with SHA3-256 (R343). -/
def doMintBlockComplete (d : Nat) (smp : Bytes) (rt : Rt) : Rt :=
  let m := mintOf rt d
  if m.seeded && !(inServiceList m).isEmpty && smp.length == 256 then
    let r := assayBlock (blockOrder m) smp m
    if r.2 then
      setMint d { r.1 with blockLen := 0, ready := m.ready ++ [sha3_256 smp], blocks := (m.blocks + 1) % 2 ^ 32 } rt
    else rt
  else rt

/-- MINT_BLOCK_COMPLETE. -/
def execMintBlockComplete (d : Die) (smp : List Byte) (s : State) : Res := .next (onRt (doMintBlockComplete d.val smp) s)

/-- DRBG_RESEED: a completed block reseeds the DRBG, unless a key-grade request waits for it (R344, R345). -/
def doDrbgReseed (d : Nat) (rt : Rt) : Rt :=
  let m := mintOf rt d
  match m.ready with
  | b :: l => if m.seeded && m.keyGrade.isEmpty then setMint d (reseedWith rt b { m with ready := l }) rt else rt
  | [] => rt

/-- DRBG_RESEED. -/
def execDrbgReseed (d : Die) (s : State) : Res := .next (onRt (doDrbgReseed d.val) s)

/-- Deliver the bytes of an ordinary request: to the desk of the clerk, which runs on; to the reckoner; to the mask
expander; or to the firmware. -/
def deliver (d : Nat) (u : MintUser) (b : Bytes) (rt : Rt) : Rt :=
  match u with
  | .rand c nib _ =>
    let rt := writeNibbles c nib (nibbles b) rt
    let k := clerkOf rt c
    if k.st == .stalled .mint then setClerk c { k with st := .running } rt else rt
  | .rndl die r pos n => rndlDeliver die r pos n b rt
  | .reseed e => maskReseed e rt
  | .firmware who _ =>
    let m := mintOf rt d
    setMint d { m with delivered := kset m.delivered who b } rt

/-- The bytes that a request asks for: RNDL draws 64-bit limbs, a reseed 256 bits (Table 16.2). -/
def userBytes : MintUser → Nat
  | .rand _ _ n => n
  | .rndl _ _ _ n => 8 * n
  | .reseed _ => 32
  | .firmware _ n => n

/-- DRBG_GENERATE: the next request in order is served within the limits of its seed (R344). -/
def doDrbgGenerate (d : Nat) (rt : Rt) : Rt :=
  let m := mintOf rt d
  match m.waiting with
  | u :: l =>
    if canServe rt m then
      let r := generate (userBytes u) { m with waiting := l }
      deliver d u r.1 (setMint d r.2 rt)
    else rt
  | [] => rt

/-- DRBG_GENERATE. -/
def execDrbgGenerate (d : Die) (s : State) : Res := .next (onRt (doDrbgGenerate d.val) s)

/-- KEY_GRADE_REQUEST: the request at the head takes the next complete block, the DRBG reseeds with it and generates
(R345). -/
def doKeyGradeRequest (d : Nat) (rt : Rt) : Rt :=
  let m := mintOf rt d
  match m.keyGrade, m.ready with
  | u :: l, b :: bs =>
    if m.seeded then
      let r := generate (userBytes u) (reseedWith rt b { m with keyGrade := l, ready := bs })
      deliver d u r.1 (setMint d r.2 rt)
    else rt
  | _, _ => rt

/-- KEY_GRADE_REQUEST. -/
def execKeyGradeRequest (d : Die) (s : State) : Res := .next (onRt (doKeyGradeRequest d.val) s)

/-! ## Exhaustion (R351) -/

/-- A waiting request ends with RNG_UNAVAILABLE (R247, R313, R332); a command that waits for key-grade bytes too. -/
def starve (u : MintUser) (rt : Rt) : Rt :=
  match u with
  | .rand c _ _ => refuseJob c stRngUnavailable (zeros 16) rt
  | .rndl d r _ _ =>
    let e := recRef d r
    match (comOf rt e).queue, holderOf rt e with
    | b :: _, some c => rndlFail e c b rt
    | _, _ => rt
  | .reseed e => doMaskReseedTimeout e rt
  | .firmware who _ => if 1000 ≤ who then failWith (who - 1000) stRngUnavailable rt else rt

/-- MINT_EXHAUSTED: with no source in service for 10 ms, every waiting request of the die ends with RNG_UNAVAILABLE, and
then the fatal fault is raised (R351). During start-up R78 decides. -/
def doMintExhausted (d : Nat) (rt : Rt) : Rt :=
  let m := mintOf rt d
  if m.seeded && (inServiceList m).isEmpty && !m.exhausted then
    let rt := setMint d { m with exhausted := true, waiting := [], keyGrade := [] } rt
    let rt := (m.waiting ++ m.keyGrade).foldl (fun r u => starve u r) rt
    raise { source := .mintExhausted, scope := d, island := some (mintIsland d), booth := none, detail := [],
            houseProg := false } rt
  else rt

/-- MINT_EXHAUSTED. -/
def execMintExhausted (d : Die) (s : State) : Res := .next (onRt (doMintExhausted d.val) s)

end Sys2Proof.Machine
end

