-- ==== Sys2Proof/Machine/Mail.lean ====
section
/-! DEFINITION. Management requests and responses (06 R115, R116, Table 6.5), which requests each state accepts (17 Table
17.14, 05 Table 5.1), and the ledger (13 R295 to R297). -/

namespace Sys2Proof.Machine

/-! ## The request -/

/-- The 2 048 bytes of the request buffer. -/
def reqBuffer (m : Mbx) : Bytes := (List.range 512).flatMap fun k => le 4 (kgetD m.req k 0#32).toNat

/-- A management request: its code, flags, sequence number, parameters, and whether its header is in order. -/
structure Req where
  code : Nat
  flags : Nat
  seq : BitVec 32
  params : Bytes
  headOk : Bool
  deriving DecidableEq, Repr

/-- The request in a request's bytes: at most 2 032 parameter bytes, reserved bytes and flags zero but for bit 0. -/
def parseReq (b : Bytes) : Req :=
  let n := leAt b 8 4
  { code := leAt b 0 2, flags := leAt b 2 2, seq := BitVec.ofNat 32 (leAt b 4 4), params := padTo (min n 2032) (slice b 16 (min n 2032)),
    headOk := decide (n ≤ 2032) && zeroAt b 12 4 && decide (leAt b 2 2 < 2) }

/-- The request that a source holds: the mailbox's while BUSY is set, the console's at once; none while another request
waits, since the firmware processes one at a time (R367). -/
def reqOf (src : ReqSrc) (rt : Rt) : Option Req :=
  if rt.waiting.isSome || rt.ceremony.isSome || !mainPower rt || rt.power.powerFail then none
  else match src with
    | .mailbox => if rt.mbx.busy then some (parseReq (reqBuffer rt.mbx)) else none
    | .console b => some (parseReq b)

/-- A source is the ceremony console. -/
def fromConsole : ReqSrc → Bool
  | .mailbox => false
  | .console _ => true

/-! ## The response -/

/-- The response: status, sequence number, result length, the epoch's low half, and the result (Table 6.5). -/
def respBytes (rt : Rt) (seq : BitVec 32) (st : Nat) (res : Bytes) : Bytes :=
  le 2 st ++ zeros 2 ++ le 4 seq.toNat ++ le 4 res.length ++ le 4 rt.epoch ++ res

/-- The bound of a mailbox request that has waited behind a console request begins anew (R367). -/
def restartBound (rt : Rt) : Rt := if rt.mbx.busy then { rt with mbx := { rt.mbx with goAt := rt.now } } else rt

/-- A response to the mailbox sets DONE, clears BUSY and signals vector 0; the console's goes out on its session (R116). -/
def respond (console : Bool) (seq : BitVec 32) (st : Nat) (res : Bytes) (rt : Rt) : Rt :=
  if console then restartBound (emit (.console (respBytes rt seq st res)) rt)
  else
    let r := respBytes rt seq st res
    signal 0 { rt with mbx := { rt.mbx with resp := r, done := true, busy := false, seq := seq } }

/-- Answer a request with a status and a result. -/
def answer (src : ReqSrc) (q : Req) (st : Nat) (res : Bytes) (rt : Rt) : Rt := respond (fromConsole src) q.seq st res rt

/-- The result that a refusal carries: STATE_REFUSED names the stage and state (Table 17.8, R85). -/
def refuseRes (rt : Rt) (st : Nat) : Bytes :=
  if st = stStateRefused then [rt.boot.stage, rt.boot.lcState] else []

/-- Refuse a request. -/
def refuse (src : ReqSrc) (q : Req) (st : Nat) (rt : Rt) : Rt := answer src q st (refuseRes rt st) rt

/-- Refuse a request with INPUT_REFUSED and a reason (Table 17.8). -/
def refuseReason (src : ReqSrc) (q : Req) (r : Nat) (rt : Rt) : Rt := answer src q stInputRefused [BitVec.ofNat 8 r] rt

/-! ## What each state accepts -/

/-- The requests that Table 5.1 lists for a life-cycle state at rest. -/
def lcAccepts (lc : BitVec 8) (code : Nat) : Bool :=
  match lc.toNat with
  | 0x00 => code ∈ [0x40, 0x42]
  | 0x01 => code ∈ [0x40, 0x42]
  | 0x02 => code ∈ [0x40, 0x41, 0x42, 0x43]
  | 0x03 => code ∈ [0x01, 0x40, 0x41, 0x42, 0x20, 0x35, 0x38]
  | 0x05 => code ∈ [0x20, 0x40, 0x41, 0x42]
  | 0x06 => code = 0x40
  | 0x0F => code ∈ [0x40, 0x42]
  | _ => false

/-- The status with which the present state refuses a request, or none when it accepts it: the first row of Table 17.14
that matches; the states at rest go by Table 5.1, in BOOT_STAGE 86h and 87h whatever OTP_BURN left recorded (R102, R104). Re-commissioning is COMMISSION in tamper halt. -/
def stateRefuses (rt : Rt) (code : Nat) : Option Nat :=
  let ok := fun (l : List Nat) (st : Nat) => if code ∈ l then none else some st
  if inTamperHalt rt then ok [0x01, 0x40, 0x20, 0x04, 0x60, 0x61, 0x82, 0x38] stTamperHalt
  else if rt.boot.stage = 0x86 ∨ rt.boot.stage = 0x87 then (if lcAccepts rt.boot.lcState code then none else some stStateRefused)
  else if inFatal rt then ok [0x01, 0x02, 0x40, 0x20, 0x04, 0x60, 0x61, 0x82, 0x18] stDeviceFault
  else if rt.boot.stage = 0x80 then ok [0x01, 0x40] stStateRefused
  else if rt.boot.erasing then ok [0x01, 0x40] stStateRefused
  else if rt.boot.stage = 0x84 then ok [0x01, 0x40, 0x41, 0x42, 0x20, 0x04, 0x50] stStateRefused
  else if rt.boot.stage = 0x83 then (if lcAccepts rt.boot.lcState code then none else some stStateRefused)
  else if rt.boot.stage = 0x0C ∧ rt.boot.serviceReady then
    if code = 0x38 then some stStateRefused else none
  else ok [0x01, 0x40] stStateRefused

/-- Serve a request of one code: the state first, then the header; `body` answers an accepted one. With no such request
nothing happens. -/
def serve (src : ReqSrc) (code : Nat) (body : Req → State → State) (s : State) : State :=
  match reqOf src s.rt with
  | none => s
  | some q =>
    if q.code ≠ code then s
    else match stateRefuses s.rt code with
      | some st => onRt (refuse src q st) s
      | none => if q.headOk then body q s else onRt (refuse src q stMalformed) s

/-- The same, for a request whose parameters have a fixed length. -/
def serveLen (src : ReqSrc) (code len : Nat) (body : Req → State → State) (s : State) : State :=
  serve src code (fun q s => if q.params.length = len then body q s else onRt (refuse src q stMalformed) s) s

/-! ## The ledger -/

/-- Entries that the ring holds (R295). -/
def ledgerSize : Nat := 33554432

/-- Bytes 0 to 79 of an entry (Table 13.10). -/
def entryBytes (e : LedgerEntry) : Bytes :=
  le 8 e.seq ++ le 8 e.epoch ++ le 8 e.sec ++ le 4 e.ns ++ le 2 e.event ++ le 2 e.house ++ le 2 e.booth ++ zeros 2 ++
  le 4 e.slot ++ le 2 e.genBefore ++ le 2 e.genAfter ++ le 2 e.officer1 ++ le 2 e.officer2 ++ padTo 8 (e.detail.take 8) ++
  zeros 24

/-- An event of the ledger before it is written. -/
def ledgerEvent (event house booth slot genB genA o1 o2 : Nat) (detail : Bytes) : LedgerEntry :=
  { seq := 0, epoch := 0, sec := 0, ns := 0, event := event, house := house, booth := booth, slot := slot, genBefore := genB,
    genAfter := genA, officer1 := o1, officer2 := o2, detail := detail, chain := [] }

/-- A module-wide event: no house, booth or slot. -/
def moduleEvent (event : Nat) (detail : Bytes) : LedgerEntry := ledgerEvent event 0xFFFF 0xFFFF 0xFFFFFFFF 0 0 0 0 detail

/-- Unconfirmed entries. -/
def unconfirmed (l : Ledger) : Nat := l.nextSeq - l.confirmed

/-- The ring is full: nothing that writes an entry can happen (R297). -/
def ledgerFull (nv : Nv) : Bool := decide (ledgerSize ≤ unconfirmed nv.ledger)

/-- Number, chain and append one entry. The oldest entries make room in the ring, never one that is not confirmed (R295,
R297): an entry whose request was taken before the ring filled then waits beyond it (log 41). -/
def appendEntry (rt : Rt) (epoch : LedgerEntry → Nat) (l : Ledger) (e : LedgerEntry) : Ledger :=
  let e := { e with seq := l.nextSeq, epoch := epoch e, sec := rt.clock.sec, ns := rt.clock.ns }
  let c := sha384 (l.chain ++ entryBytes e)
  let old := l.entries.drop (min (l.entries.length + 1 - ledgerSize) (l.entries.length - unconfirmed l))
  { l with entries := old ++ [{ e with chain := c }], nextSeq := l.nextSeq + 1, chain := c }

/-- LEDGER_HIGH at 90 % unconfirmed, LEDGER_FULL when the ring is full (R297). -/
def ledgerLevels (s : State) : State :=
  let n := unconfirmed s.nv.ledger
  onRt (fun rt => raiseLevel .ledgerFull 0 (decide (ledgerSize ≤ n)) (raiseLevel .ledgerHigh 0 (decide (9 * ledgerSize ≤ 10 * n)) rt)) s

/-- Write entries to the ledger, each at the epoch of its event's commit (Table 13.10). -/
def writeEntriesAt (epoch : LedgerEntry → Nat) (l : List LedgerEntry) (s : State) : State :=
  if l = [] then s
  else ledgerLevels { s with nv := { s.nv with ledger := l.foldl (appendEntry s.rt epoch) s.nv.ledger } }

/-- Write entries to the ledger at the present epoch. -/
def writeEntries (l : List LedgerEntry) (s : State) : State := writeEntriesAt (fun _ => s.rt.epoch) l s

/-- Write one entry. -/
def writeEntry (e : LedgerEntry) (s : State) : State := writeEntries [e] s

end Sys2Proof.Machine
end

