-- ==== Sys2Proof/Machine/Resets.lean ====
section
/-! DEFINITION. What each reset keeps (00 Table 0.6, the Reset columns of 16, 19, 20, 22, 23 and 25), and the power and
PERST# rows (02 R32, R33, 04 R66). The booth reset is in the booth commands. -/

namespace Sys2Proof.Machine

/-- The fault collector after a module or warm reset (R437): IRQ_MASK is a module field. -/
def collectorReset (f : Collector) : Collector :=
  { f with pendCorr := false, pendCont := false, pendFatal := false, pendBooth := false, halted := false, wins := [],
           firstCorr := none, firstCont := none, irqMask := 0 }

/-- The classifications and the mint handling that a start loads from flash (R431, R350). -/
def loadConfig (nv : Nv) (rt : Rt) : Rt :=
  { rt with
    fault := { rt.fault with inForce := nv.classes }
    alert := { rt.alert with minWidth := nv.minWidth }
    tally := { rt.tally with presets := nv.presets }
    peer := { rt.peer with mode := nv.pairing.nextMode, copying := nv.pairing.copying, diverged := nv.pairing.diverged,
                             lost := nv.pairing.nextMode && nv.pairing.twin.isSome }
    mint0 := { rt.mint0 with forerunner := nv.mintFore0 }
    mint1 := { rt.mint1 with forerunner := nv.mintFore1 } }

/-- The boot status at a start of a kind: 0 cold, 1 warm, 2 module (R5, Table 25.4). The auxiliary-power hold lasts until the next cold
or warm start (02 R30). -/
def bootStart (kind : Nat) (rt : Rt) : Boot :=
  { Rt.reset.boot with
    stage := if kind ≠ 2 then 0x01 else if rt.boot.auxLow then 0x80 else 0x03
    lastReset := kind
    moduleResets := if kind = 0 then 0 else rt.boot.moduleResets
    counting := kind = 2
    startAt := rt.now
    stepsDone := if kind = 2 then [1, 2] else []
    auxLow := if kind = 2 then rt.boot.auxLow else false }

/-- After a warm reset: as cold, but rs and Cold fields keep their values; the PS island keeps its pending register
(R94), the clockmaker runs on until it recovers its time at step 2, and inserted modules and cards stay where they are. -/
def warmRt (nv : Nv) (rt : Rt) : Rt :=
  loadConfig nv { Rt.reset with
    now := rt.now
    freeCtr := rt.freeCtr
    out := rt.out
    power := rt.power
    boot := bootStart 1 rt
    cageA := rt.cageA
    cageB := rt.cageB
    lc := { Rt.reset.lc with pendingTarget := rt.lc.pendingTarget }
    fault := collectorReset rt.fault
    alert := { Alert.reset with tamperHold := rt.alert.tamperHold }
    ballast := { Ballast.reset with
      detA := rt.ballast.detA
      detB := rt.ballast.detB
      inlet := rt.ballast.inlet
      power := rt.ballast.power }
    clock := rt.clock
    mint0 := clearMint rt.mint0
    mint1 := clearMint rt.mint1
    cardA := rt.cardA
    cardB := rt.cardB
    cellA := rt.cellA
    cellB := rt.cellB
    window := rt.window
    tally := { rt.tally with presets := [] }
    bridles := { tables := [], recs := rt.bridles.recs } }

/-- After a module reset: as warm, but the host link, the BAR assignment with the MSI-X structures, the mailbox and the
I/O die's islands stay (R67, R474, R477). -/
def moduleRt (nv : Nv) (rt : Rt) : Rt :=
  let w := warmRt nv rt
  { w with
    boot := bootStart 2 rt
    link := rt.link
    msix := rt.msix
    mbx := rt.mbx
    net := { w.net with mgmtLink := rt.net.mgmtLink, mgmtFrame := rt.net.mgmtFrame }
    ballast := { w.ballast with islands := rt.ballast.islands.filter (fun kv => 36 ≤ kv.1)
                                tokIod := rt.ballast.tokIod
                                fifoIod := rt.ballast.fifoIod } }

/-- What a reset does to flash: port B's next mode takes effect (R152), and records without a commit mark are discarded with
their bundles (R149, R176). -/
def takeMode (nv : Nv) : Nv :=
  { nv with pairing := { nv.pairing with mode := nv.pairing.nextMode }, journal := nv.journal.filter JRec.marked }

/-- A module reset. -/
def moduleReset (s : State) : State := { s with nv := takeMode s.nv, rt := alertPin (moduleRt s.nv s.rt) }

/-- A warm reset. -/
def warmReset (s : State) : State := { s with nv := takeMode s.nv, rt := alertPin (warmRt s.nv s.rt) }

/-- A cold reset: everything but the gondola, the fuses and flash, and what is fixed to the module from outside. -/
def coldReset (p : Power) (s : State) : State :=
  { s with nv := takeMode s.nv, rt := loadConfig s.nv { Rt.reset with
      now := s.rt.now
      freeCtr := s.rt.freeCtr
      out := s.rt.out
      power := p
      boot := bootStart 0 s.rt
      cageA := s.rt.cageA
      cageB := s.rt.cageB
      cardA := s.rt.cardA
      cardB := s.rt.cardB } }

/-- A card in an officer slot is activated (R40). -/
def activateCard (x : CardState) : CardState := { x with active := true }

/-- What a cold or warm start finds in the cages and the officer slots: a module above 12 W is reported (R38), and a card that came
without main power is activated (R40). -/
def startSlots (rt : Rt) : Rt :=
  let rt := { rt with cardA := rt.cardA.map activateCard, cardB := rt.cardB.map activateCard }
  let rt := raiseLevel .cagePower 0 (rt.cageA.present && rt.cageA.lowPower) rt
  raiseLevel .cagePower 1 (rt.cageB.present && rt.cageB.lowPower) rt

/-- SENSE0 and SENSE1 are sampled at the beginning of a cold or warm start; 150 W enters the auxiliary-power hold (R30). -/
def sampleSense (sense : Cable) (s : State) : State :=
  let rt := startSlots { s.rt with power := { s.rt.power with sensePins := sense, cable := sense } }
  let rt := { rt with boot := { rt.boot with startAt := rt.now } }
  { s with rt := if sense = .w150 then stopAt 0x80 { rt with boot := { rt.boot with auxLow := true } } else rt }

/-- MAIN_POWER_APPLIED: inputs come within their limits; with the last, a cold start begins if PERST# is released (R32,
R66). A module on power without a latched power-fail goes on. -/
def doMainPowerApplied (a b c : Bool) (sense : Cable) (s : State) : State :=
  let p := s.rt.power
  if mainPower s.rt && !p.powerFail then s
  else
    let p' := { p with slot12 := p.slot12 || a, slot33 := p.slot33 || b, aux12 := p.aux12 || c, sensePins := sense }
    if p'.slot12 && p'.slot33 && p'.aux12 then
      let s := coldReset { p' with waitExpired := false, powerFail := false } s
      if p.perst then s else sampleSense sense s
    else { s with rt := { s.rt with power := p' } }

/-- MAIN_POWER_APPLIED. -/
def execMainPowerApplied (a b c : Bool) (sense : Cable) (s : State) : Res := .next (doMainPowerApplied a b c sense s)

/-- AUX_INPUT_MISSING: the 100 ms have ended with an input missing; the module waits for it, unpowered (R32). -/
def doAuxInputMissing (rt : Rt) : Rt :=
  if mainPower rt then rt else { rt with power := { rt.power with waitExpired := true } }

/-- AUX_INPUT_MISSING. -/
def execAuxInputMissing (s : State) : Res := .next (onRt doAuxInputMissing s)

/-- PERST_ASSERT: a warm reset holds every island but the regulators, gondola, BL and PS in reset (R66). Asserted during a cold
start it begins a warm one, which the boot status then reports (DESIGN CHOICE, log 1: R5 states only the opposite case). -/
def doPerstAssert (s : State) : State :=
  if mainPower s.rt && !s.rt.power.powerFail then
    let s := warmReset s
    { s with rt := { s.rt with power := { s.rt.power with perst := true } } }
  else { s with rt := { s.rt with power := { s.rt.power with perst := true } } }

/-- PERST_ASSERT. -/
def execPerstAssert (s : State) : Res := .next (doPerstAssert s)

/-- PERST_RELEASE: the start begins with main power present (R66). -/
def doPerstRelease (sense : Cable) (s : State) : State :=
  if !s.rt.power.perst then s
  else
    let s := { s with rt := { s.rt with power := { s.rt.power with perst := false, sensePins := sense } } }
    if mainPower s.rt && !s.rt.power.powerFail then sampleSense sense s else s

/-- PERST_RELEASE. -/
def execPerstRelease (sense : Cable) (s : State) : Res := .next (doPerstRelease sense s)

/-- A journal record at power-fail: one whose commit mark is being written is completed (R267, log 25). No mark is being written
after a fatal fault or the rip line, which have withdrawn the bundle (R483). -/
def failRecord (rt : Rt) (r : JRec) : JRec :=
  let alive := match r.bundle with
    | some u => (kget rt.bundles u).isSome
    | none => false
  if r.complete && r.acked && !r.held && alive && mayRun rt then { r with marked := true } else r

/-- A card in an officer slot loses its supply with main power (R40). -/
def restCard (x : CardState) : CardState := { x with active := false }

/-- POWER_FAIL: a 12 V input stays below 10.8 V; the module completes a full power-down, with whatever flash and the
gondola hold. No completion entry and no output follows (R33, R34, R60, Table 2.9). An open cell service window closes;
an open door is then a tamper event of the gondola, which takes it on its cells. -/
def doPowerFail (s : State) : State :=
  if mainPower s.rt && !s.rt.power.powerFail then
    let p := { s.rt.power with powerFail := true, slot12 := false, slot33 := false, aux12 := false }
    let nv := { s.nv with journal := s.nv.journal.map (failRecord s.rt) }
    { s with nv := nv, rt := { Rt.reset with
        now := s.rt.now
        freeCtr := s.rt.freeCtr
        out := s.rt.out
        power := p
        ballast := { Ballast.reset with islands := [] }
        cageA := s.rt.cageA
        cageB := s.rt.cageB
        cardA := s.rt.cardA.map restCard
        cardB := s.rt.cardB.map restCard } }
  else s

/-- LINK_TRAINING_COMPLETE: the host link trains once the I/O die runs; width 4, 8 or 16, rate code 3 to 6 (R28). -/
def doLinkTrainingComplete (width rate : Nat) (flit : Bool) (rt : Rt) : Rt :=
  if mainPower rt && !rt.power.powerFail && !rt.power.perst && !rt.link.up &&
     decide (width ∈ [4, 8, 16] ∧ rate ∈ [3, 4, 5, 6]) then
    { rt with link := { rt.link with up := true, width := width, rate := rate, flit := flit } }
  else rt

/-- LINK_TRAINING_COMPLETE. -/
def execLinkTrainingComplete (width rate : Nat) (flit : Bool) (s : State) : Res :=
  .next (onRt (doLinkTrainingComplete width rate flit) s)

end Sys2Proof.Machine
end

