-- ==== Sys2Proof/Machine/Tamper.lean ====
section
/-! DEFINITION. The envelope and the gondola: tamper sources, the rip line, the gondola on cells, its log, its cells, the
tamper count, the cell service window (21 R416 to R426, 02 R33, R45, R46), and fuse burning (05 R102, R103). -/

namespace Sys2Proof.Machine

/-! ## Fuses -/

/-- Set one fuse of a field as OTP_BURN's detail numbers fields (22 Table 22.1). TAMPER_CNT and ROOT_LOST_CNT burn from
fuse 0 up, so that the count is the number burned. -/
def setFuse (f : Fuse) (o : Otp) : Otp :=
  match f.field with
  | 0 => { o with lcT := o.lcT ||| BitVec.ofNat 32 (2 ^ f.bit) }
  | 1 => { o with lcC := o.lcC ||| BitVec.ofNat 32 (2 ^ f.bit) }
  | 2 => { o with mark0 := o.mark0 ||| BitVec.ofNat 16 (2 ^ f.bit) }
  | 3 => { o with mark1 := o.mark1 ||| BitVec.ofNat 16 (2 ^ f.bit) }
  | 4 => { o with mark2 := o.mark2 ||| BitVec.ofNat 16 (2 ^ f.bit) }
  | 5 => { o with mark3 := o.mark3 ||| BitVec.ofNat 16 (2 ^ f.bit) }
  | 6 => { o with tamperCnt := max o.tamperCnt (f.bit + 1) }
  | 7 => { o with rootLostCnt := max o.rootLostCnt (f.bit + 1) }
  | 8 => { o with seed := o.seed ||| BitVec.ofNat 256 (2 ^ f.bit) }
  | 9 => { o with seedCheck := o.seedCheck ||| BitVec.ofNat 32 (2 ^ f.bit) }
  | _ => o

/-- A fuse reads 1. -/
def fuseSet (o : Otp) (f : Fuse) : Bool :=
  match f.field with
  | 0 => o.lcT.getLsbD f.bit
  | 1 => o.lcC.getLsbD f.bit
  | 2 => o.mark0.getLsbD f.bit
  | 3 => o.mark1.getLsbD f.bit
  | 4 => o.mark2.getLsbD f.bit
  | 5 => o.mark3.getLsbD f.bit
  | 6 => decide (f.bit < o.tamperCnt)
  | 7 => decide (f.bit < o.rootLostCnt)
  | 8 => o.seed.getLsbD f.bit
  | 9 => o.seedCheck.getLsbD f.bit
  | _ => false

/-- Pulses on the RETURNED nibble, bits 16 to 19 of LC_T and LC_C, have no effect without ROOT_ZERO (R103). -/
def enabledFuse (rootZero : Bool) (f : Fuse) : Bool := rootZero || !(decide (f.field ≤ 1 ∧ 16 ≤ f.bit ∧ f.bit < 20))

/-- How a burn ends: every fuse reads 1, a fuse still reads 0 after its fourth pulse (R102), or power or the rip line cuts it short. -/
inductive BurnEnd where
  | done
  | stuck (f : Fuse)
  | cut
  deriving DecidableEq, Repr

/-- A burn of fuses: the fuses after it, what later burns of the same command meet, and how it ended. -/
structure BurnRes where
  otp : Otp
  left : Pulses
  fin : BurnEnd
  deriving DecidableEq, Repr

/-- One fuse fewer until the cut. -/
def spend (p : Pulses) : Pulses := { p with cut := p.cut.map fun c => (c.1 - 1, c.2) }

/-- The next pulse does not come any more. -/
def cutNow (p : Pulses) : Bool :=
  match p.cut with
  | some (0, _) => true
  | _ => false

/-- Burn one fuse with up to four pulses (R102). A fuse that is set stays set. -/
def burnFuse (p : Pulses) (rootZero : Bool) (f : Fuse) (o : Otp) : BurnRes :=
  if fuseSet o f then { otp := o, left := p, fin := .done }
  else if cutNow p then { otp := o, left := p, fin := .cut }
  else if f ∈ p.weak ∨ !enabledFuse rootZero f then { otp := o, left := p, fin := .stuck f }
  else { otp := setFuse f o, left := spend p, fin := .done }

/-- Burn fuses in order, up to the first that does not take its pulses (R102). -/
def burnAll (p : Pulses) (rootZero : Bool) : List Fuse → Otp → BurnRes
  | [], o => { otp := o, left := p, fin := .done }
  | f :: l, o =>
    let r := burnFuse p rootZero f o
    if r.fin = .done then burnAll r.left rootZero l r.otp else r

/-- Burn fuses in order, going on past those that still read 0, which are named (R104). -/
def burnEach (p : Pulses) : List Fuse → Otp → BurnRes × List Fuse
  | [], o => ({ otp := o, left := p, fin := .done }, [])
  | f :: l, o =>
    let r := burnFuse p true f o
    match r.fin with
    | .done => burnEach r.left l r.otp
    | .stuck g => let x := burnEach r.left l r.otp; (x.1, g :: x.2)
    | .cut => (r, [])

/-- The OTP_BURN fault of a fuse. -/
def otpBurn (f : Fuse) (rt : Rt) : Rt := raise (plainEvent .otpBurn (le 2 f.field ++ le 2 f.bit)) rt

/-! ## The gondola's log and response -/

/-- The flags of a log entry: CELLS, DET_A, DET_B, FIRST (Table 21.6). -/
def entryFlags (cells : Bool) (t : Trip) (first : Bool) : BitVec 8 :=
  BitVec.ofNat 8 (b2n cells + 2 * b2n t.detA + 4 * b2n t.detB + 8 * b2n first)

/-- The gondola's count now: it runs at 32 768 Hz. -/
def gonNow (g : Gondola) (now : Nat) : BitVec 48 := g.count + BitVec.ofNat 48 (now * 32768 / 1000000000)

/-- Write a log entry into the ring of 64 (R425). -/
def logEntry (e : GLogEntry) (g : Gondola) : Gondola :=
  { g with log := kset g.log g.logNext e, logNext := (g.logNext + 1) % 64,
           logOver := if (kget g.log g.logNext).isSome then sat16 g.logOver else g.logOver }

/-- The gondola's response to a tripped source: the root clears, TAMPER_OUT_N goes low, the flag is set, an episode that
begins is marked uncounted, and the event is logged (R36, R419 to R421, R424, R425). -/
def gondolaTrip (cells : Bool) (now : Nat) (t : Trip) (g : Gondola) : Gondola :=
  let first := !g.tamperFlag
  let ep := if first then g.episode + 1 else g.episode
  let e : GLogEntry := { stamp := gonNow g now, source := BitVec.ofNat 8 t.code, site := BitVec.ofNat 8 t.site,
                         flags := entryFlags cells t first, episode := BitVec.ofNat 16 ep }
  logEntry e { g with root := 0, rootCheck := 0, tamperFlag := true, uncounted := g.uncounted || first, tamperOut := true,
                      latched := addTo t.code g.latched, episode := ep,
                      firstCause := if first then some e else g.firstCause }

/-- The sources marked Cells in Table 21.1. -/
def cellsSource (code : Nat) : Bool := decide (1 ≤ code ∧ code ≤ 0x0A)

/-- The islands whose clock is a PLL: all but the sensor islands, BL, CM, TA, PS and the gondola's two (Tables 3.1, 3.2). -/
def pllIsland (i : Nat) : Bool := decide (i < 60 ∧ i ∉ [17, 35, 46, 48, 56, 57, 58, 59])

/-- A compute die's core rail is in regulation: one of its islands has come up (R86, R484). -/
def railUp (rt : Rt) (d : Nat) : Bool :=
  (List.range 18).any fun k => (islandOf rt (18 * d + k)).st == .ready || (islandOf rt (18 * d + k)).st == .stopping

/-- A source marked Main is armed from the start (R86), sites on a compute die only while the die is powered: its rail in regulation,
a PLL island's clock locked, the temperature detectors with the SN island ready; the Standby rail is not watched (R484). -/
def mainArmed (rt : Rt) (t : Trip) : Bool :=
  let temp := if t.site < 2 then islandReady rt (18 * t.site + 17) else t.site = 2
  let rail := if t.site < 2 then railUp rt t.site else decide (t.site < 7)
  let clk := t.site = 0xFF || (pllIsland t.site && islandReady rt t.site)
  islandsRun rt && (match t.code with
    | 0x10 | 0x11 => temp
    | 0x12 => rail
    | 0x13 => clk
    | 0x14 => temp || rail || clk
    | 0x15 | 0x16 => true
    | _ => false)

/-! ## The rip line (R420) -/

/-- Every store of a secret on main power is zeroed: caches, desks, windows, engines, mints, head-clerk memory, mailbox
buffers, the strongroom's keys, link keys. Sessions are `haltSessions`'s. -/
def zeroStores (rt : Rt) : Rt :=
  { rt with
    clerks := [(128, headClerk)]
    head := HeadRegs.reset
    rooms := rt.rooms.map fun kv => (kv.1, { kv.2 with window := [] })
    presses := []
    hashes := []
    looms := []
    reckoners := []
    mint0 := clearMint rt.mint0
    mint1 := clearMint rt.mint1
    mbx := { rt.mbx with req := [], resp := [] }
    strong := Strong.reset
    twoKey := .closed
    ceremony := none
    lc := { rt.lc with nonce := none }
    peer := { Rt.reset.peer with mode := rt.peer.mode, diverged := rt.peer.diverged, lost := rt.peer.lost }
    held := none
    kdbRoot := 0
    spdm := Rt.reset.spdm }

/-- A fetched command that is not yet admitted meets the halt as it would at stage 3, with its bundle (R10, R16, R148). -/
def haltUnadmitted (rt : Rt) : Rt :=
  (kkeys (rt.cmds.filter fun kv => !kv.2.admitted && kv.2.stage != .ended && kv.2.stage != .posted)).foldl
    (fun r id => failWith id stTamperHalt r) rt

/-- The session bundles whose members have not all arrived go without effect as the sessions end (08 R168). -/
def dropUnwhole (rt : Rt) : Rt :=
  let ofSession := fun (x : Bundle) => x.members.any fun id => ((kget rt.cmds id).bind Cmd.session).isSome
  let us := kkeys (rt.bundles.filter fun kv => !kv.2.closed && ofSession kv.2)
  let gone := fun (o : Option Nat) => match o with
    | some u => decide (u ∈ us)
    | none => false
  { rt with cmds := rt.cmds.filter fun kv => !gone kv.2.bundle, bundles := rt.bundles.filter fun kv => !decide (kv.1 ∈ us) }

/-- Sessions end at the rip line: one that still owes responses answers TAMPER_HALT first, the others close with
internal_error at once; traffic keys are zeroed, and connections without a session go (08 R160, Table 8.5). -/
def haltSessions (rt : Rt) : Rt :=
  let rt := dropUnwhole rt
  let owes := fun (k : Nat) => rt.cmds.any fun kv => kv.2.session == some k && !kv.2.discard
  let isSession := fun (c : Conn) => match c.st with
    | .established _ => true
    | _ => false
  let old := rt.net.conns.filter fun kv => isSession kv.2
  let rt := (old.filter fun kv => !owes kv.1).foldl (fun r kv => emit (.alert kv.1 "internal_error") r) rt
  let kept := (old.filter fun kv => owes kv.1).map fun kv => (kv.1, { kv.2 with rxSecret := [], txSecret := [], openBundle := none })
  { rt with net := { rt.net with conns := kept, listening := false } }

/-- Service ends in a tamper halt with a BOOT_STAGE: admitted commands complete with TAMPER_HALT, a request in progress
too, stores are zeroed, ALERT_N is held low, and the compute dies power down by metered stops (R16, R60, R420, R440). -/
def haltService (code : BitVec 8) (rt : Rt) : Rt :=
  let rt := haltSessions (haltUnadmitted (stopAll stTamperHalt (unpair rt)))
  let busy := rt.mbx.busy
  let seq : BitVec 32 := match rt.waiting with
    | some w => w.seq
    | none => (parseReq (reqBuffer rt.mbx)).seq
  let rt := stopAt code (zeroStores rt)
  let rt := { rt with
    boot := { rt.boot with serviceReady := false, resident := false, erasing := false }
    waiting := none
    disp := { rt.disp with changes := [] }
    alert := { rt.alert with tamperHold := true } }
  let rt := repin rt
  let rt := if busy then respond false seq stTamperHalt [] rt else rt
  sleepDie 1 (sleepDie 0 rt)

/-- The rip line on main power: the gondola's response, and the end of service. In tamper halt already, the event is
logged and the stores zeroed again (R419). The completion entries follow by COMPLETION_POST and RESPONSE_FRAME. -/
def ripLine (t : Trip) (s : State) : State :=
  { s with gon := gondolaTrip false s.rt.now t s.gon, rt := haltService 0x81 s.rt }

/-- An open cell service window excuses the door until its 600 s have passed (R45). -/
def windowExcuses (rt : Rt) : Bool := rt.window.isOpen && decide (rt.now < rt.window.endsAt)

/-- A tripped source: the rip line on main power, the gondola alone on cells or after power-fail (R416, R419, R421). A
cell door within its window trips nothing (R45). -/
def tripSource (t : Trip) (s : State) : State :=
  let onMain := powered s.rt
  if t.code = 0x08 ∧ windowExcuses s.rt then s
  else if onMain then
    if cellsSource t.code || mainArmed s.rt t then ripLine t s else s
  else if cellsSource t.code then { s with gon := gondolaTrip true s.rt.now t s.gon }
  else s

/-- TAMPER_SOURCE_TRIP. -/
def execTamperSourceTrip (t : Trip) (s : State) : Res := .next (tripSource t s)

/-- GONDOLA_CELL_TAMPER: without main power GA latches the source and GW clears the root, sets the flag and logs (R421). -/
def doGondolaCellTamper (t : Trip) (s : State) : State :=
  if mainPower s.rt && !s.rt.power.powerFail then s else tripSource t s

/-- GONDOLA_CELL_TAMPER. -/
def execGondolaCellTamper (t : Trip) (s : State) : Res := .next (doGondolaCellTamper t s)

/-! ## Power loss -/

/-- An open cell door outside a window: the source is active, and it trips (R45, Table 21.1). -/
def doorTrip (s : State) : State :=
  tripSource { code := 0x08, site := 0, detA := false, detB := false }
    { s with gon := { s.gon with active := addTo 0x08 s.gon.active } }

/-- Main power goes: power-fail latches, and a door that stands open as the window closes trips the gondola (R33, R45). -/
def powerLost (s : State) : State :=
  let was := s.rt.window.isOpen
  let s := doPowerFail s
  if was && s.gon.doorOpen then doorTrip s else s

/-- POWER_FAIL. -/
def execPowerFail (s : State) : Res := .next (powerLost s)

/-! ## Burning in steps (R97, R100 to R104) -/

/-- A command that burns: the state, what further fuses meet, and whether the burning was cut. -/
structure Burning where
  s : State
  p : Pulses
  cut : Bool
  deriving DecidableEq, Repr

/-- Burning begins. -/
def burning (p : Pulses) (s : State) : Burning := { s := s, p := p, cut := false }

/-- Burn fuses in order; one that still reads 0 ends this list with OTP_BURN, a cut ends the burning (R101, R102). -/
def burnList (rootZero : Bool) (l : List Fuse) (b : Burning) : Burning × Bool :=
  if b.cut then (b, false)
  else
    let r := burnAll b.p rootZero l b.s.otp
    let s := { b.s with otp := r.otp }
    match r.fin with
    | .done => ({ s := s, p := r.left, cut := false }, true)
    | .stuck f => ({ s := { s with otp := { r.otp with lastBurnFail := true }, rt := otpBurn f s.rt }, p := r.left, cut := false }, false)
    | .cut => ({ s := s, p := r.left, cut := true }, false)

/-- What cut a burn: the rip line with its source, or, with none, the loss of main power. -/
def cutBy (p : Pulses) : Option Trip := p.cut.bind Prod.snd

/-- What follows a burn that was cut. -/
def cutState (b : Burning) : State :=
  match cutBy b.p with
  | some t => ripLine t b.s
  | none => powerLost b.s

/-! ## The tamper count (R424) -/

/-- Burn the fuse of an uncounted episode; the count stays at 256. -/
def countEpisode (b : Burning) : Burning :=
  if !b.s.gon.uncounted then b
  else
    let done := fun (s : State) => { s with gon := { s.gon with uncounted := false } }
    if 256 ≤ b.s.otp.tamperCnt then { b with s := done b.s }
    else
      let r := burnList true [{ field := 6, bit := b.s.otp.tamperCnt }] b
      if r.2 then { r.1 with s := done r.1.s } else r.1

/-- TAMPER_COUNT_BURN: within 2 ms of the rip line on main power. -/
def doTamperCountBurn (weak : List Fuse) (s : State) : State :=
  if powered s.rt && inTamperHalt s.rt then (countEpisode (burning { weak := weak, cut := none } s)).s else s

/-- TAMPER_COUNT_BURN. -/
def execTamperCountBurn (weak : List Fuse) (s : State) : Res := .next (doTamperCountBurn weak s)

/-- GONDOLA_LOG_READ: the firmware reads the log over the gondola link; entries whose check fails are lost (R425, R438). -/
def doGondolaLogRead (lost : List Nat) (s : State) : State :=
  if mainPower s.rt && !s.rt.power.powerFail then
    onRt (fun rt => { rt with fault := { rt.fault with
      glog := s.gon.log
      glogLost := lost.filter fun j => decide (j < 64)
      glogFirst := s.gon.firstCause
      glogOver := s.gon.logOver
      glogNext := s.gon.logNext } }) s
  else s

/-- GONDOLA_LOG_READ. -/
def execGondolaLogRead (lost : List Nat) (s : State) : Res := .next (doGondolaLogRead lost s)

/-! ## Cells (R45, R46, R426) -/

/-- CELL_MEASURE: the two cells in mV; each below 2.7 V enters CELL_LOW. Without main power nothing reads the result. -/
def doCellMeasure (a b : Nat) (rt : Rt) : Rt :=
  if mainPower rt && !rt.power.powerFail then
    let rt := { rt with cellA := min a 0xFFFF, cellB := min b 0xFFFF }
    raiseLevel .cellLow 1 (decide (b < 2700)) (raiseLevel .cellLow 0 (decide (a < 2700)) rt)
  else rt

/-- CELL_MEASURE. -/
def execCellMeasure (a b : Nat) (s : State) : Res := .next (onRt (doCellMeasure a b) s)

/-- CELL_DECAY: both cells below 2.2 V without main power: the root SRAM, the log, the tamper flag, the count and the episode number
decay (R426), and nothing else of the gondola. What the root's SRAM then holds is free, but for its check value, which fails. -/
def doCellDecay (s : State) : State :=
  if powered s.rt then s
  else
    let root := Config.decayedRoot s.rt.freeCtr
    let good := BitVec.ofNat 32 (crc32c (le 32 root.toNat))
    let c := Config.decayedCheck s.rt.freeCtr
    let g := { s.gon with
      root := root, rootCheck := if c = good then c ^^^ 1 else c, tamperFlag := false, log := [], logNext := 0, logOver := 0,
      count := 0, countRestarted := true, episode := 0 }
    { s with gon := g, rt := { s.rt with freeCtr := s.rt.freeCtr + 1 } }

/-- CELL_DECAY. -/
def execCellDecay (s : State) : Res := .next (doCellDecay s)

/-- The window closes with a ledger entry of both readings; an open door is then a tamper event (R45, 0107h). -/
def closeWindow (s : State) : State :=
  let w := s.rt.window
  let s := writeEntry (ledgerEvent 0x0107 w.house 0xFFFF 0xFFFFFFFF 0 0 w.officers.1 w.officers.2
    (le 2 s.rt.cellA ++ le 2 s.rt.cellB)) s
  let s := onRt (fun rt => { rt with window := CellWindow.closed }) s
  if s.gon.doorOpen then doorTrip s else s

/-- CELL_SERVICE_WINDOW_EXPIRY: the 600 s from the opening pass, and the window closes. -/
def doCellServiceWindowExpiry (s : State) : State :=
  if s.rt.window.isOpen then closeWindow (onRt (fun rt => advanceTo rt.window.endsAt rt) s) else s

/-- CELL_SERVICE_WINDOW_EXPIRY. -/
def execCellServiceWindowExpiry (s : State) : Res := .next (doCellServiceWindowExpiry s)

/-- CELL_DOOR_OPEN: inside a window only DOOR_OPEN is set; outside it, or past its 600 s, is a tamper event (R45, Table 21.1). -/
def doCellDoorOpen (s : State) : State :=
  let s := { s with gon := { s.gon with doorOpen := true } }
  if windowExcuses s.rt then onRt (fun rt => { rt with window := { rt.window with opened := true } }) s
  else if s.rt.window.isOpen then closeWindow s
  else doorTrip s

/-- CELL_DOOR_OPEN. -/
def execCellDoorOpen (s : State) : Res := .next (doCellDoorOpen s)

/-- CELL_DOOR_CLOSE: after it has been opened, closing the door closes the window (R45). -/
def doCellDoorClose (s : State) : State :=
  let s := { s with gon := { s.gon with doorOpen := false, active := s.gon.active.filter (· ≠ 0x08) } }
  if s.rt.window.isOpen && s.rt.window.opened then closeWindow s else s

/-- CELL_DOOR_CLOSE. -/
def execCellDoorClose (s : State) : Res := .next (doCellDoorClose s)

end Sys2Proof.Machine
end

