-- ==== Sys2Proof/Machine/Boot.lean ====
section
/-! DEFINITION. Start-up (04): the handshake, the life-cycle decode with its burns (05 R91 to R104), keys, measurement,
journal recovery and the epoch, the seal, the strongroom index, booths, SERVICE_READY, and tile loading (12 R270). -/

namespace Sys2Proof.Machine

/-! ## The state codeword (05) -/

/-- The LC_T patterns of nibbles 0 to 5 (Table 5.2). -/
def lcPattern : Nat → Nat
  | 0 => 0x5 | 1 => 0xA | 2 => 0x3 | 3 => 0xC | 4 => 0x6 | 5 => 0x9
  | _ => 0

/-- A nibble is written (R91). -/
def nibWritten (o : Otp) (i : Nat) : Bool :=
  decide (i < 6) && bitsAt o.lcT.toNat (4 * i) 4 == lcPattern i && bitsAt o.lcC.toNat (4 * i) 4 == 15 - lcPattern i

/-- A nibble is clear. -/
def nibClear (o : Otp) (i : Nat) : Bool := bitsAt o.lcT.toNat (4 * i) 4 == 0 && bitsAt o.lcC.toNat (4 * i) 4 == 0

/-- The decoded life-cycle state (R92, Table 5.3); anything else is LOCKED. -/
def lcDecode (o : Otp) : BitVec 8 :=
  if nibWritten o 5 then 0x06
  else if (List.range 8).all fun i => nibWritten o i || nibClear o i then
    match (List.range 6).filter (nibWritten o) with
    | [] => 0x00
    | [0] => 0x01
    | [0, 1] => 0x02
    | [0, 1, 2] => 0x03
    | [0, 1, 2, 3] => 0x04
    | [0, 1, 2, 4] => 0x05
    | [0, 1, 2, 3, 4] => 0x05
    | _ => 0x0F
  else 0x0F

/-- The nibble that a target state writes: TEST 0 to SCRAPPED 5. -/
def lcNibble (target : Nat) : Nat := target - 1

/-- The fuses of a nibble, LC_T half before LC_C half (R91, R99). -/
def nibFuses (i : Nat) : List Fuse :=
  ((List.range 4).filter fun k => (lcPattern i).testBit k).map (fun k => { field := 0, bit := 4 * i + k }) ++
  ((List.range 4).filter fun k => !(lcPattern i).testBit k).map (fun k => { field := 1, bit := 4 * i + k })

/-! ## Progress marks (R97 to R99) -/

/-- The four slots. -/
def markSlots (o : Otp) : List (BitVec 16) := [o.mark0, o.mark1, o.mark2, o.mark3]

/-- A slot is valid: TGT_N complements TGT, and TGT is 04h, 05h or 06h. -/
def markValid (m : BitVec 16) : Bool :=
  bitsAt m.toNat 4 4 == 15 - bitsAt m.toNat 0 4 && decide (bitsAt m.toNat 0 4 ∈ [4, 5, 6])

/-- A valid slot is open while CLOSE is 0h. -/
def markOpen (m : BitVec 16) : Bool := markValid m && bitsAt m.toNat 8 4 == 0

/-- The first open slot with its target. -/
def openSlot (o : Otp) : Option (Nat × Nat) :=
  ((List.range 4).find? fun k => markOpen ((markSlots o).getD k 0)).map fun k =>
    (k, bitsAt ((markSlots o).getD k 0).toNat 0 4)

/-- The first unused slot (R97, R98). -/
def unusedSlot (o : Otp) : Option Nat := (List.range 4).find? fun k => (markSlots o).getD k 0 == 0

/-- The fuses of a mark: TGT, then TGT_N. -/
def markFuses (slot target : Nat) : List Fuse :=
  ((List.range 4).filter fun k => target.testBit k).map (fun k => { field := 2 + slot, bit := k }) ++
  ((List.range 4).filter fun k => !target.testBit k).map (fun k => { field := 2 + slot, bit := 4 + k })

/-- The fuses of CLOSE. -/
def closeFuses (slot : Nat) : List Fuse := (List.range 4).map fun k => { field := 2 + slot, bit := 8 + k }

/-! ## Step 2: the handshake (R70, R422, R426, R453) -/

/-- Uncertainty saturates. -/
def sat32 (n : Nat) : Nat := min n 0xFFFFFFFF

/-- The clockmaker's time recovered from the gondola at a cold or warm start (R453). -/
def recoverClock (nv : Nv) (g : Gondola) (rt : Rt) : Rt :=
  let c := rt.clock
  let base := { c with st := .unset, clockClass := 248, uncertainty := 0xFFFFFFFF, goodRun := 0, missed := 0, pendingStep := none,
                       measured := none, label := none, ppsValid := false, lockedSecs := 0, holdSecs := 0 }
  match nv.align.getLast? with
  | none => { rt with clock := { base with sec := 0, ns := 0 } }
  | some a =>
    let k := { base with freqCorr := a.freqCorr, discHours := a.discHours, utcOffset := a.utcOffset }
    if g.countRestarted then { rt with clock := { k with sec := a.t0Sec, ns := a.t0Ns } }
    else
      let dg := (gonNow g rt.now - a.g0).toNat
      let ns := a.t0Ns + dg % 32768 * 1000000000 / 32768
      let k := { k with sec := (a.t0Sec + dg / 32768 + ns / 1000000000) % 2 ^ 48, ns := ns % 1000000000 }
      { rt with clock := if a.st = .unset then k
                         else { k with st := .recovered, uncertainty := sat32 (a.u0 + 31000 + 20000 * dg / 32768) } }

/-- The handshake: GLINK_UE, or the tamper flag's halt with the root cleared again; the other rows follow the decode. The
gondola's count is what it reports, and its episode number is at least the burned count (R70, R422, R426). -/
def handshake (e : StartEnv) (s : State) : State :=
  if !e.glinkOk then ripLine { code := 0x16, site := 0, detA := false, detB := false } s
  else
    let g := { s.gon with
      count := BitVec.ofNat 48 e.count - BitVec.ofNat 48 (s.rt.now * 32768 / 1000000000)
      countRestarted := s.gon.countRestarted || e.countRestarted
      episode := max s.gon.episode s.otp.tamperCnt }
    let s := { s with gon := g, rt := if s.rt.boot.lastReset = 2 then s.rt else recoverClock s.nv g s.rt }
    if g.tamperFlag then { s with gon := { g with root := 0, rootCheck := 0 }, rt := haltService 0x81 s.rt } else s

/-! ## Step 4: decode and burns -/

/-- Erase a root deliberately: the gondola clears it, with no flag, count or TAMPER_OUT_N (R95). -/
def eraseRoot (s : State) : State := { s with gon := { s.gon with root := 0, rootCheck := 0 } }

/-- Burn the nibble of a target, LC_T half before LC_C half (R99, R103). -/
def burnTarget (target : Nat) (b : Burning) : Burning :=
  (burnList (b.s.gon.root == 0) (nibFuses (lcNibble target)) { b with s := { b.s with otp := { b.s.otp with lastBurnFail := false } } }).1

/-- The burn that step 4 finds pending: an open mark's, whose CLOSE is burned even after a fuse that does not take its pulses, or the
pending register's, which is cleared as it begins (R94, R99, R100, R102). -/
def pendingBurn (b : Burning) : Burning :=
  match openSlot b.s.otp with
  | some (k, t) =>
    let b := if t ≠ 4 ∧ b.s.gon.root ≠ 0 then { b with s := eraseRoot b.s } else b
    (burnList true (closeFuses k) (burnTarget t b)).1
  | none =>
    match b.s.rt.lc.pendingTarget with
    | some t => burnTarget t.toNat { b with s := onRt (fun rt => { rt with lc := { rt.lc with pendingTarget := none } }) b.s }
    | none => b

/-- Every unburned bit of the seed and its check word (R104). -/
def seedFuses : List Fuse :=
  (List.range 256).map (fun k => { field := 8, bit := k }) ++ (List.range 32).map (fun k => { field := 9, bit := k })

/-- At a start that decodes SCRAPPED the seed field and check word are burned out; the failed fuses are recorded (R104). -/
def burnSeed (b : Burning) : Burning :=
  if b.cut then b
  else
    let r := burnEach b.p seedFuses b.s.otp
    { s := { b.s with otp := { r.1.otp with lastBurnFail := b.s.otp.lastBurnFail || r.2 ≠ [] }
                      rt := r.2.foldl (fun rt f => otpBurn f rt) b.s.rt }
      p := r.1.left
      cut := r.1.fin == .cut }

/-- A lost root: one ROOT_LOST_CNT fuse, the gondola's count from zero, and the halt with 82h (R426, Table 4.4). -/
def rootLost (b : Burning) : Burning :=
  let s := { b.s with gon := { b.s.gon with count := 0 - BitVec.ofNat 48 (b.s.rt.now * 32768 / 1000000000), countRestarted := true } }
  let b := if 64 ≤ s.otp.rootLostCnt then { b with s := s }
           else (burnList true [{ field := 7, bit := s.otp.rootLostCnt }] { b with s := s }).1
  { b with s := { b.s with rt := haltService 0x82 b.s.rt } }

/-- The rows of Table 4.4 below the tamper flag, by the decoded state; OTP_BURN's stops: 86h for a decode of LOCKED, 85h for another,
but for the seed burn's own, which 87h precedes (R87, R102, R104). `fatal` says that a fatal fault came before the seed burn. -/
def decodeRows (fatal : Bool) (b : Burning) : Burning :=
  let lc := b.s.rt.boot.lcState
  let on := fun (f : State → State) => { b with s := f b.s }
  let stop := fun (c : BitVec 8) (s : State) => onRt (stopAt c) s
  let rest := fun (s : State) => if s.rt.boot.stage = 0x80 ∨ inFatal s.rt then s else stop 0x83 s
  if inTamperHalt b.s.rt then b
  else if lc = 0x04 then
    if b.s.gon.root = 0 ∨ b.s.gon.rootCheck ≠ BitVec.ofNat 32 (crc32c (le 32 b.s.gon.root.toNat)) then
      if inFatal b.s.rt then b else rootLost b
    else b
  else if lc = 0x03 ∨ lc = 0x00 ∨ lc = 0x01 ∨ lc = 0x02 then on fun s => rest (eraseRoot s)
  else if lc = 0x05 ∨ lc = 0x06 then (if fatal then on eraseRoot else on fun s => stop 0x87 (eraseRoot s))
  else on fun s => stop 0x86 (eraseRoot s)

/-- The state that the fuses decode to, shown in the boot status; an accepted transition has had its burn. -/
def showDecode (s : State) : State :=
  onRt (fun rt => { rt with boot := { rt.boot with lcState := lcDecode s.otp }, lc := { rt.lc with accepted := none } }) s

/-- Step 4: the count of an uncounted episode, any pending burn, the decode, the seed burn of SCRAPPED, and Table 4.4's rows. It runs in
every outcome of the handshake. The rip line stops a burn after the fuse in progress, and the decode follows; with main power the
start ends (R97 to R104). -/
def lifeCycleStep (e : StartEnv) (s : State) : State :=
  let b := pendingBurn (countEpisode (burning e.pulses s))
  let b := if b.cut then b
    else
      let b := { b with s := showDecode b.s }
      decodeRows (inFatal b.s.rt) (if b.s.rt.boot.lcState = 0x06 then burnSeed b else b)
  if !b.cut then onRt (endStep 4) b.s
  else match cutBy b.p with
    | some _ => onRt (endStep 4) (showDecode (cutState b))
    | none => cutState b

/-! ## Steps 5, 9, 10 -/

/-- A key derived from the user root (13 R272, Table 13.1): SP 800-108 counter mode with HMAC-SHA-384, the ASCII label and the serial. -/
def rootKey (root : BitVec 256) (serial label : Bytes) (bits : Nat) : Bytes := kbkdfHmac (le 32 root.toNat) label serial bits

/-- "WG48 " before a label's own words. -/
def wg48 (l : List Nat) : Bytes := bytesOf ([0x57, 0x47, 0x34, 0x38, 0x20] ++ l)

/-- The keys of Table 13.1; a flash checksum key whose h half derives as zero has h = 1. -/
def rootKeys (root : BitVec 256) (serial : Bytes) : RootKeys :=
  let sum := rootKey root serial (wg48 [0x53, 0x54, 0x4F, 0x52, 0x45, 0x20, 0x53, 0x55, 0x4D]) 128
  { storeEnc := rootKey root serial (wg48 [0x53, 0x54, 0x4F, 0x52, 0x45, 0x20, 0x45, 0x4E, 0x43]) 512
    storeSum := if leAt sum 0 8 = 0 then le 8 1 ++ sum.drop 8 else sum
    memory := rootKey root serial (wg48 [0x4D, 0x45, 0x4D, 0x4F, 0x52, 0x59]) 512
    hbm0 := rootKey root serial (wg48 [0x48, 0x42, 0x4D, 0x20, 0x30]) 256
    hbm1 := rootKey root serial (wg48 [0x48, 0x42, 0x4D, 0x20, 0x31]) 256 }

/-- Keys from a root that lies in the key-derivation block, which zeroes it at the end (R71). -/
def deriveKeys (serial : Bytes) (rt : Rt) : Rt :=
  { rt with strong := { rt.strong with keys := some (rootKeys rt.kdbRoot serial) }, kdbRoot := 0 }

/-- Step 5: the user root passes from the gondola into the key-derivation block, and the keys are derived (R71, R272). -/
def deriveStep (s : State) : State := onRt (fun rt => endStep 5 (deriveKeys s.otp.serial { rt with kdbRoot := s.gon.root })) s

/-- The check value of preset 2 over an image (19 R401). -/
def imageTally (d : Bytes) : Nat := crc 64 0x42F0E1EBA9EA3693 (2 ^ 64 - 1) (2 ^ 64 - 1) true true d

/-- The digest of an image copy. -/
def imageDigest (c : ImageCopy) : Bytes := sha384 c.data

/-- What flash returns for a copy: what was stored, but where the row says otherwise. -/
def flashRead (e : StartEnv) (n : Nat) (b : Bool) (c : ImageCopy) : Bytes := (kget e.flash (2 * n + b2n b)).getD c.data

/-- A copy passes its measurement: the tally of what was read matches, and its digest is the one that the image's signature covers
(R73, R401, log 7). -/
def copyGood (c : ImageCopy) (d : Bytes) : Bool := imageTally d == c.tally && sha384 d == c.signed

/-- One image: the copy that this start takes, or the other one with IMAGE_FALLBACK (R73, R74). -/
def measure (e : StartEnv) (n : Nat) (x : Image) (rt : Rt) : Image × Rt :=
  let good := fun (b : Bool) => let c := if b then x.copyB else x.copyA; copyGood c (flashRead e n b c)
  if good x.nextB then ({ x with activeB := x.nextB, failed := false }, rt)
  else if good (!x.nextB) then
    ({ x with activeB := !x.nextB, nextB := !x.nextB, failed := false }, raise (plainEvent .imageFallback [BitVec.ofNat 8 n]) rt)
  else ({ x with failed := true }, rt)

/-- Step 9: the three images; both copies of one failing give the recovery boot (R73, R74). -/
def measureStep (e : StartEnv) (s : State) : State :=
  let a := measure e 1 s.nv.image1 s.rt
  let b := measure e 2 s.nv.image2 a.2
  let c := measure e 3 s.nv.image3 b.2
  let s := { s with nv := { s.nv with image1 := a.1, image2 := b.1, image3 := c.1 }, rt := c.2 }
  let s := onRt (endStep 9) s
  if (a.1.failed || b.1.failed || c.1.failed) && !inFatal s.rt then
    onRt (fun rt => stopAt 0x84 { rt with boot := { rt.boot with recovery := true } }) s
  else s

/-! ## The epoch mark (R76) -/

/-- Raise both copies of the epoch mark to an epoch. -/
def raiseMark (e : Nat) (nv : Nv) : Nv := { nv with epochMark := max nv.epochMark e, epochMarkB := max nv.epochMarkB e }

/-- The epoch that the mark holds: its good copy is the higher. -/
def markOf (nv : Nv) : Nat := max nv.epochMark nv.epochMarkB

/-- The highest of a list. -/
def maxOf (l : List Nat) : Nat := l.foldl max 0

/-- The highest epoch found in the epoch mark and in every record that carries one. -/
def topEpoch (nv : Nv) : Nat :=
  let images := [nv.image1, nv.image2, nv.image3].flatMap fun x => [x.copyA.epoch, x.copyB.epoch]
  maxOf ([nv.epochMark, nv.epochMarkB] ++ nv.journal.map JRec.epoch ++ nv.boothTable.map (fun kv => kv.2.epoch) ++
    nv.progs.map (fun p => max p.since (p.upto.getD 0)) ++ nv.listeners.map (fun kv => kv.2.epoch) ++
    (nv.part.map PartMap.epoch).toList ++ images)

/-- The tile of a slot. -/
def tileOf (slot : Nat) : Nat := slot / 8

/-- The tiles that changes write, once each. -/
def tilesOf (l : List SlotChange) : List Nat := l.foldl (fun a c => addTo (tileOf c.slot) a) []

/-- Write the slots of a record. -/
def applySlots (l : List SlotChange) (m : KMap SlotRec) : KMap SlotRec :=
  l.foldl (fun m c => kput SlotRec.free m c.slot c.after) m

/-- A write of each tile raises its version by one from 1 at the first (R257). -/
def bumpVers (tiles : List Nat) (v : KMap Nat) : KMap Nat := tiles.foldl (fun v t => kset v t (kgetD v t 0 + 1)) v

/-- The change as a peer record carries it (R173). -/
def peerChange (c : SlotChange) : PeerChange := { slot := c.slot, genBefore := c.genBefore, image := slotBytes c.slot c.after }

/-- Insert a record by its pair sequence, once. -/
def bySeq (x : PeerRecord) : List PeerRecord → List PeerRecord
  | [] => [x]
  | y :: l => if x.seq < y.seq then x :: y :: l else if x.seq = y.seq then y :: l else y :: bySeq x l

/-- A committed record is kept, in pair-sequence order, until the twin has applied it (R176, R177). -/
def retainRecord (r : JRec) (p : Pairing) : Pairing :=
  match r.pairSeq with
  | none => p
  | some q => if p.twin.isSome && !r.held then { p with retained := bySeq { seq := q, changes := r.changes.map peerChange } p.retained } else p

/-- Write a record's tiles to both persistent copies, with the ledger entries that are missing, and its retire mark; the
epoch mark rises first, and an own record is kept for the twin (R76, R176, R267, R296). -/
def rollForward (s : State) (r : JRec) : State :=
  let nv := { s.nv with slots := applySlots r.changes s.nv.slots, vers := bumpVers (tilesOf r.changes) s.nv.vers
                        pairing := retainRecord r s.nv.pairing }
  writeEntries r.entries { s with nv := raiseMark r.epoch nv }

/-- Journal recovery: marked records roll forward in order, every other is discarded (Table 12.7, R75, R268). -/
def recoverJournal (s : State) : State :=
  let todo := s.nv.journal.filter fun r => r.marked && !r.retired
  let s := todo.foldl rollForward s
  { s with nv := { s.nv with journal := [] } }

/-- Step 10: recovery, then the epoch one above the highest found in flash (R76). -/
def recoveryStep (s : State) : State :=
  let top := topEpoch s.nv
  let s := recoverJournal { s with nv := raiseMark (maxOf (s.nv.journal.map JRec.epoch)) s.nv }
  onRt (fun rt => endStep 10 { rt with epoch := top + 1 }) s

/-! ## Step 11: the map and the seal -/

/-- The ring windows' lengths (R119): 64 or 48 bytes an entry, and 32. -/
def sqBytes (c : BoothCfg) : Nat := 2 ^ c.sqLog2 * (if c.fmt = 1 then 48 else 64)
def cqBytes (c : BoothCfg) : Nat := 2 ^ c.cqLog2 * 32

/-- The host read regions of a booth: its submission ring, marked, and the windows that the module reads (R119, R406). -/
def readRegions (c : BoothCfg) : List Region :=
  let r := fun (a z : Nat) (ring : Bool) =>
    ({ start := a, stop := z, perm := 1, initiators := 0, house := c.house, pasid := some c.pasid, ring := ring, mailbox := false } : Region)
  r c.sqIova (c.sqIova + sqBytes c - 1) true :: (c.windows.filter Window.rd).map fun w => r w.start w.stop false

/-- The host write regions of a booth: its completion ring, marked, and the windows that the module writes. -/
def writeRegions (c : BoothCfg) : List Region :=
  let r := fun (a z : Nat) (ring : Bool) =>
    ({ start := a, stop := z, perm := 2, initiators := 0, house := c.house, pasid := some c.pasid, ring := ring, mailbox := false } : Region)
  r c.cqIova (c.cqIova + cqBytes c - 1) true :: (c.windows.filter Window.wr).map fun w => r w.start w.stop false

/-- A program's region entries in a room's bridle: reads and writes by the room's own island (R218, 20 worked example). -/
def programRegions (room : Nat) (p : ProgEntry) : List Region :=
  p.window.map fun w => { start := roomByte w.1, stop := roomByte w.2 + 3, perm := 3, initiators := BitVec.ofNat 64 (2 ^ roomIsland room),
                          house := p.house, pasid := none, ring := false, mailbox := false }

/-- The bridles that serve neither a counting room nor the host: the boot monitor writes each its fixed regions (R79). -/
def fixedBridles : List Nat := (List.range 38).filter fun b => !(decide (b < 4) || decide (14 ≤ b ∧ b < 18))

/-- The map of every bridle: the fixed regions (log 13), the rooms' from the program table, the host's from the booth table (R79, R415). -/
def mapTables (nv : Nv) : KMap (List Region) :=
  let fixed := fixedBridles.foldl (fun m b => kput [] m b (Config.fixedRegions b)) []
  let rooms := (List.range 8).foldl (fun m k => kput [] m (roomBridle k) (nv.progs.flatMap (programRegions k))) fixed
  kput [] (kput [] rooms 38 (nv.boothTable.flatMap fun kv => readRegions kv.2)) 39 (nv.boothTable.flatMap fun kv => writeRegions kv.2)

/-- Step 11: every bridle's regions from the booth table and the program table, the fabric permutation drawn from CD0's mint and loaded, and the
seal (R63, R79, R413). The step waits while the mint cannot serve. -/
def sealStep (s : State) : State :=
  match drawNow 0 8 s.rt with
  | none => s
  | some (p, rt) =>
    { s with rt := endStep 11 { rt with
        fabricPerm := some p
        bridles := { rt.bridles with tables := mapTables s.nv }
        boot := { rt.boot with isSealed := true } } }

/-! ## Tiles (R80, R257 to R260, R270) -/

/-- Tiles of the strongroom, and of its reserved range (12). -/
def allTiles : Nat := 4194304
def reservedTiles : Nat := 1024

/-- A tile is in HBM. -/
def tileResident (rt : Rt) (t : Nat) : Bool :=
  rt.strong.indexLoaded && (decide (t < rt.strong.nextTile) || decide (t ∈ rt.strong.extra))

/-- A TILE_CHECK event: the place, the tile and its version; the count is the tile's (R259, R260). -/
def tileEvent (place t : Nat) (rt : Rt) : Rt :=
  raise { source := .tileCheck, scope := t, island := some 49, booth := none,
          detail := [BitVec.ofNat 8 place] ++ le 3 t ++ le 4 (kgetD rt.strong.vers t 0), houseProg := false } rt

/-- What flash returned for a copy of a tile fails its check under the flash checksum key. A tile that nothing has written is not read
from flash (R428). -/
def flashBad (rt : Rt) (t : Nat) (r : Option TileImage) : Bool :=
  match r, rt.strong.keys with
  | some x, some k => kgetD rt.strong.vers t 0 != 0 && tileBad (sumKey k.storeSum) t x
  | _, _ => false

/-- Load one tile from its two copies, each as flash returned it, or as it was stored: a bad first copy falls back and is rewritten; with
both bad the tile is failed (Table 12.6, R270). Every mismatch is an event of its own (R259). -/
def loadTile (t : Nat) (r1 r2 : Option TileImage) (rt : Rt) : Rt :=
  if !flashBad rt t r1 then rt
  else
    let rt := tileEvent 2 t rt
    if !flashBad rt t r2 then raise (plainEvent .tileFallback (le 4 t)) rt
    else
      let rt := tileEvent 3 t rt
      { rt with strong := { rt.strong with failed := addTo t rt.strong.failed } }

/-- The strongroom is being loaded. -/
def loading (rt : Rt) : Bool := rt.strong.indexLoaded && !rt.boot.resident && !inTamperHalt rt && mainPower rt

/-- The tiles that a locksmith request or a commit waits for (R80). -/
def wantedTiles (rt : Rt) : List Nat :=
  rt.strong.reqs.map (fun r => tileOf (bitsAt r.handle.toNat 0 25)) ++
  (rt.bundles.filter fun kv => kv.2.closed && !kv.2.committed && kv.2.failed.isNone).flatMap fun kv => tilesOf kv.2.changes

/-- A demand load is outstanding. -/
def demanded (rt : Rt) : Bool := (wantedTiles rt).any fun t => decide (t < allTiles) && !tileResident rt t

/-- BACKGROUND_TILE_LOAD: the next tile in ascending order, unless a demand load is outstanding, which is served first; after the last
STRONGROOM_RESIDENT is set (R80). -/
def doBackgroundTileLoad (r1 r2 : Option TileImage) (rt : Rt) : Rt :=
  if loading rt && !demanded rt then
    let t := rt.strong.nextTile
    let rt := if t ∈ rt.strong.extra then rt else loadTile t r1 r2 rt
    let rt := { rt with strong := { rt.strong with nextTile := t + 1, extra := rt.strong.extra.filter (· ≠ t) } }
    if t + 1 = allTiles then { rt with boot := { rt.boot with resident := true } } else rt
  else rt

/-- BACKGROUND_TILE_LOAD. -/
def execBackgroundTileLoad (r1 r2 : Option TileImage) (s : State) : Res := .next (onRt (doBackgroundTileLoad r1 r2) s)

/-- DEMAND_LOAD: a tile that a locksmith needs is loaded ahead of the background (R80). -/
def doDemandLoad (t : Nat) (r1 r2 : Option TileImage) (rt : Rt) : Rt :=
  if loading rt && decide (t < allTiles) && !tileResident rt t then
    let rt := loadTile t r1 r2 rt
    { rt with strong := { rt.strong with extra := addTo t rt.strong.extra } }
  else rt

/-- DEMAND_LOAD. -/
def execDemandLoad (t : Nat) (r1 r2 : Option TileImage) (s : State) : Res := .next (onRt (doDemandLoad t r1 r2) s)

/-! ## Steps 12 and 13 -/

/-- Load the reserved tiles, in ascending order: those that flash did not return as they were stored decide what happens (R270). -/
def loadReserved (e : StartEnv) (rt : Rt) : Rt :=
  ((List.range reservedTiles).filter fun t => (kget e.tiles1 t).isSome).foldl (fun r t => loadTile t (kget e.tiles1 t) (kget e.tiles2 t) r) rt

/-- Step 12: with the per-boot tile key, a key-grade request to CD0's mint (R345), the index and the reserved tiles are
loaded and background loading begins (R270). Until the key comes the step waits. -/
def strongroomStep (e : StartEnv) (s : State) : State :=
  match takeDelivered 0 userTileKey s.rt with
  | none => onRt (askKeyGrade 0 userTileKey 16) s
  | some (k, rt) =>
    let rt := loadReserved e { rt with strong := { rt.strong with
        tileKey := some k
        slots := s.nv.slots
        vers := s.nv.vers
        indexLoaded := true
        nextTile := reservedTiles } }
    { s with rt := endStep 12 rt }

/-- A booth as it is created: rings at zero, the phase of a new booth, unopened (R81, R137). -/
def newBooth (c : BoothCfg) : Booth :=
  { cfg := c, oldWindows := [], sqTail := 0, cqHead := 0, fetchHead := 0, cqTail := 0, cqUnread := 0, phase := true, fetchStopped := false,
    version := none, heldOpen := none, openBundle := none, unsignalled := 0, coalRunning := false, counted := c.share,
    closing := false, closeDone := 0, closeAborted := 0, closeDiscarded := 0 }

/-- The loom that the peer link holds, as a unit (R170). -/
def heldLoom (rt : Rt) : Option Nat := if rt.peer.mode then some (if Config.peerLoomHigh then 7 else 6) else none

/-- A stored partition map as it takes force: it binds the loom that the link holds to no house (R170). -/
def withoutHeld (rt : Rt) (m : PartMap) : PartMap :=
  match heldLoom rt with
  | none => m
  | some u => { m with looms := kdel m.looms u }

/-- Step 13: booths re-created from the booth table; an entry whose check fails is not, and raises BOOTH_TABLE (R81). The
partition map is loaded. -/
def boothStep (e : StartEnv) (s : State) : State :=
  let bad := (kkeys s.nv.boothTable).filter fun b => decide (b ∈ e.badBooths)
  let good := s.nv.boothTable.filter fun kv => !decide (kv.1 ∈ e.badBooths)
  let rt := { s.rt with
    booths := good.map fun kv => (kv.1, newBooth kv.2)
    disp := { s.rt.disp with part := s.nv.part.map (withoutHeld s.rt) }
    boot := { s.rt.boot with notRecreated := bad } }
  let rt := bad.foldl (fun rt b => raise { source := .boothTable, scope := 0, island := none, booth := some b, detail := [],
                                           houseProg := false } rt) rt
  { s with rt := endStep 13 rt }

/-! ## The rows -/

/-- The module is starting up: main power, PERST# released, no stop that ends start-up. The hold of R30 runs the steps up
to the decode, a halt found at the handshake too (R101); BOOT_STAGE 83h runs the dies' steps and the measurement. -/
def starting (rt : Rt) (n : Nat) : Bool :=
  mainPower rt && !rt.power.powerFail && !rt.power.perst &&
  (if rt.boot.stage = 0x80 ∨ rt.boot.auxLow ∨ inTamperHalt rt then decide (n ≤ 4)
   else if rt.boot.stage = 0x83 then decide (n = 6 ∨ n = 9)
   else decide (rt.boot.stage.toNat < 0x80))

/-- START_UP: one step of Table 4.1 when what it waits for has ended (R68). Steps 1 and 6 ask for islands and end with
the last ISLAND_READY; steps 7, 8 and 14 have rows of their own. -/
def doStartUp (n : Nat) (e : StartEnv) (s : State) : State :=
  if !(starting s.rt n && stepReady s.rt n && !stepDone s.rt n) then s
  else match n with
    | 1 => onRt (fun rt => (List.range 22).foldl (fun r k => askStart (36 + k) r) rt) s
    | 2 => onRt (endStep 2) (handshake e s)
    | 3 => onRt (endStep 3) (if s.rt.boot.lastReset = 2 then handshake e s else s)
    | 4 => lifeCycleStep e s
    | 5 => deriveStep s
    | 6 => onRt (fun rt => wakeDie 1 (wakeDie 0 rt)) s
    | 9 => measureStep e s
    | 10 => recoveryStep s
    | 11 => sealStep s
    | 12 => strongroomStep e s
    | 13 => boothStep e s
    | _ => s

/-- START_UP. -/
def execStartUp (n : Nat) (e : StartEnv) (s : State) : Res := .next (doStartUp n e s)

/-- The alignment record of the clockmaker's present time (R453), and the count no longer restarted. -/
def alignNow (s : State) : State :=
  let c := s.rt.clock
  let a : Alignment := { g0 := gonNow s.gon s.rt.now, t0Sec := c.sec, t0Ns := c.ns, u0 := c.uncertainty, st := c.st,
                         freqCorr := c.freqCorr, discHours := c.discHours, utcOffset := c.utcOffset }
  { s with nv := { s.nv with align := s.nv.align ++ [a] }, gon := { s.gon with countRestarted := false } }

/-- SERVICE_READY: both dies' masks are seeded and the booths re-created; the bits, the time since the start, the count of
a module reset, the listeners, and an alignment record (R69, R83, R453, R472). -/
def doServiceReady (s : State) : State :=
  if starting s.rt 14 && stepReady s.rt 14 && !s.rt.boot.serviceReady && !inFatal s.rt then
    let s := onRt (fun rt =>
      let rt := stopAt 0x0C rt
      { rt with
        boot := { rt.boot with serviceReady := true, srTime := min 0xFFFFF ((rt.now - rt.boot.startAt) / 1000),
                               stepsDone := addTo 14 rt.boot.stepsDone }
        net := { rt.net with listening := true } }) s
    alignNow s
  else s

/-- SERVICE_READY. -/
def execServiceReady (s : State) : Res := .next (doServiceReady s)

end Sys2Proof.Machine
end

