-- ==== Sys2Proof/Machine/Opcodes.lean ====
section
/-! DEFINITION. The opcode space (17 Tables 17.1, 17.2, 17.5; 18 Table 18.1): which opcodes a protocol version defines, the
form of each, and the key handles it uses. -/

namespace Sys2Proof.Machine

/-- Inline, Buffer or Either (18 R374). -/
inductive Form where
  | inlineOnly | buffer | either
  deriving DecidableEq, Repr

/-- What the tables say of an opcode: whether version 2 has it, its form, and which handle fields it uses. -/
structure OpInfo where
  v2 : Bool
  form : Form
  k1 : Bool
  k2 : Bool
  deriving DecidableEq, Repr

/-- One row of an opcode table. -/
def opRow (v2 : Bool) (form : Form) (k1 k2 : Bool) : Option OpInfo := some { v2 := v2, form := form, k1 := k1, k2 := k2 }

/-- The library's opcodes; house programs are not among them. -/
def opInfo (op : Nat) : Option OpInfo :=
  match op with
  | 0x0001 => opRow true .inlineOnly false false
  | 0x0002 => opRow true .either false false
  | 0x0003 => opRow false .either false false
  | 0x0010 => opRow false .either true false
  | 0x0011 => opRow false .either true false
  | 0x0012 => opRow false .buffer true true
  | 0x0013 => opRow false .either true false
  | 0x0014 => opRow false .either true true
  | 0x0015 => opRow false .buffer true false
  | 0x0016 => opRow false .buffer true false
  | 0x0100 => opRow true .either true true
  | 0x0101 => opRow true .buffer true true
  | 0x0102 => opRow true .buffer true true
  | 0x0110 => opRow true .inlineOnly true false
  | 0x0111 => opRow true .buffer true false
  | 0x0120 => opRow true .buffer true false
  | 0x0121 => opRow true .buffer true false
  | 0x0122 => opRow true .buffer true true
  | 0x0130 => opRow false .buffer true false
  | 0x0131 => opRow false .buffer true true
  | 0x0140 => opRow true .buffer true false
  | 0x0141 => opRow true .buffer true false
  | 0x0150 => opRow false .inlineOnly true false
  | 0x0151 => opRow false .inlineOnly true false
  | 0x0160 => opRow false .buffer true false
  | 0x0161 => opRow false .buffer true true
  | 0x0162 => opRow true .inlineOnly true false
  | 0x0170 => opRow false .buffer true false
  | 0x0171 => opRow false .buffer true false
  | 0x0200 => opRow true .buffer true false
  | 0x0201 => opRow true .buffer true false
  | 0x0202 => opRow false .buffer true false
  | 0x0203 => opRow false .buffer true false
  | _ => none

/-- A house program opcode (R360). -/
def isHouseOp (op : Nat) : Bool := decide (0x8000 ≤ op ∧ op < 0x9000)

/-- The opcode is defined in a version, for a house at an epoch (R359, R360, R375). -/
def opListed (progs : List ProgEntry) (version house op epoch : Nat) : Bool :=
  if isHouseOp op then version == 3 && (progFor progs house op epoch).isSome
  else match opInfo op with
    | none => false
    | some x => version == 3 || (version == 2 && x.v2)

/-- Check 4 of Table 7.4: OPEN and ATTEST before a version is negotiated, afterwards the version's opcodes. -/
def opAllowed (progs : List ProgEntry) (version : Option Nat) (house op epoch : Nat) : Bool :=
  match version with
  | none => op == 1 || op == 2
  | some v => opListed progs v house op epoch

/-- Check 5: each handle field is zero exactly when the opcode uses no such key; a house program decides its own (R360). -/
def handlesOk (op : Nat) (k1 k2 : BitVec 64) : Bool :=
  match opInfo op with
  | none => true
  | some x => (k1 != 0) == x.k1 && (k2 != 0) == x.k2

/-- The INLINE flag fits the form (R374). -/
def formOk (op : Nat) (inl : Bool) : Bool :=
  match opInfo op with
  | none => true
  | some x => match x.form with
    | .inlineOnly => inl
    | .buffer => !inl
    | .either => true

/-- OPEN, ATTEST and TIME_TOKEN may not be bundle members (R356, R361). -/
def aloneOnly (op : Nat) : Bool := decide (1 ≤ op ∧ op ≤ 3)

/-- The greatest output length limit of a descriptor (Table 7.1): FFFFFFFFh for loom decryption in a booth with
STREAMING_RELEASE. -/
def outLimMax (op : Nat) (streaming : Bool) : Nat := if op = 0x0171 ∧ streaming then 0xFFFFFFFF else 16777216

end Sys2Proof.Machine
end

