-- ==== Sys2Proof/Machine/Rings.lean ====
section
/-! DEFINITION. Rings, descriptors and doorbells (07), the completion entry, MSI-X coalescing (06 R113, R114), and the loss
of the host link (06 R125). -/

namespace Sys2Proof.Machine

/-! ## Doorbells (R126 to R128) -/

/-- PT acts on a booth's doorbell page: the host reaches the module, the map is sealed, the booth is open and not closing
(R19, R79, R112). -/
def doorbellLive (rt : Rt) (x : Booth) : Bool := hostReaches rt && rt.boot.isSealed && !x.closing

/-- DOORBELL_INVALID: booth-attributed, naming the register and the value written (R127, R435). -/
def badDoorbell (b reg v : Nat) (rt : Rt) : Rt :=
  raise { source := .doorbellInvalid, scope := 0, island := some 37, booth := some b,
          detail := BitVec.ofNat 8 reg :: le 2 v, houseProg := false } rt

/-- SQ_TAIL_WRITE: the low 16 bits become SQ_TAIL unless they are out of range (R112, R127). -/
def doSqTailWrite (b : Nat) (v : BitVec 32) (rt : Rt) : Rt :=
  match boothOf rt b with
  | none => rt
  | some x =>
    let w := v.toNat % 2 ^ 16
    if !doorbellLive rt x then rt
    else if 2 ^ x.cfg.sqLog2 ≤ w then badDoorbell b 0 w rt
    else setBooth b { x with sqTail := w } rt

/-- SQ_TAIL_WRITE. -/
def execSqTailWrite (b : Nat) (v : BitVec 32) (s : State) : Res := .next (onRt (doSqTailWrite b v) s)

/-- CQ_HEAD_WRITE: moves CQ_HEAD over entries that the module has written; a value out of range, or past the completion
tail, is ignored with the fault (R127). A value equal to CQ_HEAD moves it by nothing (log 26). -/
def doCqHeadWrite (b : Nat) (v : BitVec 32) (rt : Rt) : Rt :=
  match boothOf rt b with
  | none => rt
  | some x =>
    let w := v.toNat % 2 ^ 16
    let n := 2 ^ x.cfg.cqLog2
    let moved := (w + n - x.cqHead) % n
    if !doorbellLive rt x then rt
    else if n ≤ w ∨ x.cqUnread < moved then badDoorbell b 1 w rt
    else setBooth b { x with cqHead := w, cqUnread := x.cqUnread - moved } rt

/-- CQ_HEAD_WRITE. -/
def execCqHeadWrite (b : Nat) (v : BitVec 32) (s : State) : Res := .next (onRt (doCqHeadWrite b v) s)

/-! ## Descriptors (R130 to R133) -/

/-- A format 2 descriptor (Table 7.1). -/
def desc2 (e : Bytes) : Desc :=
  { fmt := e.getD 0 0, flags := e.getD 1 0, opcode := BitVec.ofNat 16 (leAt e 2 2), tag := BitVec.ofNat 32 (leAt e 4 4),
    key1 := BitVec.ofNat 64 (leAt e 8 8), key2 := BitVec.ofNat 64 (leAt e 16 8),
    inIova := BitVec.ofNat 64 (leAt e 24 8), inLen := BitVec.ofNat 32 (leAt e 32 4),
    outLim := BitVec.ofNat 32 (leAt e 36 4), outIova := BitVec.ofNat 64 (leAt e 40 8), inl := padTo 14 (slice e 48 14),
    prio := e.getD 62 0, rsv := e.getD 63 0 }

/-- A format 1 descriptor (Table 7.3); its inline parameters come with the input. -/
def desc1 (e : Bytes) : Desc :=
  { fmt := e.getD 0 0, flags := e.getD 1 0, opcode := BitVec.ofNat 16 (leAt e 2 2), tag := BitVec.ofNat 32 (leAt e 4 4),
    key1 := BitVec.ofNat 64 (leAt e 8 8), key2 := BitVec.ofNat 64 (leAt e 16 8),
    inIova := BitVec.ofNat 64 (leAt e 24 8), inLen := BitVec.ofNat 32 (leAt e 40 4),
    outLim := BitVec.ofNat 32 (leAt e 44 2), outIova := BitVec.ofNat 64 (leAt e 32 8), inl := zeros 14,
    prio := e.getD 46 0, rsv := e.getD 47 0 }

/-- The descriptor of a booth's format. -/
def descOf (fmt : Nat) (e : Bytes) : Desc := if fmt = 1 then desc1 e else desc2 e

/-- What the checks of a descriptor need to know of where it came from: the format expected, the version, the house, the
streaming flag, whether tallies may be used, the preset, the epoch, and the body length of a session's request. -/
structure DescCtx where
  fmt : Nat
  version : Option Nat
  house : Nat
  streaming : Bool
  tallies : Bool
  preset : Preset
  epoch : Nat
  body : Option Nat
  deriving DecidableEq, Repr

/-- The substitutions of R165 for a session: no host addresses, the input length of the body, the output limit. -/
def bodyOk (body : Option Nat) (d : Desc) : Bool :=
  match body with
  | none => true
  | some n => d.inIova == 0 && d.outIova == 0 && decide (d.inLen.toNat + 64 = n) &&
      decide (d.outLim.toNat ≤ if isInline d then 16 else 1048576)

/-- Checks 2 to 8 of Table 7.4 in order, with the form of R374 at check 6 and the bundle bar of R356 and R361; none when
all pass. `member` tells whether the marking makes the descriptor a bundle member. -/
def checkDesc (progs : List ProgEntry) (x : DescCtx) (member : Bool) (d : Desc) : Option Nat :=
  let op := d.opcode.toNat
  let inl := isInline d
  if d.fmt.toNat ≠ x.fmt then some stVersionUnsupported
  else if 0x40 ≤ d.flags.toNat ∨ d.rsv ≠ 0 ∨ 8 ≤ d.prio.toNat then some stMalformed
  else if !opAllowed progs x.version x.house op x.epoch then some stMalformed
  else if !handlesOk op d.key1 d.key2 then some stMalformed
  else if !formOk op inl || (aloneOnly op && member) then some stMalformed
  else if inl && (d.outIova ≠ 0 || decide (16 < d.outLim.toNat) || hasTallyIn d || hasTallyOut d ||
      (if x.fmt = 1 then d.inLen != 16 else d.inIova != 0 || d.inLen != 0)) then some stMalformed
  else if (hasTallyIn d || hasTallyOut d) && !x.tallies then some stMalformed
  else if hasTallyIn d && (decide (d.inLen.toNat < tallyWidth x.preset) || decide (65536 < d.inLen.toNat)) then
    some stMalformed
  else if x.fmt = 1 ∧ d.inLen.toNat < 16 then some stMalformed
  else if 2 ^ 64 < d.inIova.toNat + d.inLen.toNat ∨ 2 ^ 64 < d.outIova.toNat + d.outLim.toNat ∨
      outLimMax op x.streaming < d.outLim.toNat then some stMalformed
  else if !bodyOk x.body d then some stMalformed
  else none

/-! ## The state check, stage 3 (17 Table 17.14) -/

/-- The status with which the module's state refuses an opcode, with its inline result: tamper halt, a fatal fault, an
erase or a first copy to this module under way, or start-up, which serves OPEN and ATTEST alone. -/
def cmdRefusal (rt : Rt) (op : Nat) : Option (Nat × Bytes) :=
  if inTamperHalt rt then some (stTamperHalt, zeros 16)
  else if inFatal rt then some (stDeviceFault, zeros 16)
  else if rt.boot.erasing || rt.peer.copying then some (stStateRefused, stateRes rt)
  else if rt.boot.serviceReady && rt.boot.stage == 0x0C then none
  else if op = 1 ∨ op = 2 then none
  else some (stStateRefused, stateRes rt)

/-! ## Commands and bundle marking (R144) -/

/-- A new command at stage 2. -/
def newCmd (id booth : Nat) (session : Option Nat) (ringIdx : Nat) (d : Desc) (epoch preset : Nat) : Cmd :=
  { id := id, booth := booth, session := session, ringIdx := ringIdx, desc := d, input := [], inputDone := false,
    prefixed := d.fmt == 1, stage := .fetched, admitted := false, admitSeq := 0, endSeq := 0, streaming := false, epoch := epoch, die := 0, level := 0, bundle := none, grouped := false,
    member := 0, fence := dflag d 2, preset := preset, resvWait := false, resv := 0, drain := false, output := [],
    result := zeros 16, outLen := 0, status := 0, reason := 0, trapped := none, withheld := false, direct := 0, scrubbed := false,
    discard := false, retired := false, keyLoaded := false, reads := [] }

def markFirst (d : Desc) : Bool := dflag d 0
def markMore (d : Desc) : Bool := dflag d 1

/-- A bundle as its first member opens it. -/
def newBundle (id booth : Nat) (single : Bool) : Bundle :=
  { id := id, booth := booth, members := [], closed := false, failed := none, committed := false, next := 0,
    changes := [], reads := [], entries := [], first := none, record := none, single := single }

/-- The marking of the next descriptor, given the open bundle's member count: whether it belongs to a bundle, whether it
fails check 9, and whether a bundle stays open after it. -/
structure Marking where
  member : Bool
  bad : Bool
  stays : Bool
  deriving DecidableEq, Repr

/-- Check 9 of Table 7.4 and the membership rule of R144. -/
def marking (inBundle : Option Nat) (d : Desc) : Marking :=
  match inBundle with
  | some k =>
    let bad := markFirst d || (decide (15 ≤ k) && markMore d)
    { member := true, bad := bad, stays := markMore d && !bad }
  | none =>
    if markFirst d && markMore d then { member := true, bad := false, stays := true }
    else { member := false, bad := markFirst d || markMore d, stays := false }

/-- Put a command into the open bundle, opening one when none is; the bundle's number comes back while it stays open. -/
def joinBundle (openB : Option Nat) (m : Marking) (c : Cmd) (rt : Rt) : Rt × Option Nat :=
  if !m.member then ({ rt with cmds := kset rt.cmds c.id c }, none)
  else
    let r : Nat × Bundle × Rt :=
      match openB.bind fun u => (kget rt.bundles u).map fun x => (u, x) with
      | some (u, x) => (u, x, rt)
      | none =>
        let u := rt.disp.nextBundle
        (u, newBundle u c.booth false, { rt with disp := { rt.disp with nextBundle := u + 1 } })
    let x := { r.2.1 with members := r.2.1.members ++ [c.id], closed := !m.stays }
    let c := { c with bundle := some r.1, grouped := true, member := r.2.1.members.length }
    ({ r.2.2 with cmds := kset r.2.2.cmds c.id c, bundles := kset r.2.2.bundles r.1 x }, if m.stays then some r.1 else none)

/-- How many members the open bundle has. -/
def openCount (rt : Rt) (u : Option Nat) : Option Nat := u.bind fun v => (kget rt.bundles v).map fun x => x.members.length

/-- A bundle that has just been closed and holds a failed member settles (R145, R148). -/
def settleOf (c : CmdId) (rt : Rt) : Rt :=
  match (kget rt.cmds c).bind Cmd.bundle with
  | some u => settleBundle u rt
  | none => rt

/-- Take one descriptor into the module: the checks of stage 2, the marking, and stage 3; a failing command ends at once. In
tamper halt every descriptor meets TAMPER_HALT whatever the checks of stage 2 find (R16, R418). The open bundle after it
comes back. -/
def takeDesc (progs : List ProgEntry) (ctx : DescCtx) (openB : Option Nat) (c : Cmd) (rt : Rt) : Rt × Option Nat :=
  let m := marking (openCount rt openB) c.desc
  let r := joinBundle openB m c rt
  let fail := fun st res (rt : Rt) => settleOf c.id (failCmd c.id st res rt)
  if inTamperHalt rt then (fail stTamperHalt (zeros 16) r.1, r.2)
  else match checkDesc progs ctx m.member c.desc with
  | some st => (fail st (zeros 16) r.1, r.2)
  | none =>
    if m.bad then (fail stMalformed (zeros 16) r.1, r.2)
    else
      match cmdRefusal rt c.desc.opcode.toNat with
      | some (st, res) => (fail st res r.1, r.2)
      | none => (settleOf c.id r.1, r.2)

/-! ## Fetch (R129, R145, R357) -/

/-- Fetched ring commands of a booth without a posted completion, and written entries not released (R129). -/
def cqClaimed (rt : Rt) (b : Nat) (x : Booth) : Nat :=
  (rt.cmds.filter fun kv => kv.2.booth = b && kv.2.session.isNone).length + x.cqUnread

/-- PT may fetch for a booth: its ring is live, not stopped, and no OPEN is outstanding (R125, R134, R357). -/
def ptFetches (rt : Rt) (x : Booth) : Bool :=
  doorbellLive rt x && !rt.link.lost && !x.fetchStopped && x.heldOpen.isNone

/-- Entries waiting in the submission ring (R126). -/
def sqWaiting (x : Booth) : Nat := (x.sqTail + 2 ^ x.cfg.sqLog2 - x.fetchHead) % 2 ^ x.cfg.sqLog2

/-- What the checks need to know of a booth. -/
def boothCtx (rt : Rt) (x : Booth) : DescCtx :=
  { fmt := x.cfg.fmt, version := x.version, house := x.cfg.house, streaming := x.cfg.streaming,
    tallies := x.cfg.ringTally, preset := presetOf rt x.cfg.preset, epoch := rt.epoch, body := none }

/-- Take one submission entry at the fetch head. -/
def takeEntry (progs : List ProgEntry) (b : Nat) (e : Bytes) (rt : Rt) : Rt :=
  match boothOf rt b with
  | none => rt
  | some x =>
    if x.heldOpen.isSome then rt
    else
      let d := descOf x.cfg.fmt e
      let id := rt.disp.nextCmd
      let c := newCmd id b none x.fetchHead d rt.epoch x.cfg.preset
      let rt := { rt with disp := { rt.disp with nextCmd := id + 1 } }
      let r := takeDesc progs (boothCtx rt x) x.openBundle c rt
      let isOpen := d.opcode == 1 && d.fmt.toNat == x.cfg.fmt
      modBooth b (fun x => { x with fetchHead := (x.fetchHead + 1) % 2 ^ x.cfg.sqLog2, openBundle := r.2,
                                    heldOpen := if isOpen then some id else x.heldOpen }) r.1

/-- DESCRIPTOR_FETCH: one read of at most eight consecutive entries, not across the end of the ring, each with a completion
entry reserved; entries behind an OPEN are left for a later read (R129, R357). -/
def doDescriptorFetch (b : Nat) (es : List Bytes) (s : State) : State :=
  match boothOf s.rt b with
  | none => s
  | some x =>
    let n := es.length
    if ptFetches s.rt x && decide (1 ≤ n ∧ n ≤ 8 ∧ n ≤ sqWaiting x ∧ x.fetchHead + n ≤ 2 ^ x.cfg.sqLog2 ∧
        cqClaimed s.rt b x + n ≤ 2 ^ x.cfg.cqLog2) then
      onRt (fun rt => es.foldl (fun r e => takeEntry s.nv.progs b e r) rt) s
    else s

/-- DESCRIPTOR_FETCH. -/
def execDescriptorFetch (b : Nat) (entries : List (List Byte)) (s : State) : Res := .next (doDescriptorFetch b entries s)

/-! ## Input (R135, R143, R398, R400) -/

/-- A mismatch sets MISMATCH, counts, and records the booth of the first (R3, R400). -/
def tallyMismatch (b : Nat) (session : Bool) (rt : Rt) : Rt :=
  let t := rt.tally
  { rt with tally := { t with mismatch := true, cnt := sat8 t.cnt, session := if t.mismatch then t.session else session,
                              booth := if t.mismatch then t.booth else b } }

/-- Verify and strip an appended check value; none on a mismatch (R143, R396). -/
def stripTally (p : Preset) (data : Bytes) : Option Bytes :=
  let m := data.take (data.length - tallyWidth p)
  if tallyBytes p m = data.drop (data.length - tallyWidth p) then some m else none

/-- The bytes that stage 4 reads: the whole input with TALLY_IN, else a format 1 prefix alone; the rest of an input is read
after dispatch (R11, R132). -/
def stage4Bytes (c : Cmd) : Nat :=
  if isInline c.desc && !c.prefixed then 0 else if hasTallyIn c.desc then c.desc.inLen.toNat else if c.prefixed then 16 else 0

/-- Stage 4 ends: the input without its check value, a format 1 prefix moved to the inline parameters (R132); stage 5 checks
the whole output buffer. The input is in the module once stage 4 has read it, or there is none. -/
def inputRead (id : CmdId) (c : Cmd) (data : Bytes) (rt : Rt) : Rt :=
  match (if hasTallyIn c.desc then stripTally (presetOf rt c.preset) data else some data) with
  | none => failWith id stIntegrityFail (tallyMismatch c.booth c.session.isSome rt)
  | some m =>
    let f1 := c.prefixed
    if f1 && (decide (m.length < 16) || !zeroAt m 14 2) then failWith id stMalformed rt
    else if !outputRangeOk rt c rt.epoch then failWith id stAccessRefused rt
    else
      let d := if f1 then { c.desc with fmt := 2, inl := m.take 14 } else c.desc
      modCmd id (fun c => { c with desc := d, input := if f1 then m.drop 16 else m, inputDone := hasTallyIn c.desc || hostInput c == 0, stage := .input }) rt

/-- INPUT_FETCH: the whole input range is checked against the booth's windows, and what stage 4 needs of it is read (R11, R135); the state is checked
again, since a command not yet admitted meets what has changed (R16, R17). -/
def doInputFetch (id : CmdId) (data : Option Bytes) (rt : Rt) : Rt :=
  match kget rt.cmds id with
  | none => rt
  | some c =>
    if c.stage ≠ .fetched ∨ c.session.isSome then rt
    else
      match cmdRefusal rt c.desc.opcode.toNat with
      | some (st, res) => failCmd id st res rt
      | none =>
        let n := stage4Bytes c
        if !inputRangeOk rt c rt.epoch then failWith id stAccessRefused rt
        else if n = 0 then inputRead id c [] rt
        else match data with
          | some d => if d.length = n then inputRead id c d rt else rt
          | none => inputDmaFault c (failWith id stAccessRefused rt)

/-- INPUT_FETCH. -/
def execInputFetch (id : CmdId) (data : Option (List Byte)) (s : State) : Res := .next (onRt (doInputFetch id data) s)

/-! ## Admission (R7, R145, R178 to R180, R197) -/

/-- The admitted commands of a die, handshakes among them; of one house when a partition map is in force. -/
def dieLoad (rt : Rt) (house : Option Nat) (d : Nat) : Nat :=
  let mine := fun b => match house with
    | none => true
    | some h => decide (boothHouse rt b = h)
  (rt.cmds.filter fun kv => kv.2.admitted && !kv.2.retired && decide (kv.2.die = d) && mine kv.2.booth).length +
  (rt.net.conns.filter fun kv => mine kv.2.booth && (match kv.2.st with
    | .ready e => decide (e = d)
    | .handshake e => decide (e = d)
    | .retry e _ => decide (e = d)
    | _ => false)).length

/-- A house has a room on a die by the partition map. -/
def hasRoomOn (m : PartMap) (house d : Nat) : Bool := m.rooms.any fun kv => decide (kv.1 / 4 = d ∧ kv.2 = house)

/-- The die on which a command of a house is placed; none when the house has no room (R24). -/
def placeDie (rt : Rt) (house : Nat) : Option Nat :=
  match rt.disp.part with
  | none => some (if dieLoad rt none 1 < dieLoad rt none 0 then 1 else 0)
  | some m =>
    match hasRoomOn m house 0, hasRoomOn m house 1 with
    | true, true => some (if dieLoad rt (some house) 1 < dieLoad rt (some house) 0 then 1 else 0)
    | true, false => some 0
    | false, true => some 1
    | false, false => none

/-- An earlier command of the same ring or session still waits for its own admission (R138, R180). -/
def earlierWaits (rt : Rt) (c : Cmd) (first : CmdId) : Bool :=
  rt.cmds.any fun kv => decide (kv.2.booth = c.booth ∧ kv.2.session = c.session ∧ kv.1 < first) &&
    (kv.2.stage == .fetched || kv.2.stage == .input)

/-- Commands admitted together enter their die's ready list at one epoch and one level (R145, R184), as one admission; the
booth's STREAMING_RELEASE and tally preset are those of that moment (R15). -/
def admitAll (die level : Nat) (x : BoothCfg) (ids : List CmdId) (rt : Rt) : Rt :=
  let n := rt.disp.nextAdmit
  let rt := ids.foldl (fun r id => modCmd id (fun c => {
    c with admitted := true, admitSeq := n, stage := .admitted, epoch := r.epoch, die := die, level := level,
           streaming := x.streaming, preset := x.preset }) r) rt
  { rt with disp := { rt.disp with ready := rt.disp.ready ++ ids, nextAdmit := n + 1 } }

/-- Stage 6 and 7 for the commands that are admitted together: the first is a lone command or a bundle's member 0. -/
def admitNow (c : Cmd) (ids : List CmdId) (rt : Rt) : Rt :=
  match boothOf rt c.booth with
  | none => rt
  | some x =>
    let lacking := ids.find? fun id => match kget rt.cmds id with
      | none => false
      | some m => !(inputRangeOk rt m rt.epoch && outputRangeOk rt m rt.epoch)
    match lacking with
    | some id => failWith id stAccessRefused rt
    | none =>
      if x.cfg.share = 0 then failWith c.id stAdmissionClosed rt
      else match placeDie rt x.cfg.house with
        | none => failWith c.id stAdmissionClosed rt
        | some d =>
          if x.cfg.share < occupancy rt c.booth + ids.length then failWith c.id stQueueFull rt
          else admitAll d (min (c.desc.prio.toNat % 8) x.cfg.ceiling) x.cfg ids rt

/-- ADMISSION of a command, or of the whole bundle that it belongs to once its last member has arrived. OPEN is not
admitted (R357), but the state check ends it too (R16, R17). The window checks are repeated (R122, R135). -/
def doAdmission (id : CmdId) (rt : Rt) : Rt :=
  match kget rt.cmds id with
  | none => rt
  | some c =>
    if c.stage ≠ .input then rt
    else
      match cmdRefusal rt c.desc.opcode.toNat with
      | some (st, res) => failCmd id st res rt
      | none =>
        if c.desc.opcode = 1 then rt
        else match multiOf rt c with
        | none => if earlierWaits rt c id then rt else admitNow c [id] rt
        | some x =>
          match x.members.head?.bind (kget rt.cmds) with
          | none => rt
          | some m0 =>
            let ready := x.members.all fun i => ((kget rt.cmds i).map Cmd.stage) == some .input
            if x.closed && ready && !earlierWaits rt m0 m0.id then admitNow m0 x.members rt else rt

/-- ADMISSION. -/
def execAdmission (id : CmdId) (s : State) : Res := .next (onRt (doAdmission id) s)

/-! ## The completion entry (R109, R136, R137) -/

/-- PEER_LOST: a peer link is configured and the twin is not paired, or the records of a loss are not all resent (Table 7.6,
R175, R176). -/
def peerLost (s : State) : Bool := s.nv.pairing.mode && s.nv.pairing.twin.isSome && (!s.rt.peer.paired || s.rt.peer.lost)

/-- Byte 7 of a completion entry: the failing member's index under BUNDLE_ABORTED, else a member's own. -/
def memberByte (rt : Rt) (c : Cmd) : Nat :=
  if !c.grouped then 0
  else if c.status = stBundleAborted then
    match (c.bundle.bind (kget rt.bundles)).bind Bundle.failed with
    | some (i, _, _) => i
    | none => c.member
  else c.member

/-- The 32 bytes of a completion entry (Table 7.5). -/
def entryOf (phase lost : Bool) (memb : Nat) (c : Cmd) : Bytes :=
  le 4 c.desc.tag.toNat ++ le 2 c.status ++
  [BitVec.ofNat 8 (b2n phase + 2 * b2n c.grouped + 4 * b2n lost + 8 * b2n c.scrubbed), BitVec.ofNat 8 memb] ++
  le 4 c.outLen ++ le 4 c.epoch ++ padTo 16 (c.result.take 16)

/-- The booth's message goes out; the counter and the timer start again (R114). -/
def sendCoalesced (b : Nat) (rt : Rt) : Rt :=
  match boothOf rt b with
  | none => rt
  | some x => signal x.cfg.vector (setBooth b { x with unsignalled := 0, coalRunning := false } rt)

/-- Count an entry towards the booth's message (R114). -/
def coalesce (b : Nat) (rt : Rt) : Rt :=
  match boothOf rt b with
  | none => rt
  | some x =>
    let n := x.unsignalled + 1
    let rt := setBooth b { x with unsignalled := n, coalRunning := true } rt
    if x.cfg.coalTime = 0 ∨ x.cfg.coalCount ≤ n then sendCoalesced b rt else rt

/-- Write 32 bytes at the completion tail, which advances; the phase turns as it wraps (R136, R137). -/
def writeEntryAt (b : Nat) (mk : Bool → Bytes) (rt : Rt) : Rt :=
  match boothOf rt b with
  | none => rt
  | some x =>
    let rt := emit (.hostWrite (some x.cfg.pasid) (x.cfg.cqIova + 32 * x.cqTail) (mk x.phase) false) rt
    let wraps := x.cqTail + 1 = 2 ^ x.cfg.cqLog2
    let rt := setBooth b { x with cqTail := if wraps then 0 else x.cqTail + 1, phase := if wraps then !x.phase else x.phase,
                                  cqUnread := x.cqUnread + 1 } rt
    coalesce b rt

/-- The host can take output and entries: the link is there (R125). -/
def hostTakes (rt : Rt) : Bool := hostReaches rt && !rt.link.lost

/-- Output that a loom released before its tag failed, or before an abort, is still to be scrubbed (R150, R312). -/
def needsScrub (c : Cmd) : Bool := decide (0 < c.direct) && !c.scrubbed && (c.withheld || c.status != stDone)

/-- Count a completion of a booth that closes (R123). -/
def countClose (c : Cmd) (written : Bool) (rt : Rt) : Rt :=
  let ab := c.status = stAborted ∨ c.status = stBundleAborted
  modBooth c.booth (fun x => if x.closing then
    { x with closeDone := x.closeDone + b2n (!decide ab), closeAborted := x.closeAborted + b2n (decide ab),
             closeDiscarded := x.closeDiscarded + b2n (!written) } else x) rt

/-- What a completion that is posted in tamper halt carries: TAMPER_HALT, whatever the command has come to (R418). -/
def haltedCmd (rt : Rt) (c : Cmd) : Cmd :=
  if inTamperHalt rt then { c with status := stTamperHalt, result := zeros 16, output := [], outLen := 0 } else c

/-- PT can write for a command: the write succeeds, the host is there, and its results are not discarded. -/
def postWrites (ok : Bool) (rt : Rt) (c : Cmd) : Bool := ok && hostTakes rt && !c.discard

/-- The output of one ring command goes to the host (R109). -/
def postOutput (ok : Bool) (id : CmdId) (rt : Rt) : Rt :=
  match kget rt.cmds id with
  | none => rt
  | some c =>
    let out := (haltedCmd rt c).output
    if postWrites ok rt c && !out.isEmpty then
      hostData ((boothOf rt c.booth).map fun x => x.cfg.pasid) c.desc.outIova.toNat out rt
    else rt

/-- The entry of one ring command is posted, and the command leaves the module. An entry that cannot be written is
discarded. -/
def postEntry (lost ok : Bool) (id : CmdId) (rt : Rt) : Rt :=
  match kget rt.cmds id with
  | none => rt
  | some c0 =>
    let c := haltedCmd rt c0
    let written := postWrites ok rt c
    let memb := memberByte rt c
    let rt := if written then writeEntryAt c.booth (fun p => entryOf p lost memb c) rt else rt
    let rt := countClose c written (returnResv id rt)
    let rt := modBooth c.booth (fun x => { x with heldOpen := if x.heldOpen = some id then none else x.heldOpen }) rt
    recount c.booth { rt with cmds := kdel rt.cmds id }

/-- The commands that post with one: itself, or every member of its bundle once the bundle is closed and has failed, or has
committed (R145, R147, R148). -/
def postSet (rt : Rt) (c : Cmd) : List CmdId :=
  match multiOf rt c with
  | none => [c.id]
  | some x => if (x.failed.isSome && x.closed) || x.committed then x.members else []

/-- A command of the same ring or session that ended earlier still awaits its entry or its response (R137, R168). -/
def endedBefore (rt : Rt) (c : Cmd) : Bool :=
  rt.cmds.any fun kv => decide (kv.2.booth = c.booth ∧ kv.2.session = c.session ∧ 0 < kv.2.endSeq ∧ kv.2.endSeq < c.endSeq) &&
    kv.2.stage == .ended && !needsScrub kv.2

/-- A command is ready to post: it has ended, nothing is to be scrubbed, and those that ended before it have posted. -/
def postReady (rt : Rt) (id : CmdId) : Bool :=
  match kget rt.cmds id with
  | none => false
  | some c => c.stage == .ended && !needsScrub c

/-- The commands of a post set are ready, and its first is the next in the order of ends. -/
def postTurn (rt : Rt) (l : List CmdId) : Bool :=
  l.all (postReady rt) && (match l.head?.bind (kget rt.cmds) with
    | some c => !endedBefore rt c
    | none => false)

/-- COMPLETION_POST: PT writes the staged output and then the entry; of a bundle every output, then every entry, consecutively
in member order; entries come in the order in which commands finish (R109, R136, R137, R147). Sessions answer with
RESPONSE_FRAME. -/
def doCompletionPost (id : CmdId) (ok : Bool) (s : State) : State :=
  match kget s.rt.cmds id with
  | none => s
  | some c =>
    let l := postSet s.rt c
    if c.session.isSome || !postTurn s.rt l then s
    else
      onRt (fun rt =>
        let rt := l.foldl (fun r i => postOutput ok i r) rt
        let rt := l.foldl (fun r i => postEntry (peerLost s) ok i r) rt
        match c.bundle with
        | none => rt
        | some u => { rt with bundles := kdel rt.bundles u }) s

/-- DESCRIPTOR_READ_FAIL: one entry with tag FFFFFFFFh and ACCESS_REFUSED, in tamper halt TAMPER_HALT (R418), fetching stops, and
HOST_DMA names the ring index (R134). A bundle that is open then stays open, without completions, until RESET_BOOTH or
BOOTH_CLOSE (DESIGN CHOICE, log 26: the spec does not say what becomes of it). -/
def doDescriptorReadFail (b : Nat) (s : State) : State :=
  match boothOf s.rt b with
  | none => s
  | some x =>
    if ptFetches s.rt x && decide (1 ≤ sqWaiting x ∧ cqClaimed s.rt b x + 1 ≤ 2 ^ x.cfg.cqLog2) then
      let entry := fun (p : Bool) =>
        le 4 0xFFFFFFFF ++ le 2 (if inTamperHalt s.rt then stTamperHalt else stAccessRefused) ++ [BitVec.ofNat 8 (b2n p + 4 * b2n (peerLost s)), 0] ++ zeros 4 ++
        le 4 s.rt.epoch ++ zeros 16
      onRt (fun rt =>
        let rt := modBooth b (fun x => { x with fetchStopped := true }) (writeEntryAt b entry rt)
        raise { source := .hostDma, scope := 0, island := some 37, booth := some b, detail := le 2 x.fetchHead ++ [0],
                houseProg := false } rt) s
    else s

/-- DESCRIPTOR_READ_FAIL. -/
def execDescriptorReadFail (b : Nat) (s : State) : Res := .next (doDescriptorReadFail b s)

/-- COALESCE_TIMER: COAL_TIME has run since the first unsignalled entry (R114). -/
def doCoalesceTimer (b : Nat) (rt : Rt) : Rt :=
  match boothOf rt b with
  | none => rt
  | some x => if x.coalRunning && decide (0 < x.unsignalled) then sendCoalesced b rt else rt

/-- COALESCE_TIMER. -/
def execCoalesceTimer (b : Nat) (s : State) : Res := .next (onRt (doCoalesceTimer b) s)

/-- OUTPUT_SCRUB: PT writes zeros over every output byte that the loom has written (R150, R312). -/
def doOutputScrub (id : CmdId) (rt : Rt) : Rt :=
  match kget rt.cmds id with
  | none => rt
  | some c =>
    if c.stage == .ended && needsScrub c then
      let pasid := (boothOf rt c.booth).map fun x => x.cfg.pasid
      let rt := if hostTakes rt then hostData pasid c.desc.outIova.toNat (zeros c.direct) rt else rt
      modCmd id (fun c => { c with scrubbed := true }) rt
    else rt

/-- OUTPUT_SCRUB. -/
def execOutputScrub (id : CmdId) (s : State) : Res := .next (onRt (doOutputScrub id) s)

/-! ## Aborting commands (R124, R150, R151) -/

/-- A command leaves the module with nothing written: its job ends, its bundle changes are gone, its reservation returns. -/
def dropCmd (id : CmdId) (rt : Rt) : Rt :=
  match kget rt.cmds id with
  | none => rt
  | some c =>
    let rt := returnResv id (unready id (endJobOf id rt))
    let rt := match c.bundle with
      | none => rt
      | some u => closeClaimed u { rt with bundles := kdel rt.bundles u }
    { rt with cmds := kdel rt.cmds id }

/-- The state in which RESET_BOOTH leaves a booth: its commands gone without completions (those of sessions too, unless
`ringOnly`), indices zero, the phase of a new booth; configuration, share, version and sessions stay (R124, R358). The
coalescing count and timer go with the entries they counted (DESIGN CHOICE, log 38: R124 does not name them). -/
def resetBoothState (b : Nat) (ringOnly : Bool) (rt : Rt) : Rt :=
  let ids := kkeys (rt.cmds.filter fun kv => kv.2.booth = b && (!ringOnly || kv.2.session.isNone))
  let rt := ids.foldl (fun r i => dropCmd i r) rt
  let rt := modBooth b (fun x => { x with sqTail := 0, cqHead := 0, fetchHead := 0, cqTail := 0, cqUnread := 0, phase := true,
                                          fetchStopped := false, heldOpen := none, openBundle := none, unsignalled := 0,
                                          coalRunning := false }) rt
  recount b rt

/-! ## The host link (R125) -/

/-- A stream is in the Secure state: both directions of the three sub-streams are going. -/
def ideSecure (go : List (Nat × Nat)) (k : Nat) : Bool := [0, 2, 16, 18, 32, 34].all fun x => decide ((k, x) ∈ go)

/-- The streams of key sets, once each. -/
def ideStreams (l : List (Nat × Nat)) : List Nat := l.foldl (fun a x => addTo x.1 a) []

/-- The LINK register's IDE fields (25 Table 25.4). -/
def countIde (l : Link) : Link :=
  { l with linkIde := ideSecure l.ideGo 0
           selIde := min 8 ((ideStreams l.ideGo).filter fun k => k != 0 && ideSecure l.ideGo k).length }

/-- HOST_LINK_LOSS: DL_Down, or an integrity failure that takes a stream out of the Secure state: PT stops fetching and HOST_LINK is raised.
DL_Down while a stream's loss stands is an event of its own. -/
def doHostLinkLoss (ide : Option Nat) (rt : Rt) : Rt :=
  let ev := fun (d : Bytes) (l : Link) =>
    raise { source := .hostLink, scope := 0, island := some 36, booth := none, detail := d, houseProg := false } { rt with link := l }
  if !hostReaches rt then rt
  else match ide with
    | none => ev [0, 0] { rt.link with up := false, lost := true, linkIde := false, selIde := 0, ideKeys := [], ideGo := [] }
    | some k =>
      if ideSecure rt.link.ideGo k then
        ev [1, BitVec.ofNat 8 k] { countIde { rt.link with ideGo := rt.link.ideGo.filter fun x => x.1 != k } with lost := true }
      else rt

/-- HOST_LINK_LOSS. -/
def execHostLinkLoss (ide : Option Nat) (s : State) : Res := .next (onRt (doHostLinkLoss ide) s)

/-- HOST_LINK_RETURN can happen: the link is up, since a stream alone was lost or since LINK_TRAINING_COMPLETE has trained it again after
DL_Down, at whatever width and rate (R28, R125). -/
def canReturn (rt : Rt) : Bool := rt.link.lost && rt.link.up && mainPower rt && !rt.power.powerFail && !rt.power.perst

/-- HOST_LINK_RETURN: the link is back or the stream keyed again; the rings of every open booth are as RESET_BOOTH leaves
them, and sessions go on (R125, 08 Table 8.5). -/
def doHostLinkReturn (rt : Rt) : Rt :=
  if canReturn rt then
    let rt := { rt with link := { rt.link with lost := false } }
    (kkeys rt.booths).foldl (fun r b => resetBoothState b true r) rt
  else rt

end Sys2Proof.Machine
end

