-- ==== Sys2Proof/Machine/Strongroom.lean ====
section
/-! DEFINITION. The strongroom: key classes and attributes (13 Tables
13.2, 13.3), the locksmith's checks (12 Table 12.3, 13 Table 13.4), allocation, the two-key latch, and the changes that a
bundle gathers (12 R264 to R266, 13 R286, R292). -/

namespace Sys2Proof.Machine

/-! ## Attributes -/

/-- A key usage of two ASCII characters. -/
def usageOf (a b : Nat) : BitVec 16 := BitVec.ofNat 16 (a + 256 * b)

def u00 : BitVec 16 := usageOf 0x30 0x30
def uK0 : BitVec 16 := usageOf 0x4B 0x30
def uK1 : BitVec 16 := usageOf 0x4B 0x31
def uP0 : BitVec 16 := usageOf 0x50 0x30
def uV1 : BitVec 16 := usageOf 0x56 0x31
def uV2 : BitVec 16 := usageOf 0x56 0x32
def uC0 : BitVec 16 := usageOf 0x43 0x30
def uB0 : BitVec 16 := usageOf 0x42 0x30
def uE0 : BitVec 16 := usageOf 0x45 0x30
def uE1 : BitVec 16 := usageOf 0x45 0x31
def uE2 : BitVec 16 := usageOf 0x45 0x32
def uM1 : BitVec 16 := usageOf 0x4D 0x31
def uM3 : BitVec 16 := usageOf 0x4D 0x33
def uM6 : BitVec 16 := usageOf 0x4D 0x36
def uD0 : BitVec 16 := usageOf 0x44 0x30
def uD1 : BitVec 16 := usageOf 0x44 0x31
def uS0 : BitVec 16 := usageOf 0x53 0x30

/-- The module's own usages 91 to 97. -/
def uOwn (n : Nat) : BitVec 16 := usageOf 0x39 (0x30 + n)

/-- The algorithm letters. -/
def algA : Nat := 0x41
def algT : Nat := 0x54
def algR : Nat := 0x52
def algE : Nat := 0x45
def algH : Nat := 0x48
def algL : Nat := 0x4C

/-- The mode of use letters. -/
def mB : Nat := 0x42
def mC : Nat := 0x43
def mD : Nat := 0x44
def mE : Nat := 0x45
def mG : Nat := 0x47
def mN : Nat := 0x4E
def mS : Nat := 0x53
def mV : Nat := 0x56
def mX : Nat := 0x58

/-- A row of Table 13.2: the usages, the algorithms, and whether the class may be a parent. -/
structure ClassRow where
  usages : List (BitVec 16)
  algs : List Nat
  parent : Bool
  deriving DecidableEq, Repr

/-- Table 13.2. -/
def classRow (cls : Nat) : Option ClassRow :=
  let row := fun (u : List (BitVec 16)) (a : List Nat) (p : Bool) => some ({ usages := u, algs := a, parent := p } : ClassRow)
  match cls with
  | 0x01 => row [uK0] [algA] true
  | 0x02 => row [u00] [] false
  | 0x10 => row [uK0] [algA, algT] true
  | 0x11 => row [uK1] [algA, algT] true
  | 0x12 => row [uP0] [algA, algT] false
  | 0x13 => row [uV1, uV2] [algA, algT] false
  | 0x14 => row [uC0] [algA, algT] false
  | 0x15 => row [uB0] [algA] false
  | 0x16 => row [uE0] [algA, algT] false
  | 0x17 => row [uE2] [algA, algT] false
  | 0x18 => row [uE1] [algA, algT] false
  | 0x19 => row [uM1, uM3, uM6] [algA, algT] false
  | 0x1A => row [uD0] [algA, algT] false
  | 0x1B => row [uOwn 1] [algA] false
  | 0x1C => row [uOwn 2] [algH] false
  | 0x21 => row [uS0, uD1, uOwn 4] [algR] false
  | 0x22 => row [uS0, uOwn 3, uOwn 4] [algE] false
  | 0x23 => row [uS0] [algL] false
  | 0x24 => row [uOwn 5] [algL] false
  | 0x28 => row [uS0, uD1, uOwn 3, uOwn 5] [algR, algE, algL] false
  | 0x29 => row [uOwn 6] [algE] false
  | 0x30 => row [uOwn 7] [algA] false
  | _ => none

/-- A class that may be a parent. -/
def mayParent (cls : Nat) : Bool := ((classRow cls).map ClassRow.parent).getD false

/-- The size byte is defined for the algorithm (Table 13.3). -/
def sizeOk (alg size : Nat) : Bool :=
  if alg = algA then decide (size ∈ [0x10, 0x18, 0x20])
  else if alg = algT then decide (size ∈ [0x10, 0x18])
  else if alg = algR then decide (1 ≤ size ∧ size ≤ 0x20)
  else if alg = algE then decide (1 ≤ size ∧ size ≤ 5)
  else if alg = algH then decide (0x10 ≤ size ∧ size ≤ 0x40)
  else if alg = algL then decide (size ∈ [0x02, 0x03, 0x12, 0x13])
  else false

/-- An ML-DSA private key has an ML-DSA size, an ML-KEM private key an ML-KEM size. -/
def latticeOk (cls size : Nat) : Bool :=
  if cls = 0x23 then decide (size < 0x10) else if cls = 0x24 then decide (0x10 ≤ size) else true

/-- The attributes of a key: class, algorithm, size, usage, mode, exportability and the dual-control flag. -/
structure Attrs where
  cls : Nat
  alg : Nat
  size : Nat
  usage : BitVec 16
  mode : Nat
  exportab : Nat
  dual : Bool
  deriving DecidableEq, Repr

/-- The attributes in eight bytes as KEY_GENERATE's inline bytes 0 to 7 (Table 17.5). -/
def attrsOf (b : Bytes) : Attrs :=
  { cls := byteAt b 0, alg := byteAt b 1, size := byteAt b 2, usage := BitVec.ofNat 16 (leAt b 3 2), mode := byteAt b 5,
    exportab := byteAt b 6, dual := (byteAt b 7).testBit 0 }

/-- Class, algorithm, usage, mode and exportability are defined and combine as the class row lists (R275). -/
def attrsOk (a : Attrs) : Bool :=
  match classRow a.cls with
  | none => false
  | some r => decide (a.usage ∈ r.usages ∧ a.alg ∈ r.algs) && sizeOk a.alg a.size && latticeOk a.cls a.size &&
      decide (a.mode ∈ [mB, mC, mD, mE, mG, mN, mS, mV, mX] ∧ a.exportab ∈ [0x45, 0x53, 0x4E])

/-! ## Extents -/

/-- The slots of an extent for material of a length (R256). -/
def extentLen (n : Nat) : Nat := if n ≤ 64 then 1 else 1 + cdiv (n - 64) 116

/-- The number of slots of a key's record. -/
def slotsOf (r : SlotRec) : Nat := if r.kind = 2 then max 1 r.extLen else 1

/-! ## Reading slots -/

/-- A slot as the members of a bundle see it: their own bundle's change, else the working copy (R146, R265). -/
def slotIn (rt : Rt) (u : Option Nat) (k : Nat) : SlotRec :=
  match (u.bind (kget rt.bundles)).bind fun x => x.changes.find? fun c => c.slot = k with
  | some c => c.after
  | none => kgetD rt.strong.slots k SlotRec.free

/-- A slot as a command sees it: the prior image kept for older epochs, else as its bundle sees it (R263, R191). -/
def slotAt (rt : Rt) (u : Option Nat) (epoch k : Nat) : SlotRec :=
  match rt.strong.shadow.find? fun x => decide (epoch < x.epoch) && (kget x.slots k).isSome with
  | some x => kgetD x.slots k SlotRec.free
  | none => slotIn rt u k

/-- The material of a key, gathered from its extent. -/
def materialOf (rt : Rt) (u : Option Nat) (epoch slot : Nat) (r : SlotRec) : Bytes :=
  (((List.range (slotsOf r)).flatMap fun i => (slotAt rt u epoch (slot + i)).mat)).take r.matLen

/-- A house's slot range as its house record gives it: first slot and length (R282). -/
def houseRange (rt : Rt) (house : Nat) : Option (Nat × Nat) :=
  let r := slotIn rt none (8 * house + 1)
  if isKey r && r.cls == 2 then some (leAt r.mat 0 4, leAt r.mat 4 4) else none

/-- A house is registered. -/
def houseRegistered (rt : Rt) (house : Nat) : Bool := decide (house < 1024) && (houseRange rt house).isSome

/-- What a lookup gives: a wait for a demand load, a refusal, or the slot and its record. -/
inductive Found where
  | wait
  | no (st : Nat)
  | key (slot : Nat) (r : SlotRec)
  deriving DecidableEq, Repr

/-- A slot that a handle may name (check 3): the house's range, its master key, or for the firmware its reserved tile. -/
def slotAllowed (rt : Rt) (firmware : Bool) (h : Handle) : Bool :=
  h.slot == 8 * h.house || (firmware && h.slot / 8 == h.house) ||
    (match houseRange rt h.house with
     | none => false
     | some (a, n) => decide (a ≤ h.slot ∧ h.slot < a + n))

/-- The tiles of a key. -/
def keyTiles (slot : Nat) (r : SlotRec) : List Nat :=
  (List.range (slotsOf r)).foldl (fun l i => addTo (tileOf (slot + i)) l) []

/-- The strongroom checks of Table 12.3, in order. -/
def resolve (rt : Rt) (house : Nat) (u : Option Nat) (epoch : Nat) (firmware : Bool) (hv : BitVec 64) : Found :=
  let h := handleOf hv
  if h.fmt ≠ 1 then .no stMalformed
  else if h.house ≠ house then .no stAccessRefused
  else if !slotAllowed rt firmware h then .no stAccessRefused
  else if !tileResident rt (tileOf h.slot) then .wait
  else
    let r := slotAt rt u epoch h.slot
    let tiles := keyTiles h.slot r
    if tiles.any fun t => !tileResident rt t then .wait
    else if tiles.any fun t => decide (t ∈ rt.strong.failed) then .no stTileCheckFail
    else if !isKey r then .no stKeyAbsent
    else if r.gen ≠ h.gen then .no stKeyStale
    else if r.fmt ≠ h.fmt ∨ r.cls ≠ h.cls ∨ r.house ≠ h.house then .no stKeyAbsent
    else .key h.slot r

/-- The ancestors of a record, nearest first: slot, record, and the generation that the child recorded. -/
def ancestors (rt : Rt) (u : Option Nat) (epoch : Nat) : Nat → SlotRec → List (Nat × SlotRec × Nat)
  | 0, _ => []
  | n + 1, r =>
    match r.parent with
    | none => []
    | some p =>
      let q := slotAt rt u epoch p
      (p, q, r.parentGen) :: (if isKey q then ancestors rt u epoch n q else [])

/-- The level of a key: 0 without a parent, one more than its parent's otherwise (R274). -/
def levelOf (rt : Rt) (u : Option Nat) (epoch : Nat) (r : SlotRec) : Nat := (ancestors rt u epoch 3 r).length

/-- The time lies within the validity (check 4). -/
def inValidity (rt : Rt) (r : SlotRec) : Bool :=
  decide (r.notBefore = 0 ∨ r.notBefore ≤ rt.clock.sec) && decide (r.notAfter = 0 ∨ rt.clock.sec ≤ r.notAfter)

/-- Checks 1 and 2 of Table 13.4: the parent walk. -/
def walkOk (rt : Rt) (u : Option Nat) (epoch : Nat) (r : SlotRec) : Found :=
  let l := ancestors rt u epoch 3 r
  if l.any fun x => !tileResident rt (tileOf x.1) then .wait
  else if l.any fun x => decide (tileOf x.1 ∈ rt.strong.failed) then .no stTileCheckFail
  else if l.any fun x => !isKey x.2.1 || x.2.1.usage == u00 || x.2.1.gen != x.2.2 then .no stParentRevoked
  else .key 0 r

/-- Checks 1 to 5 of Table 13.4 on a record that Table 12.3 let pass; `ok` is the operation's own acceptance. -/
def usable (rt : Rt) (u : Option Nat) (epoch slot : Nat) (r : SlotRec) (ok : SlotRec → Bool) : Found :=
  match walkOk rt u epoch r with
  | .wait => .wait
  | .no st => .no st
  | .key _ _ =>
    if r.usage = u00 then .no stUsageRefused
    else if !inValidity rt r then .no stUsageRefused
    else if !ok r then .no stUsageRefused
    else .key slot r

/-- A key whose material a command uses: Table 12.3, then checks 1 to 5 of Table 13.4. -/
def findKey (rt : Rt) (house : Nat) (u : Option Nat) (epoch : Nat) (h : BitVec 64) (ok : SlotRec → Bool) : Found :=
  match resolve rt house u epoch false h with
  | .wait => .wait
  | .no st => .no st
  | .key slot r => usable rt u epoch slot r ok

/-- Check 6 of Table 13.4: exportable under a wrapping key of a class. -/
def exportOk (r : SlotRec) (wrapCls : Nat) : Bool := r.exportab == 0x45 || (r.exportab == 0x53 && wrapCls == 0x11)

/-- A change or export of a slot needs the latch: dual-control, or a house master key (check 7). -/
def needsLatch (r : SlotRec) : Bool := r.flags.testBit 0 || r.flags.testBit 1 || r.cls == 1

/-! ## Key caches (12, Key caches) -/

/-- Put a tile in a key cache: 512 sets of 16 ways, the least recently used tile of a full set leaving. -/
def cachePut (t : Nat) (l : List Nat) : List Nat :=
  let l := t :: l.filter (· ≠ t)
  let set := (l.filter fun x => x % 512 == t % 512).take 16
  l.filter fun x => x % 512 != t % 512 || decide (x ∈ set)

/-- The key cache of a die. -/
def cacheOf (rt : Rt) (d : Nat) : List Nat := if d = 0 then rt.strong.cache0 else rt.strong.cache1

/-- Replace the key cache of a die. -/
def setCache (d : Nat) (l : List Nat) (rt : Rt) : Rt :=
  { rt with strong := if d = 0 then { rt.strong with cache0 := l } else { rt.strong with cache1 := l } }

/-- A locksmith of a die has used tiles (R261). -/
def touchTiles (d : Nat) (ts : List Nat) (rt : Rt) : Rt := ts.foldl (fun r t => setCache d (cachePut t (cacheOf r d)) r) rt

/-- A lookup at an epoch reads a prior image of a tile, past the key caches (R263). -/
def shadowed (rt : Rt) (epoch t : Nat) : Bool :=
  rt.strong.shadow.any fun x => decide (epoch < x.epoch) && x.slots.any fun kv => tileOf kv.1 == t

/-- The tiles that a lookup of a key brings into its die's cache: the key's and its ancestors' (R263, R278). -/
def readTiles (rt : Rt) (u : Option Nat) (epoch slot : Nat) (r : SlotRec) : List Nat :=
  (keyTiles slot r ++ (ancestors rt u epoch 3 r).map fun a => tileOf a.1).filter fun t => !shadowed rt epoch t

/-- Drop tiles from both caches (R262). -/
def dropTiles (p : Nat → Bool) (rt : Rt) : Rt :=
  { rt with strong := { rt.strong with cache0 := rt.strong.cache0.filter fun t => !p t
                                       cache1 := rt.strong.cache1.filter fun t => !p t } }

/-- A tile holds a slot of a house (R262). -/
def tileOfHouse (slots : KMap SlotRec) (house t : Nat) : Bool :=
  t == house || slots.any fun kv => tileOf kv.1 == t && isOccupied kv.2 && kv.2.house == house

/-! ## The two-key latch (R286) -/

/-- The latch is open for a house and a requester, unclaimed or claimed by the bundle itself. -/
def latchFor (rt : Rt) (house binding : Nat) (u : Option Nat) : Bool :=
  match rt.twoKey with
  | .opened h b _ c => h == house && b == binding && (c.isNone || (u.isSome && c == u))
  | _ => false

/-- A bundle claims the latch. -/
def claimLatch (u : Nat) (rt : Rt) : Rt :=
  match rt.twoKey with
  | .opened h b o none => { rt with twoKey := .opened h b o (some u) }
  | _ => rt

/-- The officers that opened the latch; zero when it is not open. -/
def latchOfficers (rt : Rt) : Nat × Nat :=
  match rt.twoKey with
  | .opened _ _ o _ => o
  | _ => (0, 0)

/-! ## Changes of a bundle -/

/-- A slot is reserved to a bundle other than `u`: it changes it or reads it as a parent (R265, R292). -/
def reservedByOther (rt : Rt) (u slot : Nat) : Bool :=
  rt.bundles.any fun kv => kv.1 != u && kv.2.failed.isNone && ((kv.2.changes.any fun c => c.slot == slot) || decide (slot ∈ kv.2.reads))

/-- A record of the twin that is held refuses changes of its slots until this module's own commit mark (R173, Table 8.8). -/
def heldByTwin (s : State) (slot : Nat) : Bool :=
  s.nv.journal.any fun r => r.held && !r.marked && r.changes.any fun c => c.slot == slot

/-- The bundle of a command, opening the bundle of one for a single change (R144, R264). -/
def bundleOf (id : CmdId) (c : Cmd) (rt : Rt) : Nat × Rt :=
  match c.bundle with
  | some u => (u, rt)
  | none =>
    let u := rt.disp.nextBundle
    let x : Bundle := { newBundle u c.booth true with members := [id], closed := true }
    (u, modCmd id (fun c => { c with bundle := some u })
      { rt with disp := { rt.disp with nextBundle := u + 1 }, bundles := kset rt.bundles u x })

/-- Add or replace a change of a slot; the generation before, and the member that the change is named by, stay those of the
first change (R148, R174). -/
def putChange (c : SlotChange) (l : List SlotChange) : List SlotChange :=
  match l.find? fun x => x.slot == c.slot with
  | none => l ++ [c]
  | some x => l.map fun y => if y.slot = c.slot then { c with genBefore := x.genBefore, member := x.member, policy := x.policy || c.policy } else y

/-- How many slots a bundle touches (R265, R292). -/
def touched (x : Bundle) : Nat :=
  (x.changes.foldl (fun l c => addTo c.slot l) (x.reads.foldl (fun l k => addTo k l) [])).length

/-- What a member adds to its bundle: changes, parents read, ledger entries. -/
structure Delta where
  changes : List SlotChange
  reads : List Nat
  entries : List LedgerEntry
  deriving DecidableEq, Repr

/-- Add a member's part to a bundle. -/
def addDelta (m : Nat) (d : Delta) (x : Bundle) : Bundle :=
  { x with changes := d.changes.foldl (fun l c => putChange c l) x.changes
           reads := d.reads.foldl (fun l k => addTo k l) x.reads
           entries := x.entries ++ d.entries
           first := if x.first.isSome then x.first else some m }

/-- The change of one slot by a member. -/
def changeOf (rt : Rt) (u : Option Nat) (slot : Nat) (after : SlotRec) (policy : Bool) (house m : Nat) : SlotChange :=
  { slot := slot, genBefore := (slotIn rt u slot).gen, after := after, policy := policy, house := house, member := m }

/-- Lay material over the slots of a key from its head record: the head's slot, then continuations (R256). -/
def layKey (slot : Nat) (head : SlotRec) (mat : Bytes) : List (Nat × SlotRec) :=
  let n := extentLen mat.length
  let h := { head with kind := if n = 1 then 1 else 2, extLen := n, matLen := mat.length, mat := mat.take 64, pos := 0 }
  (slot, h) :: (List.range (n - 1)).map fun i =>
    (slot + i + 1, { SlotRec.free with kind := 3, fmt := head.fmt, cls := head.cls, house := head.house, gen := head.gen,
                                       pos := i + 1, mat := slice mat (64 + 116 * i) 116 })

/-- A slot can be allocated: free, and reserved to no bundle, the own one included. -/
def canAlloc (s : State) (slot : Nat) : Bool :=
  (kgetD s.rt.strong.slots slot SlotRec.free).kind == 0 && !heldByTwin s slot &&
  !(s.rt.bundles.any fun kv => kv.2.failed.isNone && kv.2.changes.any fun c => c.slot == slot)

/-- The lowest run of `n` slots inside one aligned block of 64, from a slot, below an end (R256, R264). -/
def firstRun (s : State) (n stop : Nat) : Nat → Nat → Option Nat
  | 0, _ => none
  | fuel + 1, k =>
    if stop < k + n then none
    else if k / 64 = (k + n - 1) / 64 && (List.range n).all (fun i => canAlloc s (k + i)) then some k
    else firstRun s n stop fuel (k + 1)

/-- Allocate a run in a house's range. -/
def allocRun (s : State) (house n : Nat) : Option Nat :=
  match houseRange s.rt house with
  | none => none
  | some (a, len) => firstRun s n (a + len) len a

/-- The new head record of a key at a slot. -/
def newHead (rt : Rt) (slot house : Nat) (a : Attrs) (parent : Option (Nat × Nat)) (nb na : Nat) (ver : BitVec 16) : SlotRec :=
  { SlotRec.free with
    kind := 1, fmt := 1, cls := a.cls, house := house, gen := (kgetD rt.strong.slots slot SlotRec.free).gen,
    flags := b2n a.dual + 2 * b2n (a.cls == 1), alg := a.alg, size := a.size, usage := a.usage, mode := a.mode,
    exportab := a.exportab, version := ver, parent := parent.map Prod.fst, parentGen := (parent.map Prod.snd).getD 0,
    notBefore := nb, notAfter := na }

/-- A freed slot: generation one higher, or retired from FFFFh (R266). -/
def freedSlot (r : SlotRec) : SlotRec :=
  if r.gen = 0xFFFF then { SlotRec.free with kind := 4, gen := r.gen }
  else { SlotRec.free with gen := r.gen + 1 }

/-- The detail of a ledger entry that names a parent: its slot and generation (Table 13.10). -/
def parentDetail (p : Option (Nat × Nat)) : Bytes :=
  match p with
  | none => zeros 8
  | some (k, g) => le 4 k ++ le 2 g

end Sys2Proof.Machine
end

