-- ==== Sys2Proof/Machine/Sessions.lean ====
section
/-! DEFINITION. What the network and the booths share about sessions: frames sent (08 Table 8.6, 8.7), and the closing of a
session with its commands (08 R163, Table 8.5). -/

namespace Sys2Proof.Machine

/-- Records of at most 16 384 bytes that a frame takes (08 Table 8.3). -/
def recordsOf (n : Nat) : Nat := cdiv n 16384

/-- A frame header (Table 8.6). -/
def frameHeader (version : Byte) (ty len seq : Nat) : Bytes :=
  [version, BitVec.ofNat 8 ty, 0, 0] ++ le 4 len ++ le 4 seq ++ zeros 4

/-- Send a frame on a session: whole, numbered, into its send queue (R164, R168, R169). Before OPEN has completed the spec
states no version for it: the byte is free. -/
def sendFrame (conn ty : Nat) (body : Bytes) (rt : Rt) : Rt :=
  match kget rt.net.conns conn with
  | none => rt
  | some c =>
    let v := match c.version with
      | some n => BitVec.ofNat 8 n
      | none => Config.freeByte rt.freeCtr 0
    let n := 16 + body.length
    let c' := { c with txSeq := (c.txSeq + 1) % 2 ^ 32, sendQ := c.sendQ + n, unacked := c.unacked + n,
                       records := c.records + recordsOf n }
    emit (.frame conn (frameHeader v ty body.length c.txSeq) body)
      { rt with freeCtr := rt.freeCtr + b2n c.version.isNone, net := { rt.net with conns := kset rt.net.conns conn c' } }

/-- The commands of a session. -/
def connCmds (rt : Rt) (conn : Nat) : List CmdId := kkeys (rt.cmds.filter fun kv => kv.2.session == some conn)

/-- The time that a connection stays in TIME_WAIT, in ns: twice the maximum segment lifetime of RFC 9293 (PRESUMED, log 55). -/
def timeWaitNs : Nat := 240000000000

/-- The module closes a connection first, so that it stays in TIME_WAIT (08 R154). -/
def enterTimeWait (conn : Nat) (rt : Rt) : Rt :=
  { rt with net := { rt.net with timeWait := kset rt.net.timeWait conn rt.now } }

/-- Connections in TIME_WAIT. -/
def waitingConns (rt : Rt) : Nat := (rt.net.timeWait.filter fun kv => decide (rt.now < kv.2 + timeWaitNs)).length

/-- A loom of the session's die takes a record now: claimed in the latch FIFO as clerks claim it, and in partitioned mode bound to the
booth's house. The record's claim, its key's delivery and the release are one event (08 R160, R161; DESIGN CHOICE, log 55). -/
def recordLoom (rt : Rt) (c : Conn) : Bool :=
  match c.st with
  | .established d =>
    (List.range 4).any fun i =>
      let e : EngineRef := { die := if d = 1 then 1 else 0, kind := .loom, idx := i }
      canClaim rt e && (match engineHouse rt.disp.part e with
        | some h => h == boothHouse rt c.booth
        | none => true)
  | _ => false

/-- A session closes: an alert if one goes out; admitted commands run to completion with their outputs discarded, commands
not yet admitted and bundles not whole go without effect (R163, R168). -/
def closeConn (conn : Nat) (al : Option String) (rt : Rt) : Rt :=
  match kget rt.net.conns conn with
  | none => rt
  | some c =>
    let rt := match al with
      | some a => enterTimeWait conn (emit (.alert conn a) rt)
      | none => rt
    let drop := fun (rt : Rt) (id : CmdId) => match kget rt.cmds id with
      | none => rt
      | some m => if m.admitted then modCmd id (fun m => { m with discard := true }) rt else dropCmd id rt
    let rt := (connCmds rt conn).foldl drop rt
    recount c.booth { rt with net := { rt.net with conns := kdel rt.net.conns conn } }

/-- The sessions that satisfy a test. -/
def connsWhere (rt : Rt) (p : Conn → Bool) : List Nat := kkeys (rt.net.conns.filter fun kv => p kv.2)

/-- Close every session that satisfies a test. -/
def closeConns (p : Conn → Bool) (al : Option String) (rt : Rt) : Rt :=
  (connsWhere rt p).foldl (fun r k => closeConn k al r) rt

/-- A NOTICE frame with code 0001h and the count of tags lost, to each open session of a booth (R163, Table 8.7). -/
def noticeAll (b : Nat) (lost : KMap Nat) (rt : Rt) : Rt :=
  (connsWhere rt fun c => c.booth == b && (match c.st with
    | .established _ => true
    | _ => false)).foldl (fun r k => sendFrame k 4 (le 2 1 ++ le 4 (kgetD lost k 0) ++ zeros 10) r) rt

/-! ## Responses (08 R162, R168) -/

/-- Stage 6 refused the command: BUSY answers in place of RESPONSE (R168). -/
def isBusy (c : Cmd) : Bool := !c.admitted && (c.status == stQueueFull || c.status == stAdmissionClosed)

/-- Answer one session command, its entry in the completion layout with the output behind it; a frame for a session that is
gone is discarded. The phase of a frame's entry is not stated: it is free. The command leaves the module. -/
def respondOne (lost : Bool) (id : CmdId) (rt : Rt) : Rt :=
  match kget rt.cmds id with
  | none => rt
  | some c =>
    let open? := match c.session.bind (kget rt.net.conns) with
      | some _ => !c.discard
      | none => false
    let c := haltedCmd rt c
    let ph := (Config.freeByte rt.freeCtr 1).getLsbD 0
    let rt := if open? then
        sendFrame (c.session.getD 0) (if isBusy c then 3 else 2) (entryOf ph lost (memberByte rt c) c ++ c.output)
          { rt with freeCtr := rt.freeCtr + 1 }
      else rt
    let rt := returnResv id rt
    let rt := modBooth c.booth (fun x => { x with heldOpen := if x.heldOpen = some id then none else x.heldOpen }) rt
    recount c.booth { rt with cmds := kdel rt.cmds id }

/-- RESPONSE_FRAME: a session command that has ended is answered, in the order in which commands end, a bundle's members together
in member order (R168). A response of an open session waits for a loom (R161). -/
def doResponseFrame (id : CmdId) (s : State) : State :=
  match kget s.rt.cmds id with
  | none => s
  | some c =>
    let l := postSet s.rt c
    let waits := match c.session.bind (kget s.rt.net.conns) with
      | some k => !c.discard && !inTamperHalt s.rt && !recordLoom s.rt k
      | none => false
    if c.session.isNone || waits || !postTurn s.rt l then s
    else
      onRt (fun rt =>
        let rt := l.foldl (fun r i => respondOne (peerLost s) i r) rt
        match c.bundle with
        | none => rt
        | some u => { rt with bundles := kdel rt.bundles u }) s

/-- Insert a command into a list that is sorted by the order of ends. -/
def byEnd (x : Nat × CmdId) : List (Nat × CmdId) → List (Nat × CmdId)
  | [] => [x]
  | y :: l => if x.1 < y.1 then x :: y :: l else y :: byEnd x l

/-- Every command that has ended is posted or answered in the order of ends, scrubbed output first (R67, R95, R137). -/
def postAll (s : State) : State :=
  let s := (kkeys s.rt.cmds).foldl (fun s id => onRt (doOutputScrub id) s) s
  ((s.rt.cmds.foldl (fun l kv => byEnd (kv.2.endSeq, kv.1) l) []).map Prod.snd).foldl
    (fun s id => doResponseFrame id (doCompletionPost id true s)) s

/-! ## What the module owes a management request -/

/-- Answer the request that waits, and let the next one be served. -/
def answerWaiting (st : Nat) (res : Bytes) (rt : Rt) : Rt :=
  match rt.waiting with
  | none => rt
  | some w => respond w.console w.seq st res { rt with waiting := none }

/-- The time within which a booth request completes, in ns; for BOOTH_MODIFY the time within which it commits, after which it no longer
fails (R118, Table 6.6, log 53). -/
def requestBound (q : Req) : Option Nat :=
  match q.code with
  | 0x10 => some 2000000
  | 0x11 => some 2000000
  | 0x12 => some (leAt q.params 4 4 * 1000000 + 7000000)
  | 0x13 => some 7000000
  | _ => none

/-- The moment at which a request's bound ends: it counts from MBX_GO, or from when the console's request is taken. -/
def dueOf (src : ReqSrc) (q : Req) (rt : Rt) : Option Nat :=
  (requestBound q).map fun n => n + if fromConsole src then rt.now else rt.mbx.goAt

/-- A moment has passed. -/
def isPast (due : Option Nat) (rt : Rt) : Bool :=
  match due with
  | some t => decide (t < rt.now)
  | none => false

/-- A request waits: its response is due at a later event. -/
def holdRequest (src : ReqSrc) (q : Req) (staged : Option Staged) (booth bundle : Option Nat) (res : Bytes) (rt : Rt) : Rt :=
  { rt with waiting := some { code := q.code, seq := q.seq, console := fromConsole src, staged := staged, booth := booth,
                              bundle := bundle, result := res, due := dueOf src q rt } }

/-- A booth request whose bound has passed while it waits fails with DEVICE_FAULT and has no effect: what it staged is dropped, and a
booth that was closing stays open (R118). -/
def expireRequest (rt : Rt) : Rt :=
  match rt.waiting with
  | none => rt
  | some w =>
    if isPast w.due rt then
      answerWaiting stDeviceFault [] (match w.booth with
        | some b => modBooth b (fun x => { x with closing := false }) rt
        | none => rt)
    else rt

/-- Serve a booth request within its bound: taken too late, it fails with DEVICE_FAULT (R118). -/
def inBound (src : ReqSrc) (body : Req → State → State) (q : Req) (s : State) : State :=
  if isPast (dueOf src q s.rt) s.rt then onRt (refuse src q stDeviceFault) s else body q s

end Sys2Proof.Machine
end

