-- ==== Sys2Proof/Machine/Policy.lean ====
section
/-! DEFINITION. Policy changes: the epoch, the commands that a change touches, drains, completion (09 R189 to R195, Table
9.3), and the records whose arrival in flash commits a change (06 R119 to R122, 10 R219, R220). -/

namespace Sys2Proof.Machine

/-! ## Host bridle regions of a booth (06 R119, R122) -/

/-- Replace the regions of a PASID in the two host bridles. -/
def setHostRegions (pasid : Nat) (rd wr : List Region) (rt : Rt) : Rt :=
  let keep := fun (b : Nat) => (bridleTable rt b).filter fun r => r.pasid != some pasid
  { rt with bridles := { rt.bridles with
      tables := kput [] (kput [] rt.bridles.tables 38 (keep 38 ++ rd)) 39 (keep 39 ++ wr) } }

/-- The regions of a booth, its old window sets beside the new one (R122). -/
def boothRegions (x : Booth) (rt : Rt) : Rt :=
  let c := { x.cfg with windows := x.cfg.windows ++ x.oldWindows.flatMap Prod.snd }
  setHostRegions x.cfg.pasid (readRegions c) (writeRegions c) rt

/-! ## What a change touches -/

/-- An admitted older-epoch command that a change touches and that has not retired (Table 9.3). A booth closure commits
after every command of the booth has retired (R123). -/
def touchesCmd (rt : Rt) (ch : Change) (c : Cmd) : Bool :=
  c.admitted && !c.retired && decide (c.epoch < ch.epoch) && (match ch.kind with
    | .boothCreate _ => false
    | .boothFields _ => false
    | .boothWindows b => c.booth == b
    | .boothClose _ => false
    | .keys h => boothHouse rt c.booth == h
    | .program h op => boothHouse rt c.booth == h && c.desc.opcode.toNat == op
    | .liveRoom r => rt.clerks.any fun kv => kv.2.job == some c.id && decide (kv.1 < 128 ∧ clerkRoom kv.1 = r)
    | .listener l ds => match c.session.bind (kget rt.net.conns) with
      | some k => k.listener == l && decide (sha384 k.spki ∈ ds)
      | none => false
    | .partition => true)

/-- A handshake of an older epoch that a change touches: it runs as a command of its booth, without a window or a program (08 R159,
R190). -/
def touchesConn (rt : Rt) (ch : Change) (c : Conn) : Bool :=
  holdsCredit c.booth c && decide (c.epoch < ch.epoch) && (match ch.kind with
    | .boothCreate _ => false
    | .boothFields _ => false
    | .boothWindows b => c.booth == b
    | .boothClose _ => false
    | .keys h => boothHouse rt c.booth == h
    | .program _ _ => false
    | .liveRoom _ => false
    | .listener l ds => c.listener == l && decide (sha384 c.spki ∈ ds)
    | .partition => true)

/-- No command and no handshake that the change touches is left (R190). -/
def untouched (rt : Rt) (ch : Change) : Bool :=
  (rt.cmds.all fun kv => !touchesCmd rt ch kv.2) && rt.net.conns.all fun kv => !touchesConn rt ch kv.2

/-- The change of a live update, which is complete when its room resumes (R220). -/
def isLive (ch : Change) : Bool :=
  match ch.kind with
  | .liveRoom _ => true
  | _ => false

/-- Zero words of a memory from an address. -/
def zeroCode (base n : Nat) (m : KMap Word) : KMap Word := m.filter fun kv => !decide (base ≤ kv.1 ∧ kv.1 < base + n)

/-- A word of a room's window lies in a region of a house (R219, log 13). -/
def houseWord (rt : Rt) (room house a : Nat) : Bool :=
  (bridleTable rt (roomBridle room)).any fun r => r.house == house && covers r (roomByte a)

/-- Change the region tables of the eight rooms' bridles. -/
def editRooms (f : Nat → List Region → List Region) (rt : Rt) : Rt :=
  let t := (List.range 8).foldl (fun m k => kput [] m (roomBridle k) (f k (kgetD m (roomBridle k) []))) rt.bridles.tables
  { rt with bridles := { rt.bridles with tables := t } }

/-- Change every room. -/
def eachRoom (f : Nat → Room → Room) (rt : Rt) : Rt := (List.range 8).foldl (fun r k => setRoom k (f k (roomOf r k)) r) rt

/-- Write a program's words into every room. -/
def putWords (base : Nat) (words : List Word) (rt : Rt) : Rt := eachRoom (fun _ r => { r with code := putCode base words r.code }) rt

/-- The old code of a house program is freed and zeroed in every room; without a successor its house's room window regions
are zeroed (R219). -/
def freeProgram (house op e : Nat) (s : State) : State :=
  let old := s.nv.progs.filter fun p => p.house == house && p.opcode == op && p.upto == some e
  let progs := s.nv.progs.filter fun p => !(p.house == house && p.opcode == op && p.upto == some e)
  let gone := !(progs.any fun p => p.house == house && p.opcode == op)
  let clear := fun (k : Nat) (r : Room) =>
    { r with code := old.foldl (fun m p => zeroCode p.base p.code.length m) r.code
             window := if gone then r.window.filter fun w => !houseWord s.rt k house w.1 else r.window }
  let keep := fun (k : Nat) (l : List Region) =>
    l.filter fun r => !decide (r ∈ old.flatMap (programRegions k)) || decide (r ∈ progs.flatMap (programRegions k))
  { s with nv := { s.nv with progs := progs }, rt := editRooms keep (eachRoom clear s.rt) }

/-- What ends with a change, by its kind: the old window set, the prior images, the old code, the sessions of a removed
digest, the old partition map (R191). -/
def endOld (ch : Change) (s : State) : State :=
  match ch.kind with
  | .boothWindows b =>
    onRt (fun rt =>
      let rt := modBooth b (fun x => { x with oldWindows := x.oldWindows.filter fun w => w.1 != ch.epoch }) rt
      match boothOf rt b with
      | some x => boothRegions x rt
      | none => rt) s
  | .keys _ => onRt (fun rt => { rt with strong := { rt.strong with shadow := rt.strong.shadow.filter fun x => x.epoch != ch.epoch } }) s
  | .program h op => freeProgram h op ch.epoch s
  | .listener l ds => onRt (closeConns (fun k => k.listener == l && decide (sha384 k.spki ∈ ds)) (some "close_notify")) s
  | .partition => onRt (fun rt => { rt with disp := { rt.disp with partOld := none } }) s
  | .boothCreate _ => s
  | .boothFields _ => s
  | .boothClose _ => s
  | .liveRoom _ => s

/-- A change is complete: the old rule goes, and the response that waits for it is sent (R190 to R192). -/
def finishChange (ch : Change) (s : State) : State :=
  let s := onRt (fun rt => { rt with disp := { rt.disp with changes := rt.disp.changes.filter fun x => x.epoch != ch.epoch } }) (endOld ch s)
  if ch.respond then onRt (fun rt => answerWaiting stDone ((rt.waiting.map Waiting.result).getD []) rt) s else s

/-- The touched commands that are not yet dispatched, in ready-list order, the highest level first (R193). -/
def toDrain (rt : Rt) (ch : Change) : List CmdId :=
  ((pickOrder rt).filter fun c => touchesCmd rt ch c && c.stage == .admitted && !decide (c.id ∈ rt.disp.drain)).map Cmd.id

/-- A policy change commits: the epoch advances by one, the epoch mark covers it, touched commands drain; a change that
touches nothing is complete at once (R76, R189, R190, R193). -/
def commitChange (k : ChangeKind) (respond : Bool) (s : State) : State :=
  let e := s.rt.epoch + 1
  let ch : Change := { kind := k, epoch := e, commitAt := s.rt.now, respond := respond }
  let rt := { s.rt with epoch := e, disp := { s.rt.disp with changes := s.rt.disp.changes ++ [ch] } }
  let rt := { rt with disp := { rt.disp with drain := rt.disp.drain ++ toDrain rt ch } }
  let s := { s with rt := rt, nv := raiseMark e s.nv }
  if untouched rt ch && !isLive ch then finishChange ch s else s

/-- POLICY_CHANGE_COMPLETE: the last touched older-epoch command has retired (R190). -/
def doPolicyChangeComplete (e : Nat) (s : State) : State :=
  match s.rt.disp.changes.find? fun x => x.epoch == e with
  | none => s
  | some ch => if untouched s.rt ch && !isLive ch then finishChange ch s else s

/-- POLICY_CHANGE_COMPLETE. -/
def execPolicyChangeComplete (e : Nat) (s : State) : Res := .next (doPolicyChangeComplete e s)

/-- DRAIN_TIMEOUT: 0.4 ms after the commit a touched command that is not dispatched completes with ABORTED, its bundle too,
and counts one DRAIN_ABORT (R194). -/
def doDrainTimeout (id : CmdId) (rt : Rt) : Rt :=
  match kget rt.cmds id with
  | none => rt
  | some c =>
    match rt.disp.changes.find? (fun ch => touchesCmd rt ch c) with
    | some ch =>
      if c.stage == .admitted then
        raise { source := .drainAbort, scope := 0, island := some 47, booth := some c.booth, detail := [], houseProg := false }
          (failWith id stAborted (advanceTo (ch.commitAt + drainLimit) rt))
      else rt
    | none => rt

/-- DRAIN_TIMEOUT. -/
def execDrainTimeout (id : CmdId) (s : State) : Res := .next (onRt (doDrainTimeout id) s)

/-! ## Records that commit a change -/

/-- A booth is created: its entry, its regions, its epoch (R119, R120, Table 6.9). -/
def commitBooth (b : Nat) (cfg : BoothCfg) (s : State) : State :=
  let cfg := { cfg with epoch := s.rt.epoch + 1 }
  let x := newBooth cfg
  let s := { s with nv := { s.nv with boothTable := kset s.nv.boothTable b cfg }
                    rt := boothRegions x { s.rt with booths := kset s.rt.booths b x } }
  writeEntry (ledgerEvent 0x0108 cfg.house b 0xFFFFFFFF 0 0 0 0 []) (commitChange (.boothCreate b) true s)

/-- A booth is modified: an older window set stays beside the new one while older commands use it; a lowered share counts at
the previous limit until the occupancy is below it (R121, R122, R182). -/
def commitModify (b : Nat) (cfg : BoothCfg) (windows : Bool) (s : State) : State :=
  match boothOf s.rt b with
  | none => s
  | some x =>
    let cfg := { cfg with epoch := s.rt.epoch + 1 }
    let old := if windows then x.oldWindows ++ [(s.rt.epoch + 1, x.cfg.windows)] else x.oldWindows
    let x' := { x with cfg := cfg, oldWindows := old, counted := max x.counted cfg.share }
    let rt := recount b (boothRegions x' (setBooth b x' s.rt))
    let s := { s with nv := { s.nv with boothTable := kset s.nv.boothTable b cfg }, rt := rt }
    let s := commitChange (if windows then .boothWindows b else .boothFields b) true s
    writeEntry (ledgerEvent 0x0109 cfg.house b 0xFFFFFFFF 0 0 0 0 []) s

/-- The program that serves an opcode ends with the epoch that follows. -/
def endProgram (house op e : Nat) (p : ProgEntry) : ProgEntry :=
  if p.house = house ∧ p.opcode = op ∧ p.upto = none then { p with upto := some e } else p

/-- A house program is loaded or replaced: its words lie in every room before the commit; a room that has started since they were
written takes them here (R218, R219). -/
def commitProgram (house op base : Nat) (digest : Bytes) (words : List Word) (window : List (Nat × Nat)) (s : State) : State :=
  let e := s.rt.epoch + 1
  let p : ProgEntry := { house := house, opcode := op, digest := digest, base := base, code := words, window := window, since := e,
                         upto := none }
  let s := { s with nv := { s.nv with progs := s.nv.progs.map (endProgram house op e) ++ [p] }
                    rt := editRooms (fun k l => l ++ programRegions k p) (putWords base words s.rt) }
  let s := commitChange (.program house op) true s
  writeEntry (ledgerEvent 0x010E house 0xFFFF 0xFFFFFFFF 0 0 0 0 (le 2 op)) s

/-- A house program is removed. -/
def commitUnload (house op : Nat) (s : State) : State :=
  let e := s.rt.epoch + 1
  let s := { s with nv := { s.nv with progs := s.nv.progs.map (endProgram house op e) } }
  let s := commitChange (.program house op) true s
  writeEntry (ledgerEvent 0x010F house 0xFFFF 0xFFFFFFFF 0 0 0 0 (le 2 op)) s

/-- A partition map is installed or removed (R196, R198). -/
def commitPart (m : Option PartMap) (s : State) : State :=
  let m := m.map fun x => { x with epoch := s.rt.epoch + 1 }
  let s := { s with nv := { s.nv with part := m }
                    rt := { s.rt with disp := { s.rt.disp with part := m, partOld := s.rt.disp.part } } }
  let s := commitChange .partition true s
  writeEntry (moduleEvent 0x010C []) s

/-- Sessions of a removed listener close with close_notify once their admitted commands have responded; the entry goes with
the last (08 Table 8.5). -/
def sweepRemoved (s : State) : State :=
  let gone := fun (l : Nat) => match kget s.nv.listeners l with
    | some x => x.removing
    | none => false
  let idle := (connsWhere s.rt fun c => gone c.listener).filter fun k => (connCmds s.rt k).isEmpty
  let s := onRt (fun rt => idle.foldl (fun r k => closeConn k (some "close_notify") r) rt) s
  { s with nv := { s.nv with listeners := s.nv.listeners.filter fun kv =>
      !kv.2.removing || s.rt.net.conns.any fun c => c.2.listener == kv.1 } }

/-- The commands of a listener's sessions that are not yet admitted are discarded. -/
def dropUnadmitted (l : Nat) (rt : Rt) : Rt :=
  let ids := (connsWhere rt fun c => c.listener == l).flatMap (connCmds rt)
  (ids.filter fun i => match kget rt.cmds i with
    | some c => !c.admitted
    | none => false).foldl (fun r i => dropCmd i r) rt

/-- A listener's entry: a digest taken off its list is a policy change, any other entry none (Table 9.3, R158). -/
def commitListener (l : Nat) (x : Listener) (digests : List Bytes) (s : State) : State :=
  let x := if digests = [] then x else { x with epoch := s.rt.epoch + 1 }
  let s := { s with nv := { s.nv with listeners := kset s.nv.listeners l x } }
  let s := if x.removing then sweepRemoved (onRt (dropUnadmitted l) s) else s
  if digests = [] then onRt (answerWaiting stDone []) s else commitChange (.listener l digests) true s

/-- The verified library becomes the active flash copy at the first room's commit, whose epoch its record carries (R76, Table 17.10). -/
def activateLib (e : Nat) (nv : Nv) : Nv :=
  match nv.stagedLib with
  | none => nv
  | some c =>
    let c := { c with epoch := e }
    let x := nv.image3
    let x := if x.activeB then { x with copyA := c, activeB := false, nextB := false } else { x with copyB := c, activeB := true, nextB := true }
    { nv with image3 := x, stagedLib := none }

/-- A live update of one room commits: the room takes no new command (R220). -/
def commitRoom (room : Nat) (last : Bool) (s : State) : State :=
  let rt := setRoom room { roomOf s.rt room with updating := true } s.rt
  commitChange (.liveRoom room) last { s with nv := activateLib (s.rt.epoch + 1) s.nv, rt := rt }

/-- Some room waits for its new code. -/
def anyUpdating (rt : Rt) : Bool := rt.rooms.any fun kv => kv.2.updating

/-- Commit what a request has staged. -/
def commitStaged (w : Waiting) (x : Staged) (s : State) : State :=
  let s' := onRt (fun rt => { rt with waiting := some { w with staged := none, due := none } }) s
  match x with
  | .boothCreate b cfg => commitBooth b cfg s'
  | .boothModify b cfg ws => commitModify b cfg ws s'
  | .progLoad h op base d ws win => commitProgram h op base d ws win s'
  | .progRemove h op => commitUnload h op s'
  | .partition m => commitPart m s'
  | .listener l x ds => commitListener l x ds s'
  | .liveRoom rooms d v =>
    match rooms with
    | [] => s
    | r :: rest =>
      if anyUpdating s.rt then s
      else
        let w' := { w with staged := if rest = [] then none else some (.liveRoom rest d v) }
        commitRoom r (decide (rest = [])) (onRt (fun rt => { rt with waiting := some w' }) s)

/-- POLICY_RECORD_WRITTEN: the record of the change that a request has staged reaches flash, so that it commits (R190), unless
its bound has passed (R118). -/
def doPolicyRecordWritten (s : State) : State :=
  let s := onRt expireRequest s
  match s.rt.waiting with
  | none => s
  | some w =>
    match w.staged with
    | none => s
    | some x => if mainPower s.rt && !s.rt.power.powerFail then commitStaged w x s else s

/-- POLICY_RECORD_WRITTEN. -/
def execPolicyRecordWritten (s : State) : Res := .next (doPolicyRecordWritten s)

/-- The clerks of a room are free. -/
def roomFree (rt : Rt) (room : Nat) : Bool := (List.range 16).all fun i => clerkFree rt (16 * room + i)

/-- ROOM_CODE_RELOAD: all 16 clerks are free, the room loads the new library and resumes, and its change is complete (R220). -/
def doRoomCodeReload (room : Nat) (s : State) : State :=
  let r := roomOf s.rt room
  if r.updating && roomFree s.rt room then
    let c := if s.nv.image3.activeB then s.nv.image3.copyB else s.nv.image3.copyA
    let s := onRt (setRoom room { r with image := imageDigest c, version := c.version, icache := [], updating := false }) s
    let s := writeEntry (moduleEvent 0x010D [BitVec.ofNat 8 room]) s
    match s.rt.disp.changes.find? fun x => x.kind == .liveRoom room with
    | some ch => finishChange ch s
    | none => s
  else s

/-- ROOM_CODE_RELOAD. -/
def execRoomCodeReload (room : Nat) (s : State) : Res := .next (doRoomCodeReload room s)

end Sys2Proof.Machine
end

