-- ==== Sys2Proof/Machine/Journal.lean ====
section
/-! DEFINITION. The commit of a bundle: the journal record, the twin's acknowledgement, the commit mark, the persistent copies
(07 R147, R148, 12 R263, R267, 13 R296), and the twin's side of them (08 R173 to R175). -/

namespace Sys2Proof.Machine

/-! ## The end of a bundle -/

/-- Every member of a committed bundle ends with the status, result and output that it has staged (R147). -/
def releaseMembers (ids : List CmdId) (rt : Rt) : Rt :=
  ids.foldl (fun rt id => match kget rt.cmds id with
    | none => rt
    | some c => setEnded id c.status c.result c.output c.outLen rt) rt

/-- A strongroom command executes JEND: a bundle's member ends and the next one runs; the bundle of one waits for its commit
(R146, R264). -/
def strongDone (id : CmdId) (res out : Bytes) (span : Nat) (rt : Rt) : Rt :=
  let rt := doneCmd id res out span rt
  match kget rt.cmds id with
  | none => rt
  | some c =>
    match c.bundle.bind (kget rt.bundles) with
    | none => rt
    | some x =>
      if x.single && c.stage == .ended && c.status == stDone then modCmd id (fun c => { c with stage := .committing }) rt
      else rt

/-- The journal without a bundle's record. -/
def dropRecord (u : Nat) (l : List JRec) : List JRec := l.filter fun r => r.bundle != some u

/-- A commit step fails: the bundle ends with the step's status, naming the member that the step concerns; a management
change answers its request (R148). -/
def failCommit (u m st : Nat) (s : State) : State :=
  match kget s.rt.bundles u with
  | none => s
  | some x =>
    let res := if st = stStateRefused then stateRes s.rt else zeros 16
    let s := { s with nv := { s.nv with journal := dropRecord u s.nv.journal } }
    match x.members with
    | [] => onRt (fun rt => answerWaiting st (refuseRes rt st) (closeClaimed u { rt with bundles := kdel rt.bundles u })) s
    | id :: _ => if x.single then onRt (failCmd id st res) s else onRt (failBundle u m st res) s

/-! ## Step 1: the journal record -/

/-- Every member has executed JEND. -/
def membersDone (rt : Rt) (x : Bundle) : Bool :=
  x.members.all fun id => match kget rt.cmds id with
    | none => false
    | some c => if x.single then c.stage == .committing else c.stage == .ended && c.status == stDone

/-- The tile still holds a key once a record's changes are applied. -/
def tileHolds (l : List SlotChange) (slots : KMap SlotRec) (t : Nat) : Bool :=
  let m := applySlots l slots
  (List.range 8).any fun i => isOccupied (kgetD m (8 * t + i) SlotRec.free)

/-- The first change whose tile has failed its check, a tile that the bundle empties apart (R258, Table 12.6). -/
def failedChange (rt : Rt) (x : Bundle) : Option SlotChange :=
  x.changes.find? fun c => decide (tileOf c.slot ∈ rt.strong.failed) && tileHolds x.changes rt.strong.slots (tileOf c.slot)

/-- Unretired journal records; at most 32 (R268). -/
def unretired (nv : Nv) : Nat := (nv.journal.filter fun r => !r.retired).length

/-- Tiles in the shadow area (R263). -/
def shadowTiles (rt : Rt) : Nat :=
  (rt.strong.shadow.map fun x => (x.slots.foldl (fun l kv => addTo (tileOf kv.1) l) ([] : List Nat)).length).sum

/-- Some change is a policy change. -/
def hasPolicy (l : List SlotChange) : Bool := l.any SlotChange.policy

/-- The commit must wait: a tile to be demand-loaded, journal space, or shadow space (R80, R263, R268). -/
def commitWaits (s : State) (x : Bundle) : Bool :=
  (tilesOf x.changes).any (fun t => !tileResident s.rt t) || decide (32 ≤ unretired s.nv) ||
    (hasPolicy x.changes && decide (65536 < shadowTiles s.rt + (tilesOf x.changes).length))

/-- The bytes of a record on the link: slot, generation before and image of every change (R173). -/
def recordBytes (l : List PeerChange) : Bytes := l.flatMap fun c => le 4 c.slot ++ le 2 c.genBefore ++ c.image

/-- The record of a bundle, and the record sent to the twin when changes cross a configured link (R173). A record goes to the
twin only while it is paired; otherwise the commit needs no acknowledgement. -/
def writeRecord1 (u : Nat) (x : Bundle) (s : State) : State :=
  let link := s.nv.pairing.mode && s.nv.pairing.twin.isSome && !x.changes.isEmpty
  let q := s.rt.strong.nextSeq
  let ps := s.nv.pairing.nextSeq
  let r : JRec := { seq := q, epoch := s.rt.epoch, bundle := some u, pairSeq := if link then some ps else none,
                    changes := x.changes, entries := x.entries, complete := false, marked := false, retired := false,
                    held := false, acked := !(link && s.rt.peer.paired) }
  let rt := { s.rt with strong := { s.rt.strong with nextSeq := q + 1 }
                        bundles := kset s.rt.bundles u { x with record := some q } }
  { s with
    rt := if link && s.rt.peer.paired then peerSend 2 ps (recordBytes (x.changes.map peerChange)) rt else rt
    nv := { s.nv with journal := s.nv.journal ++ [r]
                      pairing := if link then { s.nv.pairing with nextSeq := ps + 1 } else s.nv.pairing } }

/-- BUNDLE_COMMIT: after every member's JEND the journal record's write begins; a bundle that changes nothing commits as its
output is written (R147). A tile that the record changes and that fails its check as it is read fails the member (R258, R259). -/
def doBundleCommit (u : Nat) (reads : List (Nat × TileImage)) (s : State) : State :=
  match kget s.rt.bundles u with
  | none => s
  | some x =>
    if !(mayRun s.rt && x.closed && x.failed.isNone && !x.committed && x.record.isNone && membersDone s.rt x) then s
    else if x.changes.isEmpty && x.entries.isEmpty then
      onRt (fun rt => releaseMembers x.members { rt with bundles := kset rt.bundles u { x with committed := true } }) s
    else if ledgerFull s.nv && !x.entries.isEmpty then failCommit u (x.first.getD 0) stStateRefused s
    else match x.changes.find? fun c => heldByTwin s c.slot with
      | some c => failCommit u c.member stStateRefused s
      | none =>
        match failedChange s.rt x with
        | some c => failCommit u c.member stTileCheckFail s
        | none =>
          if commitWaits s x then s
          else match x.changes.find? fun c => readBad s.rt reads (tileOf c.slot) with
            | some c => failCommit u c.member stTileCheckFail (onRt (tileEvent 1 (tileOf c.slot)) s)
            | none => writeRecord1 u x s

/-- BUNDLE_COMMIT. -/
def execBundleCommit (b : CommitReads) (s : State) : Res := .next (doBundleCommit b.bundle b.reads s)

/-- Change the journal record of a sequence number. -/
def modRecord (q : Nat) (f : JRec → JRec) (nv : Nv) : Nv :=
  { nv with journal := nv.journal.map fun r => if r.seq = q then f r else r }

/-- The journal record of a sequence number. -/
def recordOf (nv : Nv) (q : Nat) : Option JRec := nv.journal.find? fun r => r.seq == q

/-- Main power is present and power-fail has not latched, so that flash works (R33). -/
def flashWorks (rt : Rt) : Bool := mainPower rt && !rt.power.powerFail

/-- JOURNAL_RECORD_WRITTEN: the record's last page is on flash; a held record is then acknowledged to its origin. A flash
error fails the bundle with DEVICE_FAULT (R148, R173, R267). -/
def doJournalRecordWritten (q : Nat) (ok : Bool) (s : State) : State :=
  match recordOf s.nv q with
  | none => s
  | some r =>
    if r.complete || !flashWorks s.rt then s
    else if ok then
      let s := { s with nv := modRecord q (fun r => { r with complete := true }) s.nv }
      if r.held then onRt (peerSend 3 (r.pairSeq.getD 0) []) s else s
    else match r.bundle with
      | some u => failCommit u (((kget s.rt.bundles u).bind Bundle.first).getD 0) stDeviceFault s
      | none => { s with nv := { s.nv with journal := s.nv.journal.filter fun x => x.seq != q } }

/-- JOURNAL_RECORD_WRITTEN. -/
def execJournalRecordWritten (q : Nat) (ok : Bool) (s : State) : Res := .next (doJournalRecordWritten q ok s)

/-! ## Step 3: the commit mark -/

/-- The prior images of the slots that a record rewrites (R263). -/
def priorImages (rt : Rt) (l : List SlotChange) : KMap SlotRec :=
  l.foldl (fun m c => kset m c.slot (kgetD rt.strong.slots c.slot SlotRec.free)) []

/-- Apply a record to the working copy: slots and versions, and both key caches drop its tiles, and every tile of the house
for a policy change (R262, R267). A failed tile that no longer holds a key is whole again (Table 12.6). -/
def applyWorking (r : JRec) (rt : Rt) : Rt :=
  let tiles := tilesOf r.changes
  let slots := applySlots r.changes rt.strong.slots
  let houses := (r.changes.filter SlotChange.policy).map SlotChange.house
  let rt := dropTiles (fun t => decide (t ∈ tiles) || houses.any fun h => tileOfHouse rt.strong.slots h t) rt
  { rt with strong := { rt.strong with
      slots := slots
      vers := bumpVers tiles rt.strong.vers
      failed := rt.strong.failed.filter fun t => !decide (t ∈ tiles) || tileHolds [] slots t } }

/-- The policy changes of a record commit in order, the prior images kept for the first (R189, R263). `respond` lets the last
one answer the management request that waits. -/
def commitKeys (shadow : KMap SlotRec) (respond : Bool) : List Nat → State → State
  | [], s => s
  | h :: l, s =>
    let x : Shadow := { epoch := s.rt.epoch + 1, house := h, slots := shadow }
    let s := if shadow = [] then s else onRt (fun rt => { rt with strong := { rt.strong with shadow := rt.strong.shadow ++ [x] } }) s
    commitKeys [] respond l (commitChange (.keys h) (respond && decide (l = [])) s)

/-- The twin applies a held record (R173): its sequence number becomes the highest applied. -/
def applyHeld (r : JRec) (p : Pairing) : Pairing := { p with appliedTwin := max p.appliedTwin (r.pairSeq.getD 0) }

/-- The bundle of a committed record ends: the latch that it claimed closes, its members post, a management change is answered
unless a change in progress will (R147, R286, R192). -/
def endBundle (u : Nat) (policy : Bool) (rt : Rt) : Rt :=
  match kget rt.bundles u with
  | none => rt
  | some x =>
    let rt := closeClaimed u { rt with bundles := kset rt.bundles u { x with committed := true, changes := [], reads := [], entries := [] } }
    if x.members = [] then
      let rt := { rt with bundles := kdel rt.bundles u }
      if policy then rt else answerWaiting stDone ((rt.waiting.map Waiting.result).getD []) rt
    else
      let rt := releaseMembers x.members rt
      if x.single then
        { x.members.foldl (fun r id => modCmd id (fun c => { c with bundle := none }) r) rt with bundles := kdel rt.bundles u }
      else rt

/-- The epoch of an entry's commit: that of the policy change of its slot, the changes taking consecutive epochs from the one
after `e`, or the last when the entry's slot has none (R189, R192, Table 13.10). -/
def entryEpoch (e : Nat) (slots : List Nat) (x : LedgerEntry) : Nat :=
  if x.slot ∈ slots then e + slots.idxOf x.slot + 1 else e + slots.length

/-- The commit mark of a record is on flash: the record is applied, its policy changes commit, its ledger entries are written,
and its bundle ends (R147, R262, R263, R267, R296). -/
def commitRecord (r : JRec) (s : State) : State :=
  let pol := (r.changes.filter SlotChange.policy).map SlotChange.house
  let epochOf := entryEpoch s.rt.epoch ((r.changes.filter SlotChange.policy).map SlotChange.slot)
  let shadow := if pol = [] then [] else priorImages s.rt r.changes
  let lone := match r.bundle.bind (kget s.rt.bundles) with
    | some x => x.members.isEmpty
    | none => false
  let s := onRt (applyWorking r) s
  let s := commitKeys shadow lone pol s
  let s := writeEntriesAt epochOf r.entries s
  let nv := modRecord r.seq (fun r => { r with marked := true, entries := [], epoch := s.rt.epoch }) s.nv
  let nv := { nv with pairing := if r.held then applyHeld r nv.pairing else retainRecord r nv.pairing }
  let rt := match r.bundle with
    | some u => endBundle u (!pol.isEmpty) s.rt
    | none => s.rt
  let rt := match r.pairSeq with
    | some q => if r.held || !rt.peer.paired then rt else peerSend 5 q [] rt
    | none => rt
  { s with nv := nv, rt := rt }

/-- COMMIT_MARK_WRITTEN: the mark follows the record and the twin's acknowledgement, or the origin's notice for a held record;
after a fatal fault or the rip line no mark is written (R173, R267, R483). -/
def doCommitMarkWritten (q : Nat) (s : State) : State :=
  match recordOf s.nv q with
  | none => s
  | some r => if r.complete && r.acked && !r.marked && flashWorks s.rt && mayRun s.rt then commitRecord r s else s

/-- COMMIT_MARK_WRITTEN. -/
def execCommitMarkWritten (q : Nat) (s : State) : Res := .next (doCommitMarkWritten q s)

/-- PERSISTENT_TILE_WRITE: a committed record's tiles are written to both persistent copies and its retire mark follows; the
epoch mark covers its epoch first (R76, R267). -/
def doPersistentTileWrite (q : Nat) (s : State) : State :=
  match recordOf s.nv q with
  | none => s
  | some r =>
    if r.marked && !r.retired && flashWorks s.rt then
      let nv := raiseMark r.epoch s.nv
      { s with nv := { nv with
          slots := applySlots r.changes nv.slots
          vers := bumpVers (tilesOf r.changes) nv.vers
          journal := nv.journal.filter fun x => x.seq != q } }
    else s

/-- PERSISTENT_TILE_WRITE. -/
def execPersistentTileWrite (q : Nat) (s : State) : Res := .next (doPersistentTileWrite q s)

/-! ## The twin stops acknowledging (R175, R195) -/

/-- The twin is treated as not paired: PEER_LINK, PEER_LOST, and every record that waits for it commits alone (R175). -/
def twinLost (s : State) : State :=
  let nv := { s.nv with journal := s.nv.journal.map fun r => if r.held then r else { r with acked := true } }
  { s with nv := nv, rt := unpair s.rt }

/-- A bundle's record waits for the twin. -/
def awaitsTwin (nv : Nv) (u : Nat) : Bool := nv.journal.any fun r => r.bundle == some u && !r.acked

/-- PEER_ACK_TIMEOUT: 5 ms without an acknowledgement. -/
def doPeerAckTimeout (u : Nat) (s : State) : State :=
  if s.rt.peer.paired && awaitsTwin s.nv u && flashWorks s.rt then twinLost s else s

/-- PEER_ACK_TIMEOUT. -/
def execPeerAckTimeout (u : Nat) (s : State) : Res := .next (doPeerAckTimeout u s)

/-- The earliest change that touches a bundle of older-epoch commands. -/
def bundleChange (rt : Rt) (u : Nat) : Option Change :=
  rt.disp.changes.find? fun ch => rt.cmds.any fun kv => kv.2.bundle == some u && touchesCmd rt ch kv.2

/-- DRAIN_TWIN_TIMEOUT: 4.7 ms after the commit of the change that it delays, a bundle without an acknowledgement commits
alone (R195). -/
def doDrainTwinTimeout (u : Nat) (s : State) : State :=
  match bundleChange s.rt u with
  | some ch =>
    if s.rt.peer.paired && awaitsTwin s.nv u && flashWorks s.rt then
      twinLost (onRt (advanceTo (ch.commitAt + drainTwinLimit)) s)
    else s
  | none => s

/-- DRAIN_TWIN_TIMEOUT. -/
def execDrainTwinTimeout (u : Nat) (s : State) : Res := .next (doDrainTwinTimeout u s)

end Sys2Proof.Machine
end

