-- ==== Sys2Proof/Machine/Registers.lean ====
section
/-! DEFINITION. The registers that the host sees (25): what a read of BAR0 or BAR2 returns, the latching reads (R456, R470), and
host writes (R110, R468): MSI-X (R113, R477), the mailbox (R116, R473), tally presets (19 R403, R404), status bits and
doorbells. Offsets of BAR2 are numbered from 400000h, behind BAR0; 1400000h stands for the Function Mask's word of the MSI-X
capability (log 27). -/

namespace Sys2Proof.Machine

/-- A 32-bit register value. -/
def w32 (n : Nat) : BitVec 32 := BitVec.ofNat 32 n

/-- A flag at a bit. -/
def bit (i : Nat) (b : Bool) : Nat := if b then 2 ^ i else 0

/-! ## Blocks read only -/

/-- The copy of an image in use. -/
def activeCopy (x : Image) : ImageCopy := if x.activeB then x.copyB else x.copyA

/-- The identity block (Table 25.3). -/
def identityReg (s : State) (off : Nat) : Nat :=
  match off with
  | 0x00 => 0x57473438
  | 0x04 => 0x12D4 * 65536 + s.otp.hwRev.toNat * 256
  | 0x08 => leAt s.otp.serial 0 4
  | 0x0C => leAt s.otp.serial 4 4
  | 0x10 => leAt s.otp.serial 8 4
  | 0x14 => leAt s.otp.serial 12 4
  | 0x18 => s.otp.romRev.toNat
  | 0x1C => bit 0 s.nv.image1.activeB + bit 1 s.nv.image2.activeB + bit 2 s.nv.image3.activeB
  | 0x20 => (activeCopy s.nv.image2).version.toNat
  | 0x24 => (activeCopy s.nv.image1).version.toNat
  | 0x28 => (activeCopy s.nv.image3).version.toNat
  | 0x30 => 0x04001000
  | 0x34 => 0x00020000
  | 0x38 => 0x01110C06
  | _ => 0

/-- A partition map is complete (R198). -/
def partitioned (rt : Rt) : Bool := rt.disp.part.isSome && !(rt.disp.changes.any fun c => c.kind == .partition)

/-- BOOT_STATUS. -/
def bootStatus (s : State) : Nat :=
  let b := s.rt.boot
  bit 21 s.nv.pairing.mode + bit 20 (partitioned s.rt) + bit 19 s.rt.peer.paired + bit 18 b.auxLow + bit 17 b.resident +
  bit 16 b.serviceReady + b.lcState.toNat * 256 + b.stage.toNat

/-- The life-cycle and boot status block (Table 25.4), at its offsets from 001000h. -/
def bootReg (s : State) (off : Nat) : Nat :=
  let rt := s.rt
  match off with
  | 0x00 => bootStatus s
  | 0x04 => min rt.boot.moduleResets 255 * 256 + rt.boot.lastReset
  | 0x08 => rt.link.selIde * 65536 + bit 13 rt.link.linkIde + bit 12 rt.link.flit + rt.link.rate * 256 + rt.link.width
  | 0x0C => min rt.boot.srTime 0xFFFFF
  | 0x10 => rt.boot.notRecreated.length * 65536 + rt.booths.length
  | 0x14 => rt.cellB * 65536 + rt.cellA
  | 0x18 => (if rt.window.isOpen then min 600 ((rt.window.endsAt - rt.now) / 1000000000) * 65536 else 0) +
      bit 1 s.gon.doorOpen + bit 0 rt.window.isOpen
  | 0x20 => rt.epoch % 2 ^ 32
  | 0x24 => match rt.rlatch.epochHi with
    | some v => v.toNat
    | none => rt.epoch / 2 ^ 32
  | _ => 0

/-- The mailbox block (Table 25.5). -/
def mailboxReg (rt : Rt) (off : Nat) : Nat :=
  if off = 4 then bit 2 rt.mbx.overrun + bit 1 rt.mbx.done + bit 0 rt.mbx.busy
  else if off = 8 then rt.mbx.seq.toNat
  else if 0x800 ≤ off ∧ off < 0x1000 then (kgetD rt.mbx.req ((off - 0x800) / 4) 0).toNat
  else if 0x1000 ≤ off ∧ off < 0x1800 then leAt rt.mbx.resp (off - 0x1000) 4
  else 0

/-- The 32 bytes of a fault record (22 Table 22.2). -/
def faultBytes (r : FaultRec) : Bytes :=
  let c := match r.cls with
    | .corrected => 0
    | .contained => 1
    | .fatal => 2
  le 4 r.seq ++ le 2 (faultCode r.source) ++
  bytesOf [c, b2n r.escalated + 2 * b2n r.severe + 4 * b2n r.quiet + 8 * b2n r.boothAttr] ++ le 4 r.epoch.toNat ++
  le 8 r.time ++ le 2 (r.island.getD 0xFFFF) ++ le 2 (r.booth.getD 0xFFFF) ++ padTo 8 (r.detail.take 8)

/-- The bytes of an optional record; zero without one. -/
def faultBytesOpt (r : Option FaultRec) : Bytes :=
  match r with
  | some r => faultBytes r
  | none => zeros 32

/-- The 16 bytes of a gondola log entry (21 Table 21.6). -/
def glogBytes (e : GLogEntry) : Bytes :=
  let b := le 6 e.stamp.toNat ++ [e.source, e.site, e.flags, 0] ++ le 2 e.episode.toNat
  b ++ le 4 (crc32c b)

/-- Entry j as the firmware last read it: a lost one reads source FFh and zeros (R438). -/
def glogAt (f : Collector) (j : Nat) : Bytes :=
  if j ∈ f.glogLost then zeros 6 ++ [0xFF] ++ zeros 9
  else match kget f.glog j with
    | some e => glogBytes e
    | none => zeros 16

/-- The fault collector block (22 Table 22.3). -/
def faultReg (f : Collector) (off : Nat) : Nat :=
  if off = 0x000 then
    f.cntFatal * 2 ^ 24 + f.cntCont * 2 ^ 16 + f.cntCorr * 2 ^ 8 + bit 4 f.pendBooth + bit 3 f.halted + bit 2 f.pendFatal +
      bit 1 f.pendCont + bit 0 f.pendCorr
  else if off = 0x004 then f.nextSeq
  else if off = 0x008 then f.overwritten * 65536 + f.newest
  else if off = 0x00C then f.quiet * 65536 + f.cntBooth * 256 + f.irqMask.toNat
  else if 0x40 ≤ off ∧ off < 0x60 then leAt (faultBytesOpt f.firstCorr) (off - 0x40) 4
  else if 0x60 ≤ off ∧ off < 0x80 then leAt (faultBytesOpt f.firstCont) (off - 0x60) 4
  else if 0x80 ≤ off ∧ off < 0xA0 then leAt (faultBytesOpt f.firstFatal) (off - 0x80) 4
  else if 0x100 ≤ off ∧ off < 0x600 then leAt (faultBytesOpt (kget f.ring ((off - 0x100) / 32))) ((off - 0x100) % 32) 4
  else if 0x800 ≤ off ∧ off < 0xC00 then leAt (glogAt f ((off - 0x800) / 16)) ((off - 0x800) % 16) 4
  else if 0xC00 ≤ off ∧ off < 0xC10 then
    leAt (match f.glogFirst with
      | some e => glogBytes e
      | none => zeros 16) (off - 0xC00) 4
  else if off = 0xC10 then f.glogOver * 65536 + f.glogNext
  else 0

/-- ALERT_STATUS (22 Table 22.4). -/
def alertReg (a : Alert) (off : Nat) : Nat :=
  if off = 0 then bit 15 a.pin + bit 14 a.widthActive + bit 13 a.tamperHold + bit 7 a.hold + a.minWidth else 0

/-- The code of an island's state (Table 25.7). -/
def stateCode : IslandState → Nat
  | .gated => 0 | .starting => 1 | .ready => 2 | .stopping => 3

/-- STATE of an island: GA always reads 2, GW 0 while it does not run (R476); BL and PS power up with the IOD rail (R56). -/
def islandStateCode (rt : Rt) (i : Nat) : Nat :=
  if i = 58 then 2 else if i = 59 then 0 else if i = 46 ∨ i = 57 then (if powered rt then 2 else 0) else stateCode (islandOf rt i).st

/-- An island has an entry in a ballast FIFO. -/
def islandWaits (rt : Rt) (i : Nat) : Bool := (fifoOf rt (islandRail i)).any fun e => decide (e.island = i)

/-- The island status word (Table 25.7). -/
def islandWord (rt : Rt) (i : Nat) : Nat :=
  (islandOf rt i).throttle * 2 ^ 24 + islandGating i * 2 ^ 20 + islandClass i * 2 ^ 16 + islandCost i * 256 +
    bit 2 (islandWaits rt i) + islandStateCode rt i

/-- One bit for each of `n` islands from `lo`. -/
def islandBits (p : Nat → Bool) (lo n : Nat) : Nat := forN n (fun k a => a + bit k (p (lo + k))) 0

/-- Bits of the ready and of the waiting islands. -/
def readyBits (rt : Rt) (lo n : Nat) : Nat := islandBits (fun i => islandStateCode rt i == 2) lo n
def waitBits (rt : Rt) (lo n : Nat) : Nat := islandBits (islandWaits rt) lo n

/-- The code of the decoded cable rating. -/
def cableCode : Cable → Nat
  | .w600 => 0 | .w450 => 1 | .w300 => 2 | .w150 => 3

/-- The ballast and island status block (Table 25.6). A temperature of a die that is powered down reads 8000h. -/
def ballastReg (rt : Rt) (off : Nat) : Nat :=
  let b := rt.ballast
  let temp := fun (d : Nat) =>
    if d < 2 && !diePowered rt d then 0x80008000
    else (kgetD b.detB d 0x8000#16).toNat * 65536 + (kgetD b.detA d 0x8000#16).toNat
  if off = 0x000 then bit 24 b.idleGating + b.tokIod / 250 * 2 ^ 16 + b.tokCd1 / 250 * 2 ^ 8 + b.tokCd0 / 250
  else if off = 0x004 then b.fifoIod.length * 2 ^ 16 + b.fifoCd1.length * 2 ^ 8 + b.fifoCd0.length
  else if off = 0x008 then if b.idleGating then b.idlePeriod else 0
  else if off = 0x00C then min b.waitMax 0xFFFF
  else if off = 0x010 then readyBits rt 0 32
  else if off = 0x014 then (match rt.rlatch.readyHi with
    | some v => v.toNat
    | none => readyBits rt 32 28)
  else if off = 0x018 then waitBits rt 0 32
  else if off = 0x01C then (match rt.rlatch.waitHi with
    | some v => v.toNat
    | none => waitBits rt 32 28)
  else if 0x020 ≤ off ∧ off < 0x110 then islandWord rt ((off - 0x20) / 4)
  else if 0x200 ≤ off ∧ off < 0x20C then temp ((off - 0x200) / 4)
  else if off = 0x20C then b.inlet.toNat
  else if off = 0x210 then cableCode rt.power.cable * 65536 + min b.power 0xFFFF
  else 0

/-- The code of a clockmaker state (23 Table 23.1). -/
def clockCode : ClockState → Nat
  | .unset => 0 | .recovered => 1 | .set => 2 | .locked => 3 | .holdover => 4

/-- A signed value saturated to 32 bits. -/
def satInt (v : Int) : Nat := wrap 32 (max (-2147483648) (min 2147483647 v))

/-- The clockmaker block (23 Table 23.3). -/
def clockReg (s : State) (off : Nat) : Nat :=
  let c := s.rt.clock
  let sec := s.rt.rlatch.timeSec.getD c.sec
  match off with
  | 0x00 => c.ns
  | 0x04 => sec % 2 ^ 32
  | 0x08 => sec / 2 ^ 32
  | 0x0C => c.clockClass * 2 ^ 24 + c.utcOffset % 256 * 2 ^ 16 + s.nv.clockCfg.source * 64 + bit 5 c.sourceRefused +
      bit 4 c.warmup + clockCode c.st
  | 0x10 => min c.uncertainty 0xFFFFFFFF
  | 0x14 => min c.stepCount 0xFFFF * 65536 + min c.discHours 0xFFFF
  | 0x18 => satInt c.lastOffset
  | 0x1C => bit 31 c.ppsValid + c.ppsInNs
  | _ => 0

/-- The code of a source's state (16 Table 16.5). -/
def srcCode : SrcState → Nat
  | .off => 0 | .test => 1 | .inService => 2 | .standby => 3 | .out => 4 | .retired => 5 | .pattern => 6

/-- A test pattern replaces a source (R352). -/
def patterned (rt : Rt) (d i : Nat) : Bool := decide ((d, i) ∈ rt.patterns)

/-- MINT_DIE: EXHAUSTED, SEEDED, ONE_SOURCE and the four states. -/
def mintDie (rt : Rt) (d : Nat) : Nat :=
  let m := mintOf rt d
  let st := fun (i : Fin 4) => if patterned rt d i.val then 6 else srcCode (srcOf m i).st
  bit 18 m.exhausted + bit 17 m.seeded + bit 16 (decide ((inServiceList m).length = 1)) + st 3 * 4096 + st 2 * 256 +
    st 1 * 16 + st 0

/-- SRC_FAILS. -/
def srcFails (m : Mint) : Nat := m.ml1.fails * 2 ^ 24 + m.ml0.fails * 2 ^ 16 + m.ro1.fails * 2 ^ 8 + m.ro0.fails

/-- The mint status block (16 Table 16.5). -/
def mintReg (rt : Rt) (off : Nat) : Nat :=
  let tp := fun d => rt.patterns.any fun x => decide (x.1 = d)
  match off with
  | 0x00 => bit 3 (tp 1) + bit 2 (tp 0) + bit 1 rt.mint1.forerunner + bit 0 rt.mint0.forerunner
  | 0x04 => rt.mint1.cnt * 2 ^ 24 + rt.mint0.cnt * 2 ^ 16 + bit 1 rt.mint1.evt + bit 0 rt.mint0.evt
  | 0x10 => mintDie rt 0
  | 0x14 => mintDie rt 1
  | 0x20 => srcFails rt.mint0
  | 0x24 => srcFails rt.mint1
  | 0x30 => rt.mint0.blocks
  | 0x34 => rt.mint1.blocks
  | _ => 0

/-! ## Tally presets (19) -/

/-- LOCKED: an open booth with RING_TALLY, a listener with session tallies, or a command in flight uses the preset (Table
19.3). -/
def presetLocked (s : State) (p : Nat) : Bool :=
  (s.rt.booths.any fun kv => kv.2.cfg.ringTally && decide (kv.2.cfg.preset = p)) ||
  (s.nv.listeners.any fun kv => kv.2.tallies &&
    (match boothOf s.rt kv.2.booth with
     | some x => decide (x.cfg.preset = p)
     | none => false)) ||
  (s.rt.cmds.any fun kv => decide (kv.2.preset = p) && (hasTallyIn kv.2.desc || hasTallyOut kv.2.desc))

/-- The preset registers and tally status (Tables 19.3, 19.4). -/
def tallyReg (s : State) (off : Nat) : Nat :=
  let t := s.rt.tally
  if off < 0x100 then
    let p := presetOf s.rt (off / 32)
    match off % 32 with
    | 0x00 => bit 31 p.valid + bit 30 (presetLocked s (off / 32)) + bit 9 p.refout + bit 8 p.refin + p.width % 128
    | 0x08 => p.poly.toNat % 2 ^ 32
    | 0x0C => p.poly.toNat / 2 ^ 32
    | 0x10 => p.init.toNat % 2 ^ 32
    | 0x14 => p.init.toNat / 2 ^ 32
    | 0x18 => p.xorout.toNat % 2 ^ 32
    | 0x1C => p.xorout.toNat / 2 ^ 32
    | _ => 0
  else if off = 0x100 then t.cnt * 2 ^ 24 + bit 0 t.mismatch
  else if off = 0x104 then bit 16 t.session + t.booth
  else 0

/-! ## Violation records (20 Table 20.5) -/

/-- VALID of a record. -/
def recValid (rt : Rt) (b : Nat) : Bool := (kgetD rt.bridles.recs b VRec.zero).valid

/-- The violation record block. -/
def bridleReg (rt : Rt) (off : Nat) : Nat :=
  if off < 0x500 then
    let v := kgetD rt.bridles.recs (off / 32) VRec.zero
    match off % 32 with
    | 0x00 => bit 31 v.valid + v.cause * 2 ^ 25 + v.count * 2 ^ 16 + v.kind
    | 0x04 => v.house * 2 ^ 21 + v.initiator
    | 0x08 => v.addr % 2 ^ 32
    | 0x0C => v.addr / 2 ^ 32
    | 0x10 => v.pasid
    | 0x14 => v.epoch.toNat
    | 0x18 => v.booth * 65536
    | _ => 0
  else if off = 0x500 then islandBits (recValid rt) 0 32
  else if off = 0x504 then islandBits (recValid rt) 32 8
  else 0

/-! ## MSI-X and doorbells -/

/-- The MSI-X table and pending bits (Table 25.8). -/
def msixReg (m : Msix) (off : Nat) : Nat :=
  if off < 0x10000 then
    let e := msixEntry m (off / 16)
    match off % 16 with
    | 0 => e.addrLo.toNat
    | 4 => e.addrHi.toNat
    | 8 => e.data.toNat
    | _ => b2n e.mask
  else if off < 0x10200 then islandBits (fun v => decide (v ∈ m.pending)) ((off - 0x10000) / 4 * 32) 32
  else 0

/-- A doorbell page (06 Table 6.3): zero while the booth is closed or closing, and before the seal (R19, R79). -/
def doorbellReg (rt : Rt) (off : Nat) : Nat :=
  match boothOf rt (off / 4096) with
  | none => 0
  | some x =>
    if !doorbellLive rt x then 0
    else match off % 4096 with
      | 0 => x.sqTail
      | 4 => x.cqHead
      | _ => 0

/-- Configuration space as far as R108 gives it (log 27): the Function Mask in Message Control of MSI-X, the class code,
and Device Control. -/
def configReg (rt : Rt) (off : Nat) : Nat :=
  match off with
  | 0x0 => 2 ^ 14 * b2n rt.msix.funcMask
  | 0x4 => 0x108000
  | 0x8 => 2 ^ 4 * b2n rt.link.relaxed + 2 ^ 5 * rt.link.payload + 2 ^ 12 * rt.link.readReq
  | _ => 0

/-- The word that a read of an aligned offset returns when its block is served. -/
def regValue (s : State) (off : Nat) : Nat :=
  if off < 0x1000 then identityReg s off
  else if off < 0x2000 then bootReg s (off - 0x1000)
  else if off < 0x4000 then mailboxReg s.rt (off - 0x2000)
  else if off < 0x5000 then faultReg s.rt.fault (off - 0x4000)
  else if off < 0x6000 then alertReg s.rt.alert (off - 0x5000)
  else if off < 0x7000 then ballastReg s.rt (off - 0x6000)
  else if off < 0x8000 then clockReg s (off - 0x7000)
  else if off < 0x9000 then mintReg s.rt (off - 0x8000)
  else if off < 0xA000 then tallyReg s (off - 0x9000)
  else if off < 0xB000 then bridleReg s.rt (off - 0xA000)
  else if off < 0x100000 then 0
  else if off < 0x400000 then msixReg s.rt.msix (off - 0x100000)
  else if off < 0x1400000 then doorbellReg s.rt (off - 0x400000)
  else configReg s.rt (off - 0x1400000)

/-- What a host read returns: all ones for another size or alignment than 32 bits, zero where the block is not served (R110,
R469). -/
def barRead (s : State) (off size : Nat) : BitVec 32 :=
  if size ≠ 4 ∨ off % 4 ≠ 0 then 0xFFFFFFFF
  else if blockServed s.rt off then w32 (regValue s off) else 0

/-- The latches of R456 and R470 that a read of an offset sets. -/
def latchRead (off : Nat) (rt : Rt) : Rt :=
  let l := rt.rlatch
  match off with
  | 0x1020 => { rt with rlatch := { l with epochHi := some (w32 (rt.epoch / 2 ^ 32)) } }
  | 0x6010 => { rt with rlatch := { l with readyHi := some (w32 (readyBits rt 32 28)) } }
  | 0x6018 => { rt with rlatch := { l with waitHi := some (w32 (waitBits rt 32 28)) } }
  | 0x7000 => { rt with rlatch := { l with timeSec := some rt.clock.sec } }
  | _ => rt

/-- An access to configuration space that the host must retry (R84). -/
def mustRetry (rt : Rt) (off : Nat) : Bool := decide (0x1400000 ≤ off) && !configServed rt

/-- LATCHING_REGISTER_READ: the value goes to the host; an _LO register or TIME_NS latches its companions (R456, R470). -/
def doLatchingRegisterRead (off size : Nat) (s : State) : State :=
  if !hostReaches s.rt then s
  else if mustRetry s.rt off then onRt (emit (.configRetry off)) s
  else
    let v := barRead s off size
    onRt (fun rt =>
      let rt := if size = 4 ∧ blockServed rt off then latchRead off rt else rt
      emit (.readData off v) rt) s

/-- LATCHING_REGISTER_READ. -/
def execLatchingRegisterRead (off size : Nat) (s : State) : Res := .next (doLatchingRegisterRead off size s)

/-! ## MSI-X writes (R113, R477) -/

/-- Send the pending messages of vectors that are not masked. -/
def sendPending (rt : Rt) : Rt :=
  rt.msix.pending.foldl (fun r v => signal v { r with msix := { r.msix with pending := r.msix.pending.filter (· ≠ v) } }) rt

/-- A write to the MSI-X table: one field of an entry; clearing MASK sends a pending message. -/
def writeMsix (off : Nat) (v : BitVec 32) (rt : Rt) : Rt :=
  let k := off / 16
  let e := msixEntry rt.msix k
  let e' := match off % 16 with
    | 0 => { e with addrLo := v &&& 0xFFFFFFFC }
    | 4 => { e with addrHi := v }
    | 8 => { e with data := v }
    | _ => { e with mask := v.getLsbD 0 }
  sendPending { rt with msix := { rt.msix with table := kput MsixEntry.reset rt.msix.table k e' } }

/-- MSIX_MASK_CLEAR: a vector's mask, or the Function Mask, is cleared. -/
def doMsixMaskClear (v : Option Nat) (rt : Rt) : Rt :=
  if !hostReaches rt then rt
  else match v with
    | none => sendPending { rt with msix := { rt.msix with funcMask := false } }
    | some k => if k < 4096 then writeMsix (16 * k + 12) 0 rt else rt

/-- MSIX_MASK_CLEAR. -/
def execMsixMaskClear (v : Option Nat) (s : State) : Res := .next (onRt (doMsixMaskClear v) s)

/-! ## Mailbox writes (R116, R367, R473) -/

/-- The codes of Table 17.9. -/
def listedCodes : List Nat :=
  [0x01, 0x02, 0x03, 0x04, 0x10, 0x11, 0x12, 0x13, 0x15, 0x16, 0x18, 0x20, 0x22] ++
  [0x30, 0x31, 0x32, 0x33, 0x34, 0x35, 0x36, 0x37, 0x38, 0x40, 0x41, 0x42, 0x43] ++
  [0x50, 0x51, 0x52, 0x53, 0x60, 0x61, 0x70, 0x71, 0x72, 0x73, 0x74, 0x75, 0x80, 0x81, 0x82]

/-- A request that no row of the module's commands serves: a code not listed, or CLOCK_CONFIG or FAULT_CONFIG with an
undefined operation. -/
def unlisted (q : Req) : Bool :=
  !decide (q.code ∈ listedCodes) ||
    (decide (q.code ∈ [0x22, 0x82]) && !decide (1 ≤ byteAt q.params 0 ∧ byteAt q.params 0 ≤ 4))

/-- A head-clerk interrupt wakes the head clerks' WAITI (11 R251). -/
def wakeHead (rt : Rt) : Rt :=
  let k := clerkOf rt 128
  if k.st == .stalled .interrupt then setClerk 128 { k with st := .running } rt else rt

/-- MBX_GO while BUSY is set: OVERRUN, and nothing is submitted. -/
def doMbxGoWhileBusy (rt : Rt) : Rt :=
  if hostReaches rt && rt.mbx.busy then { rt with mbx := { rt.mbx with overrun := true } } else rt

/-- MBX_GO_WHILE_BUSY. -/
def execMbxGoWhileBusy (s : State) : Res := .next (onRt doMbxGoWhileBusy s)

/-- MBX_GO: BUSY is set and the firmware takes the request, which its own row completes; one that no row serves completes at
once, refused by the state or with MALFORMED (R116, R367). -/
def mbxGo (rt : Rt) : Rt :=
  if rt.mbx.busy then doMbxGoWhileBusy rt
  else
    let rt := wakeHead { rt with mbx := { rt.mbx with busy := true, goAt := rt.now } }
    let q := parseReq (reqBuffer rt.mbx)
    if unlisted q then
      refuse .mailbox q (match stateRefuses rt q.code with
        | some st => st
        | none => stMalformed) rt
    else rt

/-- A write to the mailbox block. -/
def writeMailbox (off : Nat) (v : BitVec 32) (rt : Rt) : Rt :=
  if off = 0 then (if v.getLsbD 0 then mbxGo rt else rt)
  else if off = 4 then
    { rt with mbx := { rt.mbx with done := rt.mbx.done && !v.getLsbD 1, overrun := rt.mbx.overrun && !v.getLsbD 2 } }
  else if 0x800 ≤ off ∧ off < 0x1000 ∧ !rt.mbx.busy then
    { rt with mbx := { rt.mbx with req := kput 0 rt.mbx.req ((off - 0x800) / 4) v } }
  else rt

/-! ## Tally preset writes (R403, R404) -/

/-- The check of R395 on a preset. -/
def presetOk (p : Preset) : Bool :=
  decide (8 ≤ p.width ∧ p.width ≤ 64 ∧ p.poly.toNat < 2 ^ p.width ∧ p.init.toNat < 2 ^ p.width ∧
    p.xorout.toNat < 2 ^ p.width) && p.poly.getLsbD 0

/-- Replace a preset's registers. -/
def setPreset (k : Nat) (p : Preset) (s : State) : State :=
  onRt (fun rt => { rt with tally := { rt.tally with presets := kput Preset.zero rt.tally.presets k p } }) s

/-- TALLY_PRESET_VALIDATE: VALID written as 1. A preset that passes is persisted (R404). -/
def doTallyPresetValidate (k : Nat) (s : State) : State :=
  let p := presetOf s.rt k
  if decide (3 ≤ k ∧ k ≤ 7) && blockServed s.rt 0x9000 && !presetLocked s k && !p.valid && presetOk p then
    let p := { p with valid := true }
    let s := setPreset k p s
    { s with nv := { s.nv with presets := kput Preset.zero s.nv.presets k p } }
  else s

/-- TALLY_PRESET_VALIDATE. -/
def execTallyPresetValidate (p : Nat) (s : State) : Res := .next (doTallyPresetValidate p s)

/-- One half of a 64-bit value. -/
def setHalf (hi : Bool) (v : BitVec 32) (x : BitVec 64) : BitVec 64 :=
  if hi then v ++ x.setWidth 32 else (x >>> 32).setWidth 32 ++ v

/-- A write to a preset's registers: fields while neither VALID nor LOCKED is set, VALID while LOCKED is clear. -/
def writePreset (k off : Nat) (v : BitVec 32) (s : State) : State :=
  let p := presetOf s.rt k
  let locked := presetLocked s k
  let free := !locked && !p.valid
  let put := fun (p' : Preset) => if free then setPreset k p' s else s
  if k < 3 then s
  else match off with
    | 0x00 =>
      if v.getLsbD 31 then
        doTallyPresetValidate k (put { p with width := v.toNat % 128, refin := v.getLsbD 8, refout := v.getLsbD 9 })
      else if p.valid && !locked then
        let p' := { p with valid := false }
        let s := setPreset k p' s
        { s with nv := { s.nv with presets := kput Preset.zero s.nv.presets k p' } }
      else put { p with width := v.toNat % 128, refin := v.getLsbD 8, refout := v.getLsbD 9 }
    | 0x08 => put { p with poly := setHalf false v p.poly }
    | 0x0C => put { p with poly := setHalf true v p.poly }
    | 0x10 => put { p with init := setHalf false v p.init }
    | 0x14 => put { p with init := setHalf true v p.init }
    | 0x18 => put { p with xorout := setHalf false v p.xorout }
    | 0x1C => put { p with xorout := setHalf true v p.xorout }
    | _ => s

/-- A write to the tally block. -/
def writeTally (off : Nat) (v : BitVec 32) (s : State) : State :=
  if off < 0x100 then writePreset (off / 32) (off % 32) v s
  else if off = 0x100 then
    let t := s.rt.tally
    let r := clearFlag (v.getLsbD 0) t.mismatch t.cnt
    onRt (fun rt => { rt with tally := { t with mismatch := r.1, cnt := r.2 } }) s
  else s

/-! ## REGISTER_WRITE -/

/-- EVT0 and EVT1 (Table 16.5). -/
def writeMintEvents (v : BitVec 32) (rt : Rt) : Rt :=
  let f := fun (i : Nat) (m : Mint) => let r := clearFlag (v.getLsbD i) m.evt m.cnt; { m with evt := r.1, cnt := r.2 }
  { rt with mint0 := f 0 rt.mint0, mint1 := f 1 rt.mint1 }

/-- A write to configuration space: the Function Mask, and Device Control with Relaxed Ordering and the two sizes, whose codes above the
sizes of Table 6.1 are ignored (R108, log 27). -/
def writeConfig (off : Nat) (v : BitVec 32) (rt : Rt) : Rt :=
  if off = 0x1400000 then sendPending { rt with msix := { rt.msix with funcMask := v.getLsbD 14 } }
  else if off = 0x1400008 then
    let p := bitsAt v.toNat 5 3
    let r := bitsAt v.toNat 12 3
    { rt with link := { rt.link with relaxed := v.getLsbD 4, payload := if p ≤ 2 then p else rt.link.payload,
                                     readReq := if r ≤ 5 then r else rt.link.readReq } }
  else rt

/-- A write of 32 bits to a served block: the host-writable fields of Table 25.1, and nothing else. -/
def writeReg (off : Nat) (v : BitVec 32) (s : State) : State :=
  if 0x2000 ≤ off ∧ off < 0x4000 then onRt (writeMailbox (off - 0x2000) v) s
  else if off = 0x4000 then onRt (doFaultAck v) s
  else if off = 0x400C then onRt (fun rt => { rt with fault := { rt.fault with irqMask := v.setWidth 4 } }) s
  else if off = 0x700C then
    onRt (fun rt => { rt with clock := { rt.clock with sourceRefused := rt.clock.sourceRefused && !v.getLsbD 5 } }) s
  else if off = 0x8004 then onRt (writeMintEvents v) s
  else if 0x9000 ≤ off ∧ off < 0xA000 then writeTally (off - 0x9000) v s
  else if 0x100000 ≤ off ∧ off < 0x110000 then onRt (writeMsix (off - 0x100000) v) s
  else if 0x400000 ≤ off ∧ off < 0x1400000 then
    let b := (off - 0x400000) / 4096
    match (off - 0x400000) % 4096 with
    | 0 => onRt (doSqTailWrite b v) s
    | 4 => onRt (doCqHeadWrite b v) s
    | _ => s
  else onRt (writeConfig off v) s

/-- REGISTER_WRITE: writes of another size or alignment, and to blocks not served, are ignored (R110, R469). -/
def doRegisterWrite (off size : Nat) (v : BitVec 32) (s : State) : State :=
  if hostReaches s.rt && mustRetry s.rt off then onRt (emit (.configRetry off)) s
  else if size = 4 ∧ off % 4 = 0 ∧ blockServed s.rt off then writeReg off v s else s

/-- REGISTER_WRITE. -/
def execRegisterWrite (off size : Nat) (v : BitVec 32) (s : State) : Res := .next (doRegisterWrite off size v s)

end Sys2Proof.Machine
end

