-- ==== Sys2Proof/Machine/Attest.lean ====
section
/-! DEFINITION. Identity keys, the attestation statement (24 R457 to R466), time tokens (23 R452), ledger seals (13 R295), and the
waking of CD0 for one request (04 R72, 21 R423). -/

namespace Sys2Proof.Machine

/-! ## CBOR, core deterministic encoding (RFC 8949) -/

/-- The head of a data item: major type and argument in the shortest form. -/
def cborHead (major n : Nat) : Bytes :=
  if n < 24 then [BitVec.ofNat 8 (32 * major + n)]
  else if n < 256 then [BitVec.ofNat 8 (32 * major + 24), BitVec.ofNat 8 n]
  else if n < 65536 then BitVec.ofNat 8 (32 * major + 25) :: be 2 n
  else if n < 2 ^ 32 then BitVec.ofNat 8 (32 * major + 26) :: be 4 n
  else BitVec.ofNat 8 (32 * major + 27) :: be 8 n

def cborNat (n : Nat) : Bytes := cborHead 0 n
/-- The number −1 − n. -/
def cborNeg (n : Nat) : Bytes := cborHead 1 n
def cborBytes (b : Bytes) : Bytes := cborHead 2 b.length ++ b
def cborText (b : Bytes) : Bytes := cborHead 3 b.length ++ b
def cborArray (l : List Bytes) : Bytes := cborHead 4 l.length ++ l.flatten
/-- A map whose keys are unsigned integers in ascending order. -/
def cborMap (l : List (Nat × Bytes)) : Bytes := cborHead 5 l.length ++ l.flatMap fun kv => cborNat kv.1 ++ kv.2

/-- The Sig_structure of a COSE_Sign1 with empty external data (RFC 9052). -/
def sigStructure (prot payload : Bytes) : Bytes :=
  cborArray [cborText (bytesOf [0x53, 0x69, 0x67, 0x6E, 0x61, 0x74, 0x75, 0x72, 0x65, 0x31]), cborBytes prot, cborBytes [],
             cborBytes payload]

/-- A COSE_Sign1 with tag 18. -/
def coseSign1 (prot unprot payload sig : Bytes) : Bytes :=
  cborHead 6 18 ++ cborArray [cborBytes prot, unprot, cborBytes payload, cborBytes sig]

/-! ## Identity keys (R457, R458) -/

def labelIdentity : Bytes := bytesOf [0x57, 0x47, 0x34, 0x38, 0x20, 0x49, 0x44, 0x45, 0x4E, 0x54, 0x49, 0x54, 0x59]
def labelAttestEc : Bytes := bytesOf [0x57, 0x47, 0x34, 0x38, 0x20, 0x41, 0x54, 0x54, 0x45, 0x53, 0x54, 0x20, 0x45, 0x43]
def labelAttestMl : Bytes :=
  bytesOf [0x57, 0x47, 0x34, 0x38, 0x20, 0x41, 0x54, 0x54, 0x45, 0x53, 0x54, 0x20, 0x4D, 0x4C, 0x44, 0x53, 0x41]

/-- The seed as 32 bytes in message order, bit 0 the least significant bit of the first. -/
def seedBytes (o : Otp) : Bytes := le 32 o.seed.toNat

/-- The seed's check passes: not all zero, and the check word is its CRC-32C (R457). -/
def seedOk (o : Otp) : Bool := o.seed != 0 && o.seedCheck.toNat == crc32c (seedBytes o)

/-- Derive bits for a label from the seed. -/
def identityBits (o : Otp) (label : Bytes) (bits : Nat) : Bytes := kbkdfHmac (seedBytes o) label o.serial bits

/-- An identity ECDSA key: d = (c mod (n − 1)) + 1 from 448 bits. -/
def identityEc (o : Otp) (label : Bytes) : Nat := ofBe (identityBits o label 448) % (p384.n - 1) + 1

/-- The identity ML-DSA-87 private key. -/
def identityMl (o : Otp) : Bytes := Config.mlDsaGenerate 3 (identityBits o labelAttestMl 256)

/-- An uncompressed public point. -/
def pointBytes (c : Curve) (q : Point) : Bytes :=
  match q with
  | some (x, y) => [0x04#8] ++ be c.len x ++ be c.len y
  | none => []

/-- The public key of a private scalar. -/
def ecPublic (c : Curve) (d : Nat) : Point := ptMul c d (some (c.gx, c.gy))

/-- The SubjectPublicKeyInfo of a P-384 key. -/
def spkiEc (d : Nat) : Bytes :=
  bytesOf [0x30, 0x76, 0x30, 0x10, 0x06, 0x07, 0x2A, 0x86, 0x48, 0xCE, 0x3D, 0x02, 0x01, 0x06, 0x05, 0x2B, 0x81, 0x04, 0x00, 0x22,
           0x03, 0x62, 0x00] ++ pointBytes p384 (ecPublic p384 d)

/-- The SubjectPublicKeyInfo of an ML-DSA-87 key. -/
def spkiMl (pk : Bytes) : Bytes :=
  bytesOf [0x30, 0x82, 0x0A, 0x32, 0x30, 0x0B, 0x06, 0x09, 0x60, 0x86, 0x48, 0x01, 0x65, 0x03, 0x04, 0x03, 0x13, 0x03, 0x82, 0x0A,
           0x21, 0x00] ++ pk

/-- The kid of a key: the first 16 bytes of the SHA-384 of its SubjectPublicKeyInfo. -/
def kidOf (spki : Bytes) : Bytes := (sha384 spki).take 16

/-- An ECDSA P-384 signature, r then s in 48 bytes each, with the per-message secret taken from 56 random bytes. -/
def signEc (d : Nat) (rnd msg : Bytes) : Bytes :=
  match ecdsaSign p384 d (ofBe rnd % (p384.n - 1) + 1) (sha384 msg) with
  | some (r, s) => be 48 r ++ be 48 s
  | none => zeros 96

/-! ## Waking CD0 for one request (R72, R423, R466) -/

/-- The powered-down states in which a request wakes CD0 and lets it power down again. -/
def cd0Sleeps (rt : Rt) : Bool := inTamperHalt rt || rt.boot.stage == 0x86 || rt.boot.stage == 0x87 || rt.boot.stage == 0x85

/-- What the mint of CD0 offers a request: random bytes, a wait (the request is taken up again), or a refusal. -/
inductive Draw where
  | got (b : Bytes) (rt : Rt)
  | wait (rt : Rt)
  | no (st : Nat)
  deriving DecidableEq, Repr

/-- CD0 is up for a request that needs its mint or a reckoner, woken with its start-up tests when it is powered down (R72); nothing is
drawn. -/
def needCd0 (rt : Rt) : Draw :=
  if rt.mint0.exhausted then .no stRngUnavailable
  else if 840 < dieTemp rt 0 then .no stDeviceFault
  else if !rt.mint0.seeded then .wait (wakeDie 0 rt)
  else .got [] rt

/-- Draw random bytes on CD0 for a request, waking the die when it is powered down. -/
def drawCd0 (n : Nat) (rt : Rt) : Draw :=
  match needCd0 rt with
  | .got _ rt => match drawNow 0 n rt with
    | some (b, rt) => .got b rt
    | none => .wait rt
  | d => d

/-- CD0 powers down again after the request that woke it. -/
def restCd0 (rt : Rt) : Rt := if cd0Sleeps rt then sleepDie 0 rt else rt

/-! ## Claims (R461, Table 24.2) -/

/-- The Table 6.7 parameters of a booth. -/
def cfgBytes (c : BoothCfg) : Bytes :=
  le 4 c.pasid ++ le 2 c.house ++ [BitVec.ofNat 8 c.fmt, BitVec.ofNat 8 c.ceiling] ++ le 4 c.share ++
  [BitVec.ofNat 8 c.sqLog2, BitVec.ofNat 8 c.cqLog2] ++ le 2 c.vector ++ le 8 c.sqIova ++ le 8 c.cqIova ++ le 2 c.coalCount ++
  le 2 c.coalTime ++ [BitVec.ofNat 8 (b2n c.streaming + 2 * b2n c.ringTally), BitVec.ofNat 8 c.preset,
                      BitVec.ofNat 8 c.windows.length, 0] ++
  c.windows.flatMap fun w => le 8 w.start ++ le 8 w.stop ++ [BitVec.ofNat 8 (b2n w.rd + 2 * b2n w.wr)] ++ zeros 7

/-- One unit of a partition map: kind, index, house (log 12). -/
def unitBytes (kind : Nat) (kv : Nat × Nat) : Bytes := [BitVec.ofNat 8 kind, BitVec.ofNat 8 kv.1] ++ le 2 kv.2

/-- A partition map in the layout of PARTITION_SET (log 12). -/
def partBytes (m : PartMap) : Bytes :=
  m.rooms.flatMap (unitBytes 0) ++ m.groups.flatMap (unitBytes 1) ++ m.looms.flatMap (unitBytes 2) ++ m.reckoners.flatMap (unitBytes 3)

/-- The program table entries in force, by house and then opcode (claim 10). -/
def progOrder (p q : ProgEntry) : Bool := decide (p.house < q.house ∨ (p.house = q.house ∧ p.opcode ≤ q.opcode))

/-- Insert a program in that order. -/
def progInsert (p : ProgEntry) : List ProgEntry → List ProgEntry
  | [] => [p]
  | q :: l => if progOrder p q then p :: q :: l else q :: progInsert p l

/-- Claim 10 for the houses in scope. -/
def progDigest (nv : Nv) (scope : Nat → Bool) : Bytes :=
  let l := (nv.progs.filter fun p => p.upto.isNone && scope p.house).foldl (fun l p => progInsert p l) []
  sha384 (l.flatMap fun p => le 2 p.house ++ le 2 p.opcode ++ padTo 48 (p.digest.take 48))

/-- Claim 11 for the booths in scope; module scope appends the partition map. -/
def policyDigest (rt : Rt) (booth : Option Nat) : Bytes :=
  let l := rt.booths.filter fun kv => booth.isNone || booth == some kv.1
  sha384 (l.flatMap (fun kv => le 2 kv.1 ++ cfgBytes kv.2.cfg) ++ (match booth, rt.disp.part with
    | none, some m => partBytes m
    | _, _ => []))

/-- One measurement: the digest of the active copy, and 1 when the image failed. -/
def measureClaim (x : Image) : Bytes :=
  cborArray [cborBytes (imageDigest (activeCopy x)), cborNat (b2n x.failed)]

/-- Claim 8: the mask ROM always, the images once they have been measured. -/
def measureClaims (s : State) : Bytes :=
  cborMap ((1, cborArray [cborBytes s.otp.romDigest, cborNat 0]) ::
    (if 9 ∈ s.rt.boot.stepsDone then [(2, measureClaim s.nv.image1), (3, measureClaim s.nv.image2)] else []))

/-- Claim 9: what each room runs; in recovery boot the library as measured; none while a room does not run. -/
def libraryClaim (s : State) : Option Bytes :=
  if s.rt.boot.stage = 0x84 then
    some (cborArray (List.replicate 8 (cborBytes (imageDigest (activeCopy s.nv.image3)))))
  else if (List.range 8).all fun r => islandReady s.rt (roomIsland r) then
    some (cborArray ((List.range 8).map fun r => cborBytes (padTo 48 ((roomOf s.rt r).image.take 48))))
  else none

/-- A claim that exists. -/
def claim (k : Nat) (v : Bytes) : List (Nat × Bytes) := [(k, v)]

/-- The claims map of a statement: module scope, or the scope of a booth. -/
def claims (s : State) (nonce : Bytes) (booth : Option Nat) : Bytes :=
  let rt := s.rt
  let up := decide (10 ∈ rt.boot.stepsDone)
  let house := boothHouse rt (booth.getD 0)
  let scope := fun h => booth.isNone || h == house
  cborMap (
    claim 1 (cborNat 1) ++
    claim 2 (cborText (bytesOf [0x57, 0x47, 0x2D, 0x34, 0x38, 0x32, 0x30])) ++
    claim 3 (cborBytes s.otp.serial) ++
    claim 4 (cborNat rt.boot.lcState.toNat) ++
    claim 5 (cborNat (s.otp.tamperCnt + b2n s.gon.uncounted)) ++
    claim 6 (cborNat s.otp.rootLostCnt) ++
    claim 7 (cborNat rt.boot.stage.toNat) ++
    claim 8 (measureClaims s) ++
    (match libraryClaim s with
     | some b => claim 9 b
     | none => []) ++
    (if up then claim 10 (cborBytes (progDigest s.nv scope)) ++ claim 11 (cborBytes (policyDigest rt booth)) ++
       claim 12 (cborNat rt.epoch) else []) ++
    claim 13 (cborArray [cborNat rt.clock.sec, cborNat rt.clock.ns, cborNat rt.clock.uncertainty, cborNat (clockCode rt.clock.st)]) ++
    claim 14 (cborBytes nonce) ++
    claim 15 (cborNat (b2n booth.isSome)) ++
    (match booth with
     | some b => claim 16 (cborNat b) ++ claim 17 (cborNat house)
     | none => []))

/-! ## The statement (R460) -/

/-- The inner structure: alg −35 and the kid in the protected header, signed with the EC attestation key. -/
def innerStatement (o : Otp) (payload rnd : Bytes) : Bytes :=
  let d := identityEc o labelAttestEc
  let prot := cborMap [(1, cborNeg 34), (4, cborBytes (kidOf (spkiEc d)))]
  coseSign1 prot (cborMap []) payload (signEc d rnd (sigStructure prot payload))

/-- The outer structure: alg −50, hedged ML-DSA-87, with the x5chain when certificates are asked for. -/
def outerStatement (o : Otp) (certs : List Bytes) (chain : Bool) (inner rnd : Bytes) : Bytes :=
  let sk := identityMl o
  let prot := cborMap [(1, cborNeg 49), (4, cborBytes (kidOf (spkiMl (Config.mlDsaPublic 3 sk))))]
  let unprot := cborMap (if chain then [(33, cborArray (certs.map cborBytes))] else [])
  coseSign1 prot unprot inner (Config.mlDsaSign 3 sk rnd (sigStructure prot inner))

/-- A whole statement from 88 random bytes: 56 for the ECDSA secret and 32 for the hedge. -/
def statement (s : State) (nonce : Bytes) (booth : Option Nat) (chain : Bool) (rnd : Bytes) : Bytes :=
  outerStatement s.otp (Config.certificates s.nv.identity) chain
    (innerStatement s.otp (claims s nonce booth) (rnd.take 56)) (rnd.drop 56)

/-! ## ATTEST and TIME_TOKEN on a ring or session (R361, R464) -/

/-- A command that runs as a library program: dispatched with an opcode, while admitted commands may run. -/
def running (rt : Rt) (id op : Nat) : Option Cmd :=
  match kget rt.cmds id with
  | none => none
  | some c => if c.stage == .dispatched && c.desc.opcode.toNat == op && mayRun rt then some c else none

/-- The input of a command: the 14 inline bytes with INLINE set (R140). -/
def cmdInput (c : Cmd) : Bytes := if isInline c.desc then padTo 14 (c.desc.inl.take 14) else c.input

/-- ATTEST: the nonce is the input; the statement of booth scope is the output. -/
def doAttest (id : CmdId) (s : State) : State :=
  match running s.rt id 2 with
  | none => s
  | some c =>
    let p := c.desc.inl
    let nonce := cmdInput c
    if 2 ≤ byteAt p 0 ∨ !zeroAt p 1 13 ∨ nonce.length < 8 ∨ 64 < nonce.length then onRt (failWith id stMalformed) s
    else if !seedOk s.otp then onRt (failWith id stDeviceFault) s
    else match drawNow c.die 88 s.rt with
      | none => s
      | some (rnd, rt) =>
        let m := statement s nonce (some c.booth) (byteAt p 0 == 1) rnd
        { s with rt := doneCmd id (zeros 16) m m.length rt }

/-- ATTEST. -/
def execAttest (id : CmdId) (s : State) : Res := .next (doAttest id s)

/-- The payload of a time token (R452). -/
def tokenPayload (s : State) (c : Cmd) (nonce : Bytes) : Bytes :=
  let k := s.rt.clock
  cborMap [(1, cborNat 1), (2, cborBytes s.otp.serial), (3, cborNat k.sec), (4, cborNat k.ns), (5, cborNat k.uncertainty),
           (6, cborNat (clockCode k.st)), (7, cborNat k.clockClass), (8, cborNat k.stepCount), (9, cborNat s.rt.epoch),
           (10, cborNat c.booth), (11, cborNat (boothHouse s.rt c.booth)), (12, cborBytes nonce)]

/-- TIME_TOKEN: a signed time token over a nonce of 8 to 64 bytes. -/
def doTimeToken (id : CmdId) (s : State) : State :=
  match running s.rt id 3 with
  | none => s
  | some c =>
    let nonce := cmdInput c
    if (!isInline c.desc && !zeroAt c.desc.inl 0 14) || decide (nonce.length < 8 ∨ 64 < nonce.length) then
      onRt (failWith id stMalformed) s
    else if !seedOk s.otp then onRt (failWith id stDeviceFault) s
    else match drawNow c.die 56 s.rt with
      | none => s
      | some (rnd, rt) =>
        let prot := cborMap [(1, cborNeg 34)]
        let pay := tokenPayload s c nonce
        let m := coseSign1 prot (cborMap []) pay (signEc (identityEc s.otp labelAttestEc) rnd (sigStructure prot pay))
        { s with rt := doneCmd id (zeros 16) m m.length rt }

/-- TIME_TOKEN. -/
def execTimeToken (id : CmdId) (s : State) : Res := .next (doTimeToken id s)

/-! ## ATTEST through the mailbox (R465, R466) -/

/-- A part of the held statement: its length, the offset, and up to 2 024 bytes. -/
def statementPart (m : Bytes) (off : Nat) : Bytes := le 4 m.length ++ le 4 off ++ slice m off 2024

/-- MAILBOX_ATTEST: a new statement of module scope with its first part, or a later part of the held one. -/
def mailboxAttest (src : ReqSrc) (q : Req) (s : State) : State :=
  let n := byteAt q.params 0
  let off := leAt q.params 4 4
  if q.params.length ≠ 8 + n ∨ 2 ≤ byteAt q.params 1 ∨ !zeroAt q.params 2 2 then onRt (refuse src q stMalformed) s
  else if n = 0 then
    match s.rt.held with
    | some m => if off < m.length then onRt (answer src q stDone (statementPart m off)) s else onRt (refuse src q stMalformed) s
    | none => onRt (refuse src q stMalformed) s
  else if n < 8 ∨ 64 < n ∨ off ≠ 0 then onRt (refuse src q stMalformed) s
  else if !seedOk s.otp then onRt (refuse src q stDeviceFault) s
  else match drawCd0 88 s.rt with
    | .no st => onRt (fun rt => restCd0 (refuse src q st rt)) s
    | .wait rt => { s with rt := rt }
    | .got rnd rt =>
      let m := statement s (q.params.drop 8) none (byteAt q.params 1 == 1) rnd
      { s with rt := restCd0 (answer src q stDone (statementPart m 0) { rt with held := some m }) }

/-- MAILBOX_ATTEST. -/
def execMailboxAttest (src : ReqSrc) (s : State) : Res := .next (serve src 0x20 (mailboxAttest src) s)

/-! ## Ledger seals (R295) -/

/-- The next seal that is due: the sequence and chain value of each 10 000th entry. -/
def sealDue (l : Ledger) : Option (Nat × Bytes) :=
  let q := 10000 * (l.seals.length + 1) - 1
  (l.entries.find? fun e => e.seq == q).map fun e => (q, e.chain)

/-- LEDGER_SEAL: the seal record holds both signatures of the attestation keys over sequence and chain value. -/
def doLedgerSeal (s : State) : State :=
  match sealDue s.nv.ledger with
  | none => s
  | some (q, chain) =>
    if !(flashWorks s.rt && seedOk s.otp) then s
    else match drawNow 0 88 s.rt with
      | none => s
      | some (rnd, rt) =>
        let msg := le 8 q ++ chain
        let x : Seal := { seq := q, chain := chain, sigEc := signEc (identityEc s.otp labelAttestEc) (rnd.take 56) msg,
                          sigMl := Config.mlDsaSign 3 (identityMl s.otp) (rnd.drop 56) msg }
        { s with rt := rt, nv := { s.nv with ledger := { s.nv.ledger with seals := s.nv.ledger.seals ++ [x] } } }

/-- LEDGER_SEAL. -/
def execLedgerSeal (s : State) : Res := .next (doLedgerSeal s)

end Sys2Proof.Machine
end

