-- ==== Sys2Proof/Machine/Bracket.lean ====
section
/-! DEFINITION. The bracket and the sideband: the SMBus target (02 R29), the lights (R44, Table 2.12), the OSFP cages (R38), and
the MGMT link (R39). -/

namespace Sys2Proof.Machine

/-- What a light shows. -/
inductive Lamp where
  | off | steady | flashing | amber
  deriving DecidableEq, Repr

/-- The number of a lamp's state on the SMBus, which the spec does not encode (log 29): 3 is a steady SERVICE light in amber. -/
def lampCode : Lamp → Nat
  | .off => 0
  | .steady => 1
  | .flashing => 2
  | .amber => 3

/-- POWER: steady with main power, flashing in the auxiliary-power hold. -/
def ledPower (rt : Rt) : Lamp := if rt.boot.stage = 0x80 || rt.boot.auxLow then .flashing else .steady

/-- SERVICE: green with SERVICE_READY, amber at a stop code, flashing amber during start-up. -/
def ledService (rt : Rt) : Lamp :=
  if rt.boot.serviceReady then .steady
  else if 0x80 ≤ rt.boot.stage.toNat then .amber
  else if rt.power.perst || rt.boot.stage == 0 then .off else .flashing

/-- A cell is below 2.7 V. -/
def cellLow (rt : Rt) : Bool := decide ((.cellLow, 0) ∈ rt.fault.entered ∨ (.cellLow, 1) ∈ rt.fault.entered)

/-- ALERT: steady with ALERT_N low, flashing for a low cell or an open window. -/
def ledAlert (rt : Rt) : Lamp :=
  if rt.alert.pin then .steady else if cellLow rt || rt.window.isOpen then .flashing else .off

/-- TAMPER: steady in tamper halt, flashing in LOCKED or RETURNED. -/
def ledTamper (rt : Rt) : Lamp :=
  if inTamperHalt rt then .steady else if rt.boot.lcState = 0x0F ∨ rt.boot.lcState = 0x05 then .flashing else .off

/-- The lights from top to bottom; all are off without main power. -/
def ledOf (rt : Rt) (i : Fin 4) : Lamp :=
  if !powered rt then .off
  else match i with
    | 0 => ledPower rt
    | 1 => ledService rt
    | 2 => ledAlert rt
    | 3 => ledTamper rt

/-- What the SMBus target answers. -/
def smbusValue (rt : Rt) : SmbusItem → Nat
  | .inlet => rt.ballast.inlet.toNat
  | .dieTemp d => (BitVec.ofInt 16 (dieTemp rt d.val)).toNat
  | .inputPower => rt.ballast.power
  | .led i => lampCode (ledOf rt i)

/-- SMBUS_READ: read only, and only while main power is present (R29). The row carries what the inlet sensor, in steps of 0.125 °C, and the
input power monitor, in steps of 0.1 W, read at that moment. -/
def doSmbusRead (x : SmbusItem) (inlet : Int) (tenths : Nat) (rt : Rt) : Rt :=
  if powered rt then
    let rt := { rt with ballast := { rt.ballast with inlet := BitVec.ofInt 16 inlet, power := tenths } }
    emit (.smbus (smbusValue rt x)) rt
  else rt

/-- SMBUS_READ. -/
def execSmbusRead (x : SmbusRead) (s : State) : Res := .next (onRt (doSmbusRead x.item x.inlet x.tenths) s)

/-! ## Cages (R38) -/

/-- The cage of a port. -/
def cageOf (rt : Rt) (p : Port) : Cage := if p = 0 then rt.cageA else rt.cageB

/-- Replace a cage. -/
def setCage (p : Port) (c : Cage) (rt : Rt) : Rt := if p = 0 then { rt with cageA := c } else { rt with cageB := c }

/-- A port of the network. -/
def portOfNet (rt : Rt) (p : Port) : NetPort := if p = 0 then rt.net.portA else rt.net.portB

/-- Replace a port of the network. -/
def setPort (p : Port) (x : NetPort) (rt : Rt) : Rt :=
  { rt with net := if p = 0 then { rt.net with portA := x } else { rt.net with portB := x } }

/-- CAGE_INSERT: a module above 12 W is left in low-power mode and reported as CAGE_POWER, at the next start when main power is absent; its
port does not come up. -/
def doCageInsert (p : Port) (watts : Nat) (rt : Rt) : Rt :=
  if (cageOf rt p).present then rt
  else
    let hot := decide (12 < watts)
    let rt := setCage p { present := true, watts := watts, lowPower := hot } rt
    if powered rt then raiseLevel .cagePower p.val hot rt else rt

/-- CAGE_INSERT. -/
def execCageInsert (p : Port) (watts : Nat) (s : State) : Res := .next (onRt (doCageInsert p watts) s)

/-- A port without its link: every TCP connection of the port closes without an alert, and PORT_DOWN is raised (08 R153). -/
def portLost (p : Port) (rt : Rt) : Rt :=
  if (portOfNet rt p).link then
    let rt := setPort p { portOfNet rt p with link := false } rt
    raise (plainEvent .portDown [BitVec.ofNat 8 p.val]) (closeConns (fun c => c.port == p.val) none rt)
  else rt

/-- CAGE_REMOVE: the port goes down, with no tamper. -/
def doCageRemove (p : Port) (rt : Rt) : Rt :=
  if (cageOf rt p).present then
    let rt := portLost p (setCage p { present := false, watts := 0, lowPower := false } rt)
    if powered rt then raiseLevel .cagePower p.val false rt else rt
  else rt

/-- CAGE_REMOVE. -/
def execCageRemove (p : Port) (s : State) : Res := .next (onRt (doCageRemove p) s)

/-! ## The MGMT port (R39) -/

/-- MGMT_LINK_CHANGE: the 1000BASE-T link comes up or goes down; a partner that offers no 1000BASE-T full duplex gets no link. -/
def doMgmtLinkChange (up gigabit : Bool) (rt : Rt) : Rt :=
  if powered rt then { rt with net := { rt.net with mgmtLink := up && gigabit } } else rt

/-- The green integral light: the link is up. -/
def ledMgmtGreen (rt : Rt) : Lamp := if powered rt && rt.net.mgmtLink then .steady else .off

/-- The amber integral light flashes at 10 Hz while frames pass: for one period of it after a frame (log 29). -/
def ledMgmtAmber (rt : Rt) : Lamp :=
  match rt.net.mgmtFrame with
  | some t => if powered rt && rt.net.mgmtLink && decide (rt.now < t + 100000000) then .flashing else .off
  | none => .off

/-- MGMT_LINK_CHANGE. -/
def execMgmtLinkChange (x : MgmtLink) (s : State) : Res := .next (onRt (doMgmtLinkChange x.up x.gigabit) s)

end Sys2Proof.Machine
end

