-- ==== Sys2Proof/Machine/Lifecycle.lean ====
section
/-! DEFINITION. Life-cycle requests: LC_STATUS, LC_NONCE, LC_TRANSITION, DEBUG_UNLOCK, the deliberate erase, test access and
identity injection (05 R89 to R107, R478, R479, 16 R352, 24 R457, R459). -/

namespace Sys2Proof.Machine

/-! ## LC_STATUS -/

/-- Zero bits of a number in `n` bits. -/
def zeroBits (n v : Nat) : Nat := ((List.range n).filter fun i => !v.testBit i).length

/-- The seed state (R104): in SCRAPPED the bits still unburned, otherwise FFFFh without a seed and FFFEh with one. -/
def seedState (rt : Rt) (o : Otp) : Nat :=
  if rt.boot.lcState = 0x06 then zeroBits 256 o.seed.toNat + zeroBits 32 o.seedCheck.toNat
  else if o.seed = 0 ∧ o.seedCheck = 0 then 0xFFFF else 0xFFFE

/-- The result of LC_STATUS (17 Table 17.12). -/
def lcStatusBytes (s : State) : Bytes :=
  let o := s.otp
  le 4 o.lcT.toNat ++ le 4 o.lcC.toNat ++ (markSlots o).flatMap (fun m => le 2 m.toNat) ++ [s.rt.boot.lcState] ++
  le 2 (seedState s.rt o) ++ [BitVec.ofNat 8 (b2n o.lastBurnFail), s.rt.lc.pendingTarget.getD 0xFF]

/-- LC_STATUS. -/
def execLcStatus (src : ReqSrc) (s : State) : Res :=
  .next (serveLen src 0x40 0 (fun q s => onRt (answer src q stDone (lcStatusBytes s)) s) s)

/-! ## LC_NONCE (R107) -/

/-- LC_NONCE: 32 bytes of CD0's mint, the only nonce that the module holds. -/
def lcNonce (src : ReqSrc) (q : Req) (s : State) : State :=
  match drawCd0 32 s.rt with
  | .no st => onRt (fun rt => restCd0 (refuse src q st rt)) s
  | .wait rt => { s with rt := rt }
  | .got b rt => { s with rt := restCd0 (answer src q stDone b { rt with lc := { rt.lc with nonce := some b } }) }

/-- LC_NONCE. -/
def execLcNonce (src : ReqSrc) (s : State) : Res := .next (serveLen src 0x41 0 (lcNonce src) s)

/-- LC_NONCE_EXPIRY: 600 s after its issue. -/
def execLcNonceExpiry (s : State) : Res := .next (onRt (fun rt => { rt with lc := { rt.lc with nonce := none } }) s)

/-! ## LC_TRANSITION (R93 to R98, R478, R479) -/

/-- A row of Table 5.4: the authorisation mode, whether it carries a progress mark, whether it erases deliberately. -/
structure TransRow where
  mode : Nat
  mark : Bool
  erase : Bool
  deriving DecidableEq, Repr

/-- Table 5.4, without the row that COMMISSION alone performs; SCRAPPED takes the dual control of the RETURNED row of its source, without
its vendor authorisation, which is a further condition of that row alone (R479). -/
def transRow (lc : BitVec 8) (target : Nat) : Option TransRow :=
  let row := fun (m : Nat) (k e : Bool) => some ({ mode := m, mark := k, erase := e } : TransRow)
  match lc.toNat, target with
  | 0x00, 0x01 => row 1 false false
  | 0x01, 0x02 => row 1 false false
  | 0x02, 0x03 => row 1 false false
  | 0x00, 0x06 => row 1 false false
  | 0x01, 0x06 => row 1 false false
  | 0x02, 0x06 => row 1 false false
  | 0x0F, 0x06 => row 1 false false
  | 0x03, 0x05 => row 2 true true
  | 0x03, 0x06 => row 1 true true
  | 0x04, 0x05 => row 3 true true
  | 0x04, 0x06 => row 0 true true
  | 0x05, 0x06 => row 1 true true
  | _, _ => none

/-- The further condition of a row (R479). -/
def transCond (s : State) (target : Nat) : Bool :=
  match s.rt.boot.lcState.toNat, target with
  | 0x01, 0x02 => seedOk s.otp
  | 0x02, 0x03 => s.gon.armed && !s.gon.tamperFlag && s.gon.active.all fun c => !cellsSource c
  | 0x03, 0x05 => s.gon.root == 0
  | _, _ => true

/-- The signed message: serial, code, nonce (R478). -/
def signedBytes (o : Otp) (code : Nat) (nonce : Bytes) : Bytes := o.serial ++ [BitVec.ofNat 8 code] ++ nonce

/-- A signature of 96 bytes verifies under a P-384 key of mask ROM: r and s from 1 to below the order (R478). -/
def romSigned (k : Nat × Nat) (m sig : Bytes) : Bool := ecdsaVerify p384 k (sha384 m) (beAt sig 0 48) (beAt sig 48 48)

/-- The production key, by its place from 1, under which a signature verifies. -/
def productionSigner (m sig : Bytes) : Option Nat :=
  ((List.range Config.productionKeys.length).find? fun i => romSigned (Config.productionKeys.getD i (0, 0)) m sig).map (· + 1)

/-- The unused signature fields of a mode are zero (Table 17.12): production signatures serve modes 1 and 2, the vendor's modes 2 and 3. -/
def unusedZero (mode : Nat) (p : Bytes) : Bool :=
  (if mode = 1 ∨ mode = 2 then true else zeroAt p 36 192) && (if mode = 2 ∨ mode = 3 then true else zeroAt p 228 96)

/-- Modes 0 and 3 stand on the two-key latch (R479). -/
def byLatch (mode : Nat) : Bool := mode == 0 || mode == 3

/-- The identifiers of the keys that signed a request, as its mode needs them (0 for none): two distinct production keys in modes 1 and 2,
the vendor's in modes 2 and 3, none in mode 0. -/
def transSigners (o : Otp) (mode target : Nat) (p : Bytes) : Option (List Nat) :=
  let m := signedBytes o target (slice p 4 32)
  let vendor := romSigned Config.debugKey m (slice p 228 96)
  let prod := match productionSigner m (slice p 36 96), productionSigner m (slice p 132 96) with
    | some a, some b => if a ≠ b then some [a, b] else none
    | _, _ => none
  match mode with
  | 0 => some [0, 0, 0]
  | 1 => prod.map fun l => l ++ [0]
  | 2 => if vendor then prod.map fun l => l ++ [Config.debugKeyId] else none
  | 3 => if vendor then some [0, 0, Config.debugKeyId] else none
  | _ => none

/-- A transition has been accepted and its burn has not ended (R94). -/
def transPending (s : State) : Bool := s.rt.lc.accepted.isSome || s.rt.lc.pendingTarget.isSome || (openSlot s.otp).isSome

/-- The ledger's entry for a transition: source, target and slot, the signing keys, and the latch's officers (R107). -/
def transEntry (source target : Nat) (slot : Option Nat) (keys : List Nat) (o : Nat × Nat) : LedgerEntry :=
  { moduleEvent 0x0100 (bytesOf ([source, target, slot.getD 0xFF] ++ keys)) with officer1 := o.1, officer2 := o.2 }

/-- An accepted transition once its progress mark, if it has one, is on the fuses: the pending register without a mark, the ledger entry,
the response; the latch closes and an erase falls due (R94 to R98, R286). -/
def sealTrans (src : ReqSrc) (q : Req) (target : Nat) (row : TransRow) (slot : Option Nat) (keys : List Nat) (s : State) : State :=
  let e := transEntry s.rt.boot.lcState.toNat target slot keys (if byLatch row.mode then latchOfficers s.rt else (0, 0))
  onRt (fun rt =>
    let rt := { rt with lc := { rt.lc with accepted := some (BitVec.ofNat 8 target)
                                           pendingTarget := if slot.isSome then rt.lc.pendingTarget else some (BitVec.ofNat 8 target)
                                           eraseDue := row.erase }
                        twoKey := if byLatch row.mode then .closed else rt.twoKey }
    let rt := answer src q stDone [] rt
    { rt with boot := { rt.boot with erasing := row.erase } }) (writeEntry e s)

/-- An accepted transition: TGT and TGT_N are burned before the response. Power lost meanwhile consumes the slot and leaves no
response (R97); the rip line stops the burn (R101); a fuse that takes no pulse stops it with OTP_BURN and the request fails (R102). -/
def acceptTrans (src : ReqSrc) (q : Req) (target : Nat) (row : TransRow) (keys : List Nat) (p : Pulses) (s : State) : State :=
  let marked := row.mark && s.rt.boot.stage != 0x84
  match (if marked then unusedSlot s.otp else none) with
  | none =>
    if marked && target != 6 then onRt (refuse src q stStateRefused) s else sealTrans src q target row none keys s
  | some k =>
    let r := burnList true (markFuses k target) (burning p s)
    if r.1.cut then cutState r.1
    else if r.2 then sealTrans src q target row (some k) keys r.1.s
    else onRt (refuse src q stDeviceFault) r.1.s

/-- The authorisation of an LC_TRANSITION, with CD0 up for the signature checks (R72). A nonce serves one request (R107). -/
def authTrans (src : ReqSrc) (q : Req) (target : Nat) (row : TransRow) (p : Pulses) (s : State) : State :=
  let ok := s.rt.lc.nonce == some (slice q.params 4 32)
  let s := if ok then onRt (fun rt => { rt with lc := { rt.lc with nonce := none } }) s else s
  match (if ok then transSigners s.otp row.mode target q.params else none) with
  | none => onRt (refuseReason src q 0x44) s
  | some keys => acceptTrans src q target row keys p s

/-- LC_TRANSITION. -/
def lcTransition (src : ReqSrc) (q : Req) (pl : Pulses) (s : State) : State :=
  let p := q.params
  let target := byteAt p 0
  let mode := byteAt p 1
  match transRow s.rt.boot.lcState target with
  | none => onRt (refuse src q stStateRefused) s
  | some row =>
    if transPending s then onRt (refuse src q stStateRefused) s
    else if mode ≠ row.mode ∨ !zeroAt p 2 2 ∨ !unusedZero mode p then onRt (refuse src q stMalformed) s
    else if !transCond s target || ledgerFull s.nv then onRt (refuse src q stStateRefused) s
    else if byLatch mode && !latchFor s.rt 0 0xFFFF none then onRt (refuse src q stDualControl) s
    else match needCd0 s.rt with
      | .no st => onRt (fun rt => restCd0 (refuse src q st rt)) s
      | .wait rt => { s with rt := rt }
      | .got _ rt => onRt restCd0 (authTrans src q target row pl { s with rt := rt })

/-- LC_TRANSITION. -/
def execLcTransition (x : BurnRequest) (s : State) : Res :=
  .next (serveLen x.src 0x42 324 (fun q => lcTransition x.src q x.pulses) s)

/-- What the rip line clears on main power, with no flag, count or TAMPER_OUT_N (R95). -/
def eraseAll (s : State) : State := onRt zeroStores (eraseRoot s)

/-- DELIBERATE_ERASE: the module leaves service, so the twin is no longer paired (08 R175); admitted commands complete with ABORTED, the
erase, and a module reset that the module performs itself (R95). -/
def doDeliberateErase (s : State) : State :=
  if s.rt.lc.eraseDue && flashWorks s.rt then moduleReset (eraseAll (postAll (onRt (fun rt => stopAll stAborted (unpair rt)) s))) else s

/-- DELIBERATE_ERASE. -/
def execDeliberateErase (s : State) : Res := .next (doDeliberateErase s)

/-! ## Debug and test access (R89, R105, R352) -/

/-- The authorisation of a DEBUG_UNLOCK: the debug key's signature over the serial, 02h and the nonce (R105, R478). -/
def authDebug (src : ReqSrc) (q : Req) (s : State) : State :=
  let p := q.params
  let ok := s.rt.lc.nonce == some (slice p 0 32)
  let s := if ok then onRt (fun rt => { rt with lc := { rt.lc with nonce := none } }) s else s
  if ok && romSigned Config.debugKey (signedBytes s.otp 2 (slice p 0 32)) (slice p 32 96) then
    let s := writeEntry (moduleEvent 0x0101 (bytesOf [2, 2, 0xFF, 0, 0, Config.debugKeyId])) s
    onRt (fun rt => answer src q stDone [] { rt with lc := { rt.lc with jtagOpen := true } }) s
  else onRt (refuseReason src q 0x44) s

/-- DEBUG_UNLOCK: in PROVISIONED a vendor debug authorisation opens JTAG until the next reset; CD0 is up for the check (R72). -/
def debugUnlock (src : ReqSrc) (q : Req) (s : State) : State :=
  if s.rt.boot.lcState ≠ 0x02 ∨ ledgerFull s.nv then onRt (refuse src q stStateRefused) s
  else match needCd0 s.rt with
    | .no st => onRt (fun rt => restCd0 (refuse src q st rt)) s
    | .wait rt => { s with rt := rt }
    | .got _ rt => onRt restCd0 (authDebug src q { s with rt := rt })

/-- DEBUG_UNLOCK. -/
def execDebugUnlock (src : ReqSrc) (s : State) : Res := .next (serveLen src 0x43 128 (debugUnlock src) s)

/-- The TA island answers JTAG in a state (Table 5.1). -/
def jtagAllowed (rt : Rt) : Bool :=
  decide (rt.boot.lcState ∈ [0x00#8, 0x01, 0x05]) || (rt.boot.lcState == 0x02 && rt.lc.jtagOpen)

/-- Scan is open in BLANK, TEST and RETURNED. -/
def scanAllowed (rt : Rt) : Bool := decide (rt.boot.lcState ∈ [0x00#8, 0x01, 0x05])

/-- Test patterns and captures act in BLANK and TEST alone (R90, R352). -/
def patternAllowed (rt : Rt) : Bool := decide (rt.boot.lcState ∈ [0x00#8, 0x01])

/-- Put a source on a test pattern, or back. -/
def selectPattern (d : Die) (i : Fin 4) (on : Bool) (rt : Rt) : Rt :=
  let k := (d.val, i.val)
  { rt with patterns := if on then addTo k rt.patterns else rt.patterns.filter (· ≠ k) }

/-- TEST_ACCESS_REQUEST: served as the life-cycle state allows, or answered with IDCODE alone; selections are inert outside
BLANK and TEST. -/
def doTestAccess (r : TestAccess) (rt : Rt) : Rt :=
  if !powered rt then rt
  else match r with
    | .jtag => emit (.testReply (if jtagAllowed rt then "JTAG" else "IDCODE")) rt
    | .scan => emit (.testReply (if scanAllowed rt then "SCAN" else "IDCODE")) rt
    | .pattern d i on => if patternAllowed rt then emit (.testReply "PATTERN") (selectPattern d i on rt) else emit (.testReply "IDCODE") rt
    | .capture _ _ n =>
      if patternAllowed rt && decide (n ≤ 1048576) then emit (.testReply "CAPTURE") rt else emit (.testReply "IDCODE") rt

/-- TEST_ACCESS_REQUEST. -/
def execTestAccessRequest (r : TestAccess) (s : State) : Res := .next (onRt (doTestAccess r) s)

/-! ## Identity injection (R457, R459) -/

/-- The fuses of an injected seed and its check word. -/
def injectFuses (seed : Nat) : List Fuse :=
  ((List.range 256).filter fun k => seed.testBit k).map (fun k => ({ field := 8, bit := k } : Fuse)) ++
  ((List.range 32).filter fun k => (crc32c (le 32 seed)).testBit k).map (fun k => ({ field := 9, bit := k } : Fuse))

/-- The three public keys (R459). -/
def identityKeys (o : Otp) : List Bytes :=
  [pointBytes p384 (ecPublic p384 (identityEc o labelIdentity)), pointBytes p384 (ecPublic p384 (identityEc o labelAttestEc)),
   Config.mlDsaPublic 3 (identityMl o)]

/-- IDENTITY_INJECTION, at rest in TEST or PROVISIONED: a seed is burned where none is, with its check word, and the identity
public keys are exported for certification. -/
def doIdentityInjection (seed : Nat) (weak : List Fuse) (s : State) : State :=
  if !(powered s.rt && s.rt.boot.stage == 0x83 && decide (s.rt.boot.lcState ∈ [0x01#8, 0x02])) then s
  else
    let l := if s.otp.seed = 0 ∧ s.otp.seedCheck = 0 then injectFuses (seed % 2 ^ 256) else []
    let r := burnList true l (burning { weak := weak, cut := none } s)
    if r.2 && seedOk r.1.s.otp then onRt (emit (.identity (identityKeys r.1.s.otp))) r.1.s else r.1.s

/-- IDENTITY_INJECTION. -/
def execIdentityInjection (seed : List Byte) (weak : List Fuse) (s : State) : Res :=
  .next (doIdentityInjection (ofLe seed) weak s)

end Sys2Proof.Machine
end

