-- ==== Sys2Proof/Machine/Officers.lean ====
section
/-! DEFINITION. Houses, officers and the two-key latch: house and officer records (13 R282, R283, Table 13.6), the registration
and removal requests, the latch (R285, R286), and changes that a management request makes through a bundle of one. -/

namespace Sys2Proof.Machine

/-! ## Officer and house records -/

/-- An officer as the record gives it. -/
structure Officer where
  slot : Nat
  ident : Nat
  active : Bool
  serial : Bytes
  key : Bytes
  deriving DecidableEq, Repr

/-- The officer record in a slot of a reserved tile. -/
def officerAt (rt : Rt) (slot : Nat) : Option Officer :=
  let r := slotIn rt none slot
  if isKey r && r.cls == 2 && decide (2 ≤ slot % 8 ∧ slot < 8192) then
    some { slot := slot, ident := leAt r.mat 0 2, active := byteAt r.mat 2 == 1, serial := slice r.mat 4 8, key := slice r.mat 12 49 }
  else none

/-- The officers of a house. -/
def houseOfficers (rt : Rt) (house : Nat) : List Officer := (List.range 6).filterMap fun i => officerAt rt (8 * house + 2 + i)

/-- Every officer of the module. -/
def allOfficers (rt : Rt) : List Officer := rt.strong.slots.filterMap fun kv => officerAt rt kv.1

/-- An officer identifier is defined. -/
def identOk (n : Nat) : Bool := n != 0 && n != 0xFFFF

/-- An identifier is in use (R283). -/
def identUsed (rt : Rt) (n : Nat) : Bool := (allOfficers rt).any fun o => o.ident == n

/-- The eight bytes of a card's serial. -/
def cardSerial (c : Card) : Bytes := padTo 8 (c.serial.take 8)

/-- The material of an officer record (Table 13.6): active. -/
def officerBytes (n : Nat) (c : Card) : Bytes :=
  le 2 n ++ [1, 0] ++ cardSerial c ++ padTo 49 (c.pubKey.take 49) ++ zeros 3

/-- The material of a house record (R282). -/
def houseBytes (first len sec active : Nat) (operator : Bool) : Bytes :=
  le 4 first ++ le 4 len ++ le 8 sec ++ [BitVec.ofNat 8 active, BitVec.ofNat 8 (b2n operator)] ++ zeros 46

/-- A class 02h record in a slot of a reserved tile: the house record has the dual-control flag, an officer record has not. -/
def reservedRec (rt : Rt) (slot house : Nat) (dual : Bool) (mat : Bytes) : SlotRec :=
  let a : Attrs := { cls := 2, alg := 0, size := 0, usage := u00, mode := 0, exportab := 0, dual := dual }
  { newHead rt slot house a none 0 0 0 with extLen := 1, matLen := 64, mat := mat }

/-- The record of a house with another count of active officers. -/
def recountRec (rt : Rt) (house : Nat) (f : Nat → Nat) : SlotRec :=
  let r := slotIn rt none (8 * house + 1)
  { r with mat := r.mat.take 16 ++ [BitVec.ofNat 8 (f (byteAt r.mat 16))] ++ r.mat.drop 17 }

/-- The attributes of a house master key (R282). -/
def masterAttrs : Attrs := { cls := 1, alg := algA, size := 0x20, usage := uK0, mode := mX, exportab := 0x4E, dual := true }

/-- A house that is registered is the operator house (R290). -/
def isOperator (house : Nat) : Bool := house == 0

/-! ## A management change (R264, R286) -/

/-- The bundle of one of a management request; the request waits for its commit, and the latch that it claimed closes at its
acceptance. A slot reserved by another bundle gives KEY_STALE (R265). -/
def submitChange (src : ReqSrc) (q : Req) (d : Delta) (res : Bytes) (s : State) : State :=
  let u := s.rt.disp.nextBundle
  if d.changes.any (fun c => reservedByOther s.rt u c.slot || heldByTwin s c.slot) || d.reads.any (reservedByOther s.rt u) then
    onRt (refuse src q stKeyStale) s
  else
    let x := addDelta 0 d { newBundle u 0xFFFF true with closed := true }
    onRt (fun rt => holdRequest src q none none (some u) res
      { rt with twoKey := .closed, disp := { rt.disp with nextBundle := u + 1 }, bundles := kset rt.bundles u x }) s

/-- A change of one slot by a management request. -/
def mgmtChange (rt : Rt) (slot : Nat) (after : SlotRec) (policy : Bool) (house : Nat) : SlotChange :=
  changeOf rt none slot after policy house 0

/-- A ledger entry of a management request about a slot. -/
def slotEntry (ev house slot genB genA : Nat) (o : Nat × Nat) (detail : Bytes) : LedgerEntry :=
  ledgerEvent ev house 0xFFFF slot genB genA o.1 o.2 detail

/-- What opens every request that a house's latch must allow: the ledger has room, and the latch is open for the mailbox and
the console. -/
def underLatch (src : ReqSrc) (q : Req) (house : Nat) (body : Nat × Nat → State → State) (s : State) : State :=
  if ledgerFull s.nv then onRt (refuse src q stStateRefused) s
  else if !latchFor s.rt house 0xFFFF none then onRt (refuse src q stDualControl) s
  else body (latchOfficers s.rt) s

/-! ## HOUSE_REGISTER (R282) -/

/-- The slot ranges of the registered houses: first slot, and the slot after the last. -/
def houseRanges (rt : Rt) : List (Nat × Nat) :=
  (List.range 1024).filterMap fun h => (houseRange rt h).map fun x => (x.1, x.1 + x.2)

/-- A run of slots lies below the end of the strongroom and meets no range. -/
def rangeFree (l : List (Nat × Nat)) (a n : Nat) : Bool :=
  decide (a + n ≤ 33554432) && l.all fun x => decide (a + n ≤ x.1 ∨ x.2 ≤ a)

/-- The lowest free aligned range from slot 8 192 up: ranges are whole blocks, so it starts there or at another's end. -/
def lowestRange (l : List (Nat × Nat)) (n : Nat) : Option Nat :=
  ((8192 :: l.map Prod.snd).filter fun a => rangeFree l a n).foldl (fun m a => match m with
    | none => some a
    | some b => some (min a b)) none

/-- The changes and entries that register a house with two officers (R282, R290): master key, house record, officers. -/
def registerDelta (rt : Rt) (house first len : Nat) (ids : Nat × Nat) (a b : Card) (key : Bytes) (by_ : Nat × Nat) : Delta :=
  let k := 8 * house
  let gen := fun i => (slotIn rt none (k + i)).gen
  let master := { newHead rt k house masterAttrs none 0 0 0 with extLen := 1, matLen := 32, mat := key }
  let ch := fun i r => mgmtChange rt (k + i) r false house
  { changes := [ch 0 master, ch 1 (reservedRec rt (k + 1) house true (houseBytes first len rt.clock.sec 2 (isOperator house))),
                ch 2 (reservedRec rt (k + 2) house false (officerBytes ids.1 a)),
                ch 3 (reservedRec rt (k + 3) house false (officerBytes ids.2 b))]
    reads := []
    entries := [slotEntry 0x0022 house (k + 1) (gen 1) (gen 1) by_ [], slotEntry 0x0020 house (k + 2) (gen 2) (gen 2) by_ (le 2 ids.1),
                slotEntry 0x0020 house (k + 3) (gen 3) (gen 3) by_ (le 2 ids.2), slotEntry 0x0001 house k (gen 0) (gen 0) by_ []] }

/-- A card that can serve: present, activated and not blocked (R40, R481). -/
def usableCard (c : Option CardState) : Option Card :=
  match c with
  | none => none
  | some x => if x.card.blocked || !x.active then none else some x.card

/-- What a slot holds: 0 A, 1 B. -/
def rawCard (rt : Rt) (k : Nat) : Option CardState := if k = 0 then rt.cardA else rt.cardB

/-- The activated card in a slot (02 R40). -/
def cardOf (rt : Rt) (k : Nat) : Option CardState := (rawCard rt k).filter CardState.active

/-- HOUSE_REGISTER: the master key comes from a key-grade request, for which the request waits. -/
def houseRegister (src : ReqSrc) (q : Req) (s : State) : State :=
  let p := q.params
  let house := leAt p 0 2
  let n := leAt p 4 4
  let ids := (leAt p 8 2, leAt p 10 2)
  if !zeroAt p 2 2 || 1024 ≤ house || n = 0 || n % 64 ≠ 0 || !identOk ids.1 || !identOk ids.2 then onRt (refuse src q stMalformed) s
  else if houseRegistered s.rt house then onRt (refuseReason src q 0x43) s
  else if identUsed s.rt ids.1 || identUsed s.rt ids.2 || ids.1 = ids.2 then onRt (refuseReason src q 0x19) s
  else match usableCard s.rt.cardA, usableCard s.rt.cardB with
    | some a, some b =>
      underLatch src q 0 (fun by_ s =>
        match lowestRange (houseRanges s.rt) n with
        | none => onRt (refuseReason src q 0x47) s
        | some first =>
          if (List.range 4).any (fun i => (slotIn s.rt none (8 * house + i)).kind != 0) then onRt (refuseReason src q 0x47) s
          else match takeDelivered 0 userMasterKey s.rt with
            | none => if s.rt.mint0.exhausted then onRt (refuse src q stRngUnavailable) s else onRt (askKeyGrade 0 userMasterKey 32) s
            | some (key, rt) =>
              let d := registerDelta rt house first n ids a b key by_
              let h := echoOf (8 * house) (newHead rt (8 * house) house masterAttrs none 0 0 0)
              submitChange src q d (le 8 h) { s with rt := rt }) s
    | _, _ => onRt (refuse src q stStateRefused) s

/-- HOUSE_REGISTER. -/
def execHouseRegister (src : ReqSrc) (s : State) : Res := .next (serveLen src 0x30 12 (houseRegister src) s)

/-- HOUSE_REMOVE: no open booth and no occupied slot outside the reserved tile, which is zeroed; never the operator house. -/
def houseRemove (src : ReqSrc) (q : Req) (s : State) : State :=
  let h := leAt q.params 0 2
  if 1024 ≤ h then onRt (refuse src q stMalformed) s
  else if !houseRegistered s.rt h then onRt (refuseReason src q 0x43) s
  else if isOperator h || (s.rt.booths.any fun kv => kv.2.cfg.house == h) ||
      (s.rt.strong.slots.any fun kv => decide (8192 ≤ kv.1) && isOccupied kv.2 && kv.2.house == h) then onRt (refuseReason src q 0x17) s
  else underLatch src q 0 (fun by_ s =>
    let used := (List.range 8).filter fun i => isOccupied (slotIn s.rt none (8 * h + i))
    let ch := used.map fun i => mgmtChange s.rt (8 * h + i) (freedSlot (slotIn s.rt none (8 * h + i))) (i == 0) h
    let r := slotIn s.rt none (8 * h + 1)
    submitChange src q { changes := ch, reads := [], entries := [slotEntry 0x0023 h (8 * h + 1) r.gen (freedSlot r).gen by_ []] } [] s) s

/-- HOUSE_REMOVE. -/
def execHouseRemove (src : ReqSrc) (s : State) : Res := .next (serveLen src 0x31 2 (houseRemove src) s)

/-! ## OFFICER_ADD and OFFICER_REMOVE (R283, R284) -/

/-- OFFICER_ADD: the card in the named slot has generated its key pair and returns the public key. -/
def officerAdd (src : ReqSrc) (q : Req) (s : State) : State :=
  let p := q.params
  let h := leAt p 0 2
  let n := leAt p 2 2
  if 1024 ≤ h || !identOk n || 1 < byteAt p 4 then onRt (refuse src q stMalformed) s
  else if !houseRegistered s.rt h then onRt (refuseReason src q 0x43) s
  else if identUsed s.rt n then onRt (refuseReason src q 0x19) s
  else match (List.range 6).find? (fun i => (slotIn s.rt none (8 * h + 2 + i)).kind == 0) with
    | none => onRt (refuseReason src q 0x47) s
    | some i =>
      match usableCard (cardOf s.rt (byteAt p 4)) with
      | none => onRt (refuse src q stStateRefused) s
      | some c =>
        underLatch src q h (fun by_ s =>
          let k := 8 * h + 2 + i
          let g := (slotIn s.rt none k).gen
          let d : Delta := {
            changes := [mgmtChange s.rt k (reservedRec s.rt k h false (officerBytes n c)) false h,
                        mgmtChange s.rt (8 * h + 1) (recountRec s.rt h (· + 1)) false h]
            reads := []
            entries := [slotEntry 0x0020 h k g g by_ (le 2 n)] }
          submitChange src q d [] s) s

/-- OFFICER_ADD. -/
def execOfficerAdd (src : ReqSrc) (s : State) : Res := .next (serveLen src 0x32 5 (officerAdd src) s)

/-- OFFICER_REMOVE: at least two active officers remain. -/
def officerRemove (src : ReqSrc) (q : Req) (s : State) : State :=
  let h := leAt q.params 0 2
  let n := leAt q.params 2 2
  if 1024 ≤ h || !identOk n then onRt (refuse src q stMalformed) s
  else if !houseRegistered s.rt h then onRt (refuseReason src q 0x43) s
  else match (houseOfficers s.rt h).find? fun o => o.ident == n with
    | none => onRt (refuseReason src q 0x1A) s
    | some o =>
      if o.active && decide (((houseOfficers s.rt h).filter Officer.active).length < 3) then onRt (refuseReason src q 0x18) s
      else underLatch src q h (fun by_ s =>
        let r := slotIn s.rt none o.slot
        let d : Delta := {
          changes := [mgmtChange s.rt o.slot (freedSlot r) true h,
                      mgmtChange s.rt (8 * h + 1) (recountRec s.rt h fun k => if o.active then k - 1 else k) false h]
          reads := []
          entries := [slotEntry 0x0021 h o.slot r.gen (freedSlot r).gen by_ (le 2 n)] }
        submitChange src q d [] s) s

/-- OFFICER_REMOVE. -/
def execOfficerRemove (src : ReqSrc) (s : State) : Res := .next (serveLen src 0x33 4 (officerRemove src) s)

/-! ## The two-key latch (R285, R286) -/

/-- LATCH_OPEN: a challenge of 32 bytes of CD0's mint begins an attempt. -/
def latchOpen (src : ReqSrc) (q : Req) (s : State) : State :=
  let h := leAt q.params 0 2
  let b := leAt q.params 2 2
  if 1024 ≤ h || (4096 ≤ b && b ≠ 0xFFFF) then onRt (refuse src q stMalformed) s
  else if s.rt.twoKey ≠ .closed || ledgerFull s.nv then onRt (refuse src q stStateRefused) s
  else if !houseRegistered s.rt h then onRt (refuseReason src q 0x43) s
  else if b ≠ 0xFFFF && (match boothOf s.rt b with
      | none => true
      | some x => x.cfg.house != h) then onRt (refuseReason src q 0x46) s
  else match drawCd0 32 s.rt with
    | .no st => onRt (refuse src q st) s
    | .wait rt => { s with rt := rt }
    | .got c rt => { s with rt := answer src q stDone c { rt with twoKey := .attempt c h b none } }

/-- LATCH_OPEN. -/
def execLatchOpen (src : ReqSrc) (s : State) : Res := .next (serveLen src 0x34 4 (latchOpen src) s)

/-- The message of a latch signature (R478). -/
def latchMessage (o : Otp) (c : Bytes) (house binding : Nat) : Bytes := c ++ o.serial ++ le 2 house ++ le 2 binding

/-- A signature of 96 bytes verifies under an officer's public key. -/
def officerSigned (o : Officer) (msg sig : Bytes) : Bool :=
  match decompress p384 o.key with
  | none => false
  | some k => ecdsaVerify p384 k (sha384 msg) (beAt sig 0 48) (beAt sig 48 48)

/-- The attempt ends: the challenge is void, and the ledger records the refusal (R285, 0012h). -/
def endAttempt (s : State) : State :=
  match s.rt.twoKey with
  | .attempt _ h b _ =>
    let s := onRt (fun rt => { rt with twoKey := .closed }) s
    if ledgerFull s.nv then s else writeEntry (ledgerEvent 0x0012 h b 0xFFFFFFFF 0 0 0 0 []) s
  | _ => s

/-- A verified signature by an officer: the first is kept, the second, by another officer with another card, opens the latch;
none for a second by the same officer or card. -/
def countSignature (o : Officer) (s : State) : Option (Bool × State) :=
  match s.rt.twoKey with
  | .attempt c h b none => some (false, onRt (fun rt => { rt with twoKey := .attempt c h b (some (o.ident, o.serial)) }) s)
  | .attempt _ h b (some (id1, ser1)) =>
    if id1 = o.ident ∨ ser1 = o.serial then none
    else
      let s := onRt (fun rt => { rt with twoKey := .opened h b (id1, o.ident) none }) s
      some (true, writeEntry (ledgerEvent 0x0010 h b 0xFFFFFFFF 0 0 id1 o.ident []) s)
  | _ => none

/-- LATCH_SIGN. -/
def latchSign (src : ReqSrc) (q : Req) (s : State) : State :=
  let p := q.params
  match s.rt.twoKey with
  | .attempt c h b _ =>
    if !zeroAt p 2 2 then onRt (refuse src q stMalformed) s
    else if ledgerFull s.nv then onRt (refuse src q stStateRefused) s
    else
      let who := (houseOfficers s.rt h).find? fun o => o.active && o.ident == leAt p 0 2 && officerSigned o (latchMessage s.otp c h b) (slice p 4 96)
      match who.bind fun o => countSignature o s with
      | none => onRt (refuseReason src q 0x48) (endAttempt s)
      | some (second, s) => onRt (answer src q stDone [BitVec.ofNat 8 (b2n second)]) s
  | _ => onRt (refuse src q stStateRefused) s

/-- LATCH_SIGN. -/
def execLatchSign (src : ReqSrc) (s : State) : Res := .next (serveLen src 0x35 100 (latchSign src) s)

/-- An open latch closes; one that nothing has claimed leaves an entry that says why. -/
def closeLatch (why : Nat) (s : State) : State :=
  match s.rt.twoKey with
  | .opened h b o claim =>
    let s := onRt (fun rt => { rt with twoKey := .closed }) s
    if claim.isSome || ledgerFull s.nv then s
    else writeEntry (ledgerEvent 0x0011 h b 0xFFFFFFFF 0 0 o.1 o.2 [BitVec.ofNat 8 why]) s
  | _ => s

/-- The latch is open and nothing has claimed it. -/
def latchUnclaimed (rt : Rt) : Bool :=
  match rt.twoKey with
  | .opened _ _ _ none => true
  | _ => false

/-- LATCH_CLOSE: an open latch closes; with none open nothing happens. -/
def latchClose (src : ReqSrc) (q : Req) (s : State) : State :=
  if latchUnclaimed s.rt && ledgerFull s.nv then onRt (refuse src q stStateRefused) s
  else onRt (answer src q stDone []) (closeLatch 1 s)

/-- LATCH_CLOSE. -/
def execLatchClose (src : ReqSrc) (s : State) : Res := .next (serveLen src 0x36 0 (latchClose src) s)

/-- LATCH_EXPIRY: 120 s after it opened, an unclaimed latch closes. -/
def execLatchExpiry (s : State) : Res := .next (if latchUnclaimed s.rt then closeLatch 2 s else s)

/-- LATCH_ATTEMPT_TIMEOUT: 300 s after the challenge. -/
def execLatchAttemptTimeout (s : State) : Res := .next (endAttempt s)

end Sys2Proof.Machine
end

