-- ==== Sys2Proof/Machine/Ceremony.lean ====
section
/-! DEFINITION. The officer slots, the ceremony console, clear key entry and commissioning (02 R40, 13 R284, R288 to R290, R481,
21 R427, R428, Table 21.7). -/

namespace Sys2Proof.Machine

/-! ## The request that waits -/

/-- The source and the request of a ceremony. -/
def ceremonySrc (c : Ceremony) : ReqSrc := if c.console then .console [] else .mailbox
def ceremonyReq (c : Ceremony) : Req := { code := c.code, flags := 0, seq := c.seq, params := c.params, headOk := true }

/-- A ceremony ends without effect: random bytes kept for it go too (R481). -/
def failCeremony (reason : Nat) (s : State) : State :=
  match s.rt.ceremony with
  | none => s
  | some c => onRt (fun rt =>
      let m := { rt.mint0 with delivered := kdel (kdel rt.mint0.delivered userRoot) userMasterKey }
      refuseReason (ceremonySrc c) (ceremonyReq c) reason { rt with ceremony := none, mint0 := m }) s

/-! ## Clear key entry (R288) -/

/-- A component of a KEY_ENTER request. -/
structure Component where
  officer : Nat
  source : Nat
  index : Nat
  check : Bytes
  deriving DecidableEq, Repr

/-- The components of a request. -/
def components (p : Bytes) : List Component :=
  (List.range (byteAt p 18)).map fun i =>
    { officer := leAt p (19 + 8 * i) 2, source := byteAt p (21 + 8 * i), index := byteAt p (22 + 8 * i), check := slice p (23 + 8 * i) 4 }

/-- The check value of a key (R289): 3 bytes for T, 5 for A and H. -/
def checkValue (alg : Nat) (k : Bytes) : Bytes := if alg = algT then checkT k else if alg = algH then checkH k else checkA k

/-- The keys that may enter in clear: A or T in classes 10h to 1Bh, H in class 1Ch, A in class 30h. -/
def clearKind (a : Attrs) : Bool :=
  (decide (a.alg = algA ∨ a.alg = algT) && decide (0x10 ≤ a.cls ∧ a.cls ≤ 0x1B)) || (a.alg == algH && a.cls == 0x1C) ||
  (a.alg == algA && a.cls == 0x30)

/-- The level that a key under a parent would have is allowed (R274). -/
def levelFits (rt : Rt) (u : Option Nat) (epoch : Nat) (parent : SlotRec) : Bool := decide (levelOf rt u epoch parent < 2)

/-- The parent of a new key, for the firmware: usable, a class that may be a parent. -/
def findParent (rt : Rt) (house : Nat) (h : BitVec 64) : Found :=
  match resolve rt house none rt.epoch true h with
  | .wait => .wait
  | .no st => .no st
  | .key slot r => usable rt none rt.epoch slot r fun r => mayParent r.cls

/-- The form of the parameters: reserved bits, count, sources and indices; a typed component is the console's alone. -/
def keyEnterForm (console : Bool) (p : Bytes) : Bool :=
  let l := components p
  decide (leAt p 0 2 < 1024 ∧ byteAt p 17 < 2 ∧ (byteAt p 18 = 2 ∨ byteAt p 18 = 3)) && p.length == 19 + 8 * byteAt p 18 &&
  l.all fun c => decide (c.source ≤ 2 ∧ c.index ≤ 3) && (console || c.source != 2)

/-- The slots whose cards release components. -/
def cardSlots (p : Bytes) : List CardSlot :=
  [0, 1].filter fun (k : CardSlot) => (components p).any fun c => c.source == k.val

/-- A component is of the key's length and agrees with the check value that the officer gave (R288). -/
def componentRefused (alg size : Nat) (c : Component) (v : Bytes) : Option Nat :=
  let n := if alg = algT then 3 else 4
  if v.length ≠ size then some 0x1B
  else if !allZero c.check && (checkValue alg v).take n != c.check.take n then some 0x16
  else none

/-- The XOR of components. -/
def combine (size : Nat) (l : List Bytes) : Bytes := l.foldl bxor (zeros size)

/-- Every component is there: the key is written through a bundle of one (R288). -/
def finishKeyEnter (c : Ceremony) (s : State) : State :=
  let p := c.params
  let h := leAt p 0 2
  let a := attrsOf (slice p 10 8)
  let l := (components p).zipIdx.map fun x => kgetD c.got x.2 []
  let key := combine a.size l
  match findParent s.rt h (BitVec.ofNat 64 (leAt p 2 8)) with
  | .wait => s
  | .no st => onRt (fun rt => refuse (ceremonySrc c) (ceremonyReq c) st { rt with ceremony := none }) s
  | .key ps pr =>
    match allocRun s h 1 with
    | none => failCeremony 0x10 s
    | some k =>
      let head := newHead s.rt k h a (some (ps, pr.gen)) 0 0 0
      let ch := (layKey k head key).map fun x => mgmtChange s.rt x.1 x.2 false h
      let d : Delta := { changes := ch, reads := [ps], entries := [slotEntry 0x0008 h k head.gen head.gen c.officers (parentDetail (some (ps, pr.gen)))] }
      let res := le 8 (echoOf k head) ++ l.flatMap (fun v => padTo 5 (checkValue a.alg v)) ++ checkValue a.alg key
      submitChange (ceremonySrc c) (ceremonyReq c) d res (onRt (fun rt => { rt with ceremony := none }) s)

/-- A component arrives for a place of the request. -/
def takeComponent (c : Ceremony) (i : Nat) (v : Option Bytes) : Ceremony × Option Nat :=
  let a := attrsOf (slice c.params 10 8)
  match (components c.params)[i]?, v with
  | some x, some v =>
    (match componentRefused a.alg a.size x v with
     | some r => (c, some r)
     | none => ({ c with got := kset c.got i v }, none))
  | _, _ => (c, some 0x1B)

/-- KEY_ENTER: checked at acceptance, where the latch closes; then it waits for PINs and typed components (R288, R481). -/
def keyEnter (src : ReqSrc) (q : Req) (s : State) : State :=
  let p := q.params
  let h := leAt p 0 2
  let a := attrsOf (slice p 10 8)
  let l := components p
  if !keyEnterForm (fromConsole src) p then onRt (refuse src q stMalformed) s
  else if !(clearKind a && attrsOk a) then onRt (refuseReason src q 0x15) s
  else if (cardSlots p).any fun k => (usableCard (cardOf s.rt k.val)).isNone then onRt (refuse src q stStateRefused) s
  else underLatch src q h (fun by_ s =>
    match findParent s.rt h (BitVec.ofNat 64 (leAt p 2 8)) with
    | .wait => s
    | .no st => onRt (refuse src q st) s
    | .key _ pr =>
      let known := fun (x : Component) => match (houseOfficers s.rt h).find? fun o => o.active && o.ident == x.officer with
        | none => false
        | some o => if x.source = 2 then true else match cardOf s.rt x.source with
          | none => false
          | some k => cardSerial k.card == o.serial
      if !levelFits s.rt none s.rt.epoch pr then onRt (refuseReason src q 0x13) s
      else if !(l.all known && decide (l.map Component.officer).Nodup) then onRt (refuseReason src q 0x1B) s
      else
        let c : Ceremony := { code := q.code, params := p, console := fromConsole src, seq := q.seq, pins := cardSlots p, cards := [],
                              got := [], officers := by_ }
        onRt (fun rt => { rt with ceremony := some c, twoKey := .closed }) s) s

/-- KEY_ENTER. -/
def execKeyEnter (src : ReqSrc) (s : State) : Res := .next (serve src 0x37 (keyEnter src) s)

/-! ## Commissioning (R290) and re-commissioning (R427, R428) -/

/-- R427: every source inactive, both cells at 2.7 V or above, main power, ROOT_ZERO. -/
def recommissionOk (s : State) : Bool :=
  decide (s.rt.boot.lcState = 0x03 ∨ s.rt.boot.lcState = 0x04) && s.gon.active.isEmpty && decide (2700 ≤ s.rt.cellA ∧ 2700 ≤ s.rt.cellB) &&
  mainPower s.rt && s.gon.root == 0

/-- Table 21.7: what re-commissioning deletes, with the slot index new and the journal discarded; commissioning begins from the
same. -/
def freshNv (nv : Nv) : Nv :=
  { nv with slots := [], vers := [], journal := [], boothTable := [], listeners := [], part := none, progs := [],
            pairing := { nv.pairing with twin := none, keyHandle := 0, target := true, copying := false, sending := false, diverged := false, nextSeq := 0, appliedTwin := 0, retained := [] } }

/-- The length of the operator house's range: whole blocks inside the strongroom. -/
def operatorRange : Nat := 64 * (1 + Config.operatorBlocks % 524160)

/-- Steps 1 to 4 of R290 on the erased module: the root with its check value, the keys of Table 13.1, house 0 with its officers and master key, as one
committed record (R273, R428). -/
def foundHouse (root key : Bytes) (ids : Nat × Nat) (a b : Card) (again : Bool) (s : State) : State :=
  let s := { s with nv := freshNv s.nv
                    gon := { s.gon with latched := [], root := BitVec.ofNat 256 (ofLe root), rootCheck := BitVec.ofNat 32 (crc32c root) } }
  let s := onRt (fun rt => deriveKeys s.otp.serial { rt with strong := Strong.reset, kdbRoot := s.gon.root }) s
  let d := registerDelta s.rt 0 8192 operatorRange ids a b key ids
  let r : JRec := { seq := 0, epoch := markOf s.nv, bundle := none, pairSeq := none, changes := d.changes, entries := [],
                    complete := true, marked := true, retired := false, held := false, acked := true }
  let s := writeEntries d.entries { s with nv := { s.nv with journal := [r] } }
  writeEntry { moduleEvent (if again then 0x0112 else 0x0030) [] with officer1 := ids.1, officer2 := ids.2 } s

/-- The gondola at step 6 of R428: tamper halt ends. -/
def clearTamper (s : State) : State :=
  let s := { s with gon := { s.gon with tamperFlag := false, firstCause := none, latched := [], tamperOut := false } }
  onRt (fun rt => { rt with alert := { rt.alert with tamperHold := false } }) s

/-- The ceremony completes: in SEALED the SERVICE mark is written, with its ledger entry; the response, and the module reset (R95, R107,
R290, R428). A burn of the mark that power or the rip line cuts leaves no response; one that fails ends with OTP_BURN (R97, R101,
R102). -/
def finishCommission (src : ReqSrc) (q : Req) (a b : Card) (p : Pulses) (s : State) : State :=
  let ids := (leAt q.params 0 2, leAt q.params 2 2)
  let again := inTamperHalt s.rt
  match takeDelivered 0 userRoot s.rt with
  | none => s
  | some (root, rt) =>
    match takeDelivered 0 userMasterKey rt with
    | none => s
    | some (key, rt) =>
      let fromSealed := rt.boot.lcState == 0x03
      let s := foundHouse root key ids a b again { s with rt := { rt with ceremony := none } }
      let s := if again then clearTamper s else s
      let finish := fun (s : State) => moduleReset (onRt (answer src q stDone []) s)
      match (if fromSealed then unusedSlot s.otp else none) with
      | none => finish s
      | some k =>
        let r := burnList true (markFuses k 4) (burning p s)
        if r.1.cut then cutState r.1
        else if r.2 then finish (writeEntry (transEntry 3 4 (some k) [] ids) r.1.s)
        else onRt (refuse src q stDeviceFault) r.1.s

/-- COMMISSION: the conditions, the root and the master key from key-grade requests, and in SEALED the PINs of both cards. -/
def commission (src : ReqSrc) (q : Req) (s : State) : State :=
  let p := q.params
  let ids := (leAt p 0 2, leAt p 2 2)
  let fromSealed := s.rt.boot.lcState == 0x03
  if !identOk ids.1 || !identOk ids.2 then onRt (refuse src q stMalformed) s
  else if ids.1 = ids.2 then onRt (refuseReason src q 0x19) s
  else if (inTamperHalt s.rt && !recommissionOk s) || transPending s || ledgerFull s.nv || (fromSealed && (unusedSlot s.otp).isNone) then
    onRt (refuse src q stStateRefused) s
  else match usableCard s.rt.cardA, usableCard s.rt.cardB with
    | some a, some b =>
      if s.rt.mint0.exhausted then onRt (refuse src q stRngUnavailable) s
      else if !s.rt.mint0.seeded then onRt (wakeDie 0) s
      else if !((kget s.rt.mint0.delivered userRoot).isSome && (kget s.rt.mint0.delivered userMasterKey).isSome) then
        let ask := fun (who : Nat) (rt : Rt) => if (kget rt.mint0.delivered who).isSome then rt else askKeyGrade 0 who 32 rt
        onRt (fun rt => ask userMasterKey (ask userRoot rt)) s
      else if fromSealed then
        let c : Ceremony := { code := q.code, params := p, console := fromConsole src, seq := q.seq, pins := [0, 1], cards := [a, b],
                              got := [], officers := ids }
        onRt (fun rt => { rt with ceremony := some c }) s
      else finishCommission src q a b { weak := [], cut := none } s
    | _, _ => onRt (refuse src q stStateRefused) s

/-- COMMISSION. -/
def execCommission (src : ReqSrc) (s : State) : Res := .next (serveLen src 0x38 4 (commission src) s)

/-! ## The ceremony console (R481) -/

/-- The ceremony ends once every PIN and component is in. -/
def tryFinish (c : Ceremony) (p : Pulses) (s : State) : State :=
  if c.pins ≠ [] then s
  else if c.code = 0x38 then
    match c.cards with
    | [a, b] => finishCommission (ceremonySrc c) (ceremonyReq c) a b p s
    | _ => s
  else if (List.range (components c.params).length).all fun i => (kget c.got i).isSome then finishKeyEnter c s
  else s

/-- Keep a ceremony's progress, and end it if it is complete. -/
def stepCeremony (c : Ceremony) (p : Pulses) (s : State) : State := tryFinish c p (onRt (fun rt => { rt with ceremony := some c }) s)

/-- A card whose PIN was right signs, or releases its components (R284, R481). -/
def cardServes (k : CardSlot) (card : Card) (c : Ceremony) (p : Pulses) (s : State) : State :=
  let c := { c with pins := c.pins.filter (· ≠ k) }
  if c.code = 0x38 then stepCeremony c p s
  else
    let mine := (components c.params).zipIdx.filter fun x => x.1.source == k.val
    let r := mine.foldl (fun (r : Ceremony × Option Nat) x => match r.2 with
      | some _ => r
      | none => takeComponent r.1 x.2 card.components[x.1.index]?) (c, none)
    match r.2 with
    | some why => failCeremony why s
    | none => stepCeremony r.1 p s

/-- A card whose PIN was right signs a latch challenge: a card of no active officer of the house ends the attempt (R285). -/
def cardSigns (card : Card) (s : State) : State :=
  match s.rt.twoKey with
  | .attempt _ h _ _ =>
    let who := (houseOfficers s.rt h).find? fun o => o.active && o.serial == cardSerial card && o.key == padTo 49 (card.pubKey.take 49)
    match who.bind fun o => countSignature o s with
    | none => endAttempt s
    | some (_, s) => s
  | _ => s

/-- Replace a card. -/
def setCard (k : CardSlot) (x : Option CardState) (rt : Rt) : Rt := if k = 0 then { rt with cardA := x } else { rt with cardB := x }

/-- A PIN: the third wrong one blocks the card (R284). -/
def enterPin (k : CardSlot) (ok : Bool) (p : Pulses) (s : State) : State :=
  match cardOf s.rt k.val with
  | none => s
  | some x =>
    if x.card.blocked then s
    else if !ok then
      let dead := decide (2 ≤ x.wrong)
      let s := onRt (setCard k (some { x with wrong := x.wrong + 1, card := { x.card with blocked := dead } })) s
      match s.rt.ceremony with
      | some c => if dead && decide (k ∈ c.pins) then failCeremony 0x4A s else s
      | none => s
    else
      let s := onRt (setCard k (some { x with wrong := 0 })) s
      match s.rt.ceremony with
      | some c => if k ∈ c.pins then cardServes k x.card c p s else s
      | none => if ledgerFull s.nv then s else cardSigns x.card s

/-- A typed component: it fills the first typed place that is open. -/
def enterComponent (v : Bytes) (p : Pulses) (s : State) : State :=
  match s.rt.ceremony with
  | none => s
  | some c =>
    if c.code ≠ 0x37 then s
    else match (components c.params).zipIdx.find? fun x => x.1.source == 2 && (kget c.got x.2).isNone with
      | none => s
      | some x =>
        let r := takeComponent c x.2 (some v)
        match r.2 with
        | some why => failCeremony why s
        | none => stepCeremony r.1 p s

/-- CEREMONY_CONSOLE_ENTRY. -/
def doConsoleEntry (e : ConsoleEntry) (p : Pulses) (s : State) : State :=
  if !powered s.rt then s
  else match e with
    | .pin k ok => enterPin k ok p s
    | .component v => enterComponent v p s

/-- CEREMONY_CONSOLE_ENTRY. -/
def execCeremonyConsoleEntry (x : ConsoleBurn) (s : State) : Res := .next (doConsoleEntry x.entry x.pulses s)

/-- OFFICER_PIN_TIMEOUT: 300 s without an awaited PIN. -/
def doOfficerPinTimeout (s : State) : State :=
  match s.rt.ceremony with
  | some c => if c.pins = [] then s else failCeremony 0x4A s
  | none => s

/-- OFFICER_PIN_TIMEOUT. -/
def execOfficerPinTimeout (s : State) : Res := .next (doOfficerPinTimeout s)

/-! ## The officer slots (R40) -/

/-- OFFICER_CARD_INSERT: activated at class B first, then at class A; a card that answers neither is not there. Without main power it is
activated at the next start. -/
def doCardInsert (k : CardSlot) (card : Card) (rt : Rt) : Rt :=
  if (rawCard rt k.val).isSome || !(card.answersA || card.answersB) then rt
  else setCard k (some { card := card, classA := !card.answersB, wrong := 0, active := powered rt }) rt

/-- OFFICER_CARD_INSERT. -/
def execOfficerCardInsert (k : CardSlot) (card : Card) (s : State) : Res := .next (onRt (doCardInsert k card) s)

/-- A ceremony uses the card of a slot: COMMISSION both, KEY_ENTER those of its components (R481). -/
def usesSlot (c : Ceremony) (k : CardSlot) : Bool := c.code == 0x38 || decide (k ∈ cardSlots c.params)

/-- A card leaves: a ceremony in progress that uses it fails (R40). -/
def cardGone (k : CardSlot) (s : State) : State :=
  let s := onRt (setCard k none) s
  match s.rt.ceremony with
  | some c => if usesSlot c k then failCeremony 0x4A s else s
  | none => s

/-- OFFICER_CARD_WITHDRAW. -/
def execOfficerCardWithdraw (k : CardSlot) (s : State) : Res := .next (cardGone k s)

/-- OFFICER_CARD_OVERCURRENT: the slot is deactivated and reported absent. -/
def execOfficerCardOvercurrent (k : CardSlot) (s : State) : Res := .next (cardGone k s)

end Sys2Proof.Machine
end

