-- ==== Sys2Proof/Machine/Ff1.lean ====
section
/-! DEFINITION. FF1 of SP 800-38G with radix 10 (R386), and the ANSI X9.143 key block with versions D and B (R281, R387,
R388), as the standards of 00 Table 0.7 define them (assumption log 6). -/

namespace Sys2Proof.Machine

/-! ## FF1 -/

/-- The number of a digit string, most significant first. -/
def digitsNum (l : List Nat) : Nat := l.foldl (fun a d => a * 10 + d) 0

/-- `n` decimal digits of a number, least significant first. -/
def numDigitsLsb : Nat → Nat → List Nat
  | 0, _ => []
  | n + 1, v => v % 10 :: numDigitsLsb n (v / 10)

/-- `n` decimal digits of a number, most significant first. -/
def numDigits (n v : Nat) : List Nat := (numDigitsLsb n v).reverse

/-- The round value y of FF1 for a half `b` in round `i`. -/
def ff1Round (key tweak : Bytes) (n i : Nat) (b : List Nat) : Nat :=
  let u := n / 2
  let v := n - u
  let bl := cdiv (Nat.log2 (10 ^ v) + 1) 8
  let d := 4 * cdiv bl 4 + 4
  let p := bytesOf [1, 2, 1, 0, 0, 10, 10, u] ++ be 4 n ++ be 4 tweak.length
  let q := tweak ++ zeros ((16 - (tweak.length + bl + 1) % 16) % 16) ++ [BitVec.ofNat 8 i] ++ be bl (digitsNum b)
  let r := cbcMac false key (p ++ q)
  let s := r ++ ((List.range (cdiv d 16 - 1)).map fun j => aesEnc key (bxor r (be 16 (j + 1)))).flatten
  ofBe (s.take d)

/-- FF1 encryption of a digit string. -/
def ff1Enc (key tweak : Bytes) (x : List Nat) : List Nat :=
  let n := x.length
  let u := n / 2
  let ab := forN 10 (fun i (s : List Nat × List Nat) =>
    let m := if i % 2 = 0 then u else n - u
    (s.2, numDigits m ((digitsNum s.1 + ff1Round key tweak n i s.2) % 10 ^ m))) (x.take u, x.drop u)
  ab.1 ++ ab.2

/-- FF1 decryption of a digit string. -/
def ff1Dec (key tweak : Bytes) (x : List Nat) : List Nat :=
  let n := x.length
  let u := n / 2
  let ab := forN 10 (fun j (s : List Nat × List Nat) =>
    let i := 9 - j
    let m := if i % 2 = 0 then u else n - u
    let y := ff1Round key tweak n i s.1 % 10 ^ m
    (numDigits m ((digitsNum s.2 + 10 ^ m - y) % 10 ^ m), s.1)) (x.take u, x.drop u)
  ab.1 ++ ab.2

/-! ## X9.143 key blocks -/

/-- The upper-case hexadecimal digit as ASCII. -/
def hexDigit (n : Nat) : Byte := BitVec.ofNat 8 (if n < 10 then 48 + n else 55 + n)

/-- Bytes as upper-case hexadecimal ASCII. -/
def toHex (b : Bytes) : Bytes := (nibbles b).map hexDigit

/-- The value of a hexadecimal ASCII digit. -/
def hexVal (b : Byte) : Option Nat :=
  let c := b.toNat
  if 48 ≤ c ∧ c ≤ 57 then some (c - 48) else if 65 ≤ c ∧ c ≤ 70 then some (c - 55) else none

/-- Hexadecimal ASCII as nibbles; none if a character is no digit. -/
def hexNibbles : Bytes → Option (List Nat)
  | [] => some []
  | c :: cs =>
    match hexVal c, hexNibbles cs with
    | some n, some l => some (n :: l)
    | _, _ => none

/-- Hexadecimal ASCII as bytes. -/
def ofHex (b : Bytes) : Option Bytes := (hexNibbles b).map packNibbles

/-- `n` decimal ASCII digits. -/
def toDec (n v : Nat) : Bytes := (numDigits n v).map fun d => BitVec.ofNat 8 (48 + d)

/-- Decimal ASCII as a number; none if a character is no digit. -/
def ofDec (b : Bytes) : Option Nat :=
  if b.all fun c => decide (48 ≤ c.toNat ∧ c.toNat ≤ 57) then some (digitsNum (b.map fun c => c.toNat - 48)) else none

/-- The algorithm indicator and length of the keys derived from a protection key of `n` bytes. -/
def kbAlgInd (tdea : Bool) (n : Nat) : Nat :=
  if tdea then (if n = 16 then 0 else 1) else (if n = 16 then 2 else if n = 24 then 3 else 4)

/-- A key derived from the protection key: usage 0 for encryption, 1 for authentication. -/
def kbDerive (tdea : Bool) (kbpk : Bytes) (usage : Nat) : Bytes :=
  let n := kbpk.length
  (((List.range (cdiv n (blockLen tdea))).map fun i =>
    cmac tdea kbpk ([BitVec.ofNat 8 (i + 1)] ++ be 2 usage ++ [0x00#8] ++ be 2 (kbAlgInd tdea n) ++ be 2 (8 * n))).flatten).take n

/-- The header of a key block without optional blocks (R388): version, length, usage, algorithm, mode, key version,
exportability. -/
def kbHeader (tdea : Bool) (len : Nat) (usage : Bytes) (alg mode : Byte) (ver : Bytes) (exp : Byte) : Bytes :=
  [if tdea then 0x42#8 else 0x44#8] ++ toDec 4 len ++ usage ++ [alg, mode] ++ ver ++ [exp] ++
    bytesOf [48, 48, 48, 48]

/-- The length of a key block that carries `n` key bytes. -/
def kbLen (tdea : Bool) (n : Nat) : Nat :=
  let bl := blockLen tdea
  16 + 2 * (bl * cdiv (n + 2) bl) + 2 * bl

/-- The key field's padding in bytes. -/
def kbPadLen (tdea : Bool) (n : Nat) : Nat :=
  let bl := blockLen tdea
  bl * cdiv (n + 2) bl - (n + 2)

/-- Build a key block (R281): the key field is the key length in bits, the key and random padding. -/
def kbWrap (tdea : Bool) (kbpk header key pad : Bytes) : Bytes :=
  let field := be 2 (8 * key.length) ++ key ++ pad
  let mac := cmac tdea (kbDerive tdea kbpk 1) (header ++ field)
  header ++ toHex (cbcEnc tdea (kbDerive tdea kbpk 0) mac field) ++ toHex mac

/-- The length of the optional blocks: `n` blocks from the front of `b`; each gives its whole length in two hexadecimal
digits, or 00, a digit count and the length in so many digits. -/
def kbOptLen : Nat → Bytes → Option Nat
  | 0, _ => some 0
  | n + 1, b =>
    match ofHex (slice b 2 2) with
    | none => none
    | some l1 =>
      let short := ofBe l1
      let len :=
        if short ≠ 0 then some short
        else match ofHex (slice b 4 2) with
          | none => none
          | some c => (ofHex (slice b 6 (ofBe c * 2))).map ofBe
      match len with
      | none => none
      | some k =>
        if k < 4 ∨ b.length < k then none
        else (kbOptLen n (b.drop k)).map (· + k)

/-- What a key block holds once it is unwrapped. -/
structure KbContent where
  usage : Bytes
  alg : Byte
  mode : Byte
  ver : Bytes
  exp : Byte
  key : Bytes
  deriving DecidableEq, Repr

/-- Unwrap a key block; none where the version does not suit the key, the length field, a header field, the padding or
the authenticator is refused (R387, reason 08h). -/
def kbUnwrap (tdea : Bool) (kbpk blk : Bytes) : Option KbContent :=
  let bl := blockLen tdea
  let macLen := 2 * bl
  match ofDec (slice blk 1 4), ofDec (slice blk 12 2) with
  | some len, some nOpt =>
    if blk.headD 0 ≠ (if tdea then 0x42#8 else 0x44#8) ∨ len ≠ blk.length ∨ slice blk 14 2 ≠ bytesOf [48, 48] then none
    else match kbOptLen nOpt (blk.drop 16) with
      | none => none
      | some ol =>
        let hdr := blk.take (16 + ol)
        if blk.length < 16 + ol + macLen + macLen ∨ (16 + ol) % bl ≠ 0 then none
        else match ofHex (slice blk (16 + ol) (blk.length - 16 - ol - macLen)), ofHex (blk.drop (blk.length - macLen)) with
          | some enc, some mac =>
            if enc.length % bl ≠ 0 ∨ mac.length ≠ bl then none
            else
              let field := cbcDec tdea (kbDerive tdea kbpk 0) mac enc
              let bits := beAt field 0 2
              if cmac tdea (kbDerive tdea kbpk 1) (hdr ++ field) ≠ mac ∨ bits % 8 ≠ 0 ∨ field.length < 2 + bits / 8 then none
              else some { usage := slice blk 5 2, alg := blk.getD 7 0, mode := blk.getD 8 0, ver := slice blk 9 2,
                          exp := blk.getD 11 0, key := slice field 2 (bits / 8) }
          | _, _ => none
  | _, _ => none

end Sys2Proof.Machine
end

