-- ==== Sys2Proof/Machine/Locksmith.lean ====
section
/-! DEFINITION. The locksmith: which keys each opcode accepts (18 Table 18.1, 17 Table 17.5), permission groups (14 Table 14.4),
derivations (13 Table 13.5), the fields of long keys (15 Table 15.6, 18 Table 18.10), and LOCKSMITH_DELIVERY (12 R261). -/

namespace Sys2Proof.Machine

/-! ## What an opcode accepts (check 5 of Table 13.4) -/

/-- A key of a class, usage and one of some modes. -/
def keyIs (cls : Nat) (usages : List (BitVec 16)) (modes : List Nat) (r : SlotRec) : Bool :=
  r.cls == cls && decide (r.usage ∈ usages ∧ r.mode ∈ modes)

/-- A class that a key block may carry (Table 18.1, KEYBLOCK_EXPORT). -/
def exportClass (cls : Nat) : Bool := decide (0x10 ≤ cls ∧ cls ≤ 0x1C) || cls == 0x21 || cls == 0x22

/-- Table 18.1 and the key management commands: whether an opcode accepts a key as handle 1, or as handle 2. -/
def accepts (op : Nat) (second : Bool) (r : SlotRec) : Bool :=
  match op, second with
  | 0x0010, false => mayParent r.cls
  | 0x0016, false => mayParent r.cls
  | 0x0100, false => keyIs 0x12 [uP0] [mB, mD, mN] r
  | 0x0100, true => keyIs 0x12 [uP0] [mB, mE, mN] r
  | 0x0101, false => keyIs 0x12 [uP0] [mB, mD, mN] r
  | 0x0102, false => keyIs 0x12 [uP0] [mB, mD, mN] r
  | 0x0101, true => keyIs 0x13 [uV1, uV2] [mB, mE, mN] r && r.alg == algT
  | 0x0102, true => keyIs 0x13 [uV1, uV2] [mB, mE, mN] r && r.alg == algT
  | 0x0110, false => keyIs 0x14 [uC0] [mB, mE, mN] r && !(r.alg == algT && r.size == 0x18)
  | 0x0111, false => keyIs 0x14 [uC0] [mB, mE, mN] r && !(r.alg == algT && r.size == 0x18)
  | 0x0120, false => keyIs 0x16 [uE0] [mX] r
  | 0x0121, false => keyIs 0x17 [uE2] [mX] r
  | 0x0122, false => keyIs 0x17 [uE2] [mX] r
  | 0x0122, true => keyIs 0x18 [uE1] [mX] r
  | 0x0130, false => keyIs 0x15 [uB0] [mX] r
  | 0x0131, false => keyIs 0x15 [uB0] [mX] r
  | 0x0131, true => keyIs 0x12 [uP0] [mB, mE, mN] r && r.alg == algA
  | 0x0140, false => r.cls == 0x19 && decide (r.mode ∈ [mB, mC, mE, mG, mN])
  | 0x0141, false => r.cls == 0x19 && decide (r.mode ∈ [mB, mC, mD, mN, mV])
  | 0x0150, false => keyIs 0x1B [uOwn 1] [mB, mE, mN] r
  | 0x0151, false => keyIs 0x1B [uOwn 1] [mB, mE, mN] r
  | 0x0160, false => keyIs 0x11 [uK1] [mB, mD] r
  | 0x0161, false => exportClass r.cls
  | 0x0161, true => keyIs 0x11 [uK1] [mB, mE] r
  | 0x0162, false => decide (0x10 ≤ r.cls ∧ r.cls ≤ 0x1C) && (r.alg == algA || r.alg == algT)
  | 0x0170, false => keyIs 0x1A [uD0] [mB, mE, mN] r && r.alg == algA
  | 0x0171, false => keyIs 0x1A [uD0] [mB, mD, mN] r && r.alg == algA
  | 0x0200, false => decide (r.cls ∈ [0x21, 0x22, 0x23]) && r.usage == uS0 && decide (r.mode ∈ [mS, mN]) &&
      !(r.alg == algE && decide (4 ≤ r.size))
  | 0x0201, false => keyIs 0x28 [uS0] [mV, mN] r && !(r.alg == algE && decide (4 ≤ r.size))
  | 0x0202, false => keyIs 0x22 [uOwn 3] [mX, mN] r
  | 0x0203, false => keyIs 0x24 [uOwn 5] [mD, mN] r
  | _, _ => false

/-! ## Permission groups (R302, Table 14.4) -/

def permsNone : Perms :=
  { enc := false, dec := false, macg := false, macv := false, hmacg := false, hmacv := false, wrap := false, ecbOnly := false }

/-- The groups that a usage allows. -/
def usagePerms (u : BitVec 16) : Perms :=
  if u = uP0 ∨ u = uD0 then { permsNone with enc := true, dec := true }
  else if u = uC0 ∨ u = uV1 ∨ u = uV2 then { permsNone with enc := true }
  else if u = uM1 ∨ u = uM3 ∨ u = uM6 then { permsNone with macg := true, macv := true }
  else if u = uOwn 1 then { permsNone with enc := true, ecbOnly := true }
  else if u = uOwn 2 then { permsNone with hmacg := true, hmacv := true }
  else if u = uK0 then { permsNone with wrap := true }
  else permsNone

/-- The groups that remain under a mode of use. -/
def modePerms (m : Nat) (p : Perms) : Perms :=
  let keep := fun (e d g v hg hv w : Bool) =>
    { p with enc := p.enc && e, dec := p.dec && d, macg := p.macg && g, macv := p.macv && v, hmacg := p.hmacg && hg,
             hmacv := p.hmacv && hv, wrap := p.wrap && w }
  if m = mB ∨ m = mN then p
  else if m = mE then keep true false true false true false true
  else if m = mD then keep false true false true false true false
  else if m = mC then keep false false true true true true false
  else if m = mG then keep false false true false true false false
  else if m = mV then keep false false false true false true false
  else permsNone

/-- The permission set of a stored key. -/
def storedPerms (r : SlotRec) : Perms := modePerms r.mode (usagePerms r.usage)

/-- The groups of a DUKPT working key by its usage indicator (R280; the indicators are X9.24-3's). -/
def dukptPerms (usage : Nat) : Perms :=
  match usage with
  | 0x1000 => { permsNone with enc := true, dec := true }
  | 0x2000 => { permsNone with macg := true }
  | 0x2001 => { permsNone with macv := true }
  | 0x2002 => { permsNone with macg := true, macv := true }
  | 0x3000 => { permsNone with enc := true }
  | 0x3001 => { permsNone with dec := true }
  | 0x3002 => { permsNone with enc := true, dec := true }
  | _ => permsNone

/-- The groups of an EMV session key by the issuer master key's class (Table 14.4). -/
def emvPerms (cls : Nat) : Perms :=
  if cls = 0x16 then { permsNone with macg := true, macv := true, enc := true }
  else if cls = 0x17 then { permsNone with macg := true, macv := true }
  else { permsNone with enc := true, dec := true }

/-- The algorithm of a symmetric key. -/
def keyAlgOf (alg : Nat) : Option KeyAlg :=
  if alg = algA then some .aes else if alg = algT then some .tdea else if alg = algH then some .hmac else none

/-! ## Derivations (R279, R280) -/

/-- What a derivation gives: a refusal, or a key with its permissions. -/
inductive Derived where
  | no (st reason : Nat)
  | key (k : EngKey)
  deriving DecidableEq, Repr

/-- The class and attributes that a key block header yields (R387), without the dual-control flag; size from the key. -/
def kbAttrs (c : KbContent) : Attrs :=
  let u := BitVec.ofNat 16 (leAt c.usage 0 2)
  let alg := c.alg.toNat
  let cls :=
    if u = uK0 then 0x10 else if u = uK1 then 0x11 else if u = uP0 then 0x12
    else if u = uV1 ∨ u = uV2 then 0x13 else if u = uC0 then 0x14 else if u = uB0 then 0x15
    else if u = uE0 then 0x16 else if u = uE2 then 0x17 else if u = uE1 then 0x18
    else if u = uM1 ∨ u = uM3 ∨ u = uM6 then 0x19 else if u = uD0 then 0x1A
    else if (u = uS0 ∨ u = uD1) ∧ alg = algR then 0x21 else if u = uS0 ∧ alg = algE then 0x22 else 0
  let n := c.key.length
  let size :=
    if alg = algR then (List.range 33).foldl (fun a s => if 112 * s + 4 = n then s else a) 0
    else if alg = algE then (if n = 96 then 1 else if n = 144 then 2 else if n = 198 then 3 else if n = 64 then 4
      else if n = 112 then 5 else 0)
    else n
  { cls := cls, alg := alg, size := size, usage := u, mode := c.mode.toNat, exportab := c.exp.toNat, dual := false }

/-- Derive a key from a stored key (Table 13.5, codes 0001h to 0006h). A derived key takes the length of its parent where
the table states none, and under codes 0001h, 0002h and 0005h the groups of its parent's usage in mode N (log 28). -/
def derive (r : SlotRec) (mat : Bytes) (code : Nat) (data : Bytes) : Derived :=
  let n := data.length
  let aes := r.alg == algA
  let ek := fun (a : KeyAlg) (k : Bytes) (p : Perms) => Derived.key { alg := a, key := k, perms := p, payload := false }
  match code with
  | 1 =>
    if n < 2 ∨ 256 < n then .no stMalformed 0
    else if r.mode ≠ mX ∨ !aes then .no stUsageRefused 0
    else ek .aes (kbkdfCmac mat data mat.length) (usagePerms r.usage)
  | 2 =>
    if 255 < n then .no stMalformed 0
    else if r.cls ≠ 0x1C ∨ r.mode ≠ mX then .no stUsageRefused 0
    else ek .hmac (hkdfExpand mat data mat.length) (usagePerms r.usage)
  | 3 =>
    if n ≠ 14 then .no stMalformed 0
    else if r.cls ≠ 0x15 ∨ r.mode ≠ mX then .no stUsageRefused 0
    else ek .aes (dukptWorking mat (data.take 12) (beAt data 12 2) (dukptType mat.length)) (dukptPerms (beAt data 12 2))
  | 4 =>
    if n ≠ 10 then .no stMalformed 0
    else if !decide (0x16 ≤ r.cls ∧ r.cls ≤ 0x18) ∨ r.mode ≠ mX then .no stUsageRefused 0
    else ek (if aes then .aes else .tdea) (emvDerive (!aes) mat data) (emvPerms r.cls)
  | 5 =>
    if !decide (n ∈ [24, 32, 40]) then .no stMalformed 0
    else if r.cls ≠ 0x10 ∨ !decide (r.mode ∈ [mB, mD]) ∨ !aes then .no stUsageRefused 0
    else match kwUnwrap mat data with
      | none => .no stInputRefused 0x08
      | some k => ek .aes k { permsNone with enc := true, dec := true, macg := true, macv := true }
  | 6 =>
    if n < 48 ∨ 4096 < n then .no stMalformed 0
    else if r.cls ≠ 0x11 ∨ !decide (r.mode ∈ [mB, mD]) then .no stUsageRefused 0
    else match kbUnwrap (!aes) mat data with
      | none => .no stInputRefused 0x08
      | some c =>
        let a := kbAttrs c
        match keyAlgOf a.alg with
        | none => .no stUsageRefused 0
        | some ka => if attrsOk a then ek ka c.key (modePerms a.mode (usagePerms a.usage)) else .no stUsageRefused 0
  | _ => .no stMalformed 0

/-! ## Fields of long keys -/

/-- The byte length of a curve's field by its size byte. -/
def curveBytes (size : Nat) : Nat :=
  match size with
  | 1 => 32
  | 2 => 48
  | 3 => 66
  | 4 => 32
  | _ => 56

/-- The Weierstrass curve of a size byte. -/
def curveOf (size : Nat) : Curve := if size = 1 then p256 else if size = 2 then p384 else p521

/-- One field to be delivered to a reckoner: limbs, value, secret mark, and the refusal reason if its check fails. -/
structure Field where
  limbs : Nat
  value : Nat
  secret : Bool
  bad : Option Nat
  deriving DecidableEq, Repr

/-- A big-endian field of a material. -/
def fieldBe (b : Bytes) (off n limbs : Nat) (secret : Bool) (ok : Nat → Option Nat) : Field :=
  let v := beAt b off n
  { limbs := limbs, value := v, secret := secret, bad := ok v }

/-- A key field outside its range has reason 35h, zero 30h, one 31h, and a value not below its modulus 32h. -/
def rangeReason (v m : Nat) : Option Nat := if v = 0 then some 0x30 else if m ≤ v then some 0x32 else none

/-- The fields of an RSA private key of size byte s: N, e, p, q, dp, dq, qinv (Table 15.6); the material holds them
big-endian in this order (12, worked example). -/
def rsaFields (s : Nat) (m : Bytes) : List Field :=
  let nb := 32 * s
  let h := 16 * s
  let p := beAt m (nb + 4) h
  let q := beAt m (nb + 4 + h) h
  let odd := fun (lo v : Nat) => if v % 2 = 0 ∨ v < lo then some 0x35 else none
  [fieldBe m 0 nb (4 * s) false (odd 1), fieldBe m nb 4 1 false (odd 3),
   fieldBe m (nb + 4) h (2 * s) true (odd 2), fieldBe m (nb + 4 + h) h (2 * s) true (odd 2),
   fieldBe m (nb + 4 + 2 * h) h (2 * s) true (fun v => rangeReason v p),
   fieldBe m (nb + 4 + 3 * h) h (2 * s) true (fun v => rangeReason v q),
   fieldBe m (nb + 4 + 4 * h) h (2 * s) true (fun v => rangeReason v p)]

/-- The limbs of a curve. -/
def curveLimbs (size : Nat) : Nat :=
  match size with
  | 1 => 4
  | 2 => 6
  | 3 => 9
  | 4 => 4
  | _ => 7

/-- A scalar clamped as RFC 7748 does. -/
def clampScalar (size v : Nat) : Nat :=
  if size = 4 then v % 2 ^ 254 / 8 * 8 + 2 ^ 254 else v % 2 ^ 447 / 4 * 4 + 2 ^ 447

/-- The fields of an ECC private key: d and the public point, or the clamped scalar and u, little-endian (RFC 7748). -/
def eccFields (size : Nat) (m : Bytes) : List Field :=
  let n := curveBytes size
  let l := curveLimbs size
  if size ≤ 3 then
    [fieldBe m 0 n l true (fun v => if v = 1 then some 0x31 else rangeReason v (curveOf size).n),
     fieldBe m n n l false (fun _ => none), fieldBe m (2 * n) n l false (fun _ => none)]
  else
    [{ limbs := l, value := clampScalar size (leAt m 0 n), secret := true, bad := none },
     { limbs := l, value := leAt m n n, secret := false, bad := none }]

/-- `n` values of `w` bits from a little-endian bit string. -/
def unpackBits (w n v : Nat) : List Nat := (List.range n).map fun i => bitsAt v (w * i) w

/-- A polynomial's 128 limbs as one number: two 24-bit coefficients a limb (R333). -/
def polyNum (l : List Nat) : Nat := l.foldr (fun c a => c + 2 ^ 32 * a) 0

/-- `k` polynomials of `w`-bit coefficients, each mapped by `f`; refused when one is not accepted. -/
def polyField (k w : Nat) (m : Bytes) (secret : Bool) (f : Nat → Nat) (ok : Nat → Bool) : Field :=
  let l := unpackBits w (256 * k) (ofLe m)
  { limbs := 128 * k, value := polyNum (l.map f), secret := secret, bad := if l.all ok then none else some 0x35 }

/-- k, l and η of an ML-DSA parameter set. -/
def dsaDims (size : Nat) : Nat × Nat × Nat := if size = 2 then (6, 5, 4) else (8, 7, 2)

/-- The fields of an ML-DSA private key in its FIPS 204 encoding: s1, s2, t0 (Table 15.6). -/
def mlDsaFields (size : Nat) (m : Bytes) : List Field :=
  let (k, l, eta) := dsaDims size
  let w := if eta = 4 then 4 else 3
  let q := 8380417
  let small := fun (z : Nat) => (q + eta - z) % q
  let s1 := slice m 128 (32 * w * l)
  let s2 := slice m (128 + 32 * w * l) (32 * w * k)
  let t0 := slice m (128 + 32 * w * (l + k)) (416 * k)
  [polyField l w s1 true small (fun z => decide (z ≤ 2 * eta)), polyField k w s2 true small (fun z => decide (z ≤ 2 * eta)),
   polyField k 13 t0 true (fun z => (q + 4096 - z) % q) (fun _ => true)]

/-- The rank of an ML-KEM parameter set. -/
def kemRank (size : Nat) : Nat := if size = 0x12 then 3 else 4

/-- The fields of an ML-KEM decapsulation key in its FIPS 203 encoding: ŝ and t̂ (Table 15.6). -/
def mlKemFields (size : Nat) (m : Bytes) : List Field :=
  let k := kemRank size
  [polyField k 12 (slice m 0 (384 * k)) true id (fun z => decide (z < 3329)),
   polyField k 12 (slice m (384 * k) (384 * k)) false id (fun z => decide (z < 3329))]

/-- The fields of a long private key. -/
def longFields (r : SlotRec) (m : Bytes) : List Field :=
  if r.cls = 0x21 then rsaFields r.size m
  else if r.cls = 0x22 then eccFields r.size m
  else if r.cls = 0x23 then mlDsaFields r.size m
  else if r.cls = 0x24 then mlKemFields r.size m
  else []

/-- A byte field of a lattice private key (Table 18.10). -/
def latticeField (r : SlotRec) (m : Bytes) (n : Nat) : Option Bytes :=
  if r.cls = 0x23 then
    (match n with
     | 4 => some (slice m 0 32)
     | 5 => some (slice m 32 32)
     | 6 => some (slice m 64 64)
     | _ => none)
  else if r.cls = 0x24 then
    let k := kemRank r.size
    (match n with
     | 3 => some (slice m (768 * k) 32)
     | 4 => some (slice m (768 * k + 32) 32)
     | 5 => some (slice m (768 * k + 64) 32)
     | _ => none)
  else none

/-- The purposes that a key allows in a reckoner job (R336). -/
def keyPurposes (u : BitVec 16) : List Nat :=
  if u = uS0 ∨ u = uOwn 4 then [1] else if u = uD1 then [2] else if u = uOwn 3 then [3] else if u = uOwn 5 then [4] else []

/-! ## Delivery -/

/-- What the locksmith does with a request: it waits, refuses, or changes the module and lets the clerk run on. -/
inductive Deliv where
  | wait
  | no (st reason : Nat)
  | bad (place tile : Nat)
  | go (rt : Rt)

/-- The job's command, its house, bundle and epoch. -/
structure JobCtx where
  id : CmdId
  cmd : Cmd
  house : Nat
  deriving DecidableEq, Repr

/-- The context of a clerk's job. -/
def jobCtx (rt : Rt) (c : ClerkId) : Option JobCtx :=
  match (clerkOf rt c).job with
  | none => none
  | some id => (kget rt.cmds id).map fun m => { id := id, cmd := m, house := boothHouse rt m.booth }

/-- Check 5 for a request: a library job's descriptor keys by its opcode's row; every other key by the engine kind. -/
def requestAccepts (rt : Rt) (x : JobCtx) (q : LockReq) (r : SlotRec) : Bool :=
  let d := x.cmd.desc
  if (clerkOf rt q.clerk).houseProg || opInfo d.opcode.toNat == none then true
  else if q.handle = d.key1 ∧ d.key1 ≠ 0 then accepts d.opcode.toNat false r
  else if q.handle = d.key2 ∧ d.key2 ≠ 0 then accepts d.opcode.toNat true r
  else true

/-- Place a symmetric key in an engine's register. -/
def putKey (e : EngineRef) (target : Nat) (k : EngKey) (rt : Rt) : Rt :=
  match e.kind with
  | .press =>
    let p := pressOf rt (ekey e)
    if target = 0 then setPress (ekey e) { p with k0 := some k } rt
    else setPress (ekey e) { p with k1 := some { k with payload := target == 0x81 } } rt
  | .hash => setHash (ekey e) { hashOf rt (ekey e) with k0 := some k } rt
  | .loom => setLoom (ekey e) { loomOf rt (ekey e) with k0 := some k } rt
  | .reckoner => rt

/-- An engine kind takes a symmetric key's algorithm. -/
def engineTakes (kind : EngineKind) (a : KeyAlg) : Bool :=
  match kind, a with
  | .press, .aes => true
  | .press, .tdea => true
  | .hash, .hmac => true
  | .loom, .aes => true
  | _, _ => false

/-- Deliver fields to a reckoner from a position: the first that fails its check writes zero, sets the refused state and
records its reason (R328, R329). -/
def putFields : List Field → Nat → Reckoner → Reckoner × Option Nat
  | [], _, r => (r, none)
  | f :: l, p, r =>
    match f.bad with
    | none => putFields l (p + f.limbs) (putNum p f.limbs f.value f.secret r)
    | some why =>
      let x := putFields l (p + f.limbs) { putNum p f.limbs 0 f.secret r with refused := true }
      (x.1, some why)

/-- Deliver a long key to a reckoner (R329, R336). -/
def deliverLong (q : LockReq) (e : EngineRef) (slot : Nat) (r : SlotRec) (m : Bytes) (rt : Rt) : Deliv :=
  let all := longFields r m
  let n := q.target / 4096
  let fs := if n = 0 then all else (all.drop (n - 1)).take 1
  let pos := q.target % 4096
  if q.deriv ≠ 0 ∨ (n ≠ 0 ∧ all.length < n) then .no stMalformed 0
  else if all = [] then .no stUsageRefused 0
  else if 4096 < pos + fs.foldl (fun a f => a + f.limbs) 0 then .no stMalformed 0
  else
    let k := reckonerOf rt (ekey e)
    let y := putFields fs pos k
    let own := keyPurposes r.usage
    let k' := { y.1 with
      keyPerms := some (match k.keyPerms with
        | none => own
        | some p => p.filter fun v => decide (v ∈ own))
      mlDsa := if r.cls = 0x23 then some r.size else k.mlDsa
      keySlots := k.keySlots ++ [slot] }
    let rt := setReckoner (ekey e) k' rt
    .go (match y.2 with
      | none => rt
      | some why => recordOutcome q.clerk stInputRefused why rt)

/-- Deliver a stored or derived symmetric key to a register (R301, R302, R306). -/
def deliverKey (x : JobCtx) (q : LockReq) (e : EngineRef) (r : SlotRec) (m : Bytes) (rt : Rt) : Deliv :=
  let d : Derived :=
    if q.deriv = 0 then
      if q.data ≠ [] then .no stMalformed 0
      else match keyAlgOf r.alg with
        | none => .no stUsageRefused 0
        | some a => .key { alg := a, key := m, perms := storedPerms r, payload := false }
    else derive r m q.deriv q.data
  match d with
  | .no st why => .no st why
  | .key k =>
    if !engineTakes e.kind k.alg then .no stUsageRefused 0
    else if q.target = 0x81 then
      if r.exportab ≠ 0x45 then .no stUsageRefused 0
      else if needsLatch r && !latchFor rt x.house x.cmd.booth x.cmd.bundle then .no stDualControl 0
      else .go (putKey e q.target k rt)
    else
      let k := if r.usage = uK0 ∧ q.target ≠ 0 then { k with perms := { k.perms with wrap := false } } else k
      .go (putKey e q.target k rt)

/-- The key block of an export: header from the slot's attributes, padding from the die's mint (R281, R388). -/
def exportBlock (r : SlotRec) (m : Bytes) (w : SlotRec) (wm pad : Bytes) : Bytes :=
  let tdea := w.alg == algT
  let hdr := kbHeader tdea (kbLen tdea m.length) (le 2 r.usage.toNat) (BitVec.ofNat 8 r.alg) (BitVec.ofNat 8 r.mode)
    (if r.version = 0 then bytesOf [0x30, 0x30] else le 2 r.version.toNat) (BitVec.ofNat 8 r.exportab)
  kbWrap tdea wm hdr m pad

/-! ## Tile checks of a lookup (12 R258, R259) -/

/-- The place that a lookup on a die reads a tile from: its key cache (0) or the working copy in HBM (1). A lookup of a
prior image bypasses the caches (R263). -/
def placeOf (rt : Rt) (die epoch j : Nat) : Nat :=
  if !shadowed rt epoch j && decide (j ∈ cacheOf rt die) then 0 else 1

/-- The first of some tiles that is read and fails its check under the per-boot tile key, with its place. -/
def firstBad (rt : Rt) (die epoch : Nat) (reads : List (Nat × TileImage)) (l : List Nat) : Option (Nat × Nat) :=
  (l.find? fun j => tileResident rt j && decide (j ∉ rt.strong.failed) && readBad rt reads j).map fun j => (placeOf rt die epoch j, j)

/-- The first tile of a lookup that fails its check where `reads` gives it otherwise than stored: the key's own tiles, and, for a
handle that Table 12.3 lets pass, the reserved tile that holds its house's key and its ancestors' tiles (R258, R274, R276). -/
def keyMiss (rt : Rt) (die house : Nat) (u : Option Nat) (epoch : Nat) (hb : BitVec 64) (reads : List (Nat × TileImage)) :
    Option (Nat × Nat) :=
  let h := handleOf hb
  let r := slotAt rt u epoch h.slot
  if h.fmt ≠ 1 ∨ h.house ≠ house ∨ !slotAllowed rt false h then none
  else match firstBad rt die epoch reads (keyTiles h.slot r) with
    | some p => some p
    | none =>
      match resolve rt house u epoch false hb with
      | .key _ _ => firstBad rt die epoch reads (house :: (ancestors rt u epoch 3 r).map fun a => tileOf a.1)
      | _ => none

/-- The same for a command's lookup. -/
def tileMiss (rt : Rt) (x : JobCtx) (hb : BitVec 64) (reads : List (Nat × TileImage)) : Option (Nat × Nat) :=
  keyMiss rt x.cmd.die x.house x.cmd.bundle x.cmd.epoch hb reads

/-- What a command's lookup of a key gives, its tile checks among it. -/
inductive Lookup where
  | wait
  | no (st : Nat)
  | bad (place tile : Nat)
  | key (slot : Nat) (r : SlotRec)

/-- A lookup whose tiles, as the command's reads give them, pass their checks gives what the stored records give. -/
def checked (rt : Rt) (x : JobCtx) (hb : BitVec 64) (f : Found) : Lookup :=
  match tileMiss rt x hb x.cmd.reads with
  | some p => .bad p.1 p.2
  | none =>
    match f with
    | .wait => .wait
    | .no st => .no st
    | .key slot r => .key slot r

/-- A command's lookup of a key whose material it uses (Tables 12.3 and 13.4). -/
def lookKey (rt : Rt) (x : JobCtx) (hb : BitVec 64) (ok : SlotRec → Bool) : Lookup :=
  checked rt x hb (findKey rt x.house x.cmd.bundle x.cmd.epoch hb ok)

/-- A command's lookup of a key by Table 12.3 alone. -/
def lookSlot (rt : Rt) (x : JobCtx) (hb : BitVec 64) : Lookup :=
  checked rt x hb (resolve rt x.house x.cmd.bundle x.cmd.epoch false hb)

/-- A tile has failed its check: a key cache drops it, and the event is counted (R259, Table 12.6). -/
def tileBreak (place k : Nat) (rt : Rt) : Rt := tileEvent place k (if place = 0 then dropTiles (· == k) rt else rt)

/-- The usage of a key may travel in a key block: it does not begin with a digit (R275). -/
def usageTravels (u : BitVec 16) : Bool := !decide (0x30 ≤ u.toNat % 256 ∧ u.toNat % 256 ≤ 0x39)

/-- Resolve the export of a key under a protection key with the checks of R281, and build the block; otherwise what stands in the way. The padding is drawn from the die's mint. -/
def lockExport (x : JobCtx) (key wrap : BitVec 64) (rt : Rt) : Except Lookup (Bytes × Nat × SlotRec × Rt) :=
  let u := x.cmd.bundle
  match lookKey rt x key (fun r => exportClass r.cls && usageTravels r.usage) with
  | .key slot r =>
    match lookKey rt x wrap (accepts 0x0161 true) with
    | .key ws w =>
      if !exportOk r w.cls then .error (.no stUsageRefused)
      else if needsLatch r && !latchFor rt x.house x.cmd.booth u then .error (.no stDualControl)
      else
        let m := materialOf rt u x.cmd.epoch slot r
        match drawNow x.cmd.die (kbPadLen (w.alg == algT) m.length) rt with
        | none => .error (if (mintOf rt x.cmd.die).exhausted then .no stRngUnavailable else .wait)
        | some (pad, rt) => .ok (exportBlock r m w (materialOf rt u x.cmd.epoch ws w) pad, slot, r, rt)
    | l => .error l
  | l => .error l

/-- Serve a request of a job. -/
def serveRequest (x : JobCtx) (q : LockReq) (rt : Rt) : Deliv :=
  let u := x.cmd.bundle
  match q.eng with
  | none =>
    if q.data.length ≠ 8 then .no stMalformed 0
    else match lockExport x q.handle (BitVec.ofNat 64 (leAt q.data 0 8)) rt with
      | .error (.no st) => .no st 0
      | .error (.bad p k) => .bad p k
      | .error _ => .wait
      | .ok (b, _, _, rt) => .go (modCmd x.id (fun c => { c with output := c.output ++ b }) rt)
  | some e =>
    match lookKey rt x q.handle (requestAccepts rt x q) with
    | .wait => .wait
    | .no st => .no st 0
    | .bad p k => .bad p k
    | .key slot r =>
      let m := materialOf rt u x.cmd.epoch slot r
      let rt := touchTiles x.cmd.die (readTiles rt u x.cmd.epoch slot r) rt
      match e.kind with
      | .reckoner => deliverLong q e slot r m rt
      | .hash =>
        if q.target % 4096 = 2 then
          (if r.cls ≠ 0x23 ∧ r.cls ≠ 0x24 then .no stUsageRefused 0
           else match latticeField r m (q.target / 4096) with
             | none => .no stMalformed 0
             | some f => .go (setHash (ekey e) { hashOf rt (ekey e) with pre := some f } rt))
        else deliverKey x q e r m rt
      | _ => deliverKey x q e r m rt

/-- The module can deliver now: the engine's queue is empty and its command has ended (R301). -/
def engineIdle (rt : Rt) (q : LockReq) : Bool :=
  match q.eng with
  | none => true
  | some e => (comOf rt e).queue.isEmpty && !(comOf rt e).running

/-- LOCKSMITH_DELIVERY: the handle checks, the parent walk and the delivery over the key lane; a refusal ends the job
(R246, R212, R261). A failed tile check ends it with TILE_CHECK_FAIL, and a cache drops the tile (R259). -/
def doLocksmithDelivery (c : ClerkId) (t : List (Nat × TileImage)) (rt : Rt) : Rt :=
  match rt.strong.reqs.find? fun q => q.clerk == c, jobCtx rt c with
  | some q, some x =>
    if !engineIdle rt q || inFatal rt || inTamperHalt rt then rt
    else
      let done := fun (rt : Rt) => { rt with strong := { rt.strong with reqs := rt.strong.reqs.filter fun y => y.clerk ≠ c } }
      match serveRequest { x with cmd := { x.cmd with reads := t } } q rt with
      | .wait => rt
      | .no st why => refuseJob c st (if st = stInputRefused then reasonRes why else zeros 16) (done rt)
      | .bad place k => refuseJob c stTileCheckFail (zeros 16) (tileBreak place k (done rt))
      | .go rt =>
        let rt := done rt
        setClerk c { clerkOf rt c with st := .running } rt
  | _, _ => rt

/-- LOCKSMITH_DELIVERY. -/
def execLocksmithDelivery (c : ClerkId) (t : List (Nat × TileImage)) (s : State) : Res := .next (onRt (doLocksmithDelivery c t) s)

end Sys2Proof.Machine
end

