-- ==== Sys2Proof/Machine/KeyCmds.lean ====
section
/-! DEFINITION. The key management commands (17 Table 17.5, R362, R363, 13 R274, R291 to R294, R480), with what every library
command shares: the keys that it names, and the changes that it adds to its bundle. -/

namespace Sys2Proof.Machine

/-! ## What library commands share -/

/-- The context of a library command that runs with an opcode. -/
def jobOf (rt : Rt) (id op : Nat) : Option JobCtx :=
  (running rt id op).map fun c => { id := id, cmd := c, house := boothHouse rt c.booth }

/-- Run a library command: with none of that opcode dispatched nothing happens. -/
def runCmd (id op : Nat) (body : JobCtx → State → State) (s : State) : State :=
  match jobOf s.rt id op with
  | none => s
  | some x => body x s

/-- The command fails with a status. -/
def failJob (x : JobCtx) (st : Nat) (s : State) : State := onRt (failCmd x.id st (if st = stStateRefused then stateRes s.rt else zeros 16)) s

/-- The command fails with INPUT_REFUSED and a reason. -/
def refuseJobInput (x : JobCtx) (why : Nat) (s : State) : State := onRt (refuseInput x.id why) s

/-- The command is done: inline result, output, count of valid inline bytes. -/
def doneJob (x : JobCtx) (res out : Bytes) (span : Nat) (s : State) : State := onRt (doneCmd x.id res out span) s

/-- A command's lookup that finds no key: it goes on later, or ends with the status, or with TILE_CHECK_FAIL (R259). -/
def stopOn (x : JobCtx) (l : Lookup) (s : State) : State :=
  match l with
  | .no st => failJob x st s
  | .bad p k => failJob x stTileCheckFail (onRt (tileBreak p k) s)
  | _ => s

/-- Use the material of a key: the checks of Table 12.3 and Table 13.4, then the body on slot, record and material. While a tile
must be demand-loaded the command goes on later. -/
def withKey (x : JobCtx) (h : BitVec 64) (ok : SlotRec → Bool) (body : Nat → SlotRec → Bytes → State → State) (s : State) : State :=
  match lookKey s.rt x h ok with
  | .key slot r =>
    body slot r (materialOf s.rt x.cmd.bundle x.cmd.epoch slot r) (onRt (touchTiles x.cmd.die (readTiles s.rt x.cmd.bundle x.cmd.epoch slot r)) s)
  | l => stopOn x l s

/-- Draw random bytes on the command's die; RNG_UNAVAILABLE from an exhausted mint. -/
def withRandom (x : JobCtx) (n : Nat) (body : Bytes → State → State) (s : State) : State :=
  if n = 0 then body [] s
  else if (mintOf s.rt x.cmd.die).exhausted then failJob x stRngUnavailable s
  else match drawNow x.cmd.die n s.rt with
    | none => s
    | some (b, rt) => body b { s with rt := rt }

/-- The same by a key-grade request, which is placed first and then brings the bytes (R345). -/
def withKeyGrade (x : JobCtx) (n : Nat) (body : Bytes → State → State) (s : State) : State :=
  match takeDelivered x.cmd.die (userCmd x.id) s.rt with
  | some (b, rt) => body b { s with rt := rt }
  | none =>
    if (mintOf s.rt x.cmd.die).exhausted then failJob x stRngUnavailable s else onRt (askKeyGrade x.cmd.die (userCmd x.id) n) s

/-- A ledger entry of a command about a slot. -/
def jobEntry (rt : Rt) (x : JobCtx) (ev slot genB genA : Nat) (latch : Bool) (detail : Bytes) : LedgerEntry :=
  let o := if latch then latchOfficers rt else (0, 0)
  ledgerEvent ev x.house x.cmd.booth slot genB genA o.1 o.2 detail

/-- A change of a slot by a command. -/
def jobChange (rt : Rt) (x : JobCtx) (slot : Nat) (after : SlotRec) (policy : Bool) : SlotChange :=
  changeOf rt x.cmd.bundle slot after policy x.house x.cmd.member

/-- The latch that an action needs is open for the command. -/
def latchOpenFor (rt : Rt) (x : JobCtx) : Bool := latchFor rt x.house x.cmd.booth x.cmd.bundle

/-- A change is based on what the slot holds now, not on a prior image (R263, R292). -/
def isCurrent (rt : Rt) (x : JobCtx) (slot : Nat) : Bool := slotAt rt x.cmd.bundle x.cmd.epoch slot == slotIn rt x.cmd.bundle slot

/-- Add a member's changes to its bundle and end the member: STATE_REFUSED for a slot held for the twin, KEY_STALE for a slot
reserved by another bundle, reason 11h above 256 slots; the latch is claimed when an action of the member needed it. -/
def submitJob (x : JobCtx) (d : Delta) (latch : Bool) (res out : Bytes) (span : Nat) (s : State) : State :=
  let (u, rt) := bundleOf x.id x.cmd s.rt
  if d.changes.any fun c => heldByTwin s c.slot then failJob x stStateRefused s
  else if d.changes.any (fun c => reservedByOther s.rt u c.slot || !isCurrent s.rt x c.slot) ||
      d.reads.any (fun k => reservedByOther s.rt u k || !isCurrent s.rt x k) then failJob x stKeyStale s
  else match kget rt.bundles u with
    | none => s
    | some b =>
      let b := addDelta x.cmd.member d b
      if 256 < touched b then refuseJobInput x 0x11 s
      else
        let rt := { rt with bundles := kset rt.bundles u b }
        { s with rt := strongDone x.id res out span (if latch then claimLatch u rt else rt) }

/-! ## New keys -/

/-- The parent of a new key: usable, of a parent class, and not so deep that the key would be at level 3 (R274). -/
def withParent (x : JobCtx) (h : BitVec 64) (body : Nat → SlotRec → State → State) (s : State) : State :=
  withKey x h (fun r => mayParent r.cls) (fun slot r _ s =>
    if levelFits s.rt x.cmd.bundle x.cmd.epoch r then body slot r s else refuseJobInput x 0x13 s) s

/-- The attributes of a new key, with its validity and key version. -/
structure NewKey where
  a : Attrs
  nb : Nat
  na : Nat
  ver : BitVec 16
  deriving DecidableEq, Repr

/-- Store a key's material under a parent: the lowest free run, the entry with the parent, the new handle and then `tail` as the
inline result (R256, R264). -/
def placeKey (x : JobCtx) (ev : Nat) (k : NewKey) (ps : Nat) (pr : SlotRec) (mat tail out : Bytes) (span : Nat) (s : State) : State :=
  if 7372 < mat.length then refuseJobInput x 0x12 s
  else match allocRun s x.house (extentLen mat.length) with
    | none => refuseJobInput x 0x10 s
    | some slot =>
      let head := newHead s.rt slot x.house k.a (some (ps, pr.gen)) k.nb k.na k.ver
      let d : Delta := {
        changes := (layKey slot head mat).map fun c => jobChange s.rt x c.1 c.2 false
        reads := [ps]
        entries := [jobEntry s.rt x ev slot head.gen head.gen k.a.dual (parentDetail (some (ps, pr.gen)))] }
      submitJob x d k.a.dual (le 8 (echoOf slot head) ++ tail) out span s

/-- A dual-control key needs the latch to come into being (Table 13.7). -/
def dualOk (rt : Rt) (x : JobCtx) (a : Attrs) : Bool := !a.dual || latchOpenFor rt x

/-- The check value that a result carries: algorithms A and T alone. -/
def resultCheck (alg : Nat) (mat : Bytes) : Bytes := if alg = algA ∨ alg = algT then checkValue alg mat else []

/-! ## Key material -/

/-- Random bytes that a key of given attributes is generated from. -/
def seedLen (a : Attrs) : Nat :=
  if a.alg = algR then 32
  else if a.alg = algE then (if a.size ≤ 3 then curveBytes a.size + 8 else curveBytes a.size)
  else if a.alg = algL then (if a.size < 0x10 then 32 else 64)
  else a.size

/-- The u-coordinate of a scalar's public value. -/
def montgomery (size : Nat) (k u : Bytes) : Bytes := if size = 4 then x25519 k u else x448 k u

/-- The base u of a Montgomery curve. -/
def baseU (size : Nat) : Bytes := if size = 4 then le 32 9 else le 56 5

/-- The length of an ML-DSA or ML-KEM private key in its standard's encoding. -/
def latticeLen (size : Nat) : Nat :=
  match size with
  | 0x02 => 4032
  | 0x03 => 4896
  | 0x12 => 2400
  | _ => 3168

/-- The length of a lattice public key (Table 17.15). -/
def latticePubLen (size : Nat) : Nat :=
  match size with
  | 0x02 => 1952
  | 0x03 => 2592
  | 0x12 => 1184
  | _ => 1568

/-- Cut or pad to a length. -/
def exactly (n : Nat) (b : Bytes) : Bytes := padTo n (b.take n)

/-- The material of a new key from its random bytes, in the layout of the slot. -/
def generateKey (a : Attrs) (rnd : Bytes) : Bytes :=
  if a.alg = algR then exactly (112 * a.size + 4) (Config.rsaGenerate (256 * a.size) rnd)
  else if a.alg = algE then
    if a.size ≤ 3 then
      let c := curveOf a.size
      let d := ofBe rnd % (c.n - 1) + 1
      be c.len d ++ (pointBytes c (ecPublic c d)).drop 1
    else rnd ++ montgomery a.size rnd (baseU a.size)
  else if a.alg = algL then
    exactly (latticeLen a.size) (if a.size < 0x10 then Config.mlDsaGenerate a.size rnd else Config.mlKemGenerate a.size rnd)
  else rnd

/-- The public half of a private key's material in the encoding of Table 17.15. -/
def publicHalf (alg size : Nat) (m : Bytes) : Bytes :=
  if alg = algR then m.take (32 * size + 4)
  else if alg = algE then (if size ≤ 3 then [0x04#8] ++ slice m (curveBytes size) (2 * curveBytes size) else m.drop (curveBytes size))
  else if size < 0x10 then exactly (latticePubLen size) (Config.mlDsaPublic size m)
  else slice m (384 * kemRank size) (latticePubLen size)

/-- Classes whose public half KEY_GENERATE writes to the output. -/
def writesPublic (cls : Nat) : Bool := decide (0x21 ≤ cls ∧ cls ≤ 0x24)

/-! ## KEY_GENERATE -/

/-- Classes that KEY_GENERATE does not create: a house master key, a house record, a public key (R362). -/
def notGenerated (cls : Nat) : Bool := decide (cls = 0x01 ∨ cls = 0x02 ∨ cls = 0x28)

/-- KEY_GENERATE. -/
def keyGenerate (x : JobCtx) (s : State) : State :=
  let p := x.cmd.desc.inl
  let inl := isInline x.cmd.desc
  let v := if inl then [] else x.cmd.input
  let a := attrsOf p
  if 1 < byteAt p 7 ∨ !zeroAt p 8 6 ∨ (v.length ≠ 0 ∧ v.length ≠ 16) ∨ (inl ∧ writesPublic a.cls) then failJob x stMalformed s
  else if notGenerated a.cls || !attrsOk a then refuseJobInput x 0x15 s
  else withParent x x.cmd.desc.key1 (fun ps pr s =>
    if !dualOk s.rt x a then failJob x stDualControl s
    else withKeyGrade x (seedLen a) (fun rnd s =>
      let m := generateKey a rnd
      let out := if writesPublic a.cls then publicHalf a.alg a.size m else []
      placeKey x 0x0001 { a := a, nb := leAt v 0 8, na := leAt v 8 8, ver := 0 } ps pr m (resultCheck a.alg m) out 13 s) s) s

/-- KEY_GENERATE. -/
def execKeyGenerate (id : CmdId) (s : State) : Res := .next (runCmd id 0x0010 keyGenerate s)

/-! ## PUBLIC_IMPORT -/

/-- Validation of a public point, class 4 of 15 Table 15.4. -/
def pointRefused (c : Curve) (x y : Nat) : Option Nat :=
  if x = 0 ∧ y = 0 then some 0x34 else if c.p ≤ x ∨ c.p ≤ y then some 0x32 else if onCurve c (x, y) then none else some 0x33

/-- The field prime of a Montgomery curve. -/
def montgomeryP (size : Nat) : Nat := if size = 4 then 2 ^ 255 - 19 else 2 ^ 448 - 2 ^ 224 - 1

/-- Validation of a u-coordinate, class 5 of 15 Table 15.4. -/
def uRefused (size u : Nat) : Option Nat :=
  if u = 0 then some 0x30 else if u = 1 then some 0x31 else if montgomeryP size ≤ u then some 0x32 else none

/-- An encoded public key is refused with a reason: 15h for its length or form, else the reason of Table 15.5 (R362). -/
def publicRefused (alg size : Nat) (k : Bytes) : Option Nat :=
  if alg = algR then
    let n := beAt k 0 (32 * size)
    let e := beAt k (32 * size) 4
    if k.length ≠ 32 * size + 4 then some 0x15
    else if n % 2 = 0 ∨ n < 2 ^ (256 * size - 1) ∨ e % 2 = 0 ∨ e < 3 then some 0x35 else none
  else if alg = algE then
    if size ≤ 3 then
      let l := curveBytes size
      if k.length ≠ 1 + 2 * l ∨ byteAt k 0 ≠ 4 then some 0x15 else pointRefused (curveOf size) (beAt k 1 l) (beAt k (1 + l) l)
    else if k.length ≠ curveBytes size then some 0x15 else uRefused size (ofLe k)
  else if k.length ≠ latticePubLen size then some 0x15
  else if size < 0x10 then none
  else if (unpackBits 12 (256 * kemRank size) (ofLe (k.take (384 * kemRank size)))).all fun z => decide (z < 3329) then none
  else some 0x35

/-- PUBLIC_IMPORT. -/
def publicImport (x : JobCtx) (s : State) : State :=
  let p := x.cmd.desc.inl
  let v := x.cmd.input
  let a := attrsOf p
  let k := v.drop 16
  if 1 < byteAt p 7 ∨ !zeroAt p 8 6 then failJob x stMalformed s
  else if a.cls ≠ 0x28 || !attrsOk a || decide (v.length < 16) then refuseJobInput x 0x15 s
  else withParent x x.cmd.desc.key1 (fun ps pr s =>
    if !dualOk s.rt x a then failJob x stDualControl s
    else match publicRefused a.alg a.size k with
      | some why => refuseJobInput x why s
      | none => placeKey x 0x0002 { a := a, nb := leAt v 0 8, na := leAt v 8 8, ver := 0 } ps pr k [] [] 8 s) s

/-- PUBLIC_IMPORT. -/
def execPublicImport (id : CmdId) (s : State) : Res := .next (runCmd id 0x0016 publicImport s)

/-! ## Changes to a stored key (Table 13.8) -/

/-- The key that a change acts on: Table 12.3, check 3 where Table 13.12 names it, and check 7. -/
def withTarget (x : JobCtx) (check3 always : Bool) (body : Nat → SlotRec → State → State) (s : State) : State :=
  match lookSlot s.rt x x.cmd.desc.key1 with
  | .key slot r =>
    if check3 && r.usage == u00 then failJob x stUsageRefused s
    else if (always || needsLatch r) && !latchOpenFor s.rt x then failJob x stDualControl s
    else body slot r s
  | l => stopOn x l s

/-- A command without parameters and input (R364). -/
def plainForm (x : JobCtx) : Bool := zeroAt x.cmd.desc.inl 0 14 && (isInline x.cmd.desc || x.cmd.input.isEmpty)

/-- A record after its generation has increased: at FFFFh the slot retires (R266). -/
def bumped (r after : SlotRec) : SlotRec := if r.gen = 0xFFFF then freedSlot r else { after with gen := r.gen + 1 }

/-- The changes of a key's whole extent; the head's is the policy change. -/
def extentChanges (rt : Rt) (x : JobCtx) (slot : Nat) (r : SlotRec) (f : Nat → SlotRec → SlotRec) : List SlotChange :=
  (List.range (slotsOf r)).map fun i => jobChange rt x (slot + i) (f i { slotIn rt x.cmd.bundle (slot + i) with gen := r.gen }) (i == 0)

/-- A revoked slot: material zeroed, the usage kept in bytes 28 to 29. -/
def revokedSlot (i : Nat) (r : SlotRec) : SlotRec :=
  let z := { r with mat := zeros r.mat.length }
  bumped r (if i = 0 then { z with usageBefore := r.usage, usage := u00 } else z)

/-- KEY_REVOKE. -/
def keyRevoke (x : JobCtx) (s : State) : State :=
  if !plainForm x then failJob x stMalformed s
  else withTarget x true false (fun slot r s =>
    let new := revokedSlot 0 r
    let d : Delta := { changes := extentChanges s.rt x slot r revokedSlot, reads := []
                       entries := [jobEntry s.rt x 0x0004 slot r.gen new.gen (needsLatch r) []] }
    submitJob x d (needsLatch r) (le 8 (echoOf slot new)) [] 8 s) s

/-- KEY_REVOKE. -/
def execKeyRevoke (id : CmdId) (s : State) : Res := .next (runCmd id 0x0011 keyRevoke s)

/-- KEY_DELETE: the record is zeroed and the slots are free at the next generation. -/
def keyDelete (x : JobCtx) (s : State) : State :=
  if !plainForm x then failJob x stMalformed s
  else withTarget x false false (fun slot r s =>
    let d : Delta := { changes := extentChanges s.rt x slot r (fun _ r => freedSlot r), reads := []
                       entries := [jobEntry s.rt x 0x0006 slot r.gen (freedSlot r).gen (needsLatch r) []] }
    submitJob x d (needsLatch r) [] [] 0 s) s

/-- KEY_DELETE. -/
def execKeyDelete (id : CmdId) (s : State) : Res := .next (runCmd id 0x0013 keyDelete s)

/-- The new material of a replacement with the attributes that it takes (R480): mode 01h from the key block's header, mode 02h the
slot's own with the usage before a revocation; none when the wrapped key is refused. -/
def replacement (r w : SlotRec) (wm data : Bytes) (mode : Nat) : Option (Bytes × Attrs × BitVec 16) :=
  let dual := r.flags.testBit 0
  if mode = 1 then
    (kbUnwrap (w.alg == algT) wm data).map fun c => (c.key, { kbAttrs c with dual := dual }, BitVec.ofNat 16 (leAt c.ver 0 2))
  else if !decide (data.length ∈ [24, 32, 40]) then none
  else (kwUnwrap wm data).map fun k =>
    (k, { cls := r.cls, alg := r.alg, size := if r.alg = algA ∨ r.alg = algT ∨ r.alg = algH then k.length else 0,
          usage := if r.usage = u00 then r.usageBefore else r.usage, mode := r.mode, exportab := r.exportab, dual := dual }, r.version)

/-- The replacement fits the slot: its class, algorithm and size. -/
def replaceFits (r : SlotRec) (a : Attrs) (m : Bytes) : Bool :=
  a.cls == r.cls && a.alg == r.alg && a.size == r.size && attrsOk a && decide (m.length = r.matLen)

/-- The replaced record. -/
def replacedHead (r : SlotRec) (a : Attrs) (ver : BitVec 16) : SlotRec :=
  { r with usage := a.usage, mode := a.mode, exportab := a.exportab, version := ver, usageBefore := 0, gen := r.gen + 1 }

/-- KEY_REPLACE. -/
def keyReplace (x : JobCtx) (s : State) : State :=
  let p := x.cmd.desc.inl
  let mode := byteAt p 0
  if (mode ≠ 1 ∧ mode ≠ 2) ∨ !zeroAt p 1 13 then failJob x stMalformed s
  else withTarget x false false (fun slot r s =>
    withKey x x.cmd.desc.key2 (fun w => if mode = 1 then accepts 0x0160 false w else keyIs 0x10 [uK0] [mB, mD] w && w.alg == algA)
      (fun _ w wm s =>
        match replacement r w wm x.cmd.input mode with
        | none => refuseJobInput x 0x08 s
        | some (m, a, ver) =>
          if !replaceFits r a m then refuseJobInput x 0x15 s
          else
            let new := if r.gen = 0xFFFF then freedSlot r else replacedHead r a ver
            let ch := if r.gen = 0xFFFF then extentChanges s.rt x slot r (fun _ r => freedSlot r)
              else (layKey slot new m).map fun c => jobChange s.rt x c.1 c.2 (c.1 == slot)
            let d : Delta := { changes := ch, reads := [], entries := [jobEntry s.rt x 0x0005 slot r.gen new.gen (needsLatch r) []] }
            submitJob x d (needsLatch r) (le 8 (echoOf slot new) ++ resultCheck r.alg m) [] 13 s) s) s

/-- KEY_REPLACE. -/
def execKeyReplace (id : CmdId) (s : State) : Res := .next (runCmd id 0x0012 keyReplace s)

/-- Some key has a slot as its parent. -/
def hasChildren (rt : Rt) (u : Option Nat) (slot : Nat) : Bool :=
  let child := fun (r : SlotRec) => isKey r && r.parent == some slot
  rt.strong.slots.any (fun kv => child (slotIn rt u kv.1)) ||
    (((u.bind (kget rt.bundles)).map Bundle.changes).getD []).any fun c => child c.after

/-- KEY_REPARENT: always under the latch; the new parent is usable, of a parent class, not the child nor below it, and leaves the
child at level 2 or above (R293); a child with children of its own cannot come to level 2 (R274). A revoked slot accepts
replacement and deletion alone (R291): check 3 refuses it here. -/
def keyReparent (x : JobCtx) (s : State) : State :=
  if !plainForm x then failJob x stMalformed s
  else withTarget x true true (fun slot r s =>
    withKey x x.cmd.desc.key2 (fun _ => true) (fun ps pr _ s =>
      let above := (ancestors s.rt x.cmd.bundle x.cmd.epoch 3 pr).map Prod.fst
      let lvl := levelOf s.rt x.cmd.bundle x.cmd.epoch pr + 1
      if r.cls = 1 || !mayParent pr.cls || decide (ps = slot ∨ slot ∈ above) || decide (2 < lvl) then refuseJobInput x 0x14 s
      else if lvl = 2 && hasChildren s.rt x.cmd.bundle slot then refuseJobInput x 0x13 s
      else
        let new := { r with parent := some ps, parentGen := pr.gen }
        let d : Delta := { changes := [jobChange s.rt x slot new true], reads := [ps]
                           entries := [jobEntry s.rt x 0x0007 slot r.gen r.gen true (parentDetail (some (ps, pr.gen)))] }
        submitJob x d true (le 8 (echoOf slot new)) [] 8 s) s) s

/-- KEY_REPARENT. -/
def execKeyReparent (id : CmdId) (s : State) : Res := .next (runCmd id 0x0014 keyReparent s)

/-- KEY_INFO: bytes 0 to 63 of the head record, revoked keys too. -/
def keyInfo (x : JobCtx) (s : State) : State :=
  if !plainForm x then failJob x stMalformed s
  else match lookSlot s.rt x x.cmd.desc.key1 with
    | .key slot r => doneJob x [] (headBytes slot r) 0 s
    | l => stopOn x l s

/-- KEY_INFO. -/
def execKeyInfo (id : CmdId) (s : State) : Res := .next (runCmd id 0x0015 keyInfo s)

end Sys2Proof.Machine
end

