-- ==== Sys2Proof/Machine/Pin.lean ====
section
/-! DEFINITION. PIN commands and card verification codes: PIN_TRANSLATE, PIN_VERIFY, PIN_OFFSET_GEN (18 R371, R373, R376 to R379,
R482), CVC_GENERATE, CVC_VERIFY (R380), and the PIN translation of AES DUKPT (R384). -/

namespace Sys2Proof.Machine

/-! ## Account numbers -/

/-- The digits of a PAN field; none when R371 refuses it. -/
def panDigits (f : Bytes) : Option (List Nat) :=
  let n := nibbles (f.take 10)
  let d := n.takeWhile (· != 15)
  if 12 ≤ d.length ∧ d.length ≤ 19 ∧ d.all (fun x => decide (x < 10)) ∧ (n.drop d.length).all (· == 15) then some d else none

/-- The account field: the 12 rightmost digits but for the last; a PAN of 12 digits has 11, padded on the left with 0. -/
def accountOf (pan : List Nat) : List Nat :=
  let a := pan.dropLast
  List.replicate (12 - a.length) 0 ++ a.drop (a.length - 12)

/-- What binds a PIN block to its card: the account field and the format 4 PAN field (Table 18.3). -/
structure PinCard where
  account : List Nat
  field4 : Bytes
  deriving DecidableEq, Repr

/-- The PAN field of format 4: m, the PAN, zeros to 32 nibbles. -/
def panField4 (pan : List Nat) : Bytes := padTo 16 (packNibbles ([pan.length - 12] ++ pan))

/-- A card by its PAN. -/
def cardOfPan (pan : List Nat) : PinCard := { account := accountOf pan, field4 := panField4 pan }

/-- A card by its account field alone, taken as a PAN of 12 digits (R378). -/
def cardOfAccount (a : List Nat) : PinCard := { account := a, field4 := panField4 a }

/-! ## PIN blocks (R376, Table 18.3) -/

/-- A PIN recovered from a block: the control nibble, the digits, and the reason for refusing the block. -/
structure Recovered where
  fmt : Nat
  pin : List Nat
  bad : Option Nat
  deriving DecidableEq, Repr

/-- The clear PIN field of a block, the binding removed. -/
def clearField (tdea : Bool) (key blk : Bytes) (c : PinCard) : List Nat :=
  if tdea then
    let f := nibbles (tdeaDec key blk)
    if f.headD 0 = 0 ∨ f.headD 0 = 3 then nxor f ([0, 0, 0, 0] ++ c.account) else f
  else nibbles (aesDec key (bxor (aesDec key blk) c.field4))

/-- The fill that a format accepts, up to nibble 15. -/
def fillOk (fmt : Nat) (fill : List Nat) : Bool :=
  match fmt with
  | 0 => fill.all (· == 15)
  | 3 => fill.all fun x => decide (10 ≤ x)
  | 4 => fill.all (· == 10)
  | _ => true

/-- Recover the PIN, with checks 1 to 4 of R376 in order. -/
def recoverPin (tdea : Bool) (key blk : Bytes) (c : PinCard) : Recovered :=
  if blk.length ≠ blockLen tdea then { fmt := 0, pin := [], bad := some 0x02 }
  else
    let f := clearField tdea key blk c
    let fmt := f.getD 0 0
    let n := f.getD 1 0
    let pin := (f.drop 2).take n
    let bad :=
      if !decide (fmt ∈ [0, 1, 3, 4]) then some 0x02
      else if n < 4 ∨ 12 < n then some 0x03
      else if (fmt == 4) == tdea then some 0x02
      else if !pin.all (fun x => decide (x < 10)) || !fillOk fmt ((f.drop (2 + n)).take (14 - n)) then some 0x02
      else none
    { fmt := fmt, pin := pin, bad := bad }

/-- An outbound block under a key: `fill` holds 16 random nibbles, `fill3` the format 3 fill. -/
def buildPin (key : Bytes) (fmt : Nat) (pin fill fill3 : List Nat) (c : PinCard) : Bytes :=
  let hd := [fmt, pin.length] ++ pin
  let n := 16 - hd.length
  if fmt = 4 then
    let f := packNibbles (hd ++ List.replicate n 10 ++ fill)
    aesEnc key (bxor (aesEnc key f) c.field4)
  else
    let f := hd ++ (if fmt = 0 then List.replicate n 15 else if fmt = 1 then fill.take n else fill3.take n)
    tdeaEnc key (packNibbles (if fmt = 1 then f else nxor f ([0, 0, 0, 0] ++ c.account)))

/-- Table 18.4. -/
def pairAllowed (fin fout : Nat) : Bool :=
  match fin with
  | 0 => decide (fout ∈ [0, 3, 4])
  | 3 => decide (fout ∈ [0, 3, 4])
  | 1 => decide (fout ∈ [0, 1, 3, 4])
  | 4 => fout == 4
  | _ => false

/-- The version that a command's booth or session negotiated. -/
def versionOf (rt : Rt) (c : Cmd) : Option Nat :=
  match c.session with
  | some k => (kget rt.net.conns k).bind Conn.version
  | none => (boothOf rt c.booth).bind Booth.version

/-- A key must still be loaded on demand, so that the command goes on later. -/
def keyWaits (x : JobCtx) (h : BitVec 64) (ok : SlotRec → Bool) (s : State) : Bool :=
  match lookKey s.rt x h ok with
  | .wait => true
  | _ => false

/-- The format 3 fill of random bytes: Ah + (r mod 6) of each 16-bit value. -/
def fillOf3 (r : Bytes) : List Nat := (pieces 2 r).map fun b => 10 + ofBe b % 6

/-- Translate a PIN block: `fmt` gives the outbound format from the outbound key. The block is refused at the fixed point of R373. -/
def translatePin (x : JobCtx) (blk : Bytes) (c : PinCard) (fmt : Bool → Nat) (more : Nat) (s : State) : State :=
  let op := x.cmd.desc.opcode.toNat
  withKey x x.cmd.desc.key1 (accepts op false) (fun _ r1 m1 s =>
    if keyWaits x x.cmd.desc.key2 (accepts op true) s then s
    else withRandom x 8 (fun rnd s => withRandom x more (fun rnd3 s =>
      withKey x x.cmd.desc.key2 (accepts op true) (fun _ r2 m2 s =>
        let t1 := r1.alg == algT
        let t2 := r2.alg == algT
        let v := recoverPin t1 m1 blk c
        let out := fmt t2
        let old := versionOf s.rt x.cmd == some 2 && (v.fmt == 4 || out == 4 || !t1 || !t2)
        match v.bad with
        | some why => refuseJobInput x why s
        | none =>
          if old || !pairAllowed v.fmt out || (out == 4) == t2 then refuseJobInput x 0x04 s
          else
            let b := buildPin m2 out v.pin (nibbles rnd) (fillOf3 rnd3) c
            if isInline x.cmd.desc then doneJob x b [] b.length s else doneJob x [] b 0 s) s) s) s) s

/-! ## PIN_TRANSLATE (Table 18.5) -/

/-- PIN_TRANSLATE. -/
def pinTranslate (x : JobCtx) (s : State) : State :=
  let p := x.cmd.desc.inl
  if isInline x.cmd.desc then
    let a := nibbles (slice p 8 6)
    if a.any fun d => decide (9 < d) then refuseJobInput x 0x01 s
    else translatePin x (p.take 8) (cardOfAccount a) (fun tdea => if tdea then 0 else 4) 0 s
  else if byteAt p 1 ≠ 0 ∨ !zeroAt p 12 2 ∨ (x.cmd.input.length ≠ 8 ∧ x.cmd.input.length ≠ 16) then failJob x stMalformed s
  else match panDigits (slice p 2 10) with
    | none => refuseJobInput x 0x01 s
    | some pan => translatePin x x.cmd.input (cardOfPan pan) (fun _ => byteAt p 0) (if byteAt p 0 = 3 then 20 else 0) s

/-- PIN_TRANSLATE. -/
def execPinTranslate (id : CmdId) (s : State) : Res := .next (runCmd id 0x0100 pinTranslate s)

/-! ## PIN_VERIFY and PIN_OFFSET_GEN (Table 18.8, R379, R482) -/

/-- Digits first, then Ah to Fh as 0 to 5, in two passes (R379, R380). -/
def twoPass (n : List Nat) : List Nat := n.filter (fun x => decide (x < 10)) ++ (n.filter fun x => decide (10 ≤ x)).map (· - 10)

/-- A decimalisation table holds 16 digits, each of 0 to 9 among them. -/
def tableOk (t : List Nat) : Bool := t.all (fun x => decide (x < 10)) && (List.range 10).all fun d => decide (d ∈ t)

/-- Digits packed and left-aligned, padded with Fh to `n` bytes. -/
def packF (n : Nat) (d : List Nat) : Bytes := packNibbles ((d ++ List.replicate (2 * n) 15).take (2 * n))

/-- What R482 decides from the inline bytes and the length of the input. -/
inductive PinForm where
  | malformed
  | refused (reason : Nat)
  | value (block : Nat)
  | offset (block : Nat)
  deriving DecidableEq, Repr

/-- The method and the length of the PIN block, or the refusal (R482). -/
def pinForm (verify : Bool) (l n : Nat) : PinForm :=
  let tail := if verify then 2 else 0
  if n = 8 + tail ∨ n = 16 + tail then (if 9 < l then .refused 0x05 else .value (n - tail))
  else if l < 4 ∨ 12 < l then .refused 0x03
  else
    let rest := 16 + (if verify then cdiv l 2 else 0)
    if n = 8 + rest ∨ n = 16 + rest then .offset (n - rest) else .malformed

/-- The offset of a PIN: each digit less the natural digit, modulo 10. -/
def pinOffset (key vdata : Bytes) (table pin : List Nat) (l : Nat) : List Nat :=
  let nat := ((nibbles (tdeaEnc key vdata)).map fun z => table.getD z 0).take l
  (List.range l).map fun i => (pin.getD i 0 + 10 - nat.getD i 0) % 10

/-- The verification value of a PIN. -/
def pinValue (key : Bytes) (account pin : List Nat) (idx : Nat) : List Nat :=
  (twoPass (nibbles (tdeaEnc key (packNibbles (account.drop 1 ++ [idx] ++ pin.take 4))))).take 4

/-- Recover the PIN under handle 1 and use it with the verification key of a usage. -/
def withPin (x : JobCtx) (usage : BitVec 16) (blk : Bytes) (c : PinCard) (least : Nat) (body : Bytes → List Nat → State → State)
    (s : State) : State :=
  let op := x.cmd.desc.opcode.toNat
  withKey x x.cmd.desc.key1 (accepts op false) (fun _ r1 m1 s =>
    withKey x x.cmd.desc.key2 (fun r => accepts op true r && r.usage == usage) (fun _ _ m2 s =>
      let v := recoverPin (r1.alg == algT) m1 blk c
      match v.bad with
      | some why => refuseJobInput x why s
      | none =>
        if versionOf s.rt x.cmd == some 2 && (v.fmt == 4 || r1.alg == algA) then refuseJobInput x 0x04 s
        else if v.pin.length < least then refuseJobInput x 0x03 s
        else body m2 v.pin s) s) s

/-- The two PIN verification commands. -/
def pinCheck (verify : Bool) (x : JobCtx) (s : State) : State :=
  let p := x.cmd.desc.inl
  let b := x.cmd.input
  let l := byteAt p 10
  if !zeroAt p 11 3 then failJob x stMalformed s
  else match panDigits p with
    | none => refuseJobInput x 0x01 s
    | some pan =>
      let c := cardOfPan pan
      match pinForm verify l b.length with
      | .malformed => failJob x stMalformed s
      | .refused why => refuseJobInput x why s
      | .value n =>
        withPin x uV2 (b.take n) c 4 (fun key pin s =>
          let v := packNibbles (pinValue key c.account pin l)
          if verify then doneJob x [if v = b.drop n then 0#8 else 1#8] [] 0 s else doneJob x v [] 0 s) s
      | .offset n =>
        let rest := b.drop n
        let table := nibbles (slice rest 8 8)
        if !tableOk table then refuseJobInput x 0x05 s
        else withPin x uV1 (b.take n) c l (fun key pin s =>
          let o := pinOffset key (rest.take 8) table pin l
          if verify then doneJob x [if o = (nibbles (rest.drop 16)).take l then 0#8 else 1#8] [] 0 s
          else doneJob x (packF 6 o) [] 0 s) s

/-- PIN_VERIFY. -/
def execPinVerify (id : CmdId) (s : State) : Res := .next (runCmd id 0x0101 (pinCheck true) s)

/-- PIN_OFFSET_GEN. -/
def execPinOffsetGen (id : CmdId) (s : State) : Res := .next (runCmd id 0x0102 (pinCheck false) s)

/-! ## Card verification codes (R380) -/

/-- The code of a card: PAN, expiry date and service code under the key, decimalised. -/
def cvcCode (tdea : Bool) (key : Bytes) (pan expSvc : List Nat) (n : Nat) : List Nat :=
  let d := padTo 16 (packNibbles (pan ++ expSvc))
  let v := if tdea then (cbcEnc true key (zeros 8) d).drop 8 else (aesEnc key d).take 8
  (twoPass (nibbles v)).take n

/-- The two card verification commands. -/
def cardCode (verify : Bool) (x : JobCtx) (s : State) : State :=
  let p := x.cmd.desc.inl
  match panDigits p with
  | none => refuseJobInput x 0x01 s
  | some pan =>
    let t := nibbles (slice p 10 4)
    let n := t.getD 7 0
    let len := cdiv n 2
    if (t.take 7).any (fun d => decide (9 < d)) ∨ n < 3 ∨ 5 < n then refuseJobInput x 0x06 s
    else if verify ∧ x.cmd.input.length ≠ len then failJob x stMalformed s
    else withKey x x.cmd.desc.key1 (accepts x.cmd.desc.opcode.toNat false) (fun _ r m s =>
      let code := packF len (cvcCode (r.alg == algT) m pan (t.take 7) n)
      if verify then doneJob x [if code = x.cmd.input then 0#8 else 1#8] [] 0 s else doneJob x code [] len s) s

/-- CVC_GENERATE. -/
def execCvcGenerate (id : CmdId) (s : State) : Res := .next (runCmd id 0x0110 (cardCode false) s)

/-- CVC_VERIFY. -/
def execCvcVerify (id : CmdId) (s : State) : Res := .next (runCmd id 0x0111 (cardCode true) s)

/-! ## AES DUKPT (R384) -/

/-- Inline bytes that reason 09h refuses before the key is known: a counter of zero or with more than 16 bits set, a key type not
defined. -/
def ksnRefused (p : Bytes) : Bool :=
  let ctr := beAt p 8 4
  ctr == 0 || decide (16 < popcount 32 ctr) || !decide (byteAt p 12 ∈ [2, 3, 4])

/-- The base derivation key, of a length that the working key type does not exceed. -/
def withBdk (x : JobCtx) (body : Bytes → State → State) (s : State) : State :=
  withKey x x.cmd.desc.key1 (accepts x.cmd.desc.opcode.toNat false) (fun _ _ m s =>
    if m.length < dukptKeyLen (byteAt x.cmd.desc.inl 12) then refuseJobInput x 0x09 s else body m s) s

/-- DUKPT_DECRYPT. -/
def dukptDecrypt (x : JobCtx) (s : State) : State :=
  let p := x.cmd.desc.inl
  let b := x.cmd.input
  if ksnRefused p || !decide (byteAt p 13 ∈ [1, 2]) then refuseJobInput x 0x09 s
  else if b.length < 32 ∨ 2048 < b.length ∨ b.length % 16 ≠ 0 then failJob x stMalformed s
  else withBdk x (fun bdk s =>
    let key := dukptWorking bdk (p.take 12) (if byteAt p 13 = 1 then 0x3001 else 0x3002) (byteAt p 12)
    doneJob x [] (cbcDec false key (b.take 16) (b.drop 16)) 0 s) s

/-- DUKPT_DECRYPT. -/
def execDukptDecrypt (id : CmdId) (s : State) : Res := .next (runCmd id 0x0130 dukptDecrypt s)

/-- DUKPT_PIN_TRANSLATE. -/
def dukptPin (x : JobCtx) (s : State) : State :=
  let p := x.cmd.desc.inl
  let b := x.cmd.input
  if ksnRefused p || byteAt p 13 != 0 then refuseJobInput x 0x09 s
  else if b.length ≠ 26 then failJob x stMalformed s
  else match panDigits (b.drop 16) with
    | none => refuseJobInput x 0x01 s
    | some pan =>
      let c := cardOfPan pan
      withBdk x (fun bdk s =>
        if keyWaits x x.cmd.desc.key2 (accepts 0x0131 true) s then s
        else withRandom x 8 (fun rnd s => withKey x x.cmd.desc.key2 (accepts 0x0131 true) (fun _ _ m2 s =>
          let v := recoverPin false (dukptWorking bdk (p.take 12) 0x1000 (byteAt p 12)) (b.take 16) c
          match v.bad with
          | some why => refuseJobInput x why s
          | none => doneJob x [] (buildPin m2 4 v.pin (nibbles rnd) [] c) 0 s) s) s) s

/-- DUKPT_PIN_TRANSLATE. -/
def execDukptPinTranslate (id : CmdId) (s : State) : Res := .next (runCmd id 0x0131 dukptPin s)

end Sys2Proof.Machine
end

