-- ==== Sys2Proof/Machine/Emv.lean ====
section
/-! DEFINITION. EMV cryptograms and secure messaging (18 R381 to R383), MAC_GENERATE and MAC_VERIFY (R385), and tokenisation with
FF1 (R386). -/

namespace Sys2Proof.Machine

/-! ## EMV -/

/-- The MAC of R381, 8 bytes: algorithm 3 with padding method 2, or CMAC over the data so padded. -/
def emvMac (k : EngKey) (d : Bytes) : Bytes :=
  if k.alg = .tdea then mac3 k.key 2 d else (cmac false k.key (isoPad 16 2 d)).take 8

/-- The derivation data of R381: option A of the PAN and its sequence number, then the ATC. -/
def emvData (pan psn : List Nat) (p : Bytes) : Bytes := emvOptionA pan psn ++ slice p 11 2

/-- Use the session key that derivation 0004h gives from a stored key. -/
def withSession (x : JobCtx) (r : SlotRec) (m data : Bytes) (body : EngKey → State → State) (s : State) : State :=
  match derive r m 4 data with
  | .no st why => if st = stInputRefused then refuseJobInput x why s else failJob x st s
  | .key k => body k s

/-- The inline bytes that the EMV commands share: the derivation data, or the reason. -/
def emvCard (p : Bytes) : Except Nat Bytes :=
  match panDigits p with
  | none => .error 0x01
  | some pan =>
    let psn := nibbles (slice p 10 1)
    if psn.any fun d => decide (9 < d) then .error 0x07 else .ok (emvData pan psn p)

/-- The input of ARQC_VERIFY divides as its method says (R382). -/
def arqcLayout (method : Nat) (b : Bytes) : Bool :=
  let rest := b.length - (1 + byteAt b 0 + 8)
  decide (1 ≤ byteAt b 0 ∧ 1 + byteAt b 0 + 8 ≤ b.length) &&
    (match method with
     | 0 => rest == 0
     | 1 => rest == 2
     | 2 => decide (4 ≤ rest ∧ rest ≤ 12)
     | _ => false)

/-- The ARPC of a method (R382). -/
def arpcOf (k : EngKey) (method : Nat) (arqc rest : Bytes) : Bytes :=
  match method with
  | 1 =>
    let v := bxor arqc (rest ++ zeros 6)
    if k.alg = .tdea then tdeaEnc k.key v else (aesEnc k.key (v ++ zeros 8)).take 8
  | 2 => (emvMac k (arqc ++ rest)).take 4
  | _ => []

/-- ARQC_VERIFY. -/
def arqcVerify (x : JobCtx) (s : State) : State :=
  let p := x.cmd.desc.inl
  let b := x.cmd.input
  match emvCard p with
  | .error why => refuseJobInput x why s
  | .ok data =>
    if !arqcLayout (byteAt p 13) b then refuseJobInput x 0x07 s
    else withKey x x.cmd.desc.key1 (accepts 0x0120 false) (fun _ r m s =>
      withSession x r m data (fun k s =>
        let arqc := slice b (1 + byteAt b 0) 8
        let ok := emvMac k (slice b 1 (byteAt b 0)) = arqc
        let arpc := arpcOf k (byteAt p 13) arqc (b.drop (9 + byteAt b 0))
        doneJob x (if ok then 0#8 :: arpc else [1#8]) [] 0 s) s) s

/-- ARQC_VERIFY. -/
def execArqcVerify (id : CmdId) (s : State) : Res := .next (runCmd id 0x0120 arqcVerify s)

/-- SM_MAC. -/
def smMac (x : JobCtx) (s : State) : State :=
  let p := x.cmd.desc.inl
  let b := x.cmd.input
  if byteAt p 13 ≠ 0 then failJob x stMalformed s
  else match emvCard p with
    | .error why => refuseJobInput x why s
    | .ok data =>
      if b.length < 5 ∨ 2048 < b.length then refuseJobInput x 0x07 s
      else withKey x x.cmd.desc.key1 (accepts 0x0121 false) (fun _ r m s =>
        withSession x r m data (fun k s => doneJob x (emvMac k b) [] 0 s) s) s

/-- SM_MAC. -/
def execSmMac (id : CmdId) (s : State) : Res := .next (runCmd id 0x0121 smMac s)

/-- SM_ENC_MAC. -/
def smEncMac (x : JobCtx) (s : State) : State :=
  let p := x.cmd.desc.inl
  let b := x.cmd.input
  if byteAt p 13 ≠ 0 then failJob x stMalformed s
  else match emvCard p with
    | .error why => refuseJobInput x why s
    | .ok data =>
      if b.length < 6 ∨ 2005 < b.length then refuseJobInput x 0x07 s
      else withKey x x.cmd.desc.key1 (accepts 0x0122 false) (fun _ r1 m1 s =>
        withKey x x.cmd.desc.key2 (accepts 0x0122 true) (fun _ r2 m2 s =>
          withSession x r2 m2 data (fun k2 s =>
            withSession x r1 m1 data (fun k1 s =>
              let t := k2.alg == .tdea
              let ct := cbcEnc t k2.key (zeros (blockLen t)) (isoPad (blockLen t) 2 (b.drop 5))
              doneJob x [] (ct ++ emvMac k1 (b.take 5 ++ ct)) 0 s) s) s) s) s

/-- SM_ENC_MAC. -/
def execSmEncMac (id : CmdId) (s : State) : Res := .next (runCmd id 0x0122 smEncMac s)

/-! ## MAC_GENERATE and MAC_VERIFY (R385) -/

/-- The press refuses the parameters of a MAC under a key with reason 21h (R304). -/
def macParBad (r : SlotRec) (len pad : Nat) : Bool :=
  decide (len < 4 ∨ blockLen (r.alg == algT) < len) ||
    (if r.usage = uM6 then pad != 0 else decide (pad < 1 ∨ 3 < pad)) ||
    (r.usage == uM3 && !(r.alg == algT && r.size == 16))

/-- The MAC of a message by the key's usage. -/
def macOf (r : SlotRec) (key : Bytes) (pad : Nat) (msg : Bytes) : Bytes :=
  if r.usage = uM6 then cmac (r.alg == algT) key msg
  else if r.usage = uM3 then mac3 key pad msg
  else mac1 (r.alg == algT) key pad msg

/-- The two MAC commands. -/
def macCmd (verify : Bool) (x : JobCtx) (s : State) : State :=
  let p := x.cmd.desc.inl
  let b := x.cmd.input
  let len := byteAt p 0
  let msg := if verify then b.take (b.length - len) else b
  if !zeroAt p 2 12 ∨ (verify ∧ b.length < len) ∨ 2048 < msg.length then failJob x stMalformed s
  else withKey x x.cmd.desc.key1 (accepts x.cmd.desc.opcode.toNat false) (fun _ r m s =>
    if !(if verify then (storedPerms r).macv else (storedPerms r).macg) then failJob x stUsageRefused s
    else if macParBad r len (byteAt p 1) then refuseJobInput x 0x21 s
    else
      let mac := (macOf r m (byteAt p 1) msg).take len
      if verify then doneJob x [if mac = b.drop msg.length then 0#8 else 1#8] [] 0 s else doneJob x mac [] 0 s) s

/-- MAC_GENERATE. -/
def execMacGenerate (id : CmdId) (s : State) : Res := .next (runCmd id 0x0140 (macCmd false) s)

/-- MAC_VERIFY. -/
def execMacVerify (id : CmdId) (s : State) : Res := .next (runCmd id 0x0141 (macCmd true) s)

/-! ## TOKENISE and DETOKENISE (R386) -/

/-- The tweak: the kept digits packed and padded with Fh, or none. -/
def tokenTweak (on : Bool) (kept : List Nat) : Bytes := if on then packF (cdiv kept.length 2) kept else []

/-- The two tokenisation commands. -/
def tokenCmd (back : Bool) (x : JobCtx) (s : State) : State :=
  let p := x.cmd.desc.inl
  let lead := byteAt p 10 / 16
  let trail := byteAt p 10 % 16
  if 1 < byteAt p 11 ∨ !zeroAt p 12 2 then failJob x stMalformed s
  else match panDigits p with
    | none => refuseJobInput x 0x01 s
    | some d =>
      if d.length < lead + trail + 6 then refuseJobInput x 0x0B s
      else withKey x x.cmd.desc.key1 (accepts x.cmd.desc.opcode.toNat false) (fun _ _ m s =>
        let n := d.length - lead - trail
        let tweak := tokenTweak (byteAt p 11 == 1) (d.take lead ++ d.drop (lead + n))
        let mid := (d.drop lead).take n
        let new := if back then ff1Dec m tweak mid else ff1Enc m tweak mid
        doneJob x (packF 10 (d.take lead ++ new ++ d.drop (lead + n))) [] 10 s) s

/-- TOKENISE. -/
def execTokenise (id : CmdId) (s : State) : Res := .next (runCmd id 0x0150 (tokenCmd false) s)

/-- DETOKENISE. -/
def execDetokenise (id : CmdId) (s : State) : Res := .next (runCmd id 0x0151 (tokenCmd true) s)

end Sys2Proof.Machine
end

