-- ==== Sys2Proof/Machine/Blocks.lean ====
section
/-! DEFINITION. Key blocks and check values (18 R387 to R389), authenticated encryption (R390), and the commands of house programs
(17 R360). -/

namespace Sys2Proof.Machine

/-! ## Key blocks -/

/-- KEYBLOCK_IMPORT. -/
def keyblockImport (x : JobCtx) (s : State) : State :=
  let p := x.cmd.desc.inl
  let b := x.cmd.input
  let dual := byteAt p 0 == 1
  if 1 < byteAt p 0 ∨ !zeroAt p 1 13 then failJob x stMalformed s
  else withKey x x.cmd.desc.key1 (accepts 0x0160 false) (fun ps pr pm s =>
    if !levelFits s.rt x.cmd.bundle x.cmd.epoch pr then refuseJobInput x 0x13 s
    else if dual && !latchOpenFor s.rt x then failJob x stDualControl s
    else if b.length < 48 ∨ 4096 < b.length then refuseJobInput x 0x08 s
    else match kbUnwrap (pr.alg == algT) pm b with
      | none => refuseJobInput x 0x08 s
      | some c =>
        let a := { kbAttrs c with dual := dual }
        if !attrsOk a then refuseJobInput x 0x15 s
        else placeKey x 0x0002 { a := a, nb := 0, na := 0, ver := BitVec.ofNat 16 (leAt c.ver 0 2) } ps pr c.key
          (resultCheck a.alg c.key) [] 13 s) s

/-- KEYBLOCK_IMPORT. -/
def execKeyblockImport (id : CmdId) (s : State) : Res := .next (runCmd id 0x0160 keyblockImport s)

/-- The value of preset 0, CRC-32C, over a whole key block (19 R402). -/
def blockTally (rt : Rt) (b : Bytes) : Bytes := tallyBytes (presetOf rt 0) b

/-- KEYBLOCK_EXPORT: the block is the output; the journal record of the ledger entry changes no slot, and carries the block's tally (R402). -/
def keyblockExport (x : JobCtx) (s : State) : State :=
  if !zeroAt x.cmd.desc.inl 0 14 || !x.cmd.input.isEmpty then failJob x stMalformed s
  else match lockExport x x.cmd.desc.key1 x.cmd.desc.key2 s.rt with
    | .error l => stopOn x l s
    | .ok (b, slot, r, rt) =>
      let e := jobEntry s.rt x 0x0003 slot r.gen r.gen (needsLatch r) (blockTally s.rt b ++ zeros 4)
      let d : Delta := { changes := [], reads := [slot], entries := [e] }
      submitJob x d (needsLatch r) [] b 0 { s with rt := touchTiles x.cmd.die (readTiles rt x.cmd.bundle x.cmd.epoch slot r) rt }

/-- KEYBLOCK_EXPORT. -/
def execKeyblockExport (id : CmdId) (s : State) : Res := .next (runCmd id 0x0161 keyblockExport s)

/-- KEY_CHECK_VALUE: 3 bytes for algorithm T, 5 for algorithm A. -/
def keyCheckValue (x : JobCtx) (s : State) : State :=
  if !zeroAt x.cmd.desc.inl 0 14 then failJob x stMalformed s
  else withKey x x.cmd.desc.key1 (accepts 0x0162 false) (fun _ r m s =>
    let v := checkValue r.alg m
    doneJob x v [] v.length s) s

/-- KEY_CHECK_VALUE. -/
def execKeyCheckValue (id : CmdId) (s : State) : Res := .next (runCmd id 0x0162 keyCheckValue s)

/-! ## Authenticated encryption (R390, 14 R308 to R312) -/

/-- The lengths of nonce and tag that the loom takes in a mode (14 Table 14.8). -/
def aeadParOk (ccm : Bool) (nonce tag : Nat) : Bool :=
  if ccm then decide (7 ≤ nonce ∧ nonce ≤ 13 ∧ 4 ≤ tag ∧ tag ≤ 16 ∧ tag % 2 = 0) else nonce == 12 && tag == 16

/-- A decryption goes directly to the host: R311 allows it and the payload is above 65 536 bytes. -/
def aeadDirect (rt : Rt) (c : Cmd) (dec : Bool) (payload : Nat) : Bool :=
  dec && decide (65536 < payload) && directOk rt Clerk.reset c

/-- End a decryption: plaintext and verdict. A payload of at most 65 536 bytes that does not verify is zeros; what does not verify is
withheld, and what went out directly is scrubbed (R310, R312). -/
def aeadEnd (x : JobCtx) (direct : Bool) (pt : Bytes) (ok : Bool) (s : State) : State :=
  let s := if ok then s else onRt (modCmd x.id fun c => { c with withheld := true }) s
  if direct then
    let pasid := (boothOf s.rt x.cmd.booth).map fun b => b.cfg.pasid
    let s := onRt (fun rt => modCmd x.id (fun c => { c with direct := pt.length }) (hostData pasid x.cmd.desc.outIova.toNat pt rt)) s
    doneJob x [if ok then 0#8 else 1#8] [] 0 s
  else doneJob x [if ok then 0#8 else 1#8] pt 0 s

/-- The two authenticated encryption commands. -/
def aeadCmd (dec : Bool) (x : JobCtx) (s : State) : State :=
  let p := x.cmd.desc.inl
  let b := x.cmd.input
  let mode := byteAt p 0
  let nl := byteAt p 1
  let tl := byteAt p 2
  let hl := leAt p 4 4
  if (mode ≠ 1 ∧ mode ≠ 2) ∨ byteAt p 3 ≠ 0 ∨ !zeroAt p 8 6 ∨ 65536 < hl ∨ 65536 < nl + hl ∨ b.length < nl + hl then
    failJob x stMalformed s
  else withKey x x.cmd.desc.key1 (accepts x.cmd.desc.opcode.toNat false) (fun _ _ m s =>
    let ccm := mode == 2
    let nonce := b.take nl
    let hdr := slice b nl hl
    let src := b.drop (nl + hl)
    let len := if dec then src.length - tl else src.length
    let direct := aeadDirect s.rt x.cmd dec len
    if !aeadParOk ccm nl tl then refuseJobInput x 0x21 s
    else if (dec ∧ src.length < tl) ∨ (if direct then 33554432 else 16777216) < len then refuseJobInput x 0x20 s
    else if direct ∧ x.cmd.desc.outLim.toNat < len then
      onRt (modCmd x.id fun c => { c with outLen := len }) (failJob x stMalformed s)
    else if dec then
      let ct := src.take len
      let tag := src.drop len
      let r := if ccm then ccmDec m nonce hdr ct tag else gcmDec m nonce hdr ct tag
      aeadEnd x direct (if !r.2 && decide (len ≤ 65536) then zeros len else r.1) r.2 s
    else doneJob x [] (if ccm then ccmEnc m nonce hdr src tl else gcmEnc m nonce hdr src) 0 s) s

/-- AEAD_ENCRYPT. -/
def execAeadEncrypt (id : CmdId) (s : State) : Res := .next (runCmd id 0x0170 (aeadCmd false) s)

/-- AEAD_DECRYPT. -/
def execAeadDecrypt (id : CmdId) (s : State) : Res := .next (runCmd id 0x0171 (aeadCmd true) s)

/-! ## House programs (17 R360) -/

/-- The lowest clerk to which the dispatch board would give a command now. -/
def clerkFor (rt : Rt) (id : CmdId) : Option ClerkId :=
  (List.range 128).find? fun k =>
    clerkTakes rt k && (((pick k (pickOrder rt) rt).1.map Cmd.id) == some id)

/-- HOUSE_PROGRAM_COMMAND: a command of an opcode from 8000h to 8FFFh starts at the entry point of the house's loaded program, on
the clerk to which the dispatch board gives it; from there the program's own instructions decide its keys, parameters and results. -/
def execHouseProgramCommand (x : CmdInput) (s : State) : Res :=
  .next (
    match kget s.rt.cmds x.id with
    | none => s
    | some c =>
      if !isHouseOp c.desc.opcode.toNat || !mayRun s.rt then s
      else match clerkFor s.rt x.id with
        | none => s
        | some k => doDispatch k x.data x.reads s)

end Sys2Proof.Machine
end

