-- ==== Sys2Proof/Machine/Booths.lean ====
section
/-! DEFINITION. Booth requests (06 R119 to R124, Tables 6.7, 6.8, 6.10), ABORT (07 R150, R151), and the rows whose end may
complete a booth's closing: COMPLETION_POST, RESPONSE_FRAME, HOST_LINK_RETURN. -/

namespace Sys2Proof.Machine

/-! ## Parameters -/

/-- A data window of 24 bytes (Table 6.7). -/
def windowOf (p : Bytes) (o : Nat) : Window :=
  { start := leAt p o 8, stop := leAt p (o + 8) 8, rd := (byteAt p (o + 16)).testBit 0, wr := (byteAt p (o + 16)).testBit 1 }

/-- A window's fields are in range: granules of 64 bytes, not empty, a permission, zeros behind. -/
def windowOk (p : Bytes) (o : Nat) : Bool :=
  let w := windowOf p o
  decide (w.start % 64 = 0 ∧ (w.stop + 1) % 64 = 0 ∧ w.start ≤ w.stop ∧ 1 ≤ byteAt p (o + 16) ∧ byteAt p (o + 16) < 4) && zeroAt p (o + 17) 7

/-- The booth fields at an offset of a request (Table 6.7). -/
def boothFields (p : Bytes) (o : Nat) : BoothCfg :=
  let fl := byteAt p (o + 36)
  { pasid := leAt p o 4, house := leAt p (o + 4) 2, fmt := byteAt p (o + 6), ceiling := byteAt p (o + 7), share := leAt p (o + 8) 4,
    sqLog2 := byteAt p (o + 12), cqLog2 := byteAt p (o + 13), vector := leAt p (o + 14) 2, sqIova := leAt p (o + 16) 8,
    cqIova := leAt p (o + 24) 8, coalCount := leAt p (o + 32) 2, coalTime := leAt p (o + 34) 2, streaming := fl.testBit 0,
    ringTally := fl.testBit 1, preset := byteAt p (o + 37), epoch := 0,
    windows := (List.range (byteAt p (o + 38))).map fun k => windowOf p (o + 40 + 24 * k) }

/-- The fields of Table 6.7 in range, by the bit of R121's change mask; a preset whose VALID is clear is out of range (R404). -/
def fieldOk (rt : Rt) (p : Bytes) (o bit : Nat) : Bool :=
  let c := boothFields p o
  match bit with
  | 0 => decide (c.pasid < 2 ^ 20)
  | 1 => decide (c.house < 1024)
  | 2 => decide (c.fmt = 1 ∨ c.fmt = 2)
  | 3 => decide (c.ceiling < 8)
  | 4 => decide (c.share ≤ 131072)
  | 5 => decide (6 ≤ c.sqLog2 ∧ c.sqLog2 ≤ 16)
  | 6 => decide (6 ≤ c.cqLog2 ∧ c.cqLog2 ≤ 16)
  | 7 => decide (1 ≤ c.vector ∧ c.vector < 4096)
  | 8 => decide (c.sqIova % 4096 = 0)
  | 9 => decide (c.cqIova % 4096 = 0)
  | 10 => decide (1 ≤ c.coalCount ∧ c.coalCount ≤ 256)
  | 11 => decide (c.coalTime ≤ 1000)
  | 12 => decide (byteAt p (o + 36) < 4)
  | 13 => decide (c.preset < 8) && (presetOf rt c.preset).valid
  | 14 => decide (byteAt p (o + 38) ≤ 14) && (List.range (byteAt p (o + 38))).all fun k => windowOk p (o + 40 + 24 * k)
  | _ => false

/-- Two closed ranges meet. -/
def meets (a z b y : Nat) : Bool := decide (a ≤ y ∧ b ≤ z)

/-- Check 3: the rings lie in the address space and meet neither each other nor a data window. -/
def ringsApart (c : BoothCfg) : Bool :=
  let sz := c.sqIova + sqBytes c - 1
  let cz := c.cqIova + cqBytes c - 1
  decide (sz < 2 ^ 64 ∧ cz < 2 ^ 64) && !meets c.sqIova sz c.cqIova cz &&
  c.windows.all fun w => !meets w.start w.stop c.sqIova sz && !meets w.start w.stop c.cqIova cz

/-- Check 4: the share fits the completion ring. -/
def shareFits (c : BoothCfg) : Bool := decide (c.share ≤ 2 ^ c.cqLog2)

/-- The sum of credit limits as R21 counts it. -/
def shareSum (rt : Rt) : Nat := (rt.booths.map fun kv => kv.2.counted).sum

/-! ## BOOTH_CREATE (R119, R120) -/

/-- The lowest free booth number. -/
def freeBooth (rt : Rt) : Option Nat := (List.range 4096).find? fun b => (boothOf rt b).isNone

/-- Checks 2 to 8 of Table 6.8. -/
def createCheck (rt : Rt) (p : Bytes) : Option (Nat × Nat) :=
  let c := boothFields p 0
  if !(p.length == 40 + 24 * byteAt p 38 && byteAt p 39 == 0 && (List.range 15).all (fieldOk rt p 0)) then some (stMalformed, 0)
  else if !ringsApart c || !shareFits c then some (stMalformed, 0)
  else if !houseRegistered rt c.house then some (stInputRefused, 0x43)
  else if rt.booths.any fun kv => kv.2.cfg.pasid == c.pasid then some (stInputRefused, 0x41)
  else if 4096 ≤ rt.booths.length then some (stInputRefused, 0x42)
  else if 131072 < shareSum rt + c.share then some (stInputRefused, 0x40)
  else none

/-- Answer a refusal with its reason where it has one. -/
def refuseWith (src : ReqSrc) (q : Req) (r : Nat × Nat) (rt : Rt) : Rt :=
  if r.1 = stInputRefused then refuseReason src q r.2 rt else refuse src q r.1 rt

/-- BOOTH_CREATE: the booth table entry is written to flash, where it commits. -/
def boothCreate (src : ReqSrc) (q : Req) (s : State) : State :=
  if ledgerFull s.nv then onRt (refuse src q stStateRefused) s
  else match createCheck s.rt q.params, freeBooth s.rt with
    | none, some b => onRt (holdRequest src q (some (.boothCreate b (boothFields q.params 0))) none none (le 2 b)) s
    | some r, _ => onRt (refuseWith src q r) s
    | none, none => onRt (refuseReason src q 0x42) s

/-- BOOTH_CREATE. -/
def execBoothCreate (src : ReqSrc) (s : State) : Res := .next (serve src 0x10 (inBound src (boothCreate src)) s)

/-! ## BOOTH_MODIFY (R121, R122) -/

/-- The configuration with the masked fields of a request; the fields stand at offset 4. -/
def maskedCfg (old : BoothCfg) (mask : Nat) (p : Bytes) : BoothCfg :=
  let c := boothFields p 4
  let m := fun (i : Nat) => mask.testBit i
  { old with
    ceiling := if m 3 then c.ceiling else old.ceiling
    share := if m 4 then c.share else old.share
    vector := if m 7 then c.vector else old.vector
    coalCount := if m 10 then c.coalCount else old.coalCount
    coalTime := if m 11 then c.coalTime else old.coalTime
    streaming := if m 12 then c.streaming else old.streaming
    ringTally := if m 12 then c.ringTally else old.ringTally
    preset := if m 13 then c.preset else old.preset
    windows := if m 14 then c.windows else old.windows }

/-- The bits that name a field that cannot change, and the reserved bit. -/
def fixedBits : List Nat := [0, 1, 2, 5, 6, 8, 9, 15]

/-- The checks of a modification. -/
def modifyCheck (rt : Rt) (x : Booth) (mask : Nat) (p : Bytes) : Option (Nat × Nat) :=
  let c := maskedCfg x.cfg mask p
  let want := if mask.testBit 14 then 44 + 24 * byteAt p 42 else 44
  if p.length ≠ want ∨ byteAt p 43 ≠ 0 ∨ (fixedBits.any fun i => mask.testBit i) then some (stMalformed, 0)
  else if !(List.range 15).all fun i => !mask.testBit i || fieldOk rt p 4 i then some (stMalformed, 0)
  else if !ringsApart c || !shareFits c then some (stMalformed, 0)
  else if x.counted < c.share ∧ 131072 < shareSum rt - x.counted + c.share then some (stInputRefused, 0x40)
  else none

/-- BOOTH_MODIFY. -/
def boothModify (src : ReqSrc) (q : Req) (s : State) : State :=
  let p := q.params
  let b := leAt p 0 2
  let mask := leAt p 2 2
  if p.length < 44 then onRt (refuse src q stMalformed) s
  else match boothOf s.rt b with
    | none => onRt (refuseReason src q 0x46) s
    | some x =>
      match modifyCheck s.rt x mask p with
      | some r => onRt (refuseWith src q r) s
      | none =>
        if mask = 0 then onRt (answer src q stDone []) s
        else if ledgerFull s.nv then onRt (refuse src q stStateRefused) s
        else onRt (holdRequest src q (some (.boothModify b (maskedCfg x.cfg mask p) (mask.testBit 14))) none none []) s

/-- BOOTH_MODIFY. -/
def execBoothModify (src : ReqSrc) (s : State) : Res := .next (serve src 0x11 (inBound src (boothModify src)) s)

/-! ## ABORT (R18, R150, R151) -/

/-- An abort still takes hold of a command: its JEND has not run, or its bundle's members have not all run theirs. -/
def abortable (rt : Rt) (c : Cmd) : Bool :=
  match multiOf rt c with
  | some x => x.failed.isNone && !x.committed && !(x.closed && membersDone rt x)
  | none => decide (c.stage ∈ [.fetched, .input, .admitted, .dispatched])

/-- A command whose job trapped at the instruction boundary that an abort reaches now (Table 10.10, log 14). -/
def trapsNow (rt : Rt) (c : Cmd) : Bool :=
  c.trapped == some rt.now && c.stage == .ended && c.status == stDeviceFault && (multiOf rt c).isNone

/-- Abort one command, with its bundle; a trap at the same boundary gives ABORTED too. -/
def abortCmd (id : CmdId) (rt : Rt) : Rt :=
  match kget rt.cmds id with
  | none => rt
  | some c =>
    if abortable rt c then failWith id stAborted rt
    else if trapsNow rt c then modCmd id (fun c => { c with status := stAborted }) rt
    else rt

/-- The outstanding commands of a booth that an abort takes hold of. -/
def abortTargets (rt : Rt) (b : Nat) (p : Cmd → Bool) : List CmdId :=
  kkeys (rt.cmds.filter fun kv => kv.2.booth == b && p kv.2 && (abortable rt kv.2 || trapsNow rt kv.2))

/-- ABORT: every outstanding command of the booth with the tag; the response counts them. -/
def abortTag (src : ReqSrc) (q : Req) (s : State) : State :=
  let p := q.params
  let b := leAt p 0 2
  if !zeroAt p 2 2 then onRt (refuse src q stMalformed) s
  else if (boothOf s.rt b).isNone then onRt (refuseReason src q 0x46) s
  else
    let l := abortTargets s.rt b fun c => c.desc.tag.toNat == leAt p 4 4
    onRt (fun rt => answer src q stDone (le 4 l.length) (l.foldl (fun r id => abortCmd id r) rt)) s

/-- ABORT. -/
def execAbort (src : ReqSrc) (s : State) : Res := .next (serveLen src 0x15 8 (abortTag src) s)

/-! ## BOOTH_CLOSE (R123) -/

/-- No command of a booth is left in the module. -/
def boothDrained (rt : Rt) (b : Nat) : Bool := !(rt.cmds.any fun kv => kv.2.booth == b)

/-- Steps 4 and 5: the regions go at an epoch, the entry is deleted, the number and the limit are free (Table 6.10). -/
def finishClose (b : Nat) (x : Booth) (s : State) : State :=
  let res := le 4 x.closeDone ++ le 4 x.closeAborted ++ le 4 x.closeDiscarded
  let rt := setHostRegions x.cfg.pasid [] [] s.rt
  let s := { s with rt := { rt with booths := kdel rt.booths b }, nv := { s.nv with boothTable := kdel s.nv.boothTable b } }
  let s := commitChange (.boothClose b) false s
  let s := writeEntry (ledgerEvent 0x010A x.cfg.house b 0xFFFFFFFF 0 0 0 0 []) s
  onRt (answerWaiting stDone res) s

/-- A closing booth whose last completion is written is closed. -/
def closeReady (s : State) : State :=
  let s := onRt expireRequest s
  match s.rt.waiting.bind Waiting.booth with
  | none => s
  | some b => match boothOf s.rt b with
    | none => s
    | some x => if x.closing && boothDrained s.rt b then finishClose b x s else s

/-- A bundle whose members have not all been fetched is closed and fails whole (R123). -/
def cutBundle (u : Nat) (rt : Rt) : Rt :=
  match kget rt.bundles u with
  | none => rt
  | some x =>
    if x.closed then rt
    else
      let rt := { rt with bundles := kset rt.bundles u { x with closed := true } }
      if x.failed.isSome then settleBundle u rt else failBundle u x.members.length stAborted (zeros 16) rt

/-- The bundles of a booth that are not whole. -/
def openBundles (rt : Rt) (b : Nat) : List Nat := kkeys (rt.bundles.filter fun kv => kv.2.booth == b && !kv.2.closed)

/-- Abort everything of a booth that can be. -/
def abortBooth (b : Nat) (rt : Rt) : Rt := (abortTargets rt b fun _ => true).foldl (fun r id => abortCmd id r) rt

/-- BOOTH_CLOSE: the doorbell page and the sessions close, incomplete bundles fail, and in ABORT mode every command is aborted. -/
def boothClose (src : ReqSrc) (q : Req) (s : State) : State :=
  let p := q.params
  let b := leAt p 0 2
  let t := leAt p 4 4
  if 1 < byteAt p 2 ∨ byteAt p 3 ≠ 0 ∨ t = 0 ∨ 10000 < t then onRt (refuse src q stMalformed) s
  else if ledgerFull s.nv then onRt (refuse src q stStateRefused) s
  else if (boothOf s.rt b).isNone then onRt (refuseReason src q 0x46) s
  else
    closeReady (onRt (fun rt =>
      let rt := modBooth b (fun x => { x with closing := true, closeDone := 0, closeAborted := 0, closeDiscarded := 0 }) rt
      let rt := closeConns (fun c => c.booth == b) (some "close_notify") rt
      let rt := (openBundles rt b).foldl (fun r u => cutBundle u r) rt
      let rt := if byteAt p 2 = 1 then abortBooth b rt else rt
      holdRequest src q none (some b) none [] rt) s)

/-- BOOTH_CLOSE. -/
def execBoothClose (src : ReqSrc) (s : State) : Res := .next (serveLen src 0x12 8 (inBound src (boothClose src)) s)

/-- BOOTH_CLOSE_DRAIN_TIMEOUT: what remains is aborted. -/
def doDrainEnd (s : State) : State :=
  match s.rt.waiting.bind Waiting.booth with
  | none => s
  | some b => closeReady (onRt (abortBooth b) s)

/-- BOOTH_CLOSE_DRAIN_TIMEOUT. -/
def execBoothCloseDrainTimeout (s : State) : Res := .next (doDrainEnd s)

/-! ## RESET_BOOTH (R124, R163) -/

/-- A bundle came over a session. -/
def ofSession (rt : Rt) (u : Nat) : Bool := rt.cmds.any fun kv => kv.2.bundle == some u && kv.2.session.isSome

/-- The journal without the records of bundles that a reset of a booth discards: those without a commit mark; what came over a session
stays where only the rings are reset (08 Table 8.5). -/
def dropUncommitted (rt : Rt) (b : Nat) (ringOnly : Bool) (nv : Nv) : Nv :=
  let mine := (kkeys (rt.bundles.filter fun kv => kv.2.booth == b)).filter fun u => !ringOnly || !ofSession rt u
  { nv with journal := nv.journal.filter fun r => r.marked || !(match r.bundle with
      | some u => decide (u ∈ mine)
      | none => false) }

/-- The state in which RESET_BOOTH leaves a booth, its uncommitted bundles discarded. -/
def resetBooth (b : Nat) (ringOnly : Bool) (s : State) : State :=
  { s with nv := dropUncommitted s.rt b ringOnly s.nv, rt := resetBoothState b ringOnly s.rt }

/-- The tags that each session of a booth loses. -/
def lostTags (rt : Rt) (b : Nat) : KMap Nat :=
  rt.net.conns.map fun kv => (kv.1, (rt.cmds.filter fun m => m.2.booth == b && m.2.session == some kv.1).length)

/-- RESET_BOOTH. -/
def boothReset (src : ReqSrc) (q : Req) (s : State) : State :=
  let b := leAt q.params 0 2
  match boothOf s.rt b with
  | none => onRt (refuseReason src q 0x46) s
  | some x =>
    if ledgerFull s.nv then onRt (refuse src q stStateRefused) s
    else
      let lost := lostTags s.rt b
      let s := onRt (noticeAll b lost) (resetBooth b false s)
      let s := writeEntry (ledgerEvent 0x010B x.cfg.house b 0xFFFFFFFF 0 0 0 0 []) s
      onRt (answer src q stDone []) s

/-- RESET_BOOTH. -/
def execResetBooth (src : ReqSrc) (s : State) : Res := .next (serveLen src 0x13 2 (inBound src (boothReset src)) s)

/-! ## Rows that take commands out of the module -/

/-- COMPLETION_POST. -/
def execCompletionPost (id : CmdId) (ok : Bool) (s : State) : Res := .next (closeReady (doCompletionPost id ok s))

/-- In tamper halt a session that owes no response any more closes with internal_error (08 Table 8.5). -/
def sweepHalted (s : State) : State :=
  if inTamperHalt s.rt then
    onRt (fun rt => ((kkeys rt.net.conns).filter fun k => (connCmds rt k).isEmpty).foldl
      (fun r k => closeConn k (some "internal_error") r) rt) s
  else s

/-- RESPONSE_FRAME; the last response of a removed listener's session closes it, and so does the last in tamper halt. -/
def execResponseFrame (id : CmdId) (s : State) : Res := .next (closeReady (sweepHalted (sweepRemoved (doResponseFrame id s))))

/-- HOST_LINK_RETURN, with the uncommitted ring bundles of every booth discarded. -/
def doLinkBack (s : State) : State :=
  let nv := if canReturn s.rt then (kkeys s.rt.booths).foldl (fun nv b => dropUncommitted s.rt b true nv) s.nv else s.nv
  closeReady (onRt doHostLinkReturn { s with nv := nv })

/-- HOST_LINK_RETURN. -/
def execHostLinkReturn (s : State) : Res := .next (doLinkBack s)

end Sys2Proof.Machine
end

