-- ==== Sys2Proof/Machine/Branch.lean ====
section
/-! DEFINITION. Karua-20 control instructions (11 Table 11.3, R238; 10 R205, R216). -/

namespace Sys2Proof.Machine

/-- The address of a branch target. -/
def targetOf : Loc → Nat
  | .word a _ => a
  | _ => 0

/-- The entry table at 80000h to 800FFh of a room lists an address (R216). -/
def inEntryTable (r : Room) (t : Nat) : Bool :=
  (List.range 256).any fun i => (codeWord r (0x80000 + i)).toNat == t

/-- A job in house code leaves it only by CALL to a listed library routine (R216). -/
def targetOk (rt : Rt) (c : ClerkId) (ic t : Nat) (call : Bool) : Bool :=
  c == 128 || !inHouse ic || inHouse t || (call && inEntryTable (roomOf rt (clerkRoom c)) t)

/-- A branch, taken or not. -/
def branch (x : Args) (rt : Rt) (taken : Bool) : KOut :=
  if !taken then .go noFlags rt
  else if targetOk rt x.ck x.ic (targetOf x.la) false then .jump (targetOf x.la) rt
  else .trap trapAddress

/-- A conditional branch traps K_BRANCH while K and E are both set (R205). -/
def condBranch (x : Args) (rt : Rt) (taken : Bool) : KOut :=
  if swBit (clerkOf rt x.ck).sw 6 && swBit (clerkOf rt x.ck).sw 7 then .trap trapKBranch else branch x rt taken

/-- BR sets IC to its target (R238). -/
def opBr (x : Args) (rt : Rt) : KOut :=
  branch x rt true

/-- The row of BR (11 Table 11.3). -/
def fmtBr : Fmt := { op := 0x40, a := some .t, b := none, c := none, sets := false, rmw := false }

/-- BR. -/
def execBr (c : ClerkId) (o : Opnds) (s : State) : Res := karua fmtBr noLen opBr c o s

/-- BZ branches on Z; K and E both set trap K_BRANCH (R205, R238). -/
def opBz (x : Args) (rt : Rt) : KOut :=
  condBranch x rt (swBit (clerkOf rt x.ck).sw 0)

/-- The row of BZ (11 Table 11.3). -/
def fmtBz : Fmt := { op := 0x41, a := some .t, b := none, c := none, sets := false, rmw := false }

/-- BZ. -/
def execBz (c : ClerkId) (o : Opnds) (s : State) : Res := karua fmtBz noLen opBz c o s

/-- BNZ branches on Z clear; K and E both set trap K_BRANCH (R205, R238). -/
def opBnz (x : Args) (rt : Rt) : KOut :=
  condBranch x rt (!swBit (clerkOf rt x.ck).sw 0)

/-- The row of BNZ (11 Table 11.3). -/
def fmtBnz : Fmt := { op := 0x42, a := some .t, b := none, c := none, sets := false, rmw := false }

/-- BNZ. -/
def execBnz (c : ClerkId) (o : Opnds) (s : State) : Res := karua fmtBnz noLen opBnz c o s

/-- BN branches on N; K and E both set trap K_BRANCH (R205, R238). -/
def opBn (x : Args) (rt : Rt) : KOut :=
  condBranch x rt (swBit (clerkOf rt x.ck).sw 1)

/-- The row of BN (11 Table 11.3). -/
def fmtBn : Fmt := { op := 0x43, a := some .t, b := none, c := none, sets := false, rmw := false }

/-- BN. -/
def execBn (c : ClerkId) (o : Opnds) (s : State) : Res := karua fmtBn noLen opBn c o s

/-- BNN branches on N clear; K and E both set trap K_BRANCH (R205, R238). -/
def opBnn (x : Args) (rt : Rt) : KOut :=
  condBranch x rt (!swBit (clerkOf rt x.ck).sw 1)

/-- The row of BNN (11 Table 11.3). -/
def fmtBnn : Fmt := { op := 0x44, a := some .t, b := none, c := none, sets := false, rmw := false }

/-- BNN. -/
def execBnn (c : ClerkId) (o : Opnds) (s : State) : Res := karua fmtBnn noLen opBnn c o s

/-- BC branches on C; K and E both set trap K_BRANCH (R205, R238). -/
def opBc (x : Args) (rt : Rt) : KOut :=
  condBranch x rt (swBit (clerkOf rt x.ck).sw 2)

/-- The row of BC (11 Table 11.3). -/
def fmtBc : Fmt := { op := 0x45, a := some .t, b := none, c := none, sets := false, rmw := false }

/-- BC. -/
def execBc (c : ClerkId) (o : Opnds) (s : State) : Res := karua fmtBc noLen opBc c o s

/-- BNC branches on C clear; K and E both set trap K_BRANCH (R205, R238). -/
def opBnc (x : Args) (rt : Rt) : KOut :=
  condBranch x rt (!swBit (clerkOf rt x.ck).sw 2)

/-- The row of BNC (11 Table 11.3). -/
def fmtBnc : Fmt := { op := 0x46, a := some .t, b := none, c := none, sets := false, rmw := false }

/-- BNC. -/
def execBnc (c : ClerkId) (o : Opnds) (s : State) : Res := karua fmtBnc noLen opBnc c o s

/-- BV branches on V; K and E both set trap K_BRANCH (R205, R238). -/
def opBv (x : Args) (rt : Rt) : KOut :=
  condBranch x rt (swBit (clerkOf rt x.ck).sw 3)

/-- The row of BV (11 Table 11.3). -/
def fmtBv : Fmt := { op := 0x47, a := some .t, b := none, c := none, sets := false, rmw := false }

/-- BV. -/
def execBv (c : ClerkId) (o : Opnds) (s : State) : Res := karua fmtBv noLen opBv c o s

/-- BNV branches on V clear; K and E both set trap K_BRANCH (R205, R238). -/
def opBnv (x : Args) (rt : Rt) : KOut :=
  condBranch x rt (!swBit (clerkOf rt x.ck).sw 3)

/-- The row of BNV (11 Table 11.3). -/
def fmtBnv : Fmt := { op := 0x48, a := some .t, b := none, c := none, sets := false, rmw := false }

/-- BNV. -/
def execBnv (c : ClerkId) (o : Opnds) (s : State) : Res := karua fmtBnv noLen opBnv c o s

/-- BDC branches on DC; K and E both set trap K_BRANCH (R205, R238). -/
def opBdc (x : Args) (rt : Rt) : KOut :=
  condBranch x rt (swBit (clerkOf rt x.ck).sw 4)

/-- The row of BDC (11 Table 11.3). -/
def fmtBdc : Fmt := { op := 0x49, a := some .t, b := none, c := none, sets := false, rmw := false }

/-- BDC. -/
def execBdc (c : ClerkId) (o : Opnds) (s : State) : Res := karua fmtBdc noLen opBdc c o s

/-- BNDC branches on DC clear; K and E both set trap K_BRANCH (R205, R238). -/
def opBndc (x : Args) (rt : Rt) : KOut :=
  condBranch x rt (!swBit (clerkOf rt x.ck).sw 4)

/-- The row of BNDC (11 Table 11.3). -/
def fmtBndc : Fmt := { op := 0x4A, a := some .t, b := none, c := none, sets := false, rmw := false }

/-- BNDC. -/
def execBndc (c : ClerkId) (o : Opnds) (s : State) : Res := karua fmtBndc noLen opBndc c o s

/-- BID branches on ID; K and E both set trap K_BRANCH (R205, R238). -/
def opBid (x : Args) (rt : Rt) : KOut :=
  condBranch x rt (swBit (clerkOf rt x.ck).sw 5)

/-- The row of BID (11 Table 11.3). -/
def fmtBid : Fmt := { op := 0x4B, a := some .t, b := none, c := none, sets := false, rmw := false }

/-- BID. -/
def execBid (c : ClerkId) (o : Opnds) (s : State) : Res := karua fmtBid noLen opBid c o s

/-- BNID branches on ID clear; K and E both set trap K_BRANCH (R205, R238). -/
def opBnid (x : Args) (rt : Rt) : KOut :=
  condBranch x rt (!swBit (clerkOf rt x.ck).sw 5)

/-- The row of BNID (11 Table 11.3). -/
def fmtBnid : Fmt := { op := 0x4C, a := some .t, b := none, c := none, sets := false, rmw := false }

/-- BNID. -/
def execBnid (c : ClerkId) (o : Opnds) (s : State) : Res := karua fmtBnid noLen opBnid c o s

/-- BLT branches on N ≠ V; K and E both set trap K_BRANCH (R205, R238). -/
def opBlt (x : Args) (rt : Rt) : KOut :=
  condBranch x rt (swBit (clerkOf rt x.ck).sw 1 != swBit (clerkOf rt x.ck).sw 3)

/-- The row of BLT (11 Table 11.3). -/
def fmtBlt : Fmt := { op := 0x4D, a := some .t, b := none, c := none, sets := false, rmw := false }

/-- BLT. -/
def execBlt (c : ClerkId) (o : Opnds) (s : State) : Res := karua fmtBlt noLen opBlt c o s

/-- BGE branches on N = V; K and E both set trap K_BRANCH (R205, R238). -/
def opBge (x : Args) (rt : Rt) : KOut :=
  condBranch x rt (swBit (clerkOf rt x.ck).sw 1 == swBit (clerkOf rt x.ck).sw 3)

/-- The row of BGE (11 Table 11.3). -/
def fmtBge : Fmt := { op := 0x4E, a := some .t, b := none, c := none, sets := false, rmw := false }

/-- BGE. -/
def execBge (c : ClerkId) (o : Opnds) (s : State) : Res := karua fmtBge noLen opBge c o s

/-- BGT branches on Z = 0 and N = V; K and E both set trap K_BRANCH (R205, R238). -/
def opBgt (x : Args) (rt : Rt) : KOut :=
  condBranch x rt (!swBit (clerkOf rt x.ck).sw 0 && swBit (clerkOf rt x.ck).sw 1 == swBit (clerkOf rt x.ck).sw 3)

/-- The row of BGT (11 Table 11.3). -/
def fmtBgt : Fmt := { op := 0x4F, a := some .t, b := none, c := none, sets := false, rmw := false }

/-- BGT. -/
def execBgt (c : ClerkId) (o : Opnds) (s : State) : Res := karua fmtBgt noLen opBgt c o s

/-- CALL pushes the next address on B14 and branches (R238). -/
def opCall (x : Args) (rt : Rt) : KOut :=
  let b := baseWord rt x.ck 14
  let t := targetOf x.la
  if b ≤ 0x400 then .trap trapStack
  else if !targetOk rt x.ck x.ic t true then .trap trapAddress
  else match canWrite rt x.ck (b - 1) with
    | .error e => .trap e
    | .ok _ => .jump t (writeWord x.ck (b - 1) x.next (writeWord x.ck 14 (b - 1) rt))

/-- The row of CALL (11 Table 11.3). -/
def fmtCall : Fmt := { op := 0x50, a := some .t, b := none, c := none, sets := false, rmw := false }

/-- CALL. -/
def execCall (c : ClerkId) (o : Opnds) (s : State) : Res := karua fmtCall noLen opCall c o s

/-- RET pops IC from B14 (R238). -/
def opRet (x : Args) (rt : Rt) : KOut :=
  let b := baseWord rt x.ck 14
  if 0x10000 ≤ b then .trap trapStack
  else if !targetOk rt x.ck x.ic (readWord rt x.ck b) false then .trap trapAddress
  else .jump (readWord rt x.ck b) (writeWord x.ck 14 (b + 1) rt)

/-- The row of RET (11 Table 11.3). -/
def fmtRet : Fmt := { op := 0x51, a := none, b := none, c := none, sets := false, rmw := false }

/-- RET. -/
def execRet (c : ClerkId) (o : Opnds) (s : State) : Res := karua fmtRet noLen opRet c o s

/-- LOOP: A := (A − 1) mod 2^20, and a branch to B when A is not 0 (R238). -/
def opLoop (x : Args) (rt : Rt) : KOut :=
  let v := wrap 20 ((valW rt x.ck x.la : Int) - 1)
  let rt' := putW x.ck x.la v rt
  if v = 0 then .go noFlags rt'
  else if targetOk rt x.ck x.ic (targetOf x.lb) false then .jump (targetOf x.lb) rt'
  else .trap trapAddress

/-- The row of LOOP (11 Table 11.3). -/
def fmtLoop : Fmt := { op := 0x52, a := some .W, b := some .t, c := none, sets := false, rmw := true }

/-- LOOP. -/
def execLoop (c : ClerkId) (o : Opnds) (s : State) : Res := karua fmtLoop noLen opLoop c o s

end Sys2Proof.Machine
end

