-- ==== Sys2Proof/Machine/Manage.lean ====
section
/-! DEFINITION. Module-wide management requests (17 Table 17.10): status, the manager window, the partition map, RESET_MODULE,
images and house programs, ledger export, mint modes, the cell service window and FAULT_CONFIG (22 Table 22.5). -/

namespace Sys2Proof.Machine

/-! ## Status -/

/-- Slots of the strongroom. -/
def allSlots : Nat := 33554432

/-- The result of STATUS_QUERY. -/
def statusBytes (s : State) : Bytes :=
  let b := s.rt.boot
  let l := b.notRecreated.take 1012
  [b.stage, b.lcState, BitVec.ofNat 8 (b2n b.serviceReady + 2 * b2n b.resident + 4 * b2n s.rt.peer.paired + 8 * b2n s.rt.disp.part.isSome), 0] ++
  le 2 s.rt.booths.length ++ le 2 l.length ++ l.flatMap (le 2)

/-- STATUS_QUERY. -/
def execStatusQuery (src : ReqSrc) (s : State) : Res :=
  .next (serveLen src 0x01 0 (fun q s => onRt (answer src q stDone (statusBytes s)) s) s)

/-- The oldest epoch of a change that is not complete, or the current epoch. -/
def oldestChange (rt : Rt) : Nat := rt.disp.changes.foldl (fun m c => min m c.epoch) rt.epoch

/-- EPOCH_STATUS. -/
def execEpochStatus (src : ReqSrc) (s : State) : Res :=
  .next (serveLen src 0x02 0 (fun q s => onRt (answer src q stDone (le 8 s.rt.epoch ++ le 8 (oldestChange s.rt))) s) s)

/-- The result of STRONGROOM_STATUS. -/
def strongBytes (s : State) : Bytes :=
  let t := s.rt.strong
  let occ := (t.slots.filter fun kv => isOccupied kv.2).length
  let ret := (t.slots.filter fun kv => kv.2.kind == 4).length
  let res := if t.indexLoaded then t.nextTile + t.extra.length else 0
  le 4 occ ++ le 4 (allSlots - occ - ret) ++ le 4 ret ++ le 4 res ++ le 4 t.failed.length ++ le 4 (unretired s.nv)

/-- STRONGROOM_STATUS. -/
def execStrongroomStatus (src : ReqSrc) (s : State) : Res :=
  .next (serveLen src 0x03 0 (fun q s => onRt (answer src q stDone (strongBytes s)) s) s)

/-! ## The manager window (R117) -/

/-- The window's entry in a host bridle. -/
def windowRegion (a n perm : Nat) : Region :=
  { start := a, stop := a + n - 1, perm := BitVec.ofNat 3 perm, initiators := 0, house := 0x7FF, pasid := none, ring := false, mailbox := true }

/-- Declare or remove the window: one entry in each host bridle, for mailbox transfers alone. -/
def setWindow (a n : Nat) (rt : Rt) : Rt :=
  let put := fun (b perm : Nat) (m : KMap (List Region)) =>
    kput [] m b ((kgetD m b []).filter (fun r => !r.mailbox) ++ (if n = 0 then [] else [windowRegion a n perm]))
  { rt with mgrWindow := if n = 0 then none else some (a, n)
            bridles := { rt.bridles with tables := put 39 2 (put 38 1 rt.bridles.tables) } }

/-- MGR_WINDOW: multiples of 4 096, up to 1 GiB. -/
def mgrWindow (src : ReqSrc) (q : Req) (s : State) : State :=
  let a := leAt q.params 0 8
  let n := leAt q.params 8 8
  if a % 4096 ≠ 0 ∨ n % 4096 ≠ 0 ∨ 1073741824 < n ∨ 2 ^ 64 < a + n then onRt (refuse src q stMalformed) s
  else onRt (fun rt => answer src q stDone [] (setWindow a n rt)) s

/-- MGR_WINDOW. -/
def execMgrWindow (src : ReqSrc) (s : State) : Res := .next (serveLen src 0x04 16 (mgrWindow src) s)

/-- The bulk data that a request names: inside the window, and read without an error. -/
def readBulk (rt : Rt) (off n : Nat) (w : Bulk) : Option Bytes :=
  match rt.mgrWindow with
  | none => none
  | some (_, len) => if off + n ≤ len ∧ w.dmaOk then some (padTo n (w.data.take n)) else none

/-! ## PARTITION_SET (R196) -/

/-- One binding: the kind of unit, its index, the house. -/
structure Binding where
  kind : Nat
  unit : Nat
  house : Nat
  deriving DecidableEq, Repr

/-- The bindings of a request: four bytes each, which the spec does not lay out (log 12). -/
def bindings (p : Bytes) : List Binding :=
  (List.range (p.length / 4)).map fun i => { kind := byteAt p (4 * i), unit := byteAt p (4 * i + 1), house := leAt p (4 * i + 2) 2 }

/-- Units of a kind, and the die of one. -/
def unitCount (kind : Nat) : Nat := if kind < 3 then 8 else 32
def unitDie (b : Binding) : Nat := if b.kind < 3 then b.unit / 4 else b.unit / 16

/-- Check 2: every unit exactly once, none that the link holds. -/
def unitsOk (rt : Rt) (l : List Binding) : Bool :=
  l.all (fun b => decide (b.kind < 4) && decide (b.unit < unitCount b.kind)) &&
  (List.range 4).all fun k => (List.range (unitCount k)).all fun u =>
    let n := (l.filter fun b => b.kind == k && b.unit == u).length
    if k = 2 ∧ heldLoom rt = some u then n == 0 else n == 1

/-- A house has a unit of a kind on a die. -/
def boundOn (l : List Binding) (house kind die : Nat) : Bool := l.any fun b => b.house == house && b.kind == kind && unitDie b == die

/-- Checks 3 to 5. -/
def mapOk (rt : Rt) (l : List Binding) : Bool :=
  l.all fun b => houseRegistered rt b.house && boundOn l b.house 0 (unitDie b) &&
    (b.kind != 0 || (boundOn l b.house 1 (unitDie b) && boundOn l b.house 2 (unitDie b) && boundOn l b.house 3 (unitDie b)))

/-- The houses of the units of a kind. -/
def unitMap (l : List Binding) (kind : Nat) : KMap Nat := (l.filter fun b => b.kind == kind).foldl (fun m b => kset m b.unit b.house) []

/-- PARTITION_SET: the map's record is written to flash; an empty map returns to shared mode. -/
def partitionSet (src : ReqSrc) (q : Req) (s : State) : State :=
  let l := bindings q.params
  let hold := fun m => onRt (holdRequest src q (some (.partition m)) none none []) s
  if ledgerFull s.nv then onRt (refuse src q stStateRefused) s
  else if q.params = [] then hold none
  else if q.params.length % 4 ≠ 0 || !unitsOk s.rt l then onRt (refuse src q stMalformed) s
  else if !mapOk s.rt l then onRt (refuseReason src q 0x49) s
  else hold (some { rooms := unitMap l 0, groups := unitMap l 1, looms := unitMap l 2, reckoners := unitMap l 3, epoch := 0 })

/-- PARTITION_SET. -/
def execPartitionSet (src : ReqSrc) (s : State) : Res := .next (serve src 0x16 (partitionSet src) s)

/-! ## RESET_MODULE (R67) -/

/-- RESET_MODULE: admitted commands complete with ABORTED (a fatal fault has ended them already), then the reset. -/
def resetModule (src : ReqSrc) (q : Req) (s : State) : State :=
  if ledgerFull s.nv then onRt (refuse src q stStateRefused) s
  else
    let s := postAll (if inFatal s.rt then s else onRt (stopAll stAborted) s)
    moduleReset (onRt (answer src q stDone []) (writeEntry (moduleEvent 0x0111 []) s))

/-- RESET_MODULE. -/
def execResetModule (src : ReqSrc) (s : State) : Res := .next (serveLen src 0x18 0 (resetModule src) s)

/-! ## Images (R74, R220, R401) -/

/-- The image of a number: 1 first-stage, 2 management, 3 library. -/
def imageOf (nv : Nv) (n : Nat) : Image := if n = 1 then nv.image1 else if n = 2 then nv.image2 else nv.image3

/-- Replace an image. -/
def setImage (n : Nat) (x : Image) (nv : Nv) : Nv :=
  if n = 1 then { nv with image1 := x } else if n = 2 then { nv with image2 := x } else { nv with image3 := x }

/-- Write the inactive copy, which the next start takes. -/
def installCopy (c : ImageCopy) (x : Image) : Image :=
  if x.activeB then { x with copyA := c, nextB := false } else { x with copyB := c, nextB := true }

/-- A verified image, written with its tally. -/
def copyOf (data : Bytes) (w : Bulk) : ImageCopy :=
  { data := data, signed := sha384 data, tally := imageTally data, version := w.version, epoch := 0 }

/-- The signature of an image covers it (log 7). -/
def signatureOk (data : Bytes) (w : Bulk) : Bool := w.signed == sha384 data

/-- A linear sweep of a program's words, from the first: every instruction's opcode is defined and not privileged, and its words lie in
the program (R218, log 54). -/
def opcodesOk (l : List Word) : Nat → Bool
  | 0 => l.isEmpty
  | n + 1 =>
    match l with
    | [] => true
    | w :: _ => opDefined (opcodeOf w) && !opPrivileged (opcodeOf w) && decide (insnLen w ≤ l.length) && opcodesOk (l.drop (insnLen w)) n

/-- IMAGE_INSTALL. -/
def imageInstall (src : ReqSrc) (q : Req) (w : Bulk) (s : State) : State :=
  let p := q.params
  let n := byteAt p 0
  if n = 0 ∨ 3 < n ∨ !zeroAt p 1 3 then onRt (refuse src q stMalformed) s
  else if ledgerFull s.nv then onRt (refuse src q stStateRefused) s
  else match readBulk s.rt (leAt p 4 4) (leAt p 8 4) w with
    | none => onRt (refuse src q stAccessRefused) s
    | some data =>
      if !signatureOk data w then onRt (refuseReason src q 0x45) s
      else
        let s := { s with nv := setImage n (installCopy (copyOf data w) (imageOf s.nv n)) s.nv }
        onRt (answer src q stDone []) (writeEntry (moduleEvent 0x0110 [BitVec.ofNat 8 n]) s)

/-- IMAGE_INSTALL. -/
def execImageInstall (src : ReqSrc) (w : Bulk) (s : State) : Res := .next (serveLen src 0x50 12 (fun q => imageInstall src q w) s)

/-- LIVE_UPDATE: the new library is verified and staged; each room's change commits as its record reaches flash. -/
def liveUpdate (src : ReqSrc) (q : Req) (w : Bulk) (s : State) : State :=
  let p := q.params
  let r := byteAt p 0
  if (8 ≤ r ∧ r ≠ 0xFF) ∨ !zeroAt p 1 3 then onRt (refuse src q stMalformed) s
  else if ledgerFull s.nv then onRt (refuse src q stStateRefused) s
  else match readBulk s.rt (leAt p 4 4) (leAt p 8 4) w with
    | none => onRt (refuse src q stAccessRefused) s
    | some data =>
      if !signatureOk data w then onRt (refuseReason src q 0x45) s
      else
        let c := copyOf data w
        let s := { s with nv := { s.nv with stagedLib := some c } }
        onRt (holdRequest src q (some (.liveRoom (if r = 0xFF then List.range 8 else [r]) (imageDigest c) c.version)) none none []) s

/-- LIVE_UPDATE. -/
def execLiveUpdate (src : ReqSrc) (w : Bulk) (s : State) : Res := .next (serveLen src 0x51 12 (fun q => liveUpdate src q w) s)

/-! ## House programs (R218, R219) -/

/-- Tiles of the house part of code memory that a program takes. -/
def codeTiles (p : ProgEntry) : List Nat := (List.range (cdiv p.code.length 64)).map (p.base / 64 + ·)

/-- The lowest run of free tiles for a program's words; tiles 2300h to 23FFh hold the 16 384 words of the house part. -/
def codeSpace (progs : List ProgEntry) (n : Nat) : Option Nat :=
  let used := progs.flatMap codeTiles
  let k := cdiv n 64
  ((List.range 256).find? fun i => decide (i + k ≤ 256) && (List.range k).all fun j => !decide (0x2300 + i + j ∈ used)).map fun i =>
    64 * (0x2300 + i)

/-- Room window words that a program may ask for: whole granules of the house part. -/
def windowWordsOk (l : List (Nat × Nat)) : Bool :=
  l.all fun w => decide (0x60000 ≤ w.1 ∧ w.1 % 16 = 0 ∧ w.1 < w.2 ∧ (w.2 + 1) % 16 = 0 ∧ w.2 < 0x80000)

/-- Every room's bridle has entries left. -/
def regionsFit (rt : Rt) (n : Nat) : Bool := (List.range 8).all fun k => decide ((bridleTable rt (roomBridle k)).length + n ≤ 256)

/-- PROG_LOAD: the image verifies under the house's class 29h key, holds no privileged or undefined opcode, and fits. The
reason of the second refusal is not stated: it is free. The words are written into every room before the commit (R219). -/
def progLoad (src : ReqSrc) (q : Req) (w : Bulk) (s : State) : State :=
  let p := q.params
  let h := leAt p 0 2
  let op := leAt p 2 2
  if 1024 ≤ h || !isHouseOp op then onRt (refuse src q stMalformed) s
  else if ledgerFull s.nv then onRt (refuse src q stStateRefused) s
  else if !houseRegistered s.rt h then onRt (refuseReason src q 0x43) s
  else match resolve s.rt h none s.rt.epoch true (BitVec.ofNat 64 (leAt p 12 8)) with
    | .wait => s
    | .no st => onRt (refuse src q st) s
    | .key slot r =>
      match usable s.rt none s.rt.epoch slot r (keyIs 0x29 [uOwn 6] [mV, mN]) with
      | .wait => s
      | .no st => onRt (refuse src q st) s
      | .key _ _ =>
        match readBulk s.rt (leAt p 4 4) (leAt p 8 4) w with
        | none => onRt (refuse src q stAccessRefused) s
        | some data =>
          if !signatureOk data w then onRt (refuseReason src q 0x45) s
          else if !opcodesOk w.words w.words.length || !windowWordsOk w.window then
            onRt (fun rt => refuseReason src q (Config.freeByte rt.freeCtr 0).toNat { rt with freeCtr := rt.freeCtr + 1 }) s
          else match codeSpace s.nv.progs w.words.length with
            | none => onRt (refuseReason src q 0x47) s
            | some base =>
              if regionsFit s.rt w.window.length then
                onRt (fun rt => holdRequest src q (some (.progLoad h op base (sha384 data) w.words w.window)) none none []
                  (putWords base w.words rt)) s
              else onRt (refuseReason src q 0x47) s

/-- PROG_LOAD. -/
def execProgLoad (src : ReqSrc) (w : Bulk) (s : State) : Res := .next (serveLen src 0x52 20 (fun q => progLoad src q w) s)

/-- PROG_REMOVE; with no such program the reason is not stated: it is free. -/
def progRemove (src : ReqSrc) (q : Req) (s : State) : State :=
  let h := leAt q.params 0 2
  let op := leAt q.params 2 2
  if 1024 ≤ h || !isHouseOp op then onRt (refuse src q stMalformed) s
  else if ledgerFull s.nv then onRt (refuse src q stStateRefused) s
  else if s.nv.progs.any fun x => x.house == h && x.opcode == op && x.upto.isNone then
    onRt (holdRequest src q (some (.progRemove h op)) none none []) s
  else onRt (fun rt => refuseReason src q (Config.freeByte rt.freeCtr 0).toNat { rt with freeCtr := rt.freeCtr + 1 }) s

/-- PROG_REMOVE. -/
def execProgRemove (src : ReqSrc) (s : State) : Res := .next (serveLen src 0x53 4 (progRemove src) s)

/-! ## The ledger's export (R297, R368) -/

/-- A seal record's bytes: its fields in the order in which R295 names them. -/
def sealBytes (x : Seal) : Bytes := le 8 x.seq ++ x.chain ++ x.sigEc ++ x.sigMl

/-- The 128 bytes of a written entry. -/
def ledgerBytes (e : LedgerEntry) : Bytes := entryBytes e ++ padTo 48 e.chain

/-- LEDGER_EXPORT: the oldest unconfirmed entries that fit, then the seals whose entries were copied. -/
def ledgerExport (src : ReqSrc) (q : Req) (s : State) : State :=
  let off := leAt q.params 0 8
  match s.rt.mgrWindow with
  | none => onRt (refuse src q stAccessRefused) s
  | some (_, len) =>
    if len < off then onRt (refuse src q stAccessRefused) s
    else
      let l := s.nv.ledger
      let es := ((l.entries.filter fun e => decide (l.confirmed ≤ e.seq)).take (leAt q.params 8 4)).take ((len - off) / 128)
      let body := es.flatMap ledgerBytes
      let seals := l.seals.filter fun x => es.any fun e => e.seq == x.seq
      let fits := seals.foldl (fun (r : Bytes × Nat) x =>
        if off + body.length + r.1.length + (sealBytes x).length ≤ len then (r.1 ++ sealBytes x, r.2 + 1) else r) ([], 0)
      let s := { s with nv := { s.nv with ledger := { l with exported := max l.exported (l.confirmed + es.length) } } }
      onRt (fun rt => answer src q stDone (le 8 l.confirmed ++ le 4 es.length ++ le 4 fits.2) (emit (.bulk off (body ++ fits.1)) rt)) s

/-- LEDGER_EXPORT. -/
def execLedgerExport (src : ReqSrc) (s : State) : Res := .next (serveLen src 0x60 12 (ledgerExport src) s)

/-- LEDGER_CONFIRM: every entry up to a sequence that has been exported. -/
def ledgerConfirm (src : ReqSrc) (q : Req) (s : State) : State :=
  let l := s.nv.ledger
  let n := leAt q.params 0 8 + 1
  if l.exported < n then onRt (refuseReason src q 0x47) s
  else
    let s := ledgerLevels { s with nv := { s.nv with ledger := { l with confirmed := max l.confirmed n } } }
    onRt (answer src q stDone []) s

/-- LEDGER_CONFIRM. -/
def execLedgerConfirm (src : ReqSrc) (s : State) : Res := .next (serveLen src 0x61 8 (ledgerConfirm src) s)

/-! ## MINT_MODE (R350) and CELL_SERVICE (R45) -/

/-- MINT_MODE: persisted, in force from the next start. -/
def mintMode (src : ReqSrc) (q : Req) (s : State) : State :=
  let v := byteAt q.params 0
  if 4 ≤ v then onRt (refuse src q stMalformed) s
  else if ledgerFull s.nv then onRt (refuse src q stStateRefused) s
  else
    let s := { s with nv := { s.nv with mintFore0 := v.testBit 0, mintFore1 := v.testBit 1 } }
    onRt (answer src q stDone []) (writeEntry (moduleEvent 0x0113 [BitVec.ofNat 8 v]) s)

/-- MINT_MODE. -/
def execMintMode (src : ReqSrc) (s : State) : Res := .next (serveLen src 0x80 1 (mintMode src) s)

/-- CELL_SERVICE: under any house's latch a window of 600 s. -/
def cellService (src : ReqSrc) (q : Req) (s : State) : State :=
  if ledgerFull s.nv then onRt (refuse src q stStateRefused) s
  else match s.rt.twoKey with
    | .opened h 0xFFFF o none =>
      let w : CellWindow := { isOpen := true, endsAt := s.rt.now + 600000000000, opened := s.gon.doorOpen, officers := o, house := h }
      let s := onRt (fun rt => { rt with window := w, twoKey := .closed }) s
      let e := ledgerEvent 0x0106 h 0xFFFF 0xFFFFFFFF 0 0 o.1 o.2 (le 2 s.rt.cellA ++ le 2 s.rt.cellB)
      onRt (answer src q stDone []) (writeEntry e s)
    | _ => onRt (refuse src q stDualControl) s

/-- CELL_SERVICE. -/
def execCellService (src : ReqSrc) (s : State) : Res := .next (serveLen src 0x81 0 (cellService src) s)

/-! ## FAULT_CONFIG (R412, R441) -/

/-- Serve one operation of a request that carries it in byte 0, with parameters of a fixed length. -/
def serveOp (src : ReqSrc) (code op len : Nat) (body : Req → State → State) (s : State) : State :=
  serve src code (fun q s =>
    if byteAt q.params 0 ≠ op then s
    else if q.params.length = len then body q s else onRt (refuse src q stMalformed) s) s

/-- The sources of Table 22.1. -/
def allSources : List FaultSource :=
  [.fabricCe, .fabricUe, .thermalHigh, .thermalFatal, .railWarn, .loopDrift, .cellLow, .cagePower, .imageFallback, .otpBurn,
   .lockstep, .boothTable, .hostLink, .hostDma, .doorbellInvalid, .portDown, .peerAuth, .peerLink, .peerDiverged, .clerkTrap,
   .codeTile, .latchBreak, .reckonerInvariant, .drainAbort, .tileCheck, .tileFallback, .ledgerHigh, .ledgerFull, .mintSource,
   .mintRetired, .mintExhausted, .bridle, .bridleRequest]

/-- A class code. -/
def classOf (n : Nat) : FClass := if n = 0 then .corrected else if n = 1 then .contained else .fatal

/-- The classification that CLASSIFY's bytes give, when they are in range. -/
def classifOfBytes (p : Bytes) : Option Classif :=
  let n := byteAt p 6
  let w := leAt p 8 4
  match byteAt p 4 with
  | 0 => if byteAt p 5 ≤ 2 ∧ n = 0 ∧ w = 0 then some (.cls (classOf (byteAt p 5))) else none
  | 1 => if (byteAt p 5 = 1 ∨ byteAt p 5 = 2) ∧ 1 ≤ n ∧ 1 ≤ w ∧ w ≤ 60000 then some (.count n w (classOf (byteAt p 5))) else none
  | _ => none

/-- CLASSIFY: persisted, loaded at the next start (R431). -/
def classifyReq (src : ReqSrc) (q : Req) (s : State) : State :=
  let p := q.params
  match allSources.find? fun f => faultCode f == leAt p 2 2, classifOfBytes p with
  | some f, some c =>
    let die := byteAt p 12
    let mint := f == .mintSource
    if byteAt p 1 ≠ 0 ∨ byteAt p 7 ≠ 0 ∨ (if mint then 1 < die else die ≠ 0) ∨ isFixed false f then onRt (refuse src q stMalformed) s
    else if mint && (mintOf s.rt die).forerunner then onRt (refuse src q stStateRefused) s
    else
      let d := if mint then some die else none
      let e : ClassEntry := { source := f, die := d, classif := c }
      let s := { s with nv := { s.nv with classes := (s.nv.classes.filter fun x => !(x.source == f && x.die == d)) ++ [e] } }
      onRt (answer src q stDone []) s
  | _, _ => onRt (refuse src q stMalformed) s

/-- CLASSIFY. -/
def execClassify (src : ReqSrc) (s : State) : Res := .next (serveOp src 0x82 1 13 (classifyReq src) s)

/-- Clear a violation record: VALID and all but COUNT; COUNT when VALID is already clear (R412). -/
def clearRecord (b : Nat) (rt : Rt) : Rt :=
  match kget rt.bridles.recs b with
  | none => rt
  | some v =>
    let v' := if v.valid then { VRec.zero with count := v.count } else VRec.zero
    { rt with bridles := { rt.bridles with recs := kput VRec.zero rt.bridles.recs b v' } }

/-- CLEAR_BRIDLE. -/
def clearBridle (src : ReqSrc) (q : Req) (s : State) : State :=
  if !zeroAt q.params 1 3 then onRt (refuse src q stMalformed) s
  else
    let v := leAt q.params 4 5
    onRt (fun rt => answer src q stDone [] (((List.range 40).filter v.testBit).foldl (fun r b => clearRecord b r) rt)) s

/-- CLEAR_BRIDLE. -/
def execClearBridle (src : ReqSrc) (s : State) : Res := .next (serveOp src 0x82 2 9 (clearBridle src) s)

/-- ALERT_WIDTH: for widths that start after completion; persisted. -/
def alertWidth (src : ReqSrc) (q : Req) (s : State) : State :=
  let w := byteAt q.params 2
  if byteAt q.params 1 ≠ 0 ∨ w = 0 ∨ 100 < w then onRt (refuse src q stMalformed) s
  else
    let s := { s with nv := { s.nv with minWidth := w } }
    onRt (fun rt => answer src q stDone [] { rt with alert := { rt.alert with minWidth := w } }) s

/-- ALERT_WIDTH. -/
def execAlertWidth (src : ReqSrc) (s : State) : Res := .next (serveOp src 0x82 3 3 (alertWidth src) s)

/-- DEFAULTS: every classification returns to Table 22.1 at the next reset. -/
def classDefaults (src : ReqSrc) (q : Req) (s : State) : State :=
  if !zeroAt q.params 1 3 then onRt (refuse src q stMalformed) s
  else onRt (answer src q stDone []) { s with nv := { s.nv with classes := [] } }

/-- DEFAULTS. -/
def execDefaults (src : ReqSrc) (s : State) : Res := .next (serveOp src 0x82 4 4 (classDefaults src) s)

end Sys2Proof.Machine
end

