-- ==== Sys2Proof/Machine/Clock.lean ====
section
/-! DEFINITION. The clockmaker (23): CLOCK_CONFIG, the discipline source, the second boundary, holdover, alignment records, PTP
and the PPS outputs. -/

namespace Sys2Proof.Machine

/-! ## CLOCK_CONFIG (R455, Table 23.2) -/

/-- Change the clockmaker. -/
def onClock (f : Clock → Clock) (rt : Rt) : Rt := { rt with clock := f rt.clock }

/-- A signed byte. -/
def signedByte (n : Nat) : Int := if n < 128 then n else (n : Int) - 256

/-- The key of the time-of-day source: class 1Ch of the operator house, whose permissions include HMACV (R447). -/
def todKeyOf (rt : Rt) (h : BitVec 64) : Found :=
  match resolve rt 0 none rt.epoch true h with
  | .wait => .wait
  | .no st => .no st
  | .key slot r => usable rt none rt.epoch slot r fun r => r.cls == 0x1C && (storedPerms r).hmacv

/-- Persist a clock configuration. -/
def setClockCfg (src : ReqSrc) (q : Req) (c : ClockCfg) (s : State) : State :=
  onRt (answer src q stDone []) { s with nv := { s.nv with clockCfg := c } }

/-- CLOCK_CONFIG SOURCE: port B can be a PTP client in Ethernet mode only (R446). -/
def clockSource (src : ReqSrc) (q : Req) (s : State) : State :=
  let p := q.params
  let n := byteAt p 1
  let c := { s.nv.clockCfg with
    source := n, maxStepMs := leAt p 4 4, holdLimit := leAt p 8 4, todPort := leAt p 12 4, todAddr := slice p 16 16,
    todKey := BitVec.ofNat 64 (leAt p 32 8) }
  let put := setClockCfg src q c (onRt (onClock fun k => { k with goodRun := 0, missed := 0, measured := none, label := none, todSeq := 0, pendingStep := none }) s)
  if 3 < n ∨ !zeroAt p 2 2 ∨ 65535 < leAt p 12 4 then onRt (refuse src q stMalformed) s
  else if n = 3 ∧ s.rt.peer.mode then onRt (refuse src q stStateRefused) s
  else if n = 1 then
    match todKeyOf s.rt c.todKey with
    | .wait => s
    | .no st => onRt (refuse src q st) s
    | .key _ _ => put
  else put

/-- CLOCK_SOURCE. -/
def execClockSource (src : ReqSrc) (s : State) : Res := .next (serveOp src 0x22 1 40 (clockSource src) s)

/-- CLOCK_CONFIG PTP. -/
def clockPtp (src : ReqSrc) (q : Req) (s : State) : State :=
  let p := q.params
  let ls := signedByte (byteAt p 2)
  if 127 < byteAt p 1 ∨ ls < -1 ∨ 1 < ls ∨ 3 < byteAt p 3 then onRt (refuse src q stMalformed) s
  else setClockCfg src q { s.nv.clockCfg with domain := byteAt p 1, logSync := ls, logAnnounce := byteAt p 3, prio1 := byteAt p 4,
                                              prio2 := byteAt p 5 } s

/-- CLOCK_PTP. -/
def execClockPtp (src : ReqSrc) (s : State) : Res := .next (serveOp src 0x22 2 6 (clockPtp src) s)

/-- CLOCK_CONFIG PPS. -/
def clockPps (src : ReqSrc) (q : Req) (s : State) : State :=
  if 1 < byteAt q.params 1 then onRt (refuse src q stMalformed) s
  else setClockCfg src q { s.nv.clockCfg with squelch := byteAt q.params 1 == 1 } s

/-- CLOCK_PPS. -/
def execClockPps (src : ReqSrc) (s : State) : Res := .next (serveOp src 0x22 3 2 (clockPps src) s)

/-- The time in nanoseconds. -/
def clockNs (k : Clock) : Nat := k.sec * 1000000000 + k.ns

/-- An offset measured before a step of the clock by `d`, as it stands after it. -/
def shiftMeasured (d : Int) (k : Clock) : Clock := { k with measured := k.measured.map (· + d) }

/-- CLOCK_CONFIG SET_TIME: a step, with an alignment record; refused while LOCKED. -/
def setTime (src : ReqSrc) (q : Req) (s : State) : State :=
  let p := q.params
  if !zeroAt p 1 7 ∨ 2 ^ 48 ≤ leAt p 8 8 ∨ 1000000000 ≤ leAt p 16 4 then onRt (refuse src q stMalformed) s
  else if s.rt.clock.st = .locked then onRt (refuse src q stStateRefused) s
  else
    let s := onRt (onClock fun k => { shiftMeasured ((leAt p 8 8 * 1000000000 + leAt p 16 4 : Nat) - (clockNs k : Int)) k with
      sec := leAt p 8 8, ns := leAt p 16 4, uncertainty := leAt p 20 4, utcOffset := leAt p 24 2, st := .set, clockClass := 248,
      stepCount := sat16 k.stepCount, goodRun := 0, pendingStep := none }) s
    onRt (answer src q stDone []) (alignNow s)

/-- SET_TIME. -/
def execSetTime (src : ReqSrc) (s : State) : Res := .next (serveOp src 0x22 4 26 (setTime src) s)

/-! ## The discipline source (R446, R447) -/

/-- PPS_IN_EDGE: timestamped; with PPS_IN as the source an edge with a label is accepted, and measures the offset from the second that
the label names; one without is lost (R447). -/
def doPpsInEdge (ns : Nat) (s : State) : State :=
  if !powered s.rt then s
  else
    let k := { s.rt.clock with ppsInNs := ns % 1000000000, edgeSeen := true, ppsValid := true }
    let k := match s.nv.clockCfg.source, k.label with
      | 1, some (sec, utc, leap) =>
        { k with measured := some ((clockNs { k with ns := ns % 1000000000 } : Int) - sec * 1000000000), utcOffset := utc, leap := leap, label := none }
      | _, _ => k
    { s with rt := { s.rt with clock := k } }

/-- PPS_IN_EDGE. -/
def execPpsInEdge (ns : Nat) (s : State) : Res := .next (doPpsInEdge ns s)

/-- The MAC of a datagram verifies under the configured key. -/
def todMacOk (s : State) (d : Bytes) : Bool :=
  match todKeyOf s.rt s.nv.clockCfg.todKey with
  | .key slot r => hmac .sha256 (materialOf s.rt none s.rt.epoch slot r) (d.take 16) == slice d 16 32
  | _ => false

/-- A frame passes on the MGMT port (02 R39). -/
def mgmtFrame (rt : Rt) : Rt :=
  if powered rt && rt.net.mgmtLink then { rt with net := { rt.net with mgmtFrame := some rt.now } } else rt

/-- TOD_DATAGRAM: a datagram that passes every check labels the next edge. `todSeq` is one above the last accepted sequence. -/
def doTodDatagram (d from_ : Bytes) (us : Nat) (s : State) : State :=
  let seq := leAt d 12 4
  let s := onRt mgmtFrame s
  if powered s.rt && s.rt.net.mgmtLink && s.nv.clockCfg.source == 1 && d.length == 48 && from_ == s.nv.clockCfg.todAddr && zeroAt d 6 2 &&
      todMacOk s d && decide (s.rt.clock.todSeq ≤ seq ∧ 10000 ≤ us ∧ us ≤ 990000) then
    onRt (onClock fun k => { k with label := some (leAt d 0 6, leAt d 8 2, (leAt d 10 2).testBit 0), todSeq := seq + 1 }) s
  else s

/-- TOD_DATAGRAM. -/
def execTodDatagram (d : List Byte) (srcAddr : List Byte) (usToEdge : Nat) (s : State) : Res :=
  .next (doTodDatagram d srcAddr usToEdge s)

/-! ## The second boundary (R444, R445, R448, R449, R453) -/

/-- The time moved by a signed number of nanoseconds. -/
def moveTime (d : Int) (k : Clock) : Clock :=
  let t := ((clockNs k : Int) + d).toNat
  { k with sec := t / 1000000000 % 2 ^ 48, ns := t % 1000000000 }

/-- Nanoseconds by which the uncertainty grows in one second: 36 µs an hour free running, in holdover by the figure that
applies to the time spent, and 1 µs more while WARMUP is set. -/
def growth (k : Clock) : Nat :=
  let rate := if 86400 ≤ k.holdSecs then 36000 else if 86400 ≤ k.lockedSecs then 1000 else 10000
  let hold := rate * (k.holdSecs + 1) / 3600 - rate * k.holdSecs / 3600
  let warm := if k.warmup then 1000 else 0
  match k.st with
  | .unset => 0
  | .locked => 0
  | .holdover => hold + warm
  | _ => 10 + warm

/-- The added uncertainty of a source: 40 ns for PPS_IN, 200 ns for a PTP client. -/
def sourceError (c : ClockCfg) : Nat := if c.source = 1 then 40 else 200

/-- A signed value held in 32 bits. -/
def sat32s (d : Int) : Int := max (-(2 ^ 31)) (min (2 ^ 31 - 1) d)

/-- A second passes in a state: uncertainty, hours, and the clock class of a holdover. -/
def ageClock (c : ClockCfg) (k : Clock) : Clock :=
  let k := { k with uncertainty := sat32 (k.uncertainty + growth k) }
  match k.st with
  | .locked =>
    let n := k.lockedSecs + 1
    { k with lockedSecs := n, discHours := min 0xFFFF (n / 3600), uncertainty := sat32 (k.lastOffset.natAbs + sourceError c) }
  | .holdover => { k with holdSecs := k.holdSecs + 1, clockClass := if k.uncertainty ≤ c.holdLimit then 7 else 52 }
  | _ => k

/-- The comparison with the source: slewed, to be stepped at the next boundary, or refused (R448). The servo's correction is
free within ±100 ppm; the model takes the slew's effect at once. -/
def compareClock (c : ClockCfg) (ctr : Nat) (off : Option Int) (k : Clock) : Clock :=
  match off with
    | none => { k with missed := k.missed + 1, goodRun := 0 }
    | some d =>
      let k := { k with lastOffset := sat32s d }
      if d.natAbs ≤ 100000 then
        moveTime (-d) { k with missed := 0, goodRun := if d.natAbs ≤ 1000 then k.goodRun + 1 else 0,
                               freqCorr := max (-100000) (min 100000 (Config.servoPpb ctr d)) }
      else if c.maxStepMs = 0 ∨ d.natAbs ≤ c.maxStepMs * 1000000 then { k with missed := 0, goodRun := 0, pendingStep := some (-d) }
      else { k with sourceRefused := true, goodRun := 0, missed := max 3 k.missed }

/-- A step that is due takes effect; an alignment record follows. -/
def stepClock (s : State) : State :=
  match s.rt.clock.pendingStep with
  | none => s
  | some d => alignNow (onRt (onClock fun k => { shiftMeasured d (moveTime d k) with pendingStep := none, stepCount := sat16 k.stepCount }) s)

/-- The offset from the source at a second boundary: the accepted edge's with PPS_IN, the Sync's that the row carries with a PTP client,
and none without a source. -/
def offsetOf (c : ClockCfg) (sync : Option Int) (k : Clock) : Option Int :=
  if c.source = 0 then none else if c.source = 1 then k.measured else sync

/-- SECOND_BOUNDARY: a step that is due, the second's ageing, the comparison; each port's Delay_Req count starts again. -/
def doSecondBoundary (off : Option Int) (s : State) : State :=
  if !powered s.rt then s
  else
    let s := stepClock s
    onRt (fun rt => onClock (fun k =>
      let k := compareClock s.nv.clockCfg rt.freeCtr (offsetOf s.nv.clockCfg off k) k
      ageClock s.nv.clockCfg { k with measured := none, ppsValid := k.edgeSeen, edgeSeen := false, ptpDelay := [] }) { rt with freeCtr := rt.freeCtr + 1 }) s

/-- SECOND_BOUNDARY. -/
def execSecondBoundary (offset : Option Int) (s : State) : Res := .next (doSecondBoundary offset s)

/-- CLOCK_LOCK: ten seconds within 1 µs, and no warm-up. -/
def doClockLock (s : State) : State :=
  let k := s.rt.clock
  if powered s.rt && s.nv.clockCfg.source != 0 && decide (10 ≤ k.goodRun) && !k.warmup && k.st != .locked then
    alignNow (onRt (onClock fun k => { k with st := .locked, clockClass := 6, lockedSecs := 0, holdSecs := 0,
                                              uncertainty := sat32 (k.lastOffset.natAbs + sourceError s.nv.clockCfg) }) s)
  else s

/-- CLOCK_LOCK. -/
def execClockLock (s : State) : Res := .next (doClockLock s)

/-- SOURCE_LOSS: 3 s without an accepted edge or Sync while LOCKED; a refused source counts as lost (R444, R448). -/
def doSourceLoss (s : State) : State :=
  if powered s.rt && s.rt.clock.st == .locked && decide (3 ≤ s.rt.clock.missed) then
    onRt (onClock fun k => { k with st := .holdover, holdSecs := 0, goodRun := 0,
                                    clockClass := if k.uncertainty ≤ s.nv.clockCfg.holdLimit then 7 else 52 }) s
  else s

/-- SOURCE_LOSS. -/
def execSourceLoss (s : State) : Res := .next (doSourceLoss s)

/-- OCXO_WARMUP_END. -/
def execOcxoWarmupEnd (s : State) : Res := .next (if powered s.rt then onRt (onClock fun k => { k with warmup := false }) s else s)

/-- ALIGNMENT_RECORD_WRITE: a record of the present time, the clockmaker having recovered its time at the start. -/
def execAlignmentRecordWrite (s : State) : Res :=
  .next (if powered s.rt && stepDone s.rt 2 then alignNow s else s)

/-! ## Serving time (R450, R451) -/

/-- A port serves PTP as a master: in Ethernet mode, its link up, an address, and not the client. -/
def ptpMaster (s : State) (p : Port) : Bool :=
  powered s.rt && (portOfNet s.rt p).link && !(p == 1 && s.rt.peer.mode) && s.nv.clockCfg.source != p.val + 2 &&
  s.nv.addrs.any fun kv => kv.1 / 16 == p.val

/-- PTP_DELAY_REQ: up to 4 096 a second on each port are answered. -/
def doPtpDelayReq (p : Port) (seq : Nat) (s : State) : State :=
  let n := kgetD s.rt.clock.ptpDelay p.val 0
  if ptpMaster s p && decide (n < 4096) then
    onRt (fun rt => emit (.ptp p.val "Delay_Resp" seq rt.clock.clockClass) (onClock (fun k => { k with ptpDelay := kset k.ptpDelay p.val (n + 1) }) rt)) s
  else s

/-- PTP_DELAY_REQ. -/
def execPtpDelayReq (p : Port) (seq : Nat) (s : State) : Res := .next (doPtpDelayReq p seq s)

/-- The next sequence number of a message kind on a port. -/
def ptpNext (i : Nat) (rt : Rt) : Nat × Rt :=
  let n := kgetD rt.clock.ptpSeq i 0
  (n, onClock (fun k => { k with ptpSeq := kset k.ptpSeq i ((n + 1) % 65536) }) rt)

/-- PTP_SYNC_SEND: a two-step Sync and its Follow_Up. -/
def doPtpSync (p : Port) (s : State) : State :=
  if ptpMaster s p then
    onRt (fun rt =>
      let r := ptpNext p.val rt
      emit (.ptp p.val "Follow_Up" r.1 rt.clock.clockClass) (emit (.ptp p.val "Sync" r.1 rt.clock.clockClass) r.2)) s
  else s

/-- PTP_SYNC_SEND. -/
def execPtpSyncSend (p : Port) (s : State) : Res := .next (doPtpSync p s)

/-- PTP_ANNOUNCE_SEND: Announce with the clockmaker's own class. -/
def doPtpAnnounce (p : Port) (s : State) : State :=
  if ptpMaster s p then
    onRt (fun rt =>
      let r := ptpNext (2 + p.val) rt
      emit (.ptp p.val "Announce" r.1 rt.clock.clockClass) r.2) s
  else s

/-- PTP_ANNOUNCE_SEND. -/
def execPtpAnnounceSend (p : Port) (s : State) : Res := .next (doPtpAnnounce p s)

/-- SQUELCH keeps the outputs low: without a set time, and in a holdover past HOLD_LIMIT. -/
def squelched (c : ClockCfg) (k : Clock) : Bool :=
  c.squelch && (match k.st with
    | .unset | .recovered | .set => true
    | .holdover => decide (c.holdLimit < k.uncertainty)
    | .locked => false)

/-- PPS_OUT_EDGE: PPS_OUT and PPS_AUX rise, and fall 100 ms into the second. -/
def doPpsOut (s : State) : State :=
  if powered s.rt && !squelched s.nv.clockCfg s.rt.clock then
    onRt (fun rt => emit (.pps true) (onClock (fun k => { k with ppsHigh := true }) rt)) s
  else s

/-- PPS_OUT_EDGE. -/
def execPpsOutEdge (s : State) : Res := .next (doPpsOut s)

end Sys2Proof.Machine
end

