-- ==== Sys2Proof/Machine/Decimal.lean ====
section
/-! DEFINITION. Karua-20 decimal instructions (11 Table 11.3, R230 to R236). Lengths come from the decimal length word; a
length above 320 traps STRING_LENGTH. -/

namespace Sys2Proof.Machine

/-! ## The decimal length word (11 Table 11.4) -/

def lenLA (w : Nat) : Nat := bitsAt w 0 9
def lenLB (w : Nat) : Nat := bitsAt w 9 9
def lenSB (w : Nat) : Bool := w.testBit 18
def lenSA (w : Nat) : Bool := w.testBit 19

/-- The text bytes that EDP with DIR 0 writes: a sign byte when SB is set, and one per digit. -/
def edpBytes (w : Nat) : Nat := (lenLB w - b2n (lenSB w)) + b2n (lenSB w)

def decLen : LenSpec := lenBy 3 fun w => (lenLA w, lenLB w, 0)
def aLen : LenSpec := lenBy 3 fun w => (lenLA w, 0, 0)
def bLen : LenSpec := lenBy 3 fun w => (0, lenLB w, 0)
def deczLen : LenSpec := lenBy 3 fun w => (lenLA w, 16, 0)
def edpLen : LenSpec :=
  lenBy 3 fun w => if w.testBit 0 then (lenLB w + b2n (lenSA w), 2 * lenLB w, 0)
                               else (2 * edpBytes w, lenLB w, 0)

/-! ## Shared operations -/

/-- The nibbles of string A. -/
def strA (x : Args) (rt : Rt) (n : Nat) : List Nat := readNibbles rt x.ck n (nibOf x.la)

/-- The nibbles of string B. -/
def strB (x : Args) (rt : Rt) (n : Nat) : List Nat := readNibbles rt x.ck n (nibOf x.lb)

/-- Write string A. -/
def putA (x : Args) (rt : Rt) (l : List Nat) : Rt := writeNibbles x.ck (nibOf x.la) l rt

/-- Store a decimal result, or an invalid source, into A under R231. -/
def putDec (x : Args) (rt : Rt) (w : Nat) (r : Option Int) : KOut :=
  let y := storeRule (lenSA w) (lenLA w) r
  .go y.2 (putA x rt y.1)

/-- A two-operand decimal instruction. -/
def decOp (x : Args) (rt : Rt) (f : Int → Int → Int) : KOut :=
  let w := valW rt x.ck x.lc
  match decVal (lenSA w) (strA x rt (lenLA w)), decVal (lenSB w) (strB x rt (lenLB w)) with
  | some a, some b => putDec x rt w (some (f a b))
  | _, _ => putDec x rt w none

/-- The value of five packed digits. -/
def packedVal (v : Nat) : Option Nat :=
  let d := [bitsAt v 16 4, bitsAt v 12 4, bitsAt v 8 4, bitsAt v 4 4, bitsAt v 0 4]
  if d.all (fun x => decide (x < 10)) then some (d.foldl (fun a x => a * 10 + x) 0) else none

/-- Five packed digits of a value. -/
def packed (v : Nat) : Nat :=
  (digitsLsb 5 v).reverse.foldl (fun a x => a * 16 + x) 0

/-- Shift the digits of a value: a count of LA or more in either direction leaves none (R232). -/
def shiftDigits (v n : Int) (la : Nat) : Int :=
  let k := min n.natAbs la
  if 0 ≤ n then v * ((10 ^ k : Nat) : Int)
  else
    let m : Int := ((v.natAbs / 10 ^ k : Nat) : Int)
    if v < 0 then -m else m

/-- EDP, DIR 0: the nibbles of the text and whether the source was valid. -/
def toText (sb : Bool) (b : List Nat) : List Nat × Bool :=
  let d := if sb then b.dropLast else b
  let s := b.getLast?
  let ok := d.all (fun x => decide (x < 10)) && (!sb || b.isEmpty || isSign (s.getD 0))
  let sign := if sb then [2, if ok && s == some 0xB then 0xD else 0xB] else []
  (sign ++ d.flatMap (fun x => [3, if ok then x else 0]), ok)

/-- EDP, DIR 1: the digits and sign of a text and whether it was valid. -/
def toDigits (sa : Bool) (b : List Nat) : List Nat × Bool :=
  let y := packNibbles b
  let ok := y.all fun v => decide (0x30 ≤ v.toNat ∧ v.toNat ≤ 0x39)
  (y.map (fun v => if ok then v.toNat - 0x30 else 0) ++ (if sa then [0xA] else []), ok)

/-- Write EDP's result; an invalid source sets ID. -/
def putEdp (x : Args) (rt : Rt) (r : List Nat × Bool) : KOut :=
  .go { noFlags with id := if r.2 then none else some true } (putA x rt r.1)

/-- The check digit of payload digits, most significant first (R235). -/
def luhnDigit (d : List Nat) : Nat :=
  let s := (d.reverse.foldl (fun (a : Nat × Nat) x =>
    let v := if a.1 % 2 = 0 then (if 9 < 2 * x then 2 * x - 9 else 2 * x) else x
    (a.1 + 1, a.2 + v)) (0, 0)).2
  (10 - s % 10) % 10

/-- LUHN's word and whether its source was valid (R235). -/
def luhn (sb vfy : Bool) (b : List Nat) : Nat × Bool :=
  let d := if sb then b.dropLast else b
  let ok := d.all (fun x => decide (x < 10)) && (!sb || b.isEmpty || isSign (b.getLastD 0))
  if !ok then (b2n vfy, false)
  else if !vfy then (luhnDigit d, true)
  else if d.length < 2 then (1, true)
  else (b2n (luhnDigit d.dropLast != d.getLastD 0), true)

/-- DTOB converts the decimal B to a signed double; V and the value mod 2^40 outside the range; an invalid source writes zero (R200, R232). -/
def opDtob (x : Args) (rt : Rt) : KOut :=
  if 320 < lenLB (valW rt x.ck x.lc) then .trap trapLength else
  match decVal (lenSB (valW rt x.ck x.lc)) (strB x rt (lenLB (valW rt x.ck x.lc))) with
  | none => .go { flagsZN 40 0 with v := some false, id := some true } (putD x.ck x.la 0 rt)
  | some r => .go { flagsZN 40 (wrap 40 r) with v := some (overflows 40 r) } (putD x.ck x.la (wrap 40 r) rt)

/-- The row of DTOB (11 Table 11.3). -/
def fmtDtob : Fmt := { op := 0x07, a := some .D, b := some .s, c := some .w, sets := true, rmw := false }

/-- DTOB. -/
def execDtob (c : ClerkId) (o : Opnds) (s : State) : Res := karua fmtDtob bLen opDtob c o s

/-- BTOD converts the double B into A under the store rule, signed when SA is set (R232). -/
def opBtod (x : Args) (rt : Rt) : KOut :=
  if 320 < lenLA (valW rt x.ck x.lc) then .trap trapLength else
  let w := valW rt x.ck x.lc
  let v := valD rt x.ck x.lb
  putDec x rt w (some (if lenSA w then signed 40 v else (v : Int)))

/-- The row of BTOD (11 Table 11.3). -/
def fmtBtod : Fmt := { op := 0x08, a := some .S, b := some .d, c := some .w, sets := true, rmw := false }

/-- BTOD. -/
def execBtod (c : ClerkId) (o : Opnds) (s : State) : Res := karua fmtBtod aLen opBtod c o s

/-- MOVP stores the decimal B into A (R231). -/
def opMovp (x : Args) (rt : Rt) : KOut :=
  if 320 < lenLA (valW rt x.ck x.lc) ∨ 320 < lenLB (valW rt x.ck x.lc) then .trap trapLength else
  let w := valW rt x.ck x.lc
  putDec x rt w (decVal (lenSB w) (strB x rt (lenLB w)))

/-- The row of MOVP (11 Table 11.3). -/
def fmtMovp : Fmt := { op := 0x0A, a := some .S, b := some .s, c := some .w, sets := true, rmw := false }

/-- MOVP. -/
def execMovp (c : ClerkId) (o : Opnds) (s : State) : Res := karua fmtMovp decLen opMovp c o s

/-- ADDP: A := A + B under the store rule (R231). -/
def opAddp (x : Args) (rt : Rt) : KOut :=
  if 320 < lenLA (valW rt x.ck x.lc) ∨ 320 < lenLB (valW rt x.ck x.lc) then .trap trapLength else
  decOp x rt (fun a b => a + b)

/-- The row of ADDP (11 Table 11.3). -/
def fmtAddp : Fmt := { op := 0x20, a := some .S, b := some .s, c := some .w, sets := true, rmw := true }

/-- ADDP. -/
def execAddp (c : ClerkId) (o : Opnds) (s : State) : Res := karua fmtAddp decLen opAddp c o s

/-- SUBP: A := A − B under the store rule (R231). -/
def opSubp (x : Args) (rt : Rt) : KOut :=
  if 320 < lenLA (valW rt x.ck x.lc) ∨ 320 < lenLB (valW rt x.ck x.lc) then .trap trapLength else
  decOp x rt (fun a b => a - b)

/-- The row of SUBP (11 Table 11.3). -/
def fmtSubp : Fmt := { op := 0x21, a := some .S, b := some .s, c := some .w, sets := true, rmw := true }

/-- SUBP. -/
def execSubp (c : ClerkId) (o : Opnds) (s : State) : Res := karua fmtSubp decLen opSubp c o s

/-- MULP: A := A × B under the store rule (R231). -/
def opMulp (x : Args) (rt : Rt) : KOut :=
  if 320 < lenLA (valW rt x.ck x.lc) ∨ 320 < lenLB (valW rt x.ck x.lc) then .trap trapLength else
  decOp x rt (fun a b => a * b)

/-- The row of MULP (11 Table 11.3). -/
def fmtMulp : Fmt := { op := 0x22, a := some .S, b := some .s, c := some .w, sets := true, rmw := true }

/-- MULP. -/
def execMulp (c : ClerkId) (o : Opnds) (s : State) : Res := karua fmtMulp decLen opMulp c o s

/-- CMPP compares A and B; an invalid nibble sets ID and clears Z and N (R231). -/
def opCmpp (x : Args) (rt : Rt) : KOut :=
  if 320 < lenLA (valW rt x.ck x.lc) ∨ 320 < lenLB (valW rt x.ck x.lc) then .trap trapLength else
  let w := valW rt x.ck x.lc
  match decVal (lenSA w) (strA x rt (lenLA w)), decVal (lenSB w) (strB x rt (lenLB w)) with
  | some a, some b => .go { noFlags with z := some (a == b), n := some (decide (a < b)) } rt
  | _, _ => .go { noFlags with z := some false, n := some false, id := some true } rt

/-- The row of CMPP (11 Table 11.3). -/
def fmtCmpp : Fmt := { op := 0x23, a := some .s, b := some .s, c := some .w, sets := true, rmw := false }

/-- CMPP. -/
def execCmpp (c : ClerkId) (o : Opnds) (s : State) : Res := karua fmtCmpp decLen opCmpp c o s

/-- DAJ adjusts A after a binary ADD of two five-digit packed words, B the second addend (R233). -/
def opDaj (x : Args) (rt : Rt) : KOut :=
  let a := valW rt x.ck x.la
  let b := valW rt x.ck x.lb
  let y := wrap 20 ((a : Int) - b)
  match packedVal y, packedVal b with
  | some p, some q =>
    let r := packed ((p + q) % 100000)
    .go { noFlags with z := some (r == 0), dc := some (decide (100000 ≤ p + q)) } (putW x.ck x.la r rt)
  | _, _ => .go { noFlags with z := some true, id := some true } (putW x.ck x.la 0 rt)

/-- The row of DAJ (11 Table 11.3). -/
def fmtDaj : Fmt := { op := 0x24, a := some .W, b := some .w, c := none, sets := true, rmw := true }

/-- DAJ. -/
def execDaj (c : ClerkId) (o : Opnds) (s : State) : Res := karua fmtDaj noLen opDaj c o s

/-- SHP shifts the digits of A by the signed word B, left when positive (R232). -/
def opShp (x : Args) (rt : Rt) : KOut :=
  if 320 < lenLA (valW rt x.ck x.lc) then .trap trapLength else
  let w := valW rt x.ck x.lc
  let n := signed 20 (valW rt x.ck x.lb)
  putDec x rt w ((decVal (lenSA w) (strA x rt (lenLA w))).map fun v => shiftDigits v n (lenLA w))

/-- The row of SHP (11 Table 11.3). -/
def fmtShp : Fmt := { op := 0x25, a := some .S, b := some .w, c := some .w, sets := true, rmw := true }

/-- SHP. -/
def execShp (c : ClerkId) (o : Opnds) (s : State) : Res := karua fmtShp aLen opShp c o s

/-- EDP converts digits to text (DIR 0) or text to digits (DIR 1) (R234). -/
def opEdp (x : Args) (rt : Rt) : KOut :=
  if 320 < lenLB (valW rt x.ck x.lc) then .trap trapLength else
  let w := valW rt x.ck x.lc
  if w.testBit 0 then putEdp x rt (toDigits (lenSA w) (strB x rt (2 * lenLB w)))
  else putEdp x rt (toText (lenSB w) (strB x rt (lenLB w)))

/-- The row of EDP (11 Table 11.3). -/
def fmtEdp : Fmt := { op := 0x26, a := some .S, b := some .s, c := some .w, sets := true, rmw := false }

/-- EDP. -/
def execEdp (c : ClerkId) (o : Opnds) (s : State) : Res := karua fmtEdp edpLen opEdp c o s

/-- LUHN computes (VFY 0) or verifies (VFY 1) the mod-10 check digit of B (R235). -/
def opLuhn (x : Args) (rt : Rt) : KOut :=
  if 320 < lenLB (valW rt x.ck x.lc) then .trap trapLength else
  let w := valW rt x.ck x.lc
  let r := luhn (lenSB w) (w.testBit 0) (strB x rt (lenLB w))
  .go { noFlags with z := some (r.1 == 0), id := if r.2 then none else some true } (putW x.ck x.la r.1 rt)

/-- The row of LUHN (11 Table 11.3). -/
def fmtLuhn : Fmt := { op := 0x27, a := some .W, b := some .s, c := some .w, sets := true, rmw := false }

/-- LUHN. -/
def execLuhn (c : ClerkId) (o : Opnds) (s : State) : Res := karua fmtLuhn bLen opLuhn c o s

/-- DECZ replaces each nibble of A by its digit in the 16-digit table B (R236). -/
def opDecz (x : Args) (rt : Rt) : KOut :=
  if 320 < lenLA (valW rt x.ck x.lc) then .trap trapLength else
  let w := valW rt x.ck x.lc
  let t := strB x rt 16
  let a := strA x rt (lenLA w)
  if t.all (fun d => decide (d < 10)) then .go noFlags (putA x rt (a.map fun i => t.getD i 0))
  else .go { noFlags with id := some true } (putA x rt (a.map fun _ => 0))

/-- The row of DECZ (11 Table 11.3). -/
def fmtDecz : Fmt := { op := 0x28, a := some .S, b := some .s, c := some .w, sets := true, rmw := true }

/-- DECZ. -/
def execDecz (c : ClerkId) (o : Opnds) (s : State) : Res := karua fmtDecz deczLen opDecz c o s

end Sys2Proof.Machine
end

