-- ==== Sys2Proof/Machine/Map.lean ====
section
/-! DEFINITION. Refused accesses and updates of the protection map (20 R408 to R411, R413 to R415). -/

namespace Sys2Proof.Machine

/-! ## Refused beats (R408 to R411) -/

/-- The first bytes of the beats of an access: `n` granules from the one that holds the address. -/
def beatsFrom (addr : Nat) : Nat → List Nat
  | 0 => []
  | n + 1 => addr :: beatsFrom (addr / 64 * 64 + 64) n

/-- The first bytes of the beats of an access (R408). -/
def beatsOf (a : Access) : List Nat := if a.len = 0 then [] else beatsFrom a.addr ((a.addr + a.len - 1) / 64 - a.addr / 64 + 1)

/-- A region of a host bridle is of the set that an epoch uses: a booth's windows are those of that epoch (R122). -/
def ofEpoch (rt : Rt) (epoch : Nat) (r : Region) : Bool :=
  match rt.booths.find? fun kv => r.pasid == some kv.2.cfg.pasid with
  | none => true
  | some (_, x) => r.ring || r.mailbox || (windowsFor x epoch).any fun w => w.start == r.start && w.stop == r.stop && winAllows (!r.perm.getLsbD 0) w

/-- The verdict of a bridle on a beat; a host bridle checks a booth's access against the set of its command's epoch (R122). -/
def verdict (rt : Rt) (b : Nat) (a : Access) (addr : Nat) : Option Nat :=
  if b = 38 ∨ b = 39 then hostVerdict ((bridleTable rt b).filter (ofEpoch rt (accessEpoch rt a))) a addr
  else islandVerdict (bridleTable rt b) addr a.kind a.initiator a.house

/-- The refused beats of an access: from the first that no region admits (R409). -/
def refusedBeats (rt : Rt) (b : Nat) (a : Access) : List Nat := (beatsOf a).dropWhile fun x => (verdict rt b a x).isNone

/-- Latch the refused beats in order. -/
def latchBeats (b : Nat) (a : Access) (l : List Nat) (rt : Rt) : Rt :=
  l.foldl (fun r x => latchViolation b x a ((verdict rt b a x).getD 0) r) rt

/-- The island of a bridle (Table 20.1). -/
def bridleIsland (b : Nat) : Nat :=
  if b < 28 then ([0, 1, 2, 3, 4, 5, 6, 7, 8, 9, 10, 11, 12, 15] : List Nat).getD (b % 14) 0 + 18 * (b / 14)
  else ([45, 47, 49, 44, 50, 40, 41, 53, 42, 43, 37, 37] : List Nat).getD (b - 28) 37

/-- A contained BRIDLE fault. -/
def bridleFault (b : Nat) (a : Access) (rt : Rt) : Rt :=
  raise { source := .bridle, scope := 0, island := some (bridleIsland b), booth := a.booth, detail := [BitVec.ofNat 8 b], houseProg := false } rt

/-- The management request in progress fails: the one that waits, else the mailbox's. -/
def failRequest (st : Nat) (res : Bytes) (rt : Rt) : Rt :=
  if rt.waiting.isSome then answerWaiting st res rt
  else if rt.mbx.busy then respond false (parseReq (reqBuffer rt.mbx)).seq st res rt else rt

/-- The clerk whose job is a command. -/
def clerkOfCmd (rt : Rt) (id : CmdId) : Option ClerkId := (rt.clerks.find? fun kv => kv.2.job == some id).map Prod.fst

/-- What the initiator does with a refusal (Table 20.3). -/
def refusalActs (b : Nat) (a : Access) (rt : Rt) : Rt :=
  match a.cmd with
  | some id =>
    if b = 38 ∨ b = 39 then failWith id stAccessRefused rt
    else match clerkOfCmd rt id with
      | some c =>
        if roomIsland (clerkRoom c) = a.initiator ∧ roomBridle (clerkRoom c) = b then
          clerkTrap c { code := 0x04, refused := none } 0 rt
        else bridleFault b a (failWith id stDeviceFault rt)
      | none => bridleFault b a (failWith id stDeviceFault rt)
  | none => if a.mailbox then failRequest stAccessRefused [] rt else bridleFault b a (failRequest stDeviceFault [] rt)

/-- BRIDLE_REFUSAL: the first refused beat latches the bridle's record, every refused beat counts; beats before it keep their
effect. An access that the bridle admits changes nothing. -/
def doBridleRefusal (b : Nat) (a : Access) (rt : Rt) : Rt :=
  let l := refusedBeats rt b a
  if 40 ≤ b ∨ l = [] ∨ !mainPower rt then rt else refusalActs b a (latchBeats b a l rt)

/-- BRIDLE_REFUSAL. -/
def execBridleRefusal (b : Nat) (a : Access) (s : State) : Res := .next (onRt (doBridleRefusal b a) s)

/-- FABRIC_UE: a checker finds an uncorrectable error and marks the flit as poison; only the first checker records it (R61, R62, R65). The
command that issued the flit, or would have received it, completes with DEVICE_FAULT, its bundle aborting; a management request whose one
retry fails too is failed with DEVICE_FAULT (R64, Table 3.5). Nothing of the flit's data reaches its sink. -/
def doFabricUe (checker src : Nat) (addr : BitVec 56) (use : FlitUse) (f : Flit) (rt : Rt) : Rt :=
  if powered rt && checkFlit rt.fabricPerm f == .uncorrectable then
    let c := match use with
      | .command id => kget rt.cmds id
      | _ => none
    let rt := raise { source := .fabricUe, scope := 0, island := some checker, booth := c.map Cmd.booth,
                      detail := fabricDetail src addr, houseProg := false } rt
    match use, c with
    | .command _, some c => if c.stage == .posted || c.stage == .ended then rt else failWith c.id stDeviceFault rt
    | .management false, _ => failRequest stDeviceFault [] rt
    | _, _ => rt
  else rt

/-- FABRIC_UE. -/
def execFabricUe (checker src : Nat) (f : PassingFlit) (use : FlitUse) (s : State) : Res :=
  .next (onRt (doFabricUe checker src f.addr use f.flit) s)

/-! ## Updates of the map (R413, R414) -/

/-- Initiators that may reach the strongroom: SC and the two key caches. -/
def strongMask : BitVec 64 := BitVec.ofNat 64 (2 ^ 49 + 2 ^ 15 + 2 ^ 33)

/-- HC alone. -/
def hcMask : BitVec 64 := BitVec.ofNat 64 (2 ^ 45)

/-- A PASID is the booth's own: some booth of the entry's house has it. -/
def pasidOk (rt : Rt) (r : Region) : Bool :=
  match r.pasid with
  | none => r.mailbox
  | some p => rt.booths.any fun kv => kv.2.cfg.pasid == p && kv.2.cfg.house == r.house

/-- The boot monitor accepts an entry (R413). -/
def entryOk (rt : Rt) (house : Option Nat) (b : Nat) (r : Region) : Bool :=
  !(Config.strongRegion b r.start r.stop && (r.initiators &&& ~~~strongMask) != 0) &&
  (decide (1024 ≤ r.house) || house == some r.house) &&
  !(Config.codeRegion b r.start r.stop && decide (r.perm.getLsbD 1 ∨ r.perm.getLsbD 2) && (r.initiators &&& ~~~hcMask) != 0) &&
  (decide (b ≠ 38 ∧ b ≠ 39) || pasidOk rt r)

/-- A bridle has free entries for an edit: 256 in all, or a bank of 16 for each booth at a host bridle. -/
def roomFor (rt : Rt) (e : BridleEdit) : Bool :=
  if e.bridle = 38 ∨ e.bridle = 39 then
    e.add.all fun r => decide ((e.add.filter fun x => x.pasid == r.pasid).length ≤ 16)
  else decide ((bridleTable rt e.bridle).length + e.add.length ≤ 256)

/-- What stops a request: INPUT_REFUSED for lack of a free entry (none), else the bridle that a refused entry names. -/
def refusedEdit (rt : Rt) (r : BridleRequest) : Option (Option Nat) :=
  match r.edits.find? fun e => decide (40 ≤ e.bridle) || !(e.add.all (entryOk rt r.house e.bridle)) with
  | some e => some (some e.bridle)
  | none => if r.edits.all (roomFor rt) then none else some none

/-- One bridle's table after its update: new entries are written, the bridle switches, then unused entries go. -/
def editTable (m : KMap (List Region)) (e : BridleEdit) : KMap (List Region) :=
  let old := kgetD m e.bridle []
  kput [] m e.bridle ((old.filter fun r => !decide (r ∈ e.remove)) ++ e.add.filter fun r => !decide (r ∈ old))

/-- The edits in ascending bridle number. -/
def inOrder (l : List BridleEdit) : List BridleEdit := (List.range 40).flatMap fun b => l.filter fun e => e.bridle == b

/-- BRIDLE_UPDATE: the boot monitor refuses the whole request, or updates its bridles one at a time. The epoch is that of the
request's own change. -/
def doBridleUpdate (r : BridleRequest) (rt : Rt) : Rt :=
  if !(rt.boot.isSealed && mainPower rt) || inFatal rt || inTamperHalt rt then rt
  else match refusedEdit rt r with
    | some none => failRequest stInputRefused [0x47] rt
    | some (some b) =>
      failRequest stDeviceFault []
        (raise { source := .bridleRequest, scope := 0, island := some 45, booth := none, detail := [BitVec.ofNat 8 b], houseProg := false } rt)
    | none => { rt with bridles := { rt.bridles with tables := (inOrder r.edits).foldl editTable rt.bridles.tables } }

/-- BRIDLE_UPDATE. -/
def execBridleUpdate (r : BridleRequest) (s : State) : Res := .next (onRt (doBridleUpdate r) s)

end Sys2Proof.Machine
end

