-- ==== Sys2Proof/Machine/Moves.lean ====
section
/-! DEFINITION. Karua-20 moves, binary and logical instructions (11 Table 11.3, R226 to R229). -/

namespace Sys2Proof.Machine

/-- Write a 20-bit result with its flags. -/
def bin20 (x : Args) (rt : Rt) (r : Nat × FlagSet) : KOut := .go r.2 (putW x.ck x.la r.1 rt)

/-- Write a 40-bit result with its flags. -/
def bin40 (x : Args) (rt : Rt) (r : Nat × FlagSet) : KOut := .go r.2 (putD x.ck x.la r.1 rt)

/-- Write a 20-bit result with Z and N. -/
def logic20 (x : Args) (rt : Rt) (v : Nat) : KOut := .go (flagsZN 20 v) (putW x.ck x.la v rt)

/-- The C flag as a number. -/
def carryIn (x : Args) (rt : Rt) : Nat := b2n (swBit (clerkOf rt x.ck).sw 2)

/-- A product and its flags: C and V clear (R226). -/
def mulResult (p : Nat) : Nat × FlagSet := (p, { flagsZN 40 p with c := some false, v := some false })

/-- The six flags that MTSW writes (R229). -/
def flagsOfBits (v : Nat) : FlagSet :=
  { z := some (v.testBit 0), n := some (v.testBit 1), c := some (v.testBit 2), v := some (v.testBit 3),
    dc := some (v.testBit 4), id := some (v.testBit 5) }

/-- DIVU's result: FFFFFh in both words and V when the quotient does not fit a word (R227). -/
def divResult (x : Args) (rt : Rt) (q r : Nat) : KOut :=
  let big := decide (0xFFFFF < q)
  let q' := if big then 0xFFFFF else q
  .go { flagsZN 20 q' with v := some big } (putD x.ck x.la (q' * 2 ^ 20 + (if big then 0xFFFFF else r)) rt)

/-- NOP does nothing (R223). -/
def opNop (_ : Args) (rt : Rt) : KOut :=
  .go noFlags rt

/-- The row of NOP (11 Table 11.3). -/
def fmtNop : Fmt := { op := 0x01, a := none, b := none, c := none, sets := false, rmw := false }

/-- NOP. -/
def execNop (c : ClerkId) (o : Opnds) (s : State) : Res := karua fmtNop noLen opNop c o s

/-- MOV writes the word B to A (R226). -/
def opMov (x : Args) (rt : Rt) : KOut :=
  let v := valW rt x.ck x.lb
  .go (flagsZN 20 v) (putW x.ck x.la v rt)

/-- The row of MOV (11 Table 11.3). -/
def fmtMov : Fmt := { op := 0x02, a := some .W, b := some .w, c := none, sets := true, rmw := false }

/-- MOV. -/
def execMov (c : ClerkId) (o : Opnds) (s : State) : Res := karua fmtMov noLen opMov c o s

/-- MOVD writes the double B to A (R226). -/
def opMovd (x : Args) (rt : Rt) : KOut :=
  let v := valD rt x.ck x.lb
  .go (flagsZN 40 v) (putD x.ck x.la v rt)

/-- The row of MOVD (11 Table 11.3). -/
def fmtMovd : Fmt := { op := 0x03, a := some .D, b := some .d, c := none, sets := true, rmw := false }

/-- MOVD. -/
def execMovd (c : ClerkId) (o : Opnds) (s : State) : Res := karua fmtMovd noLen opMovd c o s

/-- CLR writes zero to A (R226). -/
def opClr (x : Args) (rt : Rt) : KOut :=
  .go noFlags (putW x.ck x.la 0 rt)

/-- The row of CLR (11 Table 11.3). -/
def fmtClr : Fmt := { op := 0x04, a := some .W, b := none, c := none, sets := false, rmw := false }

/-- CLR. -/
def execClr (c : ClerkId) (o : Opnds) (s : State) : Res := karua fmtClr noLen opClr c o s

/-- MFSW writes the whole of SW to A (R229). -/
def opMfsw (x : Args) (rt : Rt) : KOut :=
  .go noFlags (putW x.ck x.la (clerkOf rt x.ck).sw.toNat rt)

/-- The row of MFSW (11 Table 11.3). -/
def fmtMfsw : Fmt := { op := 0x05, a := some .W, b := none, c := none, sets := false, rmw := false }

/-- MFSW. -/
def execMfsw (c : ClerkId) (o : Opnds) (s : State) : Res := karua fmtMfsw noLen opMfsw c o s

/-- MTSW writes bits 5 to 0 of its source to the flags; E, K and MODE stay (R229, R248). -/
def opMtsw (x : Args) (rt : Rt) : KOut :=
  let k := clerkOf rt x.ck
  .go (flagsOfBits (valW rt x.ck x.la)) (if inPort 1 x.la then setClerk x.ck { k with sw := swPut k.sw 7 true } rt else rt)

/-- The row of MTSW (11 Table 11.3). A source in engine port space sets E, as for every flag-setting instruction; MTSW cannot clear it
(R248; R229 says that it cannot change E, which the model takes of the bits that it writes: DEDUCED, log 14). -/
def fmtMtsw : Fmt := { op := 0x06, a := some .w, b := none, c := none, sets := false, rmw := false }

/-- MTSW. -/
def execMtsw (c : ClerkId) (o : Opnds) (s : State) : Res := karua fmtMtsw noLen opMtsw c o s

/-- ADD: A := B + C on 20 bits (R226). -/
def opAdd (x : Args) (rt : Rt) : KOut :=
  bin20 x rt (addFlags 20 (valW rt x.ck x.lb) (valW rt x.ck x.lc) 0)

/-- The row of ADD (11 Table 11.3). -/
def fmtAdd : Fmt := { op := 0x10, a := some .W, b := some .w, c := some .w, sets := true, rmw := false }

/-- ADD. -/
def execAdd (c : ClerkId) (o : Opnds) (s : State) : Res := karua fmtAdd noLen opAdd c o s

/-- SUB: A := B − C on 20 bits (R226). -/
def opSub (x : Args) (rt : Rt) : KOut :=
  bin20 x rt (subFlags 20 (valW rt x.ck x.lb) (valW rt x.ck x.lc) 0)

/-- The row of SUB (11 Table 11.3). -/
def fmtSub : Fmt := { op := 0x11, a := some .W, b := some .w, c := some .w, sets := true, rmw := false }

/-- SUB. -/
def execSub (c : ClerkId) (o : Opnds) (s : State) : Res := karua fmtSub noLen opSub c o s

/-- ADC: A := B + C + C flag (R226). -/
def opAdc (x : Args) (rt : Rt) : KOut :=
  bin20 x rt (addFlags 20 (valW rt x.ck x.lb) (valW rt x.ck x.lc) (carryIn x rt))

/-- The row of ADC (11 Table 11.3). -/
def fmtAdc : Fmt := { op := 0x12, a := some .W, b := some .w, c := some .w, sets := true, rmw := false }

/-- ADC. -/
def execAdc (c : ClerkId) (o : Opnds) (s : State) : Res := karua fmtAdc noLen opAdc c o s

/-- SBC: A := B − C − C flag (R226). -/
def opSbc (x : Args) (rt : Rt) : KOut :=
  bin20 x rt (subFlags 20 (valW rt x.ck x.lb) (valW rt x.ck x.lc) (carryIn x rt))

/-- The row of SBC (11 Table 11.3). -/
def fmtSbc : Fmt := { op := 0x13, a := some .W, b := some .w, c := some .w, sets := true, rmw := false }

/-- SBC. -/
def execSbc (c : ClerkId) (o : Opnds) (s : State) : Res := karua fmtSbc noLen opSbc c o s

/-- ADDD: A := B + C on 40 bits (R226). -/
def opAddd (x : Args) (rt : Rt) : KOut :=
  bin40 x rt (addFlags 40 (valD rt x.ck x.lb) (valD rt x.ck x.lc) 0)

/-- The row of ADDD (11 Table 11.3). -/
def fmtAddd : Fmt := { op := 0x14, a := some .D, b := some .d, c := some .d, sets := true, rmw := false }

/-- ADDD. -/
def execAddd (c : ClerkId) (o : Opnds) (s : State) : Res := karua fmtAddd noLen opAddd c o s

/-- SUBD: A := B − C on 40 bits (R226). -/
def opSubd (x : Args) (rt : Rt) : KOut :=
  bin40 x rt (subFlags 40 (valD rt x.ck x.lb) (valD rt x.ck x.lc) 0)

/-- The row of SUBD (11 Table 11.3). -/
def fmtSubd : Fmt := { op := 0x15, a := some .D, b := some .d, c := some .d, sets := true, rmw := false }

/-- SUBD. -/
def execSubd (c : ClerkId) (o : Opnds) (s : State) : Res := karua fmtSubd noLen opSubd c o s

/-- MUL: the signed 40-bit product; C and V clear (R226). -/
def opMul (x : Args) (rt : Rt) : KOut :=
  bin40 x rt (mulResult (wrap 40 (signed 20 (valW rt x.ck x.lb) * signed 20 (valW rt x.ck x.lc))))

/-- The row of MUL (11 Table 11.3). -/
def fmtMul : Fmt := { op := 0x16, a := some .D, b := some .w, c := some .w, sets := true, rmw := false }

/-- MUL. -/
def execMul (c : ClerkId) (o : Opnds) (s : State) : Res := karua fmtMul noLen opMul c o s

/-- MULU: the unsigned 40-bit product; C and V clear (R226). -/
def opMulu (x : Args) (rt : Rt) : KOut :=
  bin40 x rt (mulResult (valW rt x.ck x.lb * valW rt x.ck x.lc))

/-- The row of MULU (11 Table 11.3). -/
def fmtMulu : Fmt := { op := 0x17, a := some .D, b := some .w, c := some .w, sets := true, rmw := false }

/-- MULU. -/
def execMulu (c : ClerkId) (o : Opnds) (s : State) : Res := karua fmtMulu noLen opMulu c o s

/-- DIVU: quotient of the double B by the word C to word A, remainder to word A + 1; a zero divisor traps DIVIDE (R227). -/
def opDivu (x : Args) (rt : Rt) : KOut :=
  let c := valW rt x.ck x.lc
  if c = 0 then .trap trapDivide
  else divResult x rt (valD rt x.ck x.lb / c) (valD rt x.ck x.lb % c)

/-- The row of DIVU (11 Table 11.3). -/
def fmtDivu : Fmt := { op := 0x18, a := some .D, b := some .d, c := some .w, sets := true, rmw := false }

/-- DIVU. -/
def execDivu (c : ClerkId) (o : Opnds) (s : State) : Res := karua fmtDivu noLen opDivu c o s

/-- CMP sets the flags as SUB does and writes nothing (R226). -/
def opCmp (x : Args) (rt : Rt) : KOut :=
  .go (subFlags 20 (valW rt x.ck x.lb) (valW rt x.ck x.lc) 0).2 rt

/-- The row of CMP (11 Table 11.3). -/
def fmtCmp : Fmt := { op := 0x19, a := none, b := some .w, c := some .w, sets := true, rmw := false }

/-- CMP. -/
def execCmp (c : ClerkId) (o : Opnds) (s : State) : Res := karua fmtCmp noLen opCmp c o s

/-- CMPD sets the flags as SUBD does and writes nothing (R226). -/
def opCmpd (x : Args) (rt : Rt) : KOut :=
  .go (subFlags 40 (valD rt x.ck x.lb) (valD rt x.ck x.lc) 0).2 rt

/-- The row of CMPD (11 Table 11.3). -/
def fmtCmpd : Fmt := { op := 0x1A, a := none, b := some .d, c := some .d, sets := true, rmw := false }

/-- CMPD. -/
def execCmpd (c : ClerkId) (o : Opnds) (s : State) : Res := karua fmtCmpd noLen opCmpd c o s

/-- INC: A := A + 1 (R226). -/
def opInc (x : Args) (rt : Rt) : KOut :=
  bin20 x rt (addFlags 20 (valW rt x.ck x.la) 1 0)

/-- The row of INC (11 Table 11.3). -/
def fmtInc : Fmt := { op := 0x1B, a := some .W, b := none, c := none, sets := true, rmw := true }

/-- INC. -/
def execInc (c : ClerkId) (o : Opnds) (s : State) : Res := karua fmtInc noLen opInc c o s

/-- DEC: A := A − 1 (R226). -/
def opDec (x : Args) (rt : Rt) : KOut :=
  bin20 x rt (subFlags 20 (valW rt x.ck x.la) 1 0)

/-- The row of DEC (11 Table 11.3). -/
def fmtDec : Fmt := { op := 0x1C, a := some .W, b := none, c := none, sets := true, rmw := true }

/-- DEC. -/
def execDec (c : ClerkId) (o : Opnds) (s : State) : Res := karua fmtDec noLen opDec c o s

/-- NEG: A := 0 − B (R226). -/
def opNeg (x : Args) (rt : Rt) : KOut :=
  bin20 x rt (subFlags 20 0 (valW rt x.ck x.lb) 0)

/-- The row of NEG (11 Table 11.3). -/
def fmtNeg : Fmt := { op := 0x1D, a := some .W, b := some .w, c := none, sets := true, rmw := false }

/-- NEG. -/
def execNeg (c : ClerkId) (o : Opnds) (s : State) : Res := karua fmtNeg noLen opNeg c o s

/-- AND, bit by bit (R226). -/
def opAnd (x : Args) (rt : Rt) : KOut :=
  logic20 x rt (valW rt x.ck x.lb &&& valW rt x.ck x.lc)

/-- The row of AND (11 Table 11.3). -/
def fmtAnd : Fmt := { op := 0x30, a := some .W, b := some .w, c := some .w, sets := true, rmw := false }

/-- AND. -/
def execAnd (c : ClerkId) (o : Opnds) (s : State) : Res := karua fmtAnd noLen opAnd c o s

/-- OR, bit by bit (R226). -/
def opOr (x : Args) (rt : Rt) : KOut :=
  logic20 x rt (valW rt x.ck x.lb ||| valW rt x.ck x.lc)

/-- The row of OR (11 Table 11.3). -/
def fmtOr : Fmt := { op := 0x31, a := some .W, b := some .w, c := some .w, sets := true, rmw := false }

/-- OR. -/
def execOr (c : ClerkId) (o : Opnds) (s : State) : Res := karua fmtOr noLen opOr c o s

/-- XOR, bit by bit (R226). -/
def opXor (x : Args) (rt : Rt) : KOut :=
  logic20 x rt (valW rt x.ck x.lb ^^^ valW rt x.ck x.lc)

/-- The row of XOR (11 Table 11.3). -/
def fmtXor : Fmt := { op := 0x32, a := some .W, b := some .w, c := some .w, sets := true, rmw := false }

/-- XOR. -/
def execXor (c : ClerkId) (o : Opnds) (s : State) : Res := karua fmtXor noLen opXor c o s

/-- NOT complements B bit by bit (R226). -/
def opNot (x : Args) (rt : Rt) : KOut :=
  logic20 x rt (2 ^ 20 - 1 - valW rt x.ck x.lb)

/-- The row of NOT (11 Table 11.3). -/
def fmtNot : Fmt := { op := 0x33, a := some .W, b := some .w, c := none, sets := true, rmw := false }

/-- NOT. -/
def execNot (c : ClerkId) (o : Opnds) (s : State) : Res := karua fmtNot noLen opNot c o s

/-- SHL by the count C (R228). -/
def opShl (x : Args) (rt : Rt) : KOut :=
  bin20 x rt (shlFlags (valW rt x.ck x.lb) (valW rt x.ck x.lc))

/-- The row of SHL (11 Table 11.3). -/
def fmtShl : Fmt := { op := 0x34, a := some .W, b := some .w, c := some .w, sets := true, rmw := false }

/-- SHL. -/
def execShl (c : ClerkId) (o : Opnds) (s : State) : Res := karua fmtShl noLen opShl c o s

/-- SHR by the count C, zero fill (R228). -/
def opShr (x : Args) (rt : Rt) : KOut :=
  bin20 x rt (shrFlags (valW rt x.ck x.lb) (valW rt x.ck x.lc))

/-- The row of SHR (11 Table 11.3). -/
def fmtShr : Fmt := { op := 0x35, a := some .W, b := some .w, c := some .w, sets := true, rmw := false }

/-- SHR. -/
def execShr (c : ClerkId) (o : Opnds) (s : State) : Res := karua fmtShr noLen opShr c o s

/-- SAR by the count C, sign fill (R228). -/
def opSar (x : Args) (rt : Rt) : KOut :=
  bin20 x rt (sarFlags (valW rt x.ck x.lb) (valW rt x.ck x.lc))

/-- The row of SAR (11 Table 11.3). -/
def fmtSar : Fmt := { op := 0x36, a := some .W, b := some .w, c := some .w, sets := true, rmw := false }

/-- SAR. -/
def execSar (c : ClerkId) (o : Opnds) (s : State) : Res := karua fmtSar noLen opSar c o s

/-- ROL by the count C modulo 20 (R228). -/
def opRol (x : Args) (rt : Rt) : KOut :=
  bin20 x rt (rolFlags (valW rt x.ck x.lb) (valW rt x.ck x.lc))

/-- The row of ROL (11 Table 11.3). -/
def fmtRol : Fmt := { op := 0x37, a := some .W, b := some .w, c := some .w, sets := true, rmw := false }

/-- ROL. -/
def execRol (c : ClerkId) (o : Opnds) (s : State) : Res := karua fmtRol noLen opRol c o s

/-- TST sets the flags as AND does and writes nothing (R226). -/
def opTst (x : Args) (rt : Rt) : KOut :=
  .go (flagsZN 20 (valW rt x.ck x.lb &&& valW rt x.ck x.lc)) rt

/-- The row of TST (11 Table 11.3). -/
def fmtTst : Fmt := { op := 0x38, a := none, b := some .w, c := some .w, sets := true, rmw := false }

/-- TST. -/
def execTst (c : ClerkId) (o : Opnds) (s : State) : Res := karua fmtTst noLen opTst c o s

end Sys2Proof.Machine
end

