-- ==== Sys2Proof/Machine/Tls.lean ====
section
/-! DEFINITION. What a TLS 1.3 handshake checks and derives (08 R156 to R160, Tables 8.3, 8.4): the client's certificates and
CertificateVerify, its key share, and the traffic secrets of a session. -/

namespace Sys2Proof.Machine

/-! ## Signatures (Table 8.3) -/

/-- The two integers of a DER ECDSA signature with lengths below 128. -/
def derPair (b : Bytes) : Option (Nat × Nat) :=
  let n := byteAt b 3
  let m := byteAt b (5 + n)
  if byteAt b 0 = 0x30 ∧ byteAt b 2 = 2 ∧ byteAt b (4 + n) = 2 ∧ byteAt b 1 = n + m + 4 ∧ b.length = n + m + 6 ∧ byteAt b 1 < 128 then
    some (beAt b 4 n, beAt b (6 + n) m)
  else none

/-- An ECDSA signature on a curve over a digest. -/
def ecHolds (c : Curve) (q : Nat × Nat) (dig sig : Bytes) : Bool :=
  match derPair sig with
  | none => false
  | some (r, s) => onCurve c q && ecdsaVerify c q dig r s

/-- An RSA-PSS signature over a digest, with a modulus of 2 048 to 4 096 bits. -/
def pssHolds (a : HashAlg) (n e : Nat) (dig sig : Bytes) : Bool :=
  let bits := Nat.log2 n + 1
  decide (2048 ≤ bits ∧ bits ≤ 4096 ∧ sig.length = cdiv bits 8 ∧ ofBe sig < n) &&
    pssVerify a bits dig (be (cdiv (bits - 1) 8) (powMod (ofBe sig) e n))

/-- A signature in one of the module's schemes verifies under a certificate's key. -/
def sigHolds (k : CertKey) (scheme : Nat) (msg sig : Bytes) : Bool :=
  match k, scheme with
  | .ec 384 x y, 0x0503 => ecHolds p384 (x, y) (sha384 msg) sig
  | .ec 256 x y, 0x0403 => ecHolds p256 (x, y) (sha256 msg) sig
  | .rsa n e, 0x0805 => pssHolds .sha384 n e (sha384 msg) sig
  | .rsa n e, 0x0804 => pssHolds .sha256 n e (sha256 msg) sig
  | .rsa n e, 0x0806 => pssHolds .sha512 n e (sha512 msg) sig
  | _, _ => false

/-! ## Client authentication (Table 8.4) -/

/-- A key that the module takes: RSA moduli of 2 048 to 4 096 bits (Table 8.3). -/
def certKeyOk : CertKey → Bool
  | .ec _ _ _ => true
  | .rsa n _ => decide (2048 ≤ Nat.log2 n + 1 ∧ Nat.log2 n + 1 ≤ 4096)

/-- A certificate is signed by the holder of another. -/
def signedBy (issuer c : Cert) : Bool := certKeyOk issuer.key && sigHolds issuer.key c.scheme c.tbs c.sig

/-- Every certificate of a chain, from the leaf up, is signed by the next, and the last by a trust anchor. -/
def linksTo (anchors : List Cert) : List Cert → Bool
  | [] => false
  | [c] => anchors.any fun a => signedBy a c
  | c :: d :: l => signedBy d c && linksTo anchors (d :: l)

/-- Check 2: a chain of at most 4 certificates verifies to one of the listener's trust anchors. -/
def chainHolds (anchors : List Cert) (l : List Cert) : Bool :=
  decide (l.length ≤ 4) && l.all (fun c => certKeyOk c.key) && linksTo anchors l

/-- What the client's CertificateVerify signs (RFC 8446, 4.4.3): 64 spaces, "TLS 1.3, client CertificateVerify", a zero, the transcript hash. -/
def verifyContent (transcript : Bytes) : Bytes :=
  List.replicate 64 0x20#8 ++ be 33 0x544C5320312E332C20636C69656E74204365727469666963617465566572696679 ++ [0#8] ++ transcript

/-- The clockmaker's time in UTC seconds (R443). -/
def utcNow (rt : Rt) : Nat := rt.clock.sec - rt.clock.utcOffset

/-- The client's authentication in the order of Table 8.4: the alert of the first check that fails. -/
def clientAlert (rt : Rt) (x : Listener) (h : ClientHello) : Option String :=
  match h.chain with
  | [] => some "certificate_required"
  | leaf :: _ =>
    if !chainHolds x.anchors h.chain then some "unknown_ca"
    else if !h.chain.all fun c => decide (c.notBefore ≤ utcNow rt ∧ utcNow rt ≤ c.notAfter) then some "certificate_expired"
    else if !leaf.digSig || leaf.clientAuth == some false then some "bad_certificate"
    else if !(x.allow.isEmpty || decide (sha384 leaf.spki ∈ x.allow)) then some "access_denied"
    else if !sigHolds leaf.key h.scheme (verifyContent h.transcript) h.sig then some "decrypt_error"
    else none

/-- The leaf's SubjectPublicKeyInfo. -/
def leafSpki (h : ClientHello) : Bytes := (h.chain.head?.map Cert.spki).getD []

/-! ## The key share (R159) -/

/-- An X25519 share passes the reckoner input rules, its shared value among them: that is zero for the points of small order, whatever
the private key. -/
def x25519Ok (k : Bytes) : Bool := (publicRefused algE 4 k).isNone && !allZero (x25519 (le 32 (2 ^ 254)) k)

/-- A client's share for a group passes the reckoner input rules (15 Table 15.4). -/
def shareHolds (group : Nat) (k : Bytes) : Bool :=
  match group with
  | 0x001D => x25519Ok k
  | 0x0017 => (publicRefused algE 1 k).isNone
  | 0x0018 => (publicRefused algE 2 k).isNone
  | 0x11EC => (publicRefused algL 0x12 (k.take 1184)).isNone && x25519Ok (k.drop 1184)
  | _ => false

/-! ## Traffic secrets (R160) -/

/-- The hash of a cipher suite (RFC 8446, B.4). -/
def suiteHash (suite : Nat) : HashAlg := if suite = 0x1303 then .sha256 else .sha384

/-- HKDF-Expand-Label for at most one hash length, the label after "tls13 " (RFC 8446, 7.1). -/
def expandLabel (a : HashAlg) (secret label ctx : Bytes) (n : Nat) : Bytes :=
  let full := be 6 0x746C73313320 ++ label
  (hmac a secret (be 2 n ++ [BitVec.ofNat 8 full.length] ++ full ++ [BitVec.ofNat 8 ctx.length] ++ ctx ++ [1#8])).take n

/-- A direction's first traffic secret, by the labels "c ap traffic" and "s ap traffic". The master secret and the transcript come from values that the spec does not give: both are
free. -/
def trafficSecret (suite ctr : Nat) (client : Bool) : Bytes :=
  let a := suiteHash suite
  let n := digestLen 0 a
  expandLabel a ((List.range n).map (Config.freeByte ctr)) (if client then be 12 0x632061702074726166666963 else be 12 0x732061702074726166666963)
    ((List.range n).map fun i => Config.freeByte ctr (n + i)) n

/-- The next traffic secret after a KeyUpdate, by the label "traffic upd" (RFC 8446, 7.2). -/
def nextSecret (suite : Nat) (secret : Bytes) : Bytes :=
  let a := suiteHash suite
  expandLabel a secret (be 11 0x7472616666696320757064) [] (digestLen 0 a)

end Sys2Proof.Machine
end

