-- ==== Sys2Proof/Machine/Net.lean ====
section
/-! DEFINITION. The network (08 R152 to R169): ports, frames, listeners, TCP and TLS connections, sessions and their request
frames. -/

namespace Sys2Proof.Machine

/-! ## Addresses and listeners -/

/-- NET_ADDR: one of sixteen addresses of a port; the gateway is the one of its family on the port (Table 8.2). -/
def netAddr (src : ReqSrc) (q : Req) (s : State) : State :=
  let p := q.params
  let port := byteAt p 0
  let fam := byteAt p 2
  let a : NetAddr := { family := fam, prefixLen := byteAt p 3, vlan := leAt p 4 2, mtu := leAt p 6 2, addr := slice p 8 16, gateway := slice p 24 16 }
  if 1 < port ∨ 15 < byteAt p 1 ∨ (fam ≠ 4 ∧ fam ≠ 6) ∨ (if fam = 4 then 32 else 128) < a.prefixLen ∨
      (4094 < a.vlan ∧ a.vlan ≠ 0xFFFF) ∨ a.mtu < 1280 ∨ 9000 < a.mtu then onRt (refuse src q stMalformed) s
  else
    let one := fun (kv : Nat × NetAddr) => (kv.1, if kv.1 / 16 = port ∧ kv.2.family = fam then { kv.2 with gateway := a.gateway } else kv.2)
    onRt (answer src q stDone []) { s with nv := { s.nv with addrs := kset (s.nv.addrs.map one) (16 * port + byteAt p 1) a } }

/-- NET_ADDR. -/
def execNetAddr (src : ReqSrc) (s : State) : Res := .next (serveLen src 0x70 40 (netAddr src) s)

/-- A key with which a TLS server signs: usage 94, mode S or N (R157, Table 13.2). -/
def serverKeyOk (r : SlotRec) : Bool := decide (r.cls = 0x21 ∨ r.cls = 0x22) && r.usage == uOwn 4 && decide (r.mode = mS ∨ r.mode = mN)

/-- A server key, checked for a house at an epoch. -/
def serverKey (rt : Rt) (epoch house : Nat) (h : BitVec 64) : Found := findKey rt house none epoch h serverKeyOk

/-- The listener that a request describes. -/
def listenerOf (p : Bytes) (w : Bulk) : Listener :=
  { port := byteAt p 2, addrIdx := byteAt p 3, tcpPort := leAt p 4 2, booth := leAt p 6 2, key := BitVec.ofNat 64 (leAt p 8 8),
    idle := leAt p 16 4, masks := BitVec.ofNat 32 (leAt p 20 4), tallies := (byteAt p 24).testBit 0, anchors := w.anchors, chain := w.chain,
    allow := w.allow, removing := false, epoch := 0 }

/-- NET_LISTEN, which refuses every key but a server key of the booth's house with USAGE_REFUSED: the entry is written to flash; a digest taken off the list is a policy change (R157, R158). -/
def netListen (src : ReqSrc) (q : Req) (w : Bulk) (s : State) : State :=
  let p := q.params
  let l := leAt p 0 2
  let x := listenerOf p w
  let hold := fun (x : Listener) (ds : List Bytes) => onRt (holdRequest src q (some (.listener l x ds)) none none []) s
  if 1024 ≤ l ∨ 1 < x.port ∨ 15 < x.addrIdx ∨ 3600 < x.idle ∨ 2 ≤ byteAt p 24 ∨ 1 < byteAt p 25 ∨ !zeroAt p 26 2 ∨
      4 ≤ byteAt p 20 ∨ 16 ≤ byteAt p 21 ∨ 32 ≤ byteAt p 22 ∨ byteAt p 23 ≠ 0 then onRt (refuse src q stMalformed) s
  else if byteAt p 25 = 1 then
    match kget s.nv.listeners l with
    | none => onRt (answer src q stDone []) s
    | some old => hold { old with removing := true } []
  else match boothOf s.rt x.booth with
    | none => onRt (refuseReason src q 0x46) s
    | some b =>
      match serverKey s.rt s.rt.epoch b.cfg.house x.key with
      | .wait => s
      | .no _ => onRt (refuse src q stUsageRefused) s
      | .key _ _ =>
        match readBulk s.rt (leAt p 28 4) 0 w with
        | none => onRt (refuse src q stAccessRefused) s
        | some _ =>
          if 8 < w.anchors.length ∨ 16384 < w.chain.length ∨ 256 < w.allow.length then onRt (refuse src q stMalformed) s
          else
            let old := match kget s.nv.listeners l with
              | some o => o.allow
              | none => []
            hold x (old.filter fun d => !decide (d ∈ x.allow))

/-- NET_LISTEN. -/
def execNetListen (src : ReqSrc) (w : Bulk) (s : State) : Res := .next (serveLen src 0x71 32 (fun q => netListen src q w) s)

/-! ## Ports and frames (R153, R154) -/

/-- A port is in Ethernet mode with its link up. -/
def portServes (rt : Rt) (p : Port) : Bool := powered rt && (portOfNet rt p).link && !(p == 1 && rt.peer.mode)

/-- PORT_LINK_UP: an Ethernet port whose module is not held in low-power mode. -/
def doPortLinkUp (p : Port) (rt : Rt) : Rt :=
  if powered rt && (cageOf rt p).present && !(cageOf rt p).lowPower && !(p == 1 && rt.peer.mode) then
    setPort p { portOfNet rt p with link := true } rt
  else rt

/-- PORT_LINK_UP. -/
def execPortLinkUp (p : Port) (s : State) : Res := .next (onRt (doPortLinkUp p) s)

/-- PORT_DOWN. -/
def execPortDown (p : Port) (s : State) : Res := .next (onRt (portLost p) s)

/-- An address of a port, with its family. -/
def addrAt (nv : Nv) (p : Port) (i : Nat) : Option NetAddr := if i < 16 then kget nv.addrs (16 * p.val + i) else none

/-- The port takes frames of a VLAN: one that an address of it is on. -/
def vlanTaken (nv : Nv) (p : Port) (v : Option Nat) : Bool :=
  match v with
  | none => true
  | some n => decide (n < 4095) && nv.addrs.any fun kv => kv.1 / 16 == p.val && kv.2.vlan == n

/-- An address is reached by a frame's VLAN tag: its own VLAN, or none where it is untagged, which FFFFh says (Table 8.2, NET_ADDR). -/
def onVlan (a : NetAddr) (v : Option Nat) : Bool := a.vlan == v.getD 0xFFFF

/-- A frame is discarded and counted. -/
def discardFrame (p : Port) (rt : Rt) : Rt := setPort p { portOfNet rt p with discarded := (portOfNet rt p).discarded + 1 } rt

/-- Serve an address of a family on the VLAN of the frame, or discard the frame. -/
def replyAt (nv : Nv) (p : Port) (vlan : Option Nat) (i : Nat) (fam : Option Nat) (kind : String) (data : Bytes) (rt : Rt) : Rt :=
  match addrAt nv p i with
  | some a => if (fam = none ∨ fam = some a.family) ∧ onVlan a vlan then emit (.netReply p.val kind data) rt else discardFrame p rt
  | none => discardFrame p rt

/-- A round trip of `r` µs enters the timer of RFC 6298: the smoothed value, the variation, and a timeout of at least 1 s. -/
def measured (rtt : Option Nat) (c : Conn) : Conn :=
  match rtt with
  | none => c
  | some r =>
    let (s, v) := match c.srtt with
      | none => (r, r / 2)
      | some (s, v) => ((7 * s + r) / 8, (3 * v + (max s r - min s r)) / 4)
    { c with srtt := some (s, v), rto := max 1000000 (s + 4 * v) }

/-- A frame that has passed the MAC's checks. Pause frames are discarded without effect; PTP goes to the clockmaker. -/
def takeFrame (nv : Nv) (p : Port) (v : Option Nat) (k : EthKind) (rt : Rt) : Rt :=
  match k with
  | .arp a => replyAt nv p v a (some 4) "ARP" [] rt
  | .neighbour a => replyAt nv p v a (some 6) "NA" [] rt
  | .echo a b => replyAt nv p v a none "ECHO_REPLY" b rt
  | .unreachable => rt
  | .tooBig c mtu =>
    (match kget rt.net.conns c with
     | some x => { rt with net := { rt.net with conns := kset rt.net.conns c { x with mtu := max 1280 (min x.mtu mtu) } } }
     | none => rt)
  | .tcp c _ _ rst rtt =>
    (match kget rt.net.conns c with
     | some x =>
       if x.port ≠ p.val then discardFrame p rt
       else if rst then closeConn c none rt
       else { rt with net := { rt.net with conns := kset rt.net.conns c (measured rtt { x with retrans := 0 }) } }
     | none => discardFrame p rt)
  | .ptp => rt
  | .pause => discardFrame p rt
  | .other => discardFrame p rt

/-- ETHERNET_FRAME_RECEIVE: a bad FCS counts; frames above 9 216 bytes, of another VLAN, and fragments are discarded. -/
def doEthernetFrame (p : Port) (f : EthFrame) (s : State) : State :=
  if !portServes s.rt p then s
  else onRt (fun rt =>
    if !f.fcsOk then setPort p { portOfNet rt p with badFcs := (portOfNet rt p).badFcs + 1 } rt
    else if 9216 < f.len || f.fragment || !vlanTaken s.nv p f.vlan then discardFrame p rt
    else takeFrame s.nv p f.vlan f.kind rt) s

/-- ETHERNET_FRAME_RECEIVE. -/
def execEthernetFrameReceive (p : Port) (f : EthFrame) (s : State) : Res := .next (doEthernetFrame p f s)

/-! ## TCP (R154, R155) -/

/-- A connection as it is accepted: its retransmission timer begins at 1 s (RFC 6298). -/
def newConn (p l b mtu : Nat) (o : TcpOpts) : Conn :=
  { port := p, listener := l, booth := b, st := .accepted, suite := 0, group := 0, scheme := 0, spki := [], version := none, rxSeq := 0,
    txSeq := 0, records := 0, txEpoch := 0, rxEpoch := 0, sendQ := 0, unacked := 0, retrans := 0, mtu := mtu, openBundle := none,
    opts := o, srtt := none, rto := 1000000, epoch := 0, arrival := 0, rxSecret := [], txSecret := [] }

/-- Replace a connection. -/
def setConn (k : Nat) (c : Conn) (rt : Rt) : Rt := { rt with net := { rt.net with conns := kset rt.net.conns k c } }

/-- The listener of an address and TCP port, whose booth is open. -/
def listenerAt (s : State) (p : Port) (addr tcpPort : Nat) : Option (Nat × Listener) :=
  s.nv.listeners.find? fun kv => kv.2.port == p.val && kv.2.addrIdx == addr && kv.2.tcpPort == tcpPort && !kv.2.removing &&
    (match boothOf s.rt kv.2.booth with
     | some b => !b.closing
     | none => false)

/-- Connections in every state from SYN_RECEIVED to TIME_WAIT (Table 8.2). -/
def allConns (rt : Rt) : Nat := rt.net.conns.length + waitingConns rt

/-- TCP_SYN: accepted on a listener, else answered with RST. -/
def doTcpSyn (p : Port) (addr tcpPort conn : Nat) (o : TcpOpts) (s : State) : State :=
  if !portServes s.rt p || (kget s.rt.net.conns conn).isSome then s
  else match (if s.rt.net.listening && decide (allConns s.rt < 16384) then listenerAt s p addr tcpPort else none) with
    | none => onRt (emit (.tcpRst p.val conn)) s
    | some (l, x) =>
      let mtu := match addrAt s.nv p addr with
        | some a => a.mtu
        | none => 1280
      onRt (setConn conn (newConn p.val l x.booth mtu o)) s

/-- TCP_SYN. -/
def execTcpSyn (p : Port) (addr : Nat) (tcpPort : Nat) (x : Syn) (s : State) : Res :=
  .next (doTcpSyn p addr tcpPort x.conn x.opts s)

/-- TCP_RETRANSMISSION_TIMEOUT: the unacknowledged segment is resent, and the timer backs off (RFC 6298). -/
def doTcpRetrans (conn : Nat) (rt : Rt) : Rt :=
  match kget rt.net.conns conn with
  | none => rt
  | some c => if c.unacked = 0 then rt else emit (.tcpResend conn (min c.unacked c.mtu)) (setConn conn { c with retrans := c.retrans + 1, rto := 2 * c.rto } rt)

/-- TCP_RETRANSMISSION_TIMEOUT. -/
def execTcpRetransmissionTimeout (conn : Nat) (s : State) : Res := .next (onRt (doTcpRetrans conn) s)

/-- TCP_KEEPALIVE_PROBE: 60 s idle. -/
def doTcpProbe (conn : Nat) (rt : Rt) : Rt := if (kget rt.net.conns conn).isSome then emit (.tcpProbe conn) rt else rt

/-- TCP_KEEPALIVE_PROBE. -/
def execTcpKeepaliveProbe (conn : Nat) (s : State) : Res := .next (onRt (doTcpProbe conn) s)

/-! ## The TLS handshake (R156 to R160) -/

/-- Table 8.3 in the module's order: cipher suites, groups, signature schemes, by their code points. -/
def tlsSuites : List Nat := [0x1302, 0x1303]
def tlsGroups : List Nat := [0x11EC, 0x001D, 0x0017, 0x0018]
def tlsSchemes : List Nat := [0x0503, 0x0403, 0x0805, 0x0804, 0x0806]

/-- The entries of a list that a mask allows. -/
def masked (m : Nat) (l : List Nat) : List Nat := (l.zipIdx.filter fun x => m.testBit x.2).map Prod.fst

/-- The schemes that a server key can sign with. -/
def keySchemes (r : SlotRec) : List Nat :=
  if r.cls = 0x21 then [0x0805, 0x0804, 0x0806] else if r.size = 2 then [0x0503] else if r.size = 1 then [0x0403] else []

/-- What the module chooses of the client's offer: suite, group (to be retried when the share lacks it), scheme. -/
structure TlsChoice where
  suite : Nat
  group : Nat
  retry : Bool
  scheme : Nat
  deriving DecidableEq, Repr

/-- The choice in the module's order of preference, within the listener's masks. -/
def tlsChoose (x : Listener) (r : SlotRec) (h : ClientHello) : Option TlsChoice :=
  let m := x.masks.toNat
  let gs := masked (bitsAt m 8 8) tlsGroups
  let suite := (masked (bitsAt m 0 8) tlsSuites).find? fun v => decide (v ∈ h.suites)
  let share := gs.find? fun v => h.shares.any fun x => x.1 == v
  let grp := if share.isSome then share else gs.find? fun v => decide (v ∈ h.groups)
  let sch := (masked (bitsAt m 16 8) tlsSchemes).find? fun v => decide (v ∈ h.schemes ∧ v ∈ keySchemes r)
  match suite, grp, sch with
  | some a, some g, some c => some { suite := a, group := g, retry := share.isNone, scheme := c }
  | _, _, _ => none

/-- The group that a HelloRetryRequest asked for. -/
def askedGroup (c : Conn) : Option Nat :=
  match c.st with
  | .retry _ g => some g
  | _ => none

/-- The client's share of a group. -/
def shareOf (h : ClientHello) (group : Nat) : Bytes := ((h.shares.find? fun x => x.1 == group).map Prod.snd).getD []

/-- The second ClientHello does not answer the retry: it lacks a share of the group asked for (RFC 8446, 4.1.2). -/
def retryBroken (c : Conn) (t : TlsChoice) : Bool :=
  match askedGroup c with
  | none => false
  | some g => t.retry || t.group != g

/-- The handshake on its die: the server key as a command's at the handshake's epoch, the choice, the client's share, the client's
authentication (R156 to R159). -/
def runHandshake (conn die : Nat) (c : Conn) (x : Listener) (house : Nat) (h : ClientHello) (rt : Rt) : Rt :=
  let fail := fun a => closeConn conn (some a) rt
  match serverKey rt c.epoch house x.key with
  | .wait => setConn conn c rt
  | .no _ => fail "internal_error"
  | .key _ r =>
    if !h.version13 then fail "protocol_version"
    else match keyMiss rt die house none c.epoch x.key h.reads, tlsChoose x r h with
      | some p, _ => closeConn conn (some "internal_error") (tileBreak p.1 p.2 rt)
      | none, none => fail "handshake_failure"
      | none, some t =>
        if retryBroken c t then fail "illegal_parameter"
        else if t.retry then
          emit (.tlsServer conn t.suite t.group t.scheme true []) (setConn conn { c with st := .retry die t.group } rt)
        else if !shareHolds t.group (shareOf h t.group) then fail "illegal_parameter"
        else match clientAlert rt x h with
          | some a => fail a
          | none =>
            emit (.tlsServer conn t.suite t.group t.scheme false x.chain)
              (setConn conn { c with st := .handshake die, suite := t.suite, group := t.group, scheme := t.scheme, spki := leafSpki h } rt)

/-- A command of the handshake's die that a clerk could take before the handshake: one of the drain list, of a level above the
booth's ceiling, or of that level and admitted before it. The handshake's level is the booth's ceiling (R184; DESIGN CHOICE, log 26: the
spec gives a handshake no priority). -/
def takenBefore (rt : Rt) (die level arrival : Nat) : Bool :=
  (pickOrder rt).any fun m => m.die == die &&
    (decide (m.id ∈ rt.disp.drain) || decide (level < m.level) || (m.level == level && decide (m.admitSeq < arrival))) &&
    (List.range 128).any fun k => clerkTakes rt k && eligible rt k m

/-- A ready handshake runs unless a command comes before it on its die (R159, R184). -/
def turnOf (conn die : Nat) (c : Conn) (x : Listener) (b : Booth) (h : ClientHello) (rt : Rt) : Rt :=
  if takenBefore rt die b.cfg.ceiling c.arrival then setConn conn c rt else runHandshake conn die c x b.cfg.house h rt

/-- A first ClientHello takes a credit of the booth, an epoch, and a place among the ready commands of the die of R7; without a credit it
waits (R159, R184). -/
def firstHello (conn : Nat) (c : Conn) (x : Listener) (b : Booth) (h : ClientHello) (rt : Rt) : Rt :=
  if b.cfg.share ≤ occupancy rt c.booth then setConn conn { c with st := .waitCredit } rt
  else match placeDie rt b.cfg.house with
    | none => closeConn conn (some "internal_error") rt
    | some d =>
      turnOf conn d { c with st := .ready d, epoch := rt.epoch, arrival := rt.disp.nextAdmit } x b h
        { rt with disp := { rt.disp with nextAdmit := rt.disp.nextAdmit + 1 } }

/-- TLS_HANDSHAKE: a first ClientHello, one that waits for a credit or for its turn, or the second one that answers a HelloRetryRequest,
whose credit, epoch and die are held (R159). -/
def doTlsHandshake (conn : Nat) (h : ClientHello) (s : State) : State :=
  match kget s.rt.net.conns conn with
  | none => s
  | some c =>
    if !inService s.rt then s
    else match kget s.nv.listeners c.listener, boothOf s.rt c.booth with
      | some x, some b =>
        (match c.st with
         | .retry d _ => onRt (runHandshake conn d c x b.cfg.house h) s
         | .ready d => onRt (turnOf conn d c x b h) s
         | .accepted => onRt (firstHello conn c x b h) s
         | .waitCredit => onRt (firstHello conn c x b h) s
         | _ => s)
      | _, _ => onRt (closeConn conn (some "internal_error")) s

/-- TLS_HANDSHAKE. -/
def execTlsHandshake (conn : Nat) (h : ClientHello) (s : State) : Res := .next (doTlsHandshake conn h s)

/-- A session is established. -/
def isEstablished (c : Conn) : Bool :=
  match c.st with
  | .established _ => true
  | _ => false

/-- HANDSHAKE_TIMEOUT: an unfinished handshake ends with a TCP RST and no alert. -/
def doHandshakeTimeout (conn : Nat) (rt : Rt) : Rt :=
  match kget rt.net.conns conn with
  | none => rt
  | some c => if isEstablished c then rt else emit (.tcpRst c.port conn) (closeConn conn none rt)

/-- HANDSHAKE_TIMEOUT. -/
def execHandshakeTimeout (conn : Nat) (s : State) : Res := .next (onRt (doHandshakeTimeout conn) s)

/-- Established sessions of a die. -/
def sessionsOn (rt : Rt) (d : Nat) : Nat := (connsWhere rt fun c => c.st == .established d).length

/-- The die of a new session: the one with fewer sessions, in partitioned mode among those with a loom of the house (R161). -/
def sessionDie (rt : Rt) (house : Nat) : Option Nat :=
  let ok := fun (d : Nat) => match rt.disp.part with
    | none => true
    | some m => m.looms.any fun kv => decide (kv.1 / 4 = d ∧ kv.2 = house)
  match ok 0, ok 1 with
  | true, true => some (if sessionsOn rt 1 < sessionsOn rt 0 then 1 else 0)
  | true, false => some 0
  | false, true => some 1
  | false, false => none

/-- SESSION_ESTABLISHED: the credit returns and the traffic secrets of both directions enter the session table (R160). -/
def doSessionEstablished (conn : Nat) (rt : Rt) : Rt :=
  match kget rt.net.conns conn with
  | none => rt
  | some c =>
    match c.st with
    | .handshake _ =>
      (match sessionDie rt (boothHouse rt c.booth) with
       | none => closeConn conn (some "internal_error") rt
       | some d =>
         let k := trafficSecret c.suite rt.freeCtr
         recount c.booth (setConn conn { c with st := .established d, rxSecret := k true, txSecret := k false }
           { rt with freeCtr := rt.freeCtr + 1 }))
    | _ => rt

/-- SESSION_ESTABLISHED. -/
def execSessionEstablished (conn : Nat) (s : State) : Res := .next (onRt (doSessionEstablished conn) s)

/-! ## Frames of a session (R162 to R169) -/

/-- 4 MiB: the send queue's limit and the input staging's. -/
def sessionLimit : Nat := 4194304

/-- Input bytes of a session that are staged. -/
def stagedInput (rt : Rt) (conn : Nat) : Nat :=
  ((rt.cmds.filter fun kv => kv.2.session == some conn && !kv.2.retired).map fun kv => kv.2.input.length).sum

/-- An OPEN of the session is outstanding (R357). -/
def openOutstanding (rt : Rt) (conn : Nat) : Bool := rt.cmds.any fun kv => kv.2.session == some conn && kv.2.desc.opcode == 1

/-- The alert of a frame-level error (R167), or none. In an OPEN byte 0 is a proposal; before a version is negotiated any other
frame names one of the module's two. -/
def frameError (c : Conn) (f : Bytes) : Option String :=
  let op := leAt f 18 2
  let known := op == 1 || (match c.version with
    | none => byteAt f 0 == 2 || byteAt f 0 == 3
    | some v => byteAt f 0 == v)
  if !known then some "decode_error"
  else if byteAt f 1 ≠ 1 ∨ !zeroAt f 2 2 ∨ !zeroAt f 12 4 then some "unexpected_message"
  else if leAt f 8 4 ≠ c.rxSeq then some "unexpected_message"
  else if 1048640 < leAt f 4 4 then some "decode_error"
  else none

/-- What the checks need to know of a session and of the request's body length. -/
def sessionCtx (rt : Rt) (b : Booth) (c : Conn) (tallies : Bool) (body : Nat) : DescCtx :=
  { fmt := 2, version := c.version, house := b.cfg.house, streaming := b.cfg.streaming, tallies := tallies, preset := presetOf rt b.cfg.preset,
    epoch := rt.epoch, body := some body }

/-- Take a REQUEST into the module: the checks, the marking, the state, and its input (R165, R166). -/
def takeRequest (progs : List ProgEntry) (tallies : Bool) (conn : Nat) (c : Conn) (b : Booth) (body : Bytes) (rt : Rt) : Rt :=
  let d := desc2 (padTo 64 (body.take 64))
  let id := rt.disp.nextCmd
  let m := newCmd id c.booth (some conn) 0 d rt.epoch b.cfg.preset
  let rt := { rt with disp := { rt.disp with nextCmd := id + 1 } }
  let r := takeDesc progs (sessionCtx rt b c tallies body.length) c.openBundle m rt
  let rt := setConn conn { c with rxSeq := (c.rxSeq + 1) % 2 ^ 32, openBundle := r.2 } r.1
  match kget rt.cmds id with
  | none => rt
  | some m =>
    if m.stage ≠ .fetched then rt
    else inputRead id m (body.drop 64) rt

/-- REQUEST_FRAME: read whole while neither the send queue nor the input staging is full, no OPEN is outstanding and a loom takes its
records (R161); a session of a removed listener reads no more. -/
def doRequestFrame (conn : Nat) (f : Bytes) (s : State) : State :=
  match kget s.rt.net.conns conn with
  | none => s
  | some c =>
    if !recordLoom s.rt c || decide (sessionLimit < c.sendQ) || openOutstanding s.rt conn ||
        decide (sessionLimit < stagedInput s.rt conn + (f.length - 80)) then s
    else match kget s.nv.listeners c.listener, boothOf s.rt c.booth with
      | some x, some b =>
        if x.removing then s
        else match frameError c f with
          | some a => onRt (closeConn conn (some a)) s
          | none =>
            if f.length ≠ 16 + leAt f 4 4 then s
            else onRt (takeRequest s.nv.progs x.tallies conn c b (f.drop 16)) s
      | _, _ => s

/-- REQUEST_FRAME. -/
def execRequestFrame (conn : Nat) (frame : List Byte) (s : State) : Res := .next (doRequestFrame conn frame s)

/-- SEND_QUEUE_DRAIN: the client takes bytes. -/
def doSendQueueDrain (conn n : Nat) (rt : Rt) : Rt :=
  match kget rt.net.conns conn with
  | none => rt
  | some c => setConn conn { c with sendQ := c.sendQ - n, unacked := c.unacked - n } rt

/-- SEND_QUEUE_DRAIN. -/
def execSendQueueDrain (conn : Nat) (n : Nat) (s : State) : Res := .next (onRt (doSendQueueDrain conn n) s)

/-- SESSION_CLOSE: the client closes or resets. -/
def execSessionClose (conn : Nat) (s : State) : Res := .next (onRt (closeConn conn none) s)

/-- SESSION_IDLE_TIMEOUT: of a listener that sets one. -/
def doSessionIdle (conn : Nat) (s : State) : State :=
  match kget s.rt.net.conns conn with
  | none => s
  | some c =>
    match kget s.nv.listeners c.listener with
    | none => s
    | some x => if isEstablished c && x.idle != 0 then onRt (fun rt => enterTimeWait conn (closeConn conn none rt)) s else s

/-- SESSION_IDLE_TIMEOUT. -/
def execSessionIdleTimeout (conn : Nat) (s : State) : Res := .next (doSessionIdle conn s)

/-- KEY_UPDATE_SEND: after 2^24 records under one key. -/
def doKeyUpdateSend (conn : Nat) (rt : Rt) : Rt :=
  match kget rt.net.conns conn with
  | none => rt
  | some c =>
    if isEstablished c && decide (16777216 ≤ c.records) then
      emit (.keyUpdate conn) (setConn conn { c with records := 0, txEpoch := c.txEpoch + 1, txSecret := nextSecret c.suite c.txSecret } rt)
    else rt

/-- KEY_UPDATE_SEND. -/
def execKeyUpdateSend (conn : Nat) (s : State) : Res := .next (onRt (doKeyUpdateSend conn) s)

/-- KEY_UPDATE_RECEIVE: at any time. -/
def doKeyUpdateReceive (conn : Nat) (rt : Rt) : Rt :=
  match kget rt.net.conns conn with
  | none => rt
  | some c => if isEstablished c then setConn conn { c with rxEpoch := c.rxEpoch + 1, rxSecret := nextSecret c.suite c.rxSecret } rt else rt

/-- KEY_UPDATE_RECEIVE. -/
def execKeyUpdateReceive (conn : Nat) (s : State) : Res := .next (onRt (doKeyUpdateReceive conn) s)

end Sys2Proof.Machine
end

