-- ==== Sys2Proof/Machine/Open.lean ====
section
/-! DEFINITION. OPEN: the negotiation of the protocol version (17 R355 to R358, Table 17.3). -/

namespace Sys2Proof.Machine

/-- An earlier command of the booth that is not admitted yet still comes before an OPEN. -/
def waitsBefore (rt : Rt) (c : Cmd) : Bool :=
  rt.cmds.any fun kv => kv.2.booth == c.booth && kv.2.session == c.session && decide (kv.1 < c.id) && !kv.2.admitted &&
    (kv.2.stage == .fetched || kv.2.stage == .input)

/-- An OPEN that the dispatch root holds and may now complete: the booth's occupancy is zero (R357). -/
def openReady (rt : Rt) (id : CmdId) : Option Cmd :=
  match kget rt.cmds id with
  | none => none
  | some c =>
    if c.stage == .input && c.desc.opcode == 1 && !c.admitted && mayRun rt && decide (occupancy rt c.booth = 0) && !waitsBefore rt c then some c
    else none

/-- The highest version of Table 17.1 within a range. -/
def chosenVersion (lo hi : Nat) : Option Nat := if lo ≤ 3 ∧ 3 ≤ hi then some 3 else if lo ≤ 2 ∧ 2 ≤ hi then some 2 else none

/-- The OPEN result (Table 17.3). -/
def openResult (s : State) (v b : Nat) (cfg : BoothCfg) : Bytes :=
  [BitVec.ofNat 8 v, BitVec.ofNat 8 (b2n (partitioned s.rt) + 2 * b2n s.nv.pairing.mode)] ++ le 2 b ++ le 2 cfg.house ++ le 4 cfg.share ++
    [BitVec.ofNat 8 cfg.ceiling] ++ zeros 5

/-- The version that a booth, or the command's session, holds from now on. -/
def setVersion (c : Cmd) (v : Nat) (rt : Rt) : Rt :=
  match c.session with
  | none => modBooth c.booth (fun x => { x with version := some v }) rt
  | some k =>
    match kget rt.net.conns k with
    | none => rt
    | some y => { rt with net := { rt.net with conns := kset rt.net.conns k { y with version := some v } } }

/-- Answer an OPEN that is ready. -/
def answerOpen (id : CmdId) (c : Cmd) (s : State) : State :=
  let lo := byteAt c.desc.inl 0
  let hi := byteAt c.desc.inl 1
  match boothOf s.rt c.booth with
  | none => s
  | some b =>
    if hi < lo ∨ lo = 0 ∨ hi = 0 ∨ !zeroAt c.desc.inl 2 12 then onRt (failWith id stMalformed) s
    else match chosenVersion lo hi with
      | none => onRt (failWith id stVersionUnsupported) s
      | some v =>
        let rt := modCmd id (fun c => { c with epoch := s.rt.epoch }) s.rt
        let rt := if c.desc.outLim.toNat < 16 then rt else setVersion c v rt
        { s with rt := doneCmd id (openResult s v c.booth b.cfg) [] 16 rt }

/-- OPEN. -/
def doOpen (id : CmdId) (s : State) : State :=
  match openReady s.rt id with
  | none => s
  | some c => answerOpen id c s

/-- OPEN. -/
def execOpenCmd (id : CmdId) (s : State) : Res := .next (doOpen id s)

end Sys2Proof.Machine
end

