-- ==== Sys2Proof/Machine/Peer.lean ====
section
/-! DEFINITION. The peer link (08 R170 to R177): link-up and link keys, records from the twin, re-pairing, the whole copy, and the
requests PEER_CONFIG, PEER_PAIR, PEER_UNPAIR and PEER_RESYNC. -/

namespace Sys2Proof.Machine

/-! ## The link (R172) -/

/-- A key that can be the pairing key: a class 30h AES-256 key in a dual-control slot (R171, 13 Table 13.2). -/
def pairingOk (r : SlotRec) : Bool := r.cls == 0x30 && r.usage == uOwn 7 && r.alg == algA && r.size == 0x20 && r.flags.testBit 0

/-- The pairing key of a handle, in the operator house. -/
def pairingKey (rt : Rt) (h : BitVec 64) : Found :=
  match resolve rt 0 none rt.epoch true h with
  | .wait => .wait
  | .no st => .no st
  | .key slot r => usable rt none rt.epoch slot r pairingOk

/-- A link key from its sender to its receiver: HKDF-SHA-384 of the pairing key over nonces and serials; the order in which
they enter is left open. -/
def linkKey (n : Nat) (key : Bytes) (l : List Bytes) : Bytes := hkdfExpand (hmac .sha384 (Config.peerSalt n l) key) (Config.peerInfo n l) 32

/-- Install the keys of both directions and begin their frame counts; the module of the higher serial has direction bit 1. -/
def setLinkKeys (n : Nat) (key own twin ownSerial twinSerial : Bytes) (p : Peer) : Peer :=
  { p with txKey := linkKey n key [own, ownSerial, twin, twinSerial]
           rxKey := linkKey n key [twin, twinSerial, own, ownSerial]
           txFrames := 0, rxFrames := 0, nonceOwn := own, nonceTwin := twin, high := decide (ofBe twinSerial < ofBe ownSerial) }

/-- The confirmation frame that the twin sends: the first frame of its direction, with its serial (R172; its content is log 33's
choice). -/
def twinConfirm (p : Peer) (serial : Bytes) : Bytes := gcmEnc p.rxKey (peerNonce (!p.high) 0) [] (peerBytes 1 0 serial)

/-- The link stays down: PEER_AUTH (R172). -/
def authFails (rt : Rt) : Rt :=
  raise (plainEvent .peerAuth []) { rt with peer := { rt.peer with linkUp := false, paired := false } }

/-- Port B can carry the peer link: powered, in peer-link mode, with a module that is not held in low-power mode. -/
def peerPort (rt : Rt) : Bool := powered rt && rt.peer.mode && rt.cageB.present && !rt.cageB.lowPower

/-- The twin counts as paired once the link's keys are confirmed, in SERVICE, unless the strongrooms have parted (R175). -/
def pairNow (s : State) : Bool := inService s.rt && !s.rt.peer.diverged && !s.nv.pairing.copying

/-- The whole strongroom as a copy brings it: each slot that is not as at manufacture, with its bytes. -/
def copyBytes (l : KMap SlotRec) : Bytes := l.flatMap fun kv => le 4 kv.1 ++ slotBytes kv.1 kv.2

/-- A SOURCE that owes its copy sends it while the link is up (R171, R177). -/
def sendCopy (s : State) : State :=
  if s.nv.pairing.sending && s.rt.peer.linkUp then
    { s with rt := peerSend 6 0 (copyBytes s.rt.strong.slots) s.rt, nv := { s.nv with pairing := { s.nv.pairing with sending := false } } }
  else s

/-- PEER_LINK_UP: serial and nonce are exchanged, link keys derived and confirmed. PEER_LOST stays until the records of the loss are
resent (R176). -/
def doPeerLinkUp (serial nonce confirm : Bytes) (s : State) : State :=
  match s.nv.pairing.twin with
  | none => s
  | some twin =>
    if !peerPort s.rt || s.rt.peer.linkUp || !s.rt.boot.serviceReady then s
    else match drawNow 1 32 s.rt with
      | none => s
      | some (own, rt) =>
        let rt := emit (.peer "hello" 0 (s.otp.serial ++ own)) rt
        match pairingKey rt s.nv.pairing.keyHandle with
        | .wait => s
        | .no _ => { s with rt := authFails rt }
        | .key slot r =>
          let p := setLinkKeys 0 (materialOf rt none rt.epoch slot r) own nonce s.otp.serial serial rt.peer
          if serial ≠ twin then { s with rt := authFails rt }
          else
            let rt := peerSend 1 0 s.otp.serial { rt with peer := p }
            if confirm ≠ twinConfirm p serial then { s with rt := authFails rt }
            else sendCopy { s with rt := peerGot { rt with peer := { rt.peer with linkUp := true, paired := pairNow s } } }

/-- PEER_LINK_UP. -/
def execPeerLinkUp (serial nonce confirm : Bytes) (s : State) : Res := .next (doPeerLinkUp serial nonce confirm s)

/-- PEER_REKEY: new link keys after 2^32 frames in a direction; both directions begin again. -/
def doPeerRekey (tx : Bool) (s : State) : State :=
  let p := s.rt.peer
  if !p.linkUp || decide ((if tx then p.txFrames else p.rxFrames) < 2 ^ 32) then s
  else match pairingKey s.rt s.nv.pairing.keyHandle, s.nv.pairing.twin with
    | .key slot r, some twin =>
      let key := materialOf s.rt none s.rt.epoch slot r
      onRt (fun rt => { rt with freeCtr := rt.freeCtr + 1
                                peer := setLinkKeys (rt.freeCtr + 1) key p.nonceOwn p.nonceTwin s.otp.serial twin p }) s
    | _, _ => s

/-- PEER_REKEY. -/
def execPeerRekey (tx : Bool) (s : State) : Res := .next (doPeerRekey tx s)

/-- The link serves: up, with flash at work and no halt. -/
def linkServes (s : State) : Bool := s.rt.peer.linkUp && flashWorks s.rt && mayRun s.rt

/-! ## Records of the twin (R173, R174) -/

/-- A slot change of the twin as it would be applied here. The epoch is the module's own: a change that takes a key or alters it
is a policy change of its house (09 Table 9.3); officer and house records are one only when they go. -/
def twinChange (rt : Rt) (c : PeerChange) : SlotChange :=
  let old := slotIn rt none c.slot
  let new := slotOfBytes c.image
  { slot := c.slot, genBefore := c.genBefore, after := new, house := if isOccupied old then old.house else new.house, member := 0
    policy := isKey old && old != new && (old.cls != 2 || !isKey new) }

/-- A record here that is not yet marked names a slot: one held for the twin, or an own one under way (R173, R174). -/
def namedHere (nv : Nv) (slot : Nat) : Bool := nv.journal.any fun r => !r.marked && r.pairSeq.isSome && r.changes.any fun c => c.slot == slot

/-- Step 2 of R173: the first slot whose generation differs, or that a record here names. -/
def conflictOf (s : State) (r : PeerRecord) : Option Nat :=
  (r.changes.find? fun c => (slotIn s.rt none c.slot).gen != c.genBefore || namedHere s.nv c.slot).map PeerChange.slot

/-- The journal record of a record of the twin. -/
def twinRecord (rt : Rt) (r : PeerRecord) : JRec :=
  { seq := rt.strong.nextSeq, epoch := rt.epoch, bundle := none, pairSeq := some r.seq, changes := r.changes.map (twinChange rt),
    entries := [], complete := false, marked := false, retired := false, held := true, acked := false }

/-- Add a record to the journal. -/
def addRecord (r : JRec) (s : State) : State :=
  { s with rt := { s.rt with strong := { s.rt.strong with nextSeq := s.rt.strong.nextSeq + 1 } }
           nv := { s.nv with journal := s.nv.journal ++ [r] } }

/-- PEER_RECORD_RECEIVE: the twin's record is journaled as held, or refused by naming a conflicting slot. The acknowledgement
follows when the record is on flash (JOURNAL_RECORD_WRITTEN). -/
def doPeerRecordReceive (r : PeerRecord) (s : State) : State :=
  if !linkServes s || decide (32 ≤ unretired s.nv) then s
  else
    let s := onRt peerGot s
    match conflictOf s r with
    | some slot => onRt (peerSend 4 r.seq (le 4 slot)) s
    | none => addRecord (twinRecord s.rt r) s

/-- PEER_RECORD_RECEIVE. -/
def execPeerRecordReceive (r : PeerRecord) (s : State) : Res := .next (doPeerRecordReceive r s)

/-- The journal record with a pair sequence. -/
def pairRecord (nv : Nv) (held : Bool) (q : Nat) : Option JRec := nv.journal.find? fun r => r.held == held && r.pairSeq == some q

/-- PEER_ACK_RECEIVE: the acknowledgement is step 2 of the commit; a refusal fails the bundle with KEY_STALE at the first member
that changes the conflicting slot (R174). -/
def doPeerAckReceive (q : Nat) (refusedSlot : Option Nat) (s : State) : State :=
  match pairRecord s.nv false q with
  | none => s
  | some r =>
    if !linkServes s || !s.rt.peer.paired || r.acked || r.marked then s
    else
      let s := onRt peerGot s
      match refusedSlot with
      | none => { s with nv := modRecord r.seq (fun r => { r with acked := true }) s.nv }
      | some slot =>
        match r.bundle with
        | none => s
        | some u => failCommit u (((r.changes.find? fun c => c.slot == slot).map SlotChange.member).getD 0) stKeyStale s

/-- PEER_ACK_RECEIVE. -/
def execPeerAckReceive (q : Nat) (refusedSlot : Option Nat) (s : State) : Res := .next (doPeerAckReceive q refusedSlot s)

/-- PEER_COMMIT_NOTICE: the origin has committed; the twin's own mark may follow (COMMIT_MARK_WRITTEN). -/
def doPeerCommitNotice (q : Nat) (s : State) : State :=
  match pairRecord s.nv true q with
  | none => s
  | some r =>
    if linkServes s && r.complete && !r.acked then
      onRt peerGot { s with nv := modRecord r.seq (fun r => { r with acked := true }) s.nv }
    else s

/-- PEER_COMMIT_NOTICE. -/
def execPeerCommitNotice (q : Nat) (s : State) : Res := .next (doPeerCommitNotice q s)

/-! ## Loss and re-pairing (R175 to R177) -/

/-- PEER_LOST: the twin stops being paired. Held records stay held. -/
def doPeerLost (s : State) : State :=
  let s' := onRt (fun rt => { rt with peer := { rt.peer with linkUp := false } }) s
  if s.rt.peer.paired then twinLost s' else s'

/-- PEER_LOST. -/
def execPeerLost (s : State) : Res := .next (doPeerLost s)

/-- Pairing stops until PEER_RESYNC: PEER_DIVERGED names the first conflicting slot, and the ledger records it. -/
def diverge (slot : Nat) (s : State) : State :=
  let s := onRt (fun rt => raise (plainEvent .peerDiverged (le 4 slot))
    { rt with peer := { rt.peer with diverged := true, paired := false, lost := true } }) s
  let s := { s with nv := { s.nv with journal := s.nv.journal.map fun r => if r.held then r else { r with acked := true }
                                      pairing := { s.nv.pairing with diverged := true } } }
  if ledgerFull s.nv then s else writeEntry (moduleEvent 0x0104 (le 4 slot)) s

/-- Apply one resent record: journal it, mark it and write it to the persistent copies. -/
def applyResent (r : PeerRecord) (s : State) : State :=
  let x := { twinRecord s.rt r with complete := true, acked := true }
  doPersistentTileWrite x.seq (commitRecord x (addRecord x s))

/-- Apply the resent records in order; the first that fails the check of R173 ends it with a slot. -/
def applyAll : List PeerRecord → State → Option Nat × State
  | [], s => (none, s)
  | r :: l, s =>
    if r.seq ≤ s.nv.pairing.appliedTwin then applyAll l s
    else match conflictOf s r with
      | some slot => (some slot, s)
      | none => applyAll l (applyResent r s)

/-- Records that a module keeps for resending (R177). -/
def retainMax : Nat := 16777216

/-- PEER_REPAIR_RESEND: each side reports what it has applied; every later record is resent; the twin's resent records are
applied and every held record is discarded; PEER_LOST clears. An overflow names slot 0 (DESIGN CHOICE, log 33). -/
def doPeerRepairResend (twinApplied : Nat) (records : List PeerRecord) (s : State) : State :=
  if !linkServes s || !pairNow s then s
  else
    let keep := s.nv.pairing.retained.filter fun r => decide (twinApplied < r.seq)
    let full := decide (retainMax < keep.length)
    let nv := { s.nv with journal := s.nv.journal.filter fun r => !r.held || r.marked
                          pairing := { s.nv.pairing with retained := keep } }
    let got := fun (rt : Rt) => { rt with peer := { rt.peer with rxFrames := rt.peer.rxFrames + records.length + 1 } }
    let s := { s with nv := nv, rt := peerSend 7 s.nv.pairing.appliedTwin [] (got s.rt) }
    if full then diverge 0 s
    else
      let s := onRt (fun rt => keep.foldl (fun rt r => peerSend 2 r.seq (recordBytes r.changes) rt) rt) s
      match applyAll records s with
      | (some slot, s) => diverge slot s
      | (none, s) => onRt (fun rt => { rt with peer := { rt.peer with paired := true, lost := false } }) s

/-- PEER_REPAIR_RESEND. -/
def execPeerRepairResend (twinApplied : Nat) (records : List PeerRecord) (s : State) : Res :=
  .next (doPeerRepairResend twinApplied records s)

/-! ## The whole copy (R171, R177) -/

/-- The strongroom that a copy brings. -/
def copiedSlots (l : List (Nat × Bytes)) : KMap SlotRec := l.foldl (fun m x => kput SlotRec.free m x.1 (slotOfBytes x.2)) []

/-- The tiles that a copy writes: those of both strongrooms. -/
def copiedTiles (l : List (Nat × Bytes)) (old : KMap SlotRec) : List Nat :=
  old.foldl (fun t kv => addTo (tileOf kv.1) t) (l.foldl (fun t x => addTo (tileOf x.1) t) [])

/-- PEER_COPY_END: the SOURCE's strongroom replaces the TARGET's in the working and persistent copies, failed tiles become whole,
own changes are lost, and commands are served again. -/
def doPeerCopyEnd (slots : List (Nat × Bytes)) (s : State) : State :=
  if !s.nv.pairing.copying || !linkServes s then s
  else
    let m := copiedSlots slots
    let tiles := copiedTiles slots s.rt.strong.slots
    let nv := { s.nv with slots := m, vers := bumpVers tiles s.nv.vers, journal := []
                          pairing := { s.nv.pairing with copying := false, diverged := false, retained := [] } }
    let rt := dropTiles (fun _ => true) (peerGot s.rt)
    let rt := { rt with
      strong := { rt.strong with slots := m, vers := bumpVers tiles rt.strong.vers, failed := [], shadow := [] }
      peer := { rt.peer with copying := false, diverged := false, lost := false, paired := inService rt } }
    { s with nv := nv, rt := rt }

/-- PEER_COPY_END. -/
def execPeerCopyEnd (slots : List (Nat × Bytes)) (s : State) : Res := .next (doPeerCopyEnd slots s)

/-! ## The requests (Table 17.10) -/

/-- A request that the operator house's latch must allow, which closes with its acceptance (Table 13.7, R286). -/
def operatorLatch (src : ReqSrc) (q : Req) (body : State → State) (s : State) : State :=
  if latchFor s.rt 0 0xFFFF none then body s else onRt (refuse src q stDualControl) s

/-- Accept a request: the latch closes and DONE answers it. -/
def acceptPeer (src : ReqSrc) (q : Req) (rt : Rt) : Rt := answer src q stDone [] { rt with twoKey := .closed }

/-- PEER_CONFIG: port B's mode for the next reset. -/
def peerConfig (src : ReqSrc) (q : Req) (s : State) : State :=
  let m := byteAt q.params 0
  if 1 < m then onRt (refuse src q stMalformed) s
  else operatorLatch src q (fun s =>
    onRt (acceptPeer src q) { s with nv := { s.nv with pairing := { s.nv.pairing with nextMode := m == 1 } } }) s

/-- PEER_CONFIG. -/
def execPeerConfig (src : ReqSrc) (s : State) : Res := .next (serveLen src 0x72 1 (peerConfig src) s)

/-- Start a copy: records kept for resending and held records go, a TARGET refuses commands until the copy ends, and a SOURCE owes the
copy. -/
def startCopy (target : Bool) (p : Pairing) (s : State) : State :=
  { s with nv := { s.nv with pairing := { p with target := target, copying := target, sending := !target, diverged := false, retained := [] }
                             journal := s.nv.journal.filter fun r => !r.held || r.marked }
           rt := { s.rt with peer := { s.rt.peer with copying := target, diverged := false, lost := false
                                                      paired := s.rt.peer.linkUp && inService s.rt && !target } } }

/-- PEER_PAIR: pairing begins (R171). -/
def peerPair (src : ReqSrc) (q : Req) (s : State) : State :=
  let p := q.params
  let h := BitVec.ofNat 64 (leAt p 16 8)
  if 1 < byteAt p 24 then onRt (refuse src q stMalformed) s
  else if !s.rt.peer.mode || ledgerFull s.nv then onRt (refuse src q stStateRefused) s
  else match pairingKey s.rt h with
    | .wait => s
    | .no st => onRt (refuse src q st) s
    | .key _ _ =>
      operatorLatch src q (fun s =>
        let pr := { s.nv.pairing with twin := some (slice p 0 16), keyHandle := h, nextSeq := 1, appliedTwin := 0 }
        let s := onRt (fun rt => { unpair rt with peer := { (unpair rt).peer with linkUp := false } }) s
        onRt (acceptPeer src q) (writeEntry (moduleEvent 0x0102 []) (startCopy (byteAt p 24 == 1) pr s))) s

/-- PEER_PAIR. -/
def execPeerPair (src : ReqSrc) (s : State) : Res := .next (serveLen src 0x73 25 (peerPair src) s)

/-- PEER_UNPAIR: the pairing ends here, and the twin stops being paired (R175); what waits for the twin commits alone, held records go. -/
def peerUnpair (src : ReqSrc) (q : Req) (s : State) : State :=
  if s.nv.pairing.twin.isNone || ledgerFull s.nv then onRt (refuse src q stStateRefused) s
  else operatorLatch src q (fun s =>
    let nv := { s.nv with
      pairing := { s.nv.pairing with twin := none, keyHandle := 0, copying := false, sending := false, diverged := false, retained := [] }
      journal := (s.nv.journal.filter fun r => !r.held || r.marked).map fun r => { r with acked := true } }
    let rt := { unpair s.rt with peer := { Rt.reset.peer with mode := s.rt.peer.mode } }
    onRt (acceptPeer src q) (writeEntry (moduleEvent 0x0103 []) { s with nv := nv, rt := rt })) s

/-- PEER_UNPAIR. -/
def execPeerUnpair (src : ReqSrc) (s : State) : Res := .next (serveLen src 0x74 0 (peerUnpair src) s)

/-- PEER_RESYNC: the SOURCE's strongroom is copied to the TARGET again (R177). -/
def peerResync (src : ReqSrc) (q : Req) (s : State) : State :=
  let m := byteAt q.params 0
  if 1 < m then onRt (refuse src q stMalformed) s
  else if !s.rt.peer.mode || s.nv.pairing.twin.isNone || ledgerFull s.nv then onRt (refuse src q stStateRefused) s
  else operatorLatch src q (fun s =>
    onRt (acceptPeer src q) (sendCopy (writeEntry (moduleEvent 0x0105 [BitVec.ofNat 8 m]) (startCopy (m == 1) s.nv.pairing s)))) s

/-- PEER_RESYNC. -/
def execPeerResync (src : ReqSrc) (s : State) : Res := .next (serveLen src 0x75 1 (peerResync src) s)

end Sys2Proof.Machine
end

