-- ==== Sys2Proof/Machine/Privileged.lean ====
section
/-! DEFINITION. Karua-20 privileged instructions of the head clerks (11 Table 11.3, R251; 10 R221). -/

namespace Sys2Proof.Machine

/-- The clerk with another MODE. -/
def setMode (c : ClerkId) (m : Nat) (rt : Rt) : Rt :=
  setClerk c { clerkOf rt c with sw := swSetMode (clerkOf rt c).sw m } rt

/-- A register reserved to the monitor is met in supervisor mode (R251). -/
def monitorOnly (rt : Rt) (c : ClerkId) (n : Nat) : Bool :=
  swMode (clerkOf rt c).sw == 2 && decide (n ∈ rt.head.monitorOnly)

/-- MCALL enters monitor mode from supervisor mode at a numbered entry; an entry that the table lacks traps ADDRESS (R251). -/
def opMcall (x : Args) (rt : Rt) : KOut :=
  let n := valW rt x.ck x.la
  match kget rt.head.entries n with
  | some a =>
    if swMode (clerkOf rt x.ck).sw = 2 ∧ n < 256 then
      .jump a.toNat (setMode x.ck 3 { rt with head := { rt.head with retIc := BitVec.ofNat 20 x.next } })
    else .trap trapAddress
  | none => .trap trapAddress

/-- The row of MCALL (11 Table 11.3). -/
def fmtMcall : Fmt := { op := 0x90, a := some .w, b := none, c := none, sets := false, rmw := false }

/-- MCALL. -/
def execMcall (c : ClerkId) (o : Opnds) (s : State) : Res := karua fmtMcall noLen opMcall c o s

/-- MRET returns to the supervisor instruction that follows the MCALL (R251). -/
def opMret (x : Args) (rt : Rt) : KOut :=
  if swMode (clerkOf rt x.ck).sw = 3 then .jump rt.head.retIc.toNat (setMode x.ck 2 rt) else .trap trapPrivileged

/-- The row of MRET (11 Table 11.3). -/
def fmtMret : Fmt := { op := 0x91, a := none, b := none, c := none, sets := false, rmw := false }

/-- MRET. -/
def execMret (c : ClerkId) (o : Opnds) (s : State) : Res := karua fmtMret noLen opMret c o s

/-- IOR reads a head-clerk internal register; one that the module has not been told the value of is free (R251). -/
def opIor (x : Args) (rt : Rt) : KOut :=
  let n := valW rt x.ck x.lb
  if monitorOnly rt x.ck n then .trap trapPrivileged
  else
    match kget rt.head.regs n with
    | some v => .go noFlags (putW x.ck x.la v.toNat rt)
    | none => .go noFlags (putW x.ck x.la (Config.freeWord rt.freeCtr).toNat { rt with freeCtr := rt.freeCtr + 1 })

/-- The row of IOR (11 Table 11.3). -/
def fmtIor : Fmt := { op := 0x92, a := some .W, b := some .w, c := none, sets := false, rmw := false }

/-- IOR. -/
def execIor (c : ClerkId) (o : Opnds) (s : State) : Res := karua fmtIor noLen opIor c o s

/-- IOW writes a head-clerk internal register: the number in A, the value in B (R251). -/
def opIow (x : Args) (rt : Rt) : KOut :=
  let n := valW rt x.ck x.la
  if monitorOnly rt x.ck n then .trap trapPrivileged
  else .go noFlags { rt with head := { rt.head with regs := kset rt.head.regs n (BitVec.ofNat 20 (valW rt x.ck x.lb)) } }

/-- The row of IOW (11 Table 11.3). -/
def fmtIow : Fmt := { op := 0x93, a := some .w, b := some .w, c := none, sets := false, rmw := false }

/-- IOW. -/
def execIow (c : ClerkId) (o : Opnds) (s : State) : Res := karua fmtIow noLen opIow c o s

/-- WAITI stalls until a head-clerk interrupt (R251). -/
def opWaiti (_ : Args) (rt : Rt) : KOut :=
  .wait .interrupt noFlags rt

/-- The row of WAITI (11 Table 11.3). -/
def fmtWaiti : Fmt := { op := 0x94, a := none, b := none, c := none, sets := false, rmw := false }

/-- WAITI. -/
def execWaiti (c : ClerkId) (o : Opnds) (s : State) : Res := karua fmtWaiti noLen opWaiti c o s

end Sys2Proof.Machine
end

