-- ==== Sys2Proof/Machine/Sign.lean ====
section
/-! DEFINITION. Signatures, key agreement and decapsulation (18 R391, R392), with the input validation of the reckoners
(15 Tables 15.4, 15.5). -/

namespace Sys2Proof.Machine

/-! ## What SIGN and VERIFY share -/

/-- The hash of inline byte 1. -/
def sigHash (code : Nat) : HashAlg := if code = 1 then .sha256 else if code = 2 then .sha384 else .sha512

/-- Scheme, hash and DIGEST do not combine, or version 2 asks for scheme 04h (R375, R391). -/
def schemeRefused (v2 : Bool) (scheme hash : Nat) (dig : Bool) : Bool :=
  if scheme = 4 then v2 || dig || hash != 0
  else !decide (1 ≤ scheme ∧ scheme ≤ 3) || !decide (1 ≤ hash ∧ hash ≤ 3)

/-- A scheme suits a key's algorithm. -/
def schemeFits (scheme alg : Nat) : Bool :=
  if scheme = 4 then alg == algL else if scheme = 3 then alg == algE else alg == algR

/-- The length of a signature under a key. -/
def sigLen (alg size : Nat) : Nat :=
  if alg = algR then 32 * size else if alg = algE then 2 * curveBytes size else if size = 2 then 3309 else 4627

/-- The first refusal among the fields of a private key, which the locksmith reports (15 Table 15.5). -/
def keyRefused (r : SlotRec) (m : Bytes) : Option Nat := (longFields r m).findSome? Field.bad

/-- Use a private key: its fields pass their checks. -/
def withPrivate (x : JobCtx) (body : Nat → SlotRec → Bytes → State → State) (s : State) : State :=
  withKey x x.cmd.desc.key1 (accepts x.cmd.desc.opcode.toNat false) (fun slot r m s =>
    match keyRefused r m with
    | some why => refuseJobInput x why s
    | none => body slot r m s) s

/-- A component of an ECDSA signature is refused (class 3 of 15 Table 15.4). -/
def scalarRefused (v n : Nat) : Option Nat := if v = 0 then some 0x30 else if n ≤ v then some 0x32 else none

/-- The base of an RSA operation is refused (class 1 of 15 Table 15.4). -/
def baseRefused (v n : Nat) : Option Nat := if v = 0 then some 0x30 else if v = 1 then some 0x31 else if n ≤ v then some 0x32 else none

/-! ## SIGN -/

/-- The RSA private operation by the Chinese remainder theorem. -/
def rsaCrt (size : Nat) (m : Bytes) (v : Nat) : Nat :=
  let h := 16 * size
  let f := fun i => beAt m (32 * size + 4 + i * h) h
  let p := f 0
  let q := f 1
  let s1 := powMod (v % p) (f 2) p
  let s2 := powMod (v % q) (f 3) q
  s2 + q * (f 4 * subMod s1 s2 p % p)

/-- The modulus bits of an RSA key. -/
def rsaBits (size : Nat) (m : Bytes) : Nat := Nat.log2 (beAt m 0 (32 * size)) + 1

/-- The modulus is long enough for PSS with a salt of the hash's length. -/
def pssFits (bits hl : Nat) : Bool := decide (2 * hl + 2 ≤ cdiv (bits - 1) 8)

/-- Random bytes that a signature draws. -/
def sigRandom (scheme hash size : Nat) : Nat :=
  match scheme with
  | 2 => digestLen 0 (sigHash hash)
  | 3 => curveBytes size + 8
  | 4 => 32
  | _ => 0

/-- The signature of a digest, or of a message under scheme 04h; none when the drawn secret gives none and is drawn anew. -/
def signWith (scheme hash : Nat) (r : SlotRec) (m rnd dig : Bytes) : Option Bytes :=
  match scheme with
  | 1 => some (be (32 * r.size) (rsaCrt r.size m (ofBe (emsaPkcs1 (sigHash hash) (32 * r.size) dig))))
  | 2 => some (be (32 * r.size) (rsaCrt r.size m (ofBe (emsaPss (sigHash hash) (rsaBits r.size m) dig rnd))))
  | 3 =>
    let c := curveOf r.size
    let n := curveBytes r.size
    (ecdsaSign c (beAt m 0 n) (ofBe rnd % (c.n - 1) + 1) dig).map fun v => be n v.1 ++ be n v.2
  | _ => some (exactly (sigLen r.alg r.size) (Config.mlDsaSign r.size m rnd dig))

/-- The number that an RSA signature raises to the private exponent. -/
def rsaMessage (scheme hash : Nat) (r : SlotRec) (m rnd dig : Bytes) : Nat :=
  if scheme = 1 then ofBe (emsaPkcs1 (sigHash hash) (32 * r.size) dig)
  else ofBe (emsaPss (sigHash hash) (rsaBits r.size m) dig rnd)

/-- CHK kind 1 on an RSA signature: its power with the public exponent is the message (15 Table 15.8). -/
def rsaHolds (size : Nat) (m : Bytes) (v : Nat) (sig : Bytes) : Bool :=
  powMod (ofBe sig) (beAt m (32 * size) 4) (beAt m 0 (32 * size)) == v

/-- A key whose fields do not belong together fails CHK: DEVICE_FAULT, no output, and RECKONER_INVARIANT (15 R337). Which
reckoner the library claimed is free. -/
def rsaFault (x : JobCtx) (slot : Nat) (s : State) : State :=
  let i := Config.libReckoner s.rt.freeCtr % 16
  let e : FaultEvent := { source := .reckonerInvariant, scope := 0, island := some (18 * x.cmd.die + 10 + i / 8),
                          booth := some x.cmd.booth, detail := bytesOf [i, 1] ++ le 4 slot, houseProg := false }
  onRt (fun rt => raise e { rt with freeCtr := rt.freeCtr + 1 }) (failJob x stDeviceFault s)

/-- The end of a signature: an RSA message that the reckoner refuses, an invariant that fails, or the signature. -/
def signEnd (x : JobCtx) (slot scheme hash : Nat) (r : SlotRec) (m rnd dig sig : Bytes) (s : State) : State :=
  let v := rsaMessage scheme hash r m rnd dig
  if scheme = 1 ∨ scheme = 2 then
    match baseRefused v (beAt m 0 (32 * r.size)) with
    | some why => refuseJobInput x why s
    | none => if rsaHolds r.size m v sig then doneJob x [] sig 0 s else rsaFault x slot s
  else doneJob x [] sig 0 s

/-- SIGN. -/
def signCmd (x : JobCtx) (s : State) : State :=
  let p := x.cmd.desc.inl
  let b := x.cmd.input
  let scheme := byteAt p 0
  let hash := byteAt p 1
  let dig := byteAt p 2 == 1
  let v2 := versionOf s.rt x.cmd == some 2
  if 1 < byteAt p 2 ∨ !zeroAt p 3 11 ∨ (!dig ∧ 524288 < b.length) then failJob x stMalformed s
  else if schemeRefused v2 scheme hash dig || (dig && decide (b.length ≠ digestLen 0 (sigHash hash))) then refuseJobInput x 0x0A s
  else withPrivate x (fun slot r m s =>
    if !schemeFits scheme r.alg || (scheme == 2 && !pssFits (rsaBits r.size m) (digestLen 0 (sigHash hash))) then refuseJobInput x 0x0A s
    else withRandom x (sigRandom scheme hash r.size) (fun rnd s =>
      let d := if dig ∨ scheme = 4 then b else digest (sigHash hash) 0 b
      match signWith scheme hash r m rnd d with
      | none => s
      | some sig => signEnd x slot scheme hash r m rnd d sig s) s) s

/-- SIGN. -/
def execSign (id : CmdId) (s : State) : Res := .next (runCmd id 0x0200 signCmd s)

/-! ## VERIFY -/

/-- The verdict on a signature of a digest, or the reason with which the reckoner refuses a value. -/
def verifyWith (scheme hash size : Nat) (k dig sig : Bytes) : Except Nat Bool :=
  let rsa := fun (check : Nat → Nat → Bool) =>
    let n := beAt k 0 (32 * size)
    let v := ofBe sig
    match baseRefused v n with
    | some why => .error why
    | none => .ok (check n (powMod v (beAt k (32 * size) 4) n))
  match scheme with
  | 1 => rsa fun _ em => be (32 * size) em == emsaPkcs1 (sigHash hash) (32 * size) dig
  | 2 => rsa fun n em =>
      let bits := Nat.log2 n + 1
      let l := cdiv (bits - 1) 8
      decide (em < 256 ^ l) && pssVerify (sigHash hash) bits dig (be l em)
  | 3 =>
    let c := curveOf size
    let n := curveBytes size
    let q := (beAt k 1 n, beAt k (1 + n) n)
    let r := beAt sig 0 n
    let t := beAt sig n n
    match pointRefused c q.1 q.2, scalarRefused r c.n, scalarRefused t c.n with
    | some why, _, _ => .error why
    | none, some why, _ => .error why
    | none, none, some why => .error why
    | none, none, none => .ok (ecdsaVerify c q dig r t)
  | _ => .ok (Config.mlDsaVerify size k dig sig)

/-- VERIFY. -/
def verifyCmd (x : JobCtx) (s : State) : State :=
  let p := x.cmd.desc.inl
  let b := x.cmd.input
  let scheme := byteAt p 0
  let hash := byteAt p 1
  let dig := byteAt p 2 == 1
  let v2 := versionOf s.rt x.cmd == some 2
  if 1 < byteAt p 2 ∨ !zeroAt p 3 11 then failJob x stMalformed s
  else if schemeRefused v2 scheme hash dig then refuseJobInput x 0x0A s
  else withKey x x.cmd.desc.key1 (accepts 0x0201 false) (fun _ r k s =>
    let n := sigLen r.alg r.size
    let len := b.length - n
    if !schemeFits scheme r.alg || decide (b.length < n) || (dig && decide (len ≠ digestLen 0 (sigHash hash))) then
      refuseJobInput x 0x0A s
    else if !dig ∧ 2097152 < len then failJob x stMalformed s
    else
      let msg := b.take len
      let d := if dig ∨ scheme = 4 then msg else digest (sigHash hash) 0 msg
      match verifyWith scheme hash r.size k d (b.drop len) with
      | .error why => refuseJobInput x why s
      | .ok ok => doneJob x [if ok then 0#8 else 1#8] [] 0 s) s

/-- VERIFY. -/
def execVerify (id : CmdId) (s : State) : Res := .next (runCmd id 0x0201 verifyCmd s)

/-! ## KEY_AGREE and KEM_DECAPSULATE (R392) -/

/-- The length of a peer's public value. -/
def peerLen (size : Nat) : Nat := if size ≤ 3 then 2 * curveBytes size else curveBytes size

/-- The shared value of a private key and a peer's public value, or the reason of 15 Table 15.5. -/
def sharedValue (size : Nat) (m peer : Bytes) : Except Nat Bytes :=
  let n := curveBytes size
  if size ≤ 3 then
    let c := curveOf size
    let q := (beAt peer 0 n, beAt peer n n)
    match pointRefused c q.1 q.2 with
    | some why => .error why
    | none =>
      match ptMul c (beAt m 0 n) (some q) with
      | none => .error 0x34
      | some z => .ok (be n z.1)
  else
    match uRefused size (ofLe peer) with
    | some why => .error why
    | none =>
      let z := montgomery size (m.take n) peer
      if allZero z then .error 0x34 else .ok z

/-- KEY_AGREE. -/
def keyAgree (x : JobCtx) (s : State) : State :=
  let p := x.cmd.desc.inl
  let b := x.cmd.input
  let n := byteAt p 0
  if n < 16 ∨ 64 < n ∨ !zeroAt p 2 12 then failJob x stMalformed s
  else if byteAt p 1 ≠ 1 ∧ byteAt p 1 ≠ 2 then refuseJobInput x 0x0A s
  else withPrivate x (fun _ r m s =>
    let l := peerLen r.size
    if b.length < l ∨ l + 256 < b.length then failJob x stMalformed s
    else match sharedValue r.size m (b.take l) with
      | .error why => refuseJobInput x why s
      | .ok z => doneJob x [] (oneStepKdf (sigHash (byteAt p 1)) z (b.drop l) n) 0 s) s

/-- KEY_AGREE. -/
def execKeyAgree (id : CmdId) (s : State) : Res := .next (runCmd id 0x0202 keyAgree s)

/-- KEM_DECAPSULATE: the 32-byte shared secret, or the rejection secret of an invalid ciphertext. -/
def kemDecapsulate (x : JobCtx) (s : State) : State :=
  if !zeroAt x.cmd.desc.inl 0 14 then failJob x stMalformed s
  else withPrivate x (fun _ r m s =>
    if x.cmd.input.length ≠ (if r.size = 0x12 then 1088 else 1568) then refuseJobInput x 0x0A s
    else doneJob x [] (exactly 32 (Config.mlKemDecaps r.size m x.cmd.input)) 0 s) s

/-- KEM_DECAPSULATE. -/
def execKemDecapsulate (id : CmdId) (s : State) : Res := .next (runCmd id 0x0203 kemDecapsulate s)

end Sys2Proof.Machine
end

