-- ==== Sys2Proof/Machine/Spdm.lean ====
section
/-! DEFINITION. The SPDM responder on the DOE mailbox (24 R467, Table 24.3), with messages as DMTF SPDM 1.2 and 1.3 lay them out
(log 6); certificate chain, signed digests and the key schedule are abstract (log 7). -/

namespace Sys2Proof.Machine

/-! ## Messages -/

/-- The responder serves: the host link is up and the seed is present. -/
def spdmServes (s : State) : Bool := s.rt.link.up && mainPower s.rt && seedOk s.otp

/-- The version byte of a response: that of the negotiated version, 10h before it. -/
def spdmVer (x : Spdm) : Nat := x.version.getD 0x10

/-- A header of four bytes. -/
def spdmHead (x : Spdm) (code p1 p2 : Nat) : Bytes := bytesOf [spdmVer x, code, p1, p2]

/-- Change the responder. -/
def modSpdm (f : Spdm → Spdm) (rt : Rt) : Rt := { rt with spdm := f rt.spdm }

/-- An error message. -/
def spdmError (code : Nat) (rt : Rt) : Rt := emit (.spdm (spdmHead rt.spdm 0x7F code 0)) rt

def errInvalid : Nat := 0x01
def errUnexpected : Nat := 0x04
def errUnspecified : Nat := 0x05
def errDecrypt : Nat := 0x06
def errUnsupported : Nat := 0x07
def errSession : Nat := 0x0A
def errVersion : Nat := 0x41

/-- Send a response, and keep request and response for the transcript. -/
def spdmReply (req resp : Bytes) (rt : Rt) : Rt :=
  emit (.spdm resp) (modSpdm (fun x => { x with transcript := x.transcript ++ req ++ resp }) rt)

/-- How far the negotiation must have come for a request. -/
inductive SpdmPhase where
  | none | version | caps | algs | session
  deriving DecidableEq, Repr

/-- The negotiation has come that far. -/
def phaseOk (x : Spdm) : SpdmPhase → Bool
  | .none => true
  | .version => true
  | .caps => x.version.isSome && x.caps
  | .algs => x.version.isSome && x.caps && x.algs
  | .session => x.session.isSome && x.finished

/-- Serve a request of one code: its code and length, then its version, then the phase; without the link or the seed there is no
answer. -/
def spdmServe (code minLen : Nat) (ph : SpdmPhase) (msg : Bytes) (body : State → State) (s : State) : State :=
  if !spdmServes s then s
  else if byteAt msg 1 ≠ code ∨ msg.length < minLen then onRt (spdmError errInvalid) s
  else if !phaseOk s.rt.spdm ph then onRt (spdmError errUnexpected) s
  else if ph ≠ .none ∧ ph ≠ .version ∧ byteAt msg 0 ≠ spdmVer s.rt.spdm then onRt (spdmError errVersion) s
  else body s

/-- Draw on CD0 for a signature, waking it when it is powered down (R466). -/
def spdmDraw (n : Nat) (body : Bytes → State → State) (s : State) : State :=
  match drawCd0 n s.rt with
  | .no _ => onRt (spdmError errUnspecified) s
  | .wait rt => { s with rt := rt }
  | .got b rt => onRt restCd0 (body b { s with rt := rt })

/-! ## Version, capabilities, algorithms -/

/-- GET_VERSION: versions 1.2 and 1.3; the exchange begins anew. -/
def spdmVersion (msg : Bytes) (s : State) : State :=
  onRt (fun rt => spdmReply msg (bytesOf [0x10, 0x04, 0, 0, 0, 2, 0x00, 0x12, 0x00, 0x13]) { rt with spdm := Rt.reset.spdm }) s

/-- GET_VERSION. -/
def execGetVersion (msg : Bytes) (s : State) : Res := .next (spdmServe 0x84 4 .none msg (spdmVersion msg) s)

/-- CERT, CHAL, MEAS with signature, MEAS_FRESH, ENCRYPT, MAC, KEY_EX, KEY_UPD (Table 24.3). -/
def spdmFlags : Nat := 0x42F6

/-- GET_CAPABILITIES: the request's version byte selects 1.2 or 1.3. -/
def spdmCapabilities (msg : Bytes) (s : State) : State :=
  let v := byteAt msg 0
  if v ≠ 0x12 ∧ v ≠ 0x13 then onRt (spdmError errVersion) s
  else onRt (fun rt =>
    let rt := modSpdm (fun x => { x with version := some v, caps := true, algs := false }) rt
    spdmReply msg (spdmHead rt.spdm 0x61 0 0 ++ [0, Config.spdmField 0 0, 0, 0] ++ le 4 spdmFlags ++
      (List.range 8).map (Config.spdmField 1)) rt) s

/-- GET_CAPABILITIES. -/
def execGetCapabilities (msg : Bytes) (s : State) : Res := .next (spdmServe 0xE1 4 .version msg (spdmCapabilities msg) s)

/-- NEGOTIATE_ALGORITHMS: the choices of Table 24.3, which the requester must offer. -/
def spdmAlgorithms (msg : Bytes) (s : State) : State :=
  if !(leAt msg 8 4).testBit 7 ∨ !(leAt msg 12 4).testBit 1 then onRt (spdmError errInvalid) s
  else onRt (fun rt =>
    let rt := modSpdm (fun x => { x with algs := true }) rt
    spdmReply msg (spdmHead rt.spdm 0x63 3 0 ++ le 2 48 ++ bytesOf [1, 0] ++ le 4 4 ++ le 4 0x80 ++ le 4 2 ++ zeros 16 ++
      bytesOf [2, 0x20, 0x10, 0, 3, 0x20, 2, 0, 5, 0x20, 1, 0]) rt) s

/-- NEGOTIATE_ALGORITHMS. -/
def execNegotiateAlgorithms (msg : Bytes) (s : State) : Res := .next (spdmServe 0xE3 32 .caps msg (spdmAlgorithms msg) s)

/-! ## Certificates -/

/-- Slot 0's chain. -/
def slotChain (s : State) : Bytes := Config.spdmChain s.nv.identity

/-- GET_DIGESTS: slot 0 alone is provisioned. -/
def spdmDigests (msg : Bytes) (s : State) : State :=
  onRt (fun rt => spdmReply msg (spdmHead rt.spdm 0x01 0 1 ++ sha384 (slotChain s)) rt) s

/-- GET_DIGESTS. -/
def execGetDigests (msg : Bytes) (s : State) : Res := .next (spdmServe 0x81 4 .algs msg (spdmDigests msg) s)

/-- GET_CERTIFICATE: a portion of slot 0's chain. -/
def spdmCertificate (msg : Bytes) (s : State) : State :=
  let c := slotChain s
  let off := leAt msg 4 2
  let part := slice c off (min (leAt msg 6 2) (c.length - off))
  if byteAt msg 2 ≠ 0 ∨ c.length ≤ off then onRt (spdmError errInvalid) s
  else onRt (fun rt =>
    spdmReply msg (spdmHead rt.spdm 0x02 0 0 ++ le 2 part.length ++ le 2 (c.length - off - part.length) ++ part) rt) s

/-- GET_CERTIFICATE. -/
def execGetCertificate (msg : Bytes) (s : State) : Res := .next (spdmServe 0x82 8 .algs msg (spdmCertificate msg) s)

/-! ## Measurements -/

/-- The value of a measurement index (Table 24.3). -/
def measureValue (s : State) (k : Nat) : Bytes :=
  if k = 1 then s.otp.romDigest
  else if k = 2 then imageDigest (activeCopy s.nv.image1)
  else if k = 3 then imageDigest (activeCopy s.nv.image2)
  else if k ≤ 11 then padTo 48 ((roomOf s.rt (k - 4)).image.take 48)
  else if k = 12 then [s.rt.boot.lcState] ++ le 2 (s.otp.tamperCnt + b2n s.gon.uncounted) ++ le 2 s.otp.rootLostCnt
  else policyDigest s.rt none

/-- The DMTF type byte of an index: mask ROM 0, firmware 1; those of indices 12 and 13 are not stated. -/
def measureType (k : Nat) : Byte := if k = 1 then 0 else if k ≤ 11 then 1 else Config.spdmField 2 k

/-- A measurement block in the DMTF format. -/
def measureBlock (s : State) (k : Nat) : Bytes :=
  let v := measureValue s k
  [BitVec.ofNat 8 k, 1] ++ le 2 (v.length + 3) ++ [measureType k] ++ le 2 v.length ++ v

/-- All thirteen blocks. -/
def allBlocks (s : State) : Bytes := (List.range 13).flatMap fun i => measureBlock s (i + 1)

/-- The summary hash that a request asks for by its type. -/
def measureSummary (s : State) (ty : Nat) : Bytes := if ty = 0 then [] else sha384 (allBlocks s)

/-- The requester's context, eight bytes that version 1.3 returns. -/
def spdmContext (x : Spdm) (msg : Bytes) (off : Nat) : Bytes := if x.version = some 0x13 then slice msg off 8 else []

/-- A signature of the identity key over the transcript with the response. -/
def spdmSign (s : State) (code : Nat) (rnd transcript : Bytes) : Bytes :=
  signEc (identityEc s.otp labelIdentity) rnd (Config.spdmSigned code transcript)

/-- CHALLENGE: the nonce and the signature come from CD0's mint. -/
def spdmChallenge (msg : Bytes) (s : State) : State :=
  let ty := byteAt msg 3
  if byteAt msg 2 ≠ 0 ∨ (ty ≠ 0 ∧ ty ≠ 1 ∧ ty ≠ 0xFF) then onRt (spdmError errInvalid) s
  else spdmDraw 88 (fun b s =>
    let r := spdmHead s.rt.spdm 0x03 0 1 ++ sha384 (slotChain s) ++ b.take 32 ++ measureSummary s ty ++ le 2 0 ++
      spdmContext s.rt.spdm msg 36
    onRt (spdmReply msg (r ++ spdmSign s 0x83 (b.drop 32) (s.rt.spdm.transcript ++ msg ++ r))) s) s

/-- CHALLENGE. -/
def execChallenge (msg : Bytes) (s : State) : Res := .next (spdmServe 0x83 36 .algs msg (spdmChallenge msg) s)

/-- The blocks that GET_MEASUREMENTS asks for: none and their number, one index, or all. -/
def askedBlocks (s : State) (op : Nat) : Option (Nat × Nat × Bytes) :=
  if op = 0 then some (13, 0, [])
  else if op = 0xFF then some (0, 13, allBlocks s)
  else if op ≤ 13 then some (0, 1, measureBlock s op)
  else none

/-- GET_MEASUREMENTS: signed when the request asks for a signature. -/
def spdmMeasurements (msg : Bytes) (s : State) : State :=
  let signed := (byteAt msg 2).testBit 0
  match askedBlocks s (byteAt msg 3) with
  | none => onRt (spdmError errInvalid) s
  | some (total, n, rec) =>
    if signed && decide (msg.length < 37 ∨ byteAt msg 36 ≠ 0) then onRt (spdmError errInvalid) s
    else spdmDraw 88 (fun b s =>
      let r := spdmHead s.rt.spdm 0x60 total 0 ++ [BitVec.ofNat 8 n] ++ le 3 rec.length ++ rec ++ b.take 32 ++ le 2 0 ++
        spdmContext s.rt.spdm msg (if signed then 37 else 4)
      let sig := if signed then spdmSign s 0xE0 (b.drop 32) (s.rt.spdm.transcript ++ msg ++ r) else []
      onRt (spdmReply msg (r ++ sig)) s) s

/-- GET_MEASUREMENTS. -/
def execGetMeasurements (msg : Bytes) (s : State) : Res := .next (spdmServe 0xE0 4 .algs msg (spdmMeasurements msg) s)

/-! ## The secured session -/

/-- KEY_EXCHANGE: one session at a time; ephemeral P-384 key, random and signature from CD0's mint. -/
def spdmKeyExchange (msg : Bytes) (s : State) : State :=
  let x := (beAt msg 40 48, beAt msg 88 48)
  let ty := byteAt msg 2
  if s.rt.spdm.session.isSome then onRt (spdmError errSession) s
  else if byteAt msg 3 ≠ 0 ∨ !onCurve p384 x then onRt (spdmError errInvalid) s
  else spdmDraw 144 (fun b s =>
    let d := ofBe (slice b 32 56) % (p384.n - 1) + 1
    let secret := match ptMul p384 d (some x) with
      | some (zx, _) => be 48 zx
      | none => []
    let id := leAt [Config.spdmField 3 0, Config.spdmField 3 1] 0 2
    let r := spdmHead s.rt.spdm 0x64 0 0 ++ le 2 id ++ [0, 0] ++ b.take 32 ++ (pointBytes p384 (ecPublic p384 d)).drop 1 ++
      measureSummary s ty ++ le 2 0
    let t := s.rt.spdm.transcript ++ msg ++ r
    let r := r ++ spdmSign s 0xE4 (b.drop 88) t
    let r := r ++ Config.spdmMac 0 secret (s.rt.spdm.transcript ++ msg ++ r)
    onRt (fun rt => spdmReply msg r (modSpdm (fun x => { x with session := some id, finished := false, secret := secret
                                                                reqKeys := 0, rspKeys := 0 }) rt)) s) s

/-- KEY_EXCHANGE. -/
def execKeyExchange (msg : Bytes) (s : State) : Res := .next (spdmServe 0xE4 138 .algs msg (spdmKeyExchange msg) s)

/-- The session ends. -/
def endSpdm (rt : Rt) : Rt :=
  modSpdm (fun x => { x with session := none, finished := false, secret := [], reqKeys := 0, rspKeys := 0 }) rt

/-- FINISH: the requester's HMAC completes the handshake; a wrong one ends it. -/
def spdmFinish (msg : Bytes) (s : State) : State :=
  let x := s.rt.spdm
  if x.session.isNone || x.finished then onRt (spdmError errUnexpected) s
  else if byteAt msg 2 ≠ 0 then onRt (spdmError errInvalid) s
  else if msg.drop 4 ≠ Config.spdmMac 1 x.secret (x.transcript ++ msg.take 4) then onRt (fun rt => spdmError errDecrypt (endSpdm rt)) s
  else onRt (fun rt => spdmReply msg (spdmHead rt.spdm 0x65 0 0) (modSpdm (fun x => { x with finished := true }) rt)) s

/-- FINISH. -/
def execFinish (msg : Bytes) (s : State) : Res := .next (spdmServe 0xE5 4 .algs msg (spdmFinish msg) s)

/-- KEY_UPDATE: 1 the requester's key, 2 both, 3 verifies the new one. -/
def spdmKeyUpdate (msg : Bytes) (s : State) : State :=
  let op := byteAt msg 2
  if op = 0 ∨ 3 < op then onRt (spdmError errInvalid) s
  else onRt (fun rt =>
    let rt := modSpdm (fun x => { x with reqKeys := x.reqKeys + b2n (decide (op ≤ 2)), rspKeys := x.rspKeys + b2n (decide (op = 2)) }) rt
    emit (.spdm (spdmHead rt.spdm 0x69 op (byteAt msg 3))) rt) s

/-- KEY_UPDATE. -/
def execKeyUpdate (msg : Bytes) (s : State) : Res := .next (spdmServe 0xE9 4 .session msg (spdmKeyUpdate msg) s)

/-- END_SESSION. -/
def spdmEnd (s : State) : State := onRt (fun rt => endSpdm (emit (.spdm (spdmHead rt.spdm 0x6C 0 0)) rt)) s

/-- END_SESSION. -/
def execEndSession (msg : Bytes) (s : State) : Res := .next (spdmServe 0xEC 4 .session msg spdmEnd s)

/-! ## IDE_KM (06 Table 6.1) -/

/-- The stream of an identifier: 0 the link stream. -/
def ideStream (id : Nat) : Nat := if id = Config.ideLinkStream then 0 else id + 1

/-- A key set's direction and sub-stream, without the bit of the key set. -/
def ideSub (b : Nat) : Nat := b / 2 * 2

/-- A vendor-defined response of PCI-SIG. -/
def ideReply (x : Spdm) (b : Bytes) : Bytes := spdmHead x 0x7E 0 0 ++ bytesOf [3, 0, 2, 1, 0] ++ le 2 b.length ++ b

/-- A stream may hold keys: the link stream, or one of up to 8 selective streams (R108). -/
def streamFits (l : Link) (k : Nat) : Bool :=
  let ks := ideStreams l.ideKeys
  k == 0 || decide (k ∈ ks) || decide ((ks.filter (· ≠ 0)).length < 8)

/-- An IDE_KM message: QUERY, KEY_PROG, K_SET_GO, K_SET_STOP; none for any other. Keys for a ninth selective stream are acknowledged with
status 3, an unsupported value (PRESUMED from IDE_KM). -/
def ideKm (p : Bytes) (l : Link) : Option (Link × Bytes) :=
  let k := ideStream (byteAt p 4)
  let x := (k, ideSub (byteAt p 6))
  let ack := fun (code : Nat) => bytesOf [0, code, 0, 0, byteAt p 4, 0, byteAt p 6, byteAt p 7]
  if byteAt p 0 ≠ 0 then none
  else match byteAt p 1 with
    | 0 => some (l, bytesOf [0, 1, 0] ++ p.drop 2 |>.take 4)
    | 2 =>
      if p.length ≠ 48 then none
      else if !streamFits l k then some (l, bytesOf [0, 3, 0, 0, byteAt p 4, 3, byteAt p 6, byteAt p 7])
      else some ({ l with ideKeys := if x ∈ l.ideKeys then l.ideKeys else x :: l.ideKeys }, ack 3)
    | 4 => some (if x ∈ l.ideKeys ∧ x ∉ l.ideGo then countIde { l with ideGo := x :: l.ideGo } else l, ack 6)
    | 5 => some (countIde { l with ideGo := l.ideGo.filter (· ≠ x), ideKeys := l.ideKeys.filter (· ≠ x) }, ack 6)
    | _ => none

/-- VENDOR_DEFINED_REQUEST: IDE_KM of PCI-SIG, over the secured session. -/
def spdmVendor (msg : Bytes) (s : State) : State :=
  if leAt msg 4 2 ≠ 3 ∨ byteAt msg 6 ≠ 2 ∨ leAt msg 7 2 ≠ 1 then onRt (spdmError errUnsupported) s
  else match ideKm (slice msg 11 (leAt msg 9 2)) s.rt.link with
    | none => onRt (spdmError errInvalid) s
    | some (l, b) => onRt (fun rt => emit (.spdm (ideReply rt.spdm b)) { rt with link := l }) s

/-- VENDOR_DEFINED_REQUEST. -/
def execVendorDefinedRequest (msg : Bytes) (s : State) : Res := .next (spdmServe 0xFE 13 .session msg (spdmVendor msg) s)

end Sys2Proof.Machine
end

