-- ==== Sys2Proof/Machine/Strings.lean ====
section
/-! DEFINITION. Karua-20 string instructions (11 Table 11.3, R237). -/

namespace Sys2Proof.Machine

def strLen : LenSpec := lenBy 3 fun n => (2 * n, 2 * n, 0)
def strLenA : LenSpec := lenBy 3 fun n => (2 * n, 0, 0)
def srchLen : LenSpec := lenBy 3 fun n => (0, 2 * (n % 2 ^ 20), 0)

/-- `n` bytes of string A. -/
def bytesA (x : Args) (rt : Rt) (n : Nat) : Bytes := readBytes rt x.ck n (nibOf x.la)

/-- `n` bytes of string B. -/
def bytesB (x : Args) (rt : Rt) (n : Nat) : Bytes := readBytes rt x.ck n (nibOf x.lb)

/-- Write byte string A. -/
def putStr (x : Args) (rt : Rt) (b : Bytes) : Rt := writeBytes x.ck (nibOf x.la) b rt

/-- `a` is below `b` in unsigned byte order from the first byte. -/
def belowBytes : Bytes → Bytes → Bool
  | a :: as, b :: bs => if a = b then belowBytes as bs else decide (a.toNat < b.toNat)
  | _, _ => false

/-- The region row of 10 Table 10.3 that an address lies in. -/
def costRegion (a : Nat) : Nat :=
  if a < 0x40000 then 0 else if a < 0x80000 then 1 else if a < 0x90000 then 2 else 3

/-- The TRN table: 256 words in one region, all readable (R237). -/
def trnTableOk (rt : Rt) (c : ClerkId) (t : Nat) : Bool :=
  decide (t + 255 < 2 ^ 20) && costRegion t == costRegion (t + 255) &&
    (match checkWords (canRead rt c false) 256 t with
     | .ok _ => true
     | .error _ => false)

/-- TRN replaces each byte v of A by bits 7 to 0 of the word at B + v; the table lies in one region that the job may read (R237). -/
def opTrn (x : Args) (rt : Rt) : KOut :=
  let t := valW rt x.ck x.lb
  if 65536 < valW rt x.ck x.lc then .trap trapLength
  else if !trnTableOk rt x.ck t then .trap trapAddress
  else .go noFlags (putStr x rt ((bytesA x rt (valW rt x.ck x.lc)).map fun v => BitVec.ofNat 8 (readWord rt x.ck (t + v.toNat))))

/-- The row of TRN (11 Table 11.3). -/
def fmtTrn : Fmt := { op := 0x09, a := some .S, b := some .w, c := some .w, sets := false, rmw := true }

/-- TRN. -/
def execTrn (c : ClerkId) (o : Opnds) (s : State) : Res := karua fmtTrn strLenA opTrn c o s

/-- MOVS copies B to A (R237). -/
def opMovs (x : Args) (rt : Rt) : KOut :=
  if 65536 < valW rt x.ck x.lc then .trap trapLength
  else .go noFlags (putStr x rt (bytesB x rt (valW rt x.ck x.lc)))

/-- The row of MOVS (11 Table 11.3). -/
def fmtMovs : Fmt := { op := 0x60, a := some .S, b := some .s, c := some .w, sets := false, rmw := false }

/-- MOVS. -/
def execMovs (c : ClerkId) (o : Opnds) (s : State) : Res := karua fmtMovs strLen opMovs c o s

/-- CMPS compares A and B in unsigned byte order (R237). -/
def opCmps (x : Args) (rt : Rt) : KOut :=
  let a := bytesA x rt (valW rt x.ck x.lc)
  let b := bytesB x rt (valW rt x.ck x.lc)
  if 65536 < valW rt x.ck x.lc then .trap trapLength
  else .go { noFlags with z := some (a == b), n := some (belowBytes a b) } rt

/-- The row of CMPS (11 Table 11.3). -/
def fmtCmps : Fmt := { op := 0x61, a := some .s, b := some .s, c := some .w, sets := true, rmw := false }

/-- CMPS. -/
def execCmps (c : ClerkId) (o : Opnds) (s : State) : Res := karua fmtCmps strLen opCmps c o s

/-- SRCH writes the index of the first byte of B that equals the byte sought, or n (R237). -/
def opSrch (x : Args) (rt : Rt) : KOut :=
  let n := valD rt x.ck x.lc % 2 ^ 20
  let v : Byte := BitVec.ofNat 8 (valD rt x.ck x.lc / 2 ^ 20)
  let i := (bytesB x rt n).findIdx (· == v)
  if 65536 < n then .trap trapLength
  else .go { noFlags with z := some (decide (i < n)) } (putW x.ck x.la i rt)

/-- The row of SRCH (11 Table 11.3). -/
def fmtSrch : Fmt := { op := 0x62, a := some .W, b := some .s, c := some .d, sets := true, rmw := false }

/-- SRCH. -/
def execSrch (c : ClerkId) (o : Opnds) (s : State) : Res := karua fmtSrch srchLen opSrch c o s

/-- XORS: A := A XOR B (R237). -/
def opXors (x : Args) (rt : Rt) : KOut :=
  let r := bxor (bytesA x rt (valW rt x.ck x.lc)) (bytesB x rt (valW rt x.ck x.lc))
  if 65536 < valW rt x.ck x.lc then .trap trapLength
  else .go { noFlags with z := some (allZero r) } (putStr x rt r)

/-- The row of XORS (11 Table 11.3). -/
def fmtXors : Fmt := { op := 0x63, a := some .S, b := some .s, c := some .w, sets := true, rmw := true }

/-- XORS. -/
def execXors (c : ClerkId) (o : Opnds) (s : State) : Res := karua fmtXors strLen opXors c o s

/-- FILLS writes bits 7 to 0 of B to every byte of A (R237). -/
def opFills (x : Args) (rt : Rt) : KOut :=
  if 65536 < valW rt x.ck x.lc then .trap trapLength
  else .go noFlags (putStr x rt (List.replicate (valW rt x.ck x.lc) (BitVec.ofNat 8 (valW rt x.ck x.lb))))

/-- The row of FILLS (11 Table 11.3). -/
def fmtFills : Fmt := { op := 0x64, a := some .S, b := some .w, c := some .w, sets := false, rmw := false }

/-- FILLS. -/
def execFills (c : ClerkId) (o : Opnds) (s : State) : Res := karua fmtFills strLenA opFills c o s

end Sys2Proof.Machine
end

