-- ==== Sys2Proof/Machine/Dispatch.lean ====
section
/-! DEFINITION. The dispatcher: one arm for each command, a direct call of its meaning. -/

namespace Sys2Proof.Machine

/-- The effect of a command on everything but the queue. -/
def exec (i : Instr) (s : State) : Host.Outcome State Fault Refusal :=
  match i with
  | .mainPowerApplied slot12 slot33 aux12 sense => Sys2Proof.Machine.execMainPowerApplied slot12 slot33 aux12 sense s
  | .auxInputMissing => Sys2Proof.Machine.execAuxInputMissing s
  | .perstAssert => Sys2Proof.Machine.execPerstAssert s
  | .perstRelease sense => Sys2Proof.Machine.execPerstRelease sense s
  | .startUp n e => Sys2Proof.Machine.execStartUp n e s
  | .mintStartUpTests d smp => Sys2Proof.Machine.execMintStartUpTests d smp s
  | .mintStartTimeout d => Sys2Proof.Machine.execMintStartTimeout d s
  | .maskExpanderSeeding d => Sys2Proof.Machine.execMaskExpanderSeeding d s
  | .serviceReady => Sys2Proof.Machine.execServiceReady s
  | .backgroundTileLoad ok1 ok2 => Sys2Proof.Machine.execBackgroundTileLoad ok1 ok2 s
  | .demandLoad t ok1 ok2 => Sys2Proof.Machine.execDemandLoad t ok1 ok2 s
  | .powerFail => Sys2Proof.Machine.execPowerFail s
  | .smbusRead x => Sys2Proof.Machine.execSmbusRead x s
  | .cageInsert p watts => Sys2Proof.Machine.execCageInsert p watts s
  | .cageRemove p => Sys2Proof.Machine.execCageRemove p s
  | .officerCardInsert k card => Sys2Proof.Machine.execOfficerCardInsert k card s
  | .officerCardWithdraw k => Sys2Proof.Machine.execOfficerCardWithdraw k s
  | .officerCardOvercurrent k => Sys2Proof.Machine.execOfficerCardOvercurrent k s
  | .sqTailWrite b v => Sys2Proof.Machine.execSqTailWrite b v s
  | .cqHeadWrite b v => Sys2Proof.Machine.execCqHeadWrite b v s
  | .descriptorFetch b entries => Sys2Proof.Machine.execDescriptorFetch b entries s
  | .descriptorReadFail b => Sys2Proof.Machine.execDescriptorReadFail b s
  | .inputFetch id data => Sys2Proof.Machine.execInputFetch id data s
  | .admission id => Sys2Proof.Machine.execAdmission id s
  | .stagingReservationGrant => Sys2Proof.Machine.execStagingReservationGrant s
  | .dispatch c => Sys2Proof.Machine.execDispatch c s
  | .completionPost id ok => Sys2Proof.Machine.execCompletionPost id ok s
  | .coalesceTimer b => Sys2Proof.Machine.execCoalesceTimer b s
  | .msixMaskClear v => Sys2Proof.Machine.execMsixMaskClear v s
  | .registerWrite off size v => Sys2Proof.Machine.execRegisterWrite off size v s
  | .faultAck v => Sys2Proof.Machine.execFaultAck v s
  | .tallyPresetValidate p => Sys2Proof.Machine.execTallyPresetValidate p s
  | .mbxGoWhileBusy => Sys2Proof.Machine.execMbxGoWhileBusy s
  | .hostLinkLoss ide => Sys2Proof.Machine.execHostLinkLoss ide s
  | .hostLinkReturn => Sys2Proof.Machine.execHostLinkReturn s
  | .bundleCommit u => Sys2Proof.Machine.execBundleCommit u s
  | .journalRecordWritten q ok => Sys2Proof.Machine.execJournalRecordWritten q ok s
  | .commitMarkWritten q => Sys2Proof.Machine.execCommitMarkWritten q s
  | .persistentTileWrite q => Sys2Proof.Machine.execPersistentTileWrite q s
  | .ledgerSeal => Sys2Proof.Machine.execLedgerSeal s
  | .policyChangeComplete e => Sys2Proof.Machine.execPolicyChangeComplete e s
  | .drainTimeout id => Sys2Proof.Machine.execDrainTimeout id s
  | .drainTwinTimeout u => Sys2Proof.Machine.execDrainTwinTimeout u s
  | .nop c o => Sys2Proof.Machine.execNop c o s
  | .mov c o => Sys2Proof.Machine.execMov c o s
  | .movd c o => Sys2Proof.Machine.execMovd c o s
  | .clr c o => Sys2Proof.Machine.execClr c o s
  | .mfsw c o => Sys2Proof.Machine.execMfsw c o s
  | .mtsw c o => Sys2Proof.Machine.execMtsw c o s
  | .dtob c o => Sys2Proof.Machine.execDtob c o s
  | .btod c o => Sys2Proof.Machine.execBtod c o s
  | .trn c o => Sys2Proof.Machine.execTrn c o s
  | .movp c o => Sys2Proof.Machine.execMovp c o s
  | .add c o => Sys2Proof.Machine.execAdd c o s
  | .sub c o => Sys2Proof.Machine.execSub c o s
  | .adc c o => Sys2Proof.Machine.execAdc c o s
  | .sbc c o => Sys2Proof.Machine.execSbc c o s
  | .addd c o => Sys2Proof.Machine.execAddd c o s
  | .subd c o => Sys2Proof.Machine.execSubd c o s
  | .mul c o => Sys2Proof.Machine.execMul c o s
  | .mulu c o => Sys2Proof.Machine.execMulu c o s
  | .divu c o => Sys2Proof.Machine.execDivu c o s
  | .cmp c o => Sys2Proof.Machine.execCmp c o s
  | .cmpd c o => Sys2Proof.Machine.execCmpd c o s
  | .inc c o => Sys2Proof.Machine.execInc c o s
  | .dec c o => Sys2Proof.Machine.execDec c o s
  | .neg c o => Sys2Proof.Machine.execNeg c o s
  | .addp c o => Sys2Proof.Machine.execAddp c o s
  | .subp c o => Sys2Proof.Machine.execSubp c o s
  | .mulp c o => Sys2Proof.Machine.execMulp c o s
  | .cmpp c o => Sys2Proof.Machine.execCmpp c o s
  | .daj c o => Sys2Proof.Machine.execDaj c o s
  | .shp c o => Sys2Proof.Machine.execShp c o s
  | .edp c o => Sys2Proof.Machine.execEdp c o s
  | .luhn c o => Sys2Proof.Machine.execLuhn c o s
  | .decz c o => Sys2Proof.Machine.execDecz c o s
  | .and c o => Sys2Proof.Machine.execAnd c o s
  | .or c o => Sys2Proof.Machine.execOr c o s
  | .xor c o => Sys2Proof.Machine.execXor c o s
  | .not c o => Sys2Proof.Machine.execNot c o s
  | .shl c o => Sys2Proof.Machine.execShl c o s
  | .shr c o => Sys2Proof.Machine.execShr c o s
  | .sar c o => Sys2Proof.Machine.execSar c o s
  | .rol c o => Sys2Proof.Machine.execRol c o s
  | .tst c o => Sys2Proof.Machine.execTst c o s
  | .br c o => Sys2Proof.Machine.execBr c o s
  | .bz c o => Sys2Proof.Machine.execBz c o s
  | .bnz c o => Sys2Proof.Machine.execBnz c o s
  | .bn c o => Sys2Proof.Machine.execBn c o s
  | .bnn c o => Sys2Proof.Machine.execBnn c o s
  | .bc c o => Sys2Proof.Machine.execBc c o s
  | .bnc c o => Sys2Proof.Machine.execBnc c o s
  | .bv c o => Sys2Proof.Machine.execBv c o s
  | .bnv c o => Sys2Proof.Machine.execBnv c o s
  | .bdc c o => Sys2Proof.Machine.execBdc c o s
  | .bndc c o => Sys2Proof.Machine.execBndc c o s
  | .bid c o => Sys2Proof.Machine.execBid c o s
  | .bnid c o => Sys2Proof.Machine.execBnid c o s
  | .blt c o => Sys2Proof.Machine.execBlt c o s
  | .bge c o => Sys2Proof.Machine.execBge c o s
  | .bgt c o => Sys2Proof.Machine.execBgt c o s
  | .call c o => Sys2Proof.Machine.execCall c o s
  | .ret c o => Sys2Proof.Machine.execRet c o s
  | .loop c o => Sys2Proof.Machine.execLoop c o s
  | .movs c o => Sys2Proof.Machine.execMovs c o s
  | .cmps c o => Sys2Proof.Machine.execCmps c o s
  | .srch c o => Sys2Proof.Machine.execSrch c o s
  | .xors c o => Sys2Proof.Machine.execXors c o s
  | .fills c o => Sys2Proof.Machine.execFills c o s
  | .latch c o => Sys2Proof.Machine.execLatch c o s
  | .waitl c o => Sys2Proof.Machine.execWaitl c o s
  | .unlatch c o => Sys2Proof.Machine.execUnlatch c o s
  | .submit c o => Sys2Proof.Machine.execSubmit c o s
  | .waite c o => Sys2Proof.Machine.execWaite c o s
  | .kload c o => Sys2Proof.Machine.execKload c o s
  | .kloadx c o => Sys2Proof.Machine.execKloadx c o s
  | .rand c o => Sys2Proof.Machine.execRand c o s
  | .jend c o => Sys2Proof.Machine.execJend c o s
  | .jfail c o => Sys2Proof.Machine.execJfail c o s
  | .mcall c o => Sys2Proof.Machine.execMcall c o s
  | .mret c o => Sys2Proof.Machine.execMret c o s
  | .ior c o => Sys2Proof.Machine.execIor c o s
  | .iow c o => Sys2Proof.Machine.execIow c o s
  | .waiti c o => Sys2Proof.Machine.execWaiti c o s
  | .clerkWipe c => Sys2Proof.Machine.execClerkWipe c s
  | .timeLimit c => Sys2Proof.Machine.execTimeLimit c s
  | .locksmithDelivery c t => Sys2Proof.Machine.execLocksmithDelivery c t s
  | .latchBreak e => Sys2Proof.Machine.execLatchBreak e s
  | .engineZeroingEnd e => Sys2Proof.Machine.execEngineZeroingEnd e s
  | .maskReseedRequest e => Sys2Proof.Machine.execMaskReseedRequest e s
  | .maskReseedTimeout e => Sys2Proof.Machine.execMaskReseedTimeout e s
  | .maskReseedArrival e => Sys2Proof.Machine.execMaskReseedArrival e s
  | .ecbEnc d p => Sys2Proof.Machine.execEcbEnc d p s
  | .ecbDec d p => Sys2Proof.Machine.execEcbDec d p s
  | .cbcEnc d p => Sys2Proof.Machine.execCbcEnc d p s
  | .cbcDec d p => Sys2Proof.Machine.execCbcDec d p s
  | .ctr d p => Sys2Proof.Machine.execCtr d p s
  | .cmacGen d p => Sys2Proof.Machine.execCmacGen d p s
  | .cmacVer d p => Sys2Proof.Machine.execCmacVer d p s
  | .mac1Gen d p => Sys2Proof.Machine.execMac1Gen d p s
  | .mac1Ver d p => Sys2Proof.Machine.execMac1Ver d p s
  | .mac3Gen d p => Sys2Proof.Machine.execMac3Gen d p s
  | .mac3Ver d p => Sys2Proof.Machine.execMac3Ver d p s
  | .kwWrap d p => Sys2Proof.Machine.execKwWrap d p s
  | .hash d h srcOk => Sys2Proof.Machine.execHash d h srcOk s
  | .hmacGen d h srcOk => Sys2Proof.Machine.execHmacGen d h srcOk s
  | .hmacVer d h srcOk => Sys2Proof.Machine.execHmacVer d h srcOk s
  | .gcmEnc d l srcOk => Sys2Proof.Machine.execGcmEnc d l srcOk s
  | .gcmDec d l srcOk => Sys2Proof.Machine.execGcmDec d l srcOk s
  | .ccmEnc d l srcOk => Sys2Proof.Machine.execCcmEnc d l srcOk s
  | .ccmDec d l srcOk => Sys2Proof.Machine.execCcmDec d l srcOk s
  | .outputScrub id => Sys2Proof.Machine.execOutputScrub id s
  | .inputStreamRead c srcOk => Sys2Proof.Machine.execInputStreamRead c srcOk s
  | .outputStreamWrite c => Sys2Proof.Machine.execOutputStreamWrite c s
  | .loadl d r => Sys2Proof.Machine.execLoadl d r s
  | .storel d r => Sys2Proof.Machine.execStorel d r s
  | .movl d r => Sys2Proof.Machine.execMovl d r s
  | .setmod d r => Sys2Proof.Machine.execSetmod d r s
  | .macp d r => Sys2Proof.Machine.execMacp d r s
  | .redc d r => Sys2Proof.Machine.execRedc d r s
  | .madd d r => Sys2Proof.Machine.execMadd d r s
  | .msub d r => Sys2Proof.Machine.execMsub d r s
  | .cswapBit d r => Sys2Proof.Machine.execCswapBit d r s
  | .bset d r => Sys2Proof.Machine.execBset d r s
  | .rndl d r => Sys2Proof.Machine.execRndl d r s
  | .runl d r => Sys2Proof.Machine.execRunl d r s
  | .chk d r => Sys2Proof.Machine.execChk d r s
  | .setq d r => Sys2Proof.Machine.execSetq d r s
  | .lbfly d r => Sys2Proof.Machine.execLbfly d r s
  | .lpmul d r => Sys2Proof.Machine.execLpmul d r s
  | .lbasem d r => Sys2Proof.Machine.execLbasem d r s
  | .lpadd d r => Sys2Proof.Machine.execLpadd d r s
  | .lpsub d r => Sys2Proof.Machine.execLpsub d r s
  | .lround d r => Sys2Proof.Machine.execLround d r s
  | .lnorm d r => Sys2Proof.Machine.execLnorm d r s
  | .reckonerWipe d r => Sys2Proof.Machine.execReckonerWipe d r s
  | .noiseSampleTestFail d src test => Sys2Proof.Machine.execNoiseSampleTestFail d src test s
  | .forerunnerSourceFail d src test smp => Sys2Proof.Machine.execForerunnerSourceFail d src test smp s
  | .mintBlockComplete d smp => Sys2Proof.Machine.execMintBlockComplete d smp s
  | .drbgReseed d => Sys2Proof.Machine.execDrbgReseed d s
  | .drbgGenerate d => Sys2Proof.Machine.execDrbgGenerate d s
  | .keyGradeRequest d => Sys2Proof.Machine.execKeyGradeRequest d s
  | .sourceRestart d src smp => Sys2Proof.Machine.execSourceRestart d src smp s
  | .mintExhausted d => Sys2Proof.Machine.execMintExhausted d s
  | .ballastRequest isl k => Sys2Proof.Machine.execBallastRequest isl k s
  | .ballastGrant rail => Sys2Proof.Machine.execBallastGrant rail s
  | .islandReady isl => Sys2Proof.Machine.execIslandReady isl s
  | .idleGatingTimer isl => Sys2Proof.Machine.execIdleGatingTimer isl s
  | .thermalThrottleStep die temp => Sys2Proof.Machine.execThermalThrottleStep die temp s
  | .thermalFatal die temp => Sys2Proof.Machine.execThermalFatal die temp s
  | .railWarn row => Sys2Proof.Machine.execRailWarn row s
  | .fabricCe die checker src f => Sys2Proof.Machine.execFabricCe die checker src f s
  | .fabricUe checker src f use => Sys2Proof.Machine.execFabricUe checker src f use s
  | .tamperSourceTrip t => Sys2Proof.Machine.execTamperSourceTrip t s
  | .gondolaCellTamper t => Sys2Proof.Machine.execGondolaCellTamper t s
  | .tamperCountBurn weak => Sys2Proof.Machine.execTamperCountBurn weak s
  | .gondolaLogRead lost => Sys2Proof.Machine.execGondolaLogRead lost s
  | .cellMeasure a b => Sys2Proof.Machine.execCellMeasure a b s
  | .cellDecay => Sys2Proof.Machine.execCellDecay s
  | .cellServiceWindowExpiry => Sys2Proof.Machine.execCellServiceWindowExpiry s
  | .cellDoorClose => Sys2Proof.Machine.execCellDoorClose s
  | .faultEvent e => Sys2Proof.Machine.execFaultEvent e s
  | .alertWidthExpiry => Sys2Proof.Machine.execAlertWidthExpiry s
  | .alertHoldClear => Sys2Proof.Machine.execAlertHoldClear s
  | .ethernetFrameReceive p f => Sys2Proof.Machine.execEthernetFrameReceive p f s
  | .portDown p => Sys2Proof.Machine.execPortDown p s
  | .tcpSyn p addr tcpPort x => Sys2Proof.Machine.execTcpSyn p addr tcpPort x s
  | .tlsHandshake conn h => Sys2Proof.Machine.execTlsHandshake conn h s
  | .handshakeTimeout conn => Sys2Proof.Machine.execHandshakeTimeout conn s
  | .sessionEstablished conn => Sys2Proof.Machine.execSessionEstablished conn s
  | .requestFrame conn frame => Sys2Proof.Machine.execRequestFrame conn frame s
  | .responseFrame id => Sys2Proof.Machine.execResponseFrame id s
  | .sendQueueDrain conn n => Sys2Proof.Machine.execSendQueueDrain conn n s
  | .sessionClose conn => Sys2Proof.Machine.execSessionClose conn s
  | .sessionIdleTimeout conn => Sys2Proof.Machine.execSessionIdleTimeout conn s
  | .keyUpdateSend conn => Sys2Proof.Machine.execKeyUpdateSend conn s
  | .keyUpdateReceive conn => Sys2Proof.Machine.execKeyUpdateReceive conn s
  | .peerLinkUp serial nonce confirm => Sys2Proof.Machine.execPeerLinkUp serial nonce confirm s
  | .peerRekey tx => Sys2Proof.Machine.execPeerRekey tx s
  | .peerRecordReceive r => Sys2Proof.Machine.execPeerRecordReceive r s
  | .peerAckReceive seq refusedSlot => Sys2Proof.Machine.execPeerAckReceive seq refusedSlot s
  | .peerAckTimeout u => Sys2Proof.Machine.execPeerAckTimeout u s
  | .peerCommitNotice seq => Sys2Proof.Machine.execPeerCommitNotice seq s
  | .peerLost => Sys2Proof.Machine.execPeerLost s
  | .peerRepairResend twinApplied records => Sys2Proof.Machine.execPeerRepairResend twinApplied records s
  | .ppsInEdge ns => Sys2Proof.Machine.execPpsInEdge ns s
  | .todDatagram d srcAddr usToEdge => Sys2Proof.Machine.execTodDatagram d srcAddr usToEdge s
  | .secondBoundary offset => Sys2Proof.Machine.execSecondBoundary offset s
  | .clockLock => Sys2Proof.Machine.execClockLock s
  | .sourceLoss => Sys2Proof.Machine.execSourceLoss s
  | .ocxoWarmupEnd => Sys2Proof.Machine.execOcxoWarmupEnd s
  | .alignmentRecordWrite => Sys2Proof.Machine.execAlignmentRecordWrite s
  | .ptpDelayReq p seq => Sys2Proof.Machine.execPtpDelayReq p seq s
  | .ptpSyncSend p => Sys2Proof.Machine.execPtpSyncSend p s
  | .ptpAnnounceSend p => Sys2Proof.Machine.execPtpAnnounceSend p s
  | .ppsOutEdge => Sys2Proof.Machine.execPpsOutEdge s
  | .lcNonceExpiry => Sys2Proof.Machine.execLcNonceExpiry s
  | .latchExpiry => Sys2Proof.Machine.execLatchExpiry s
  | .latchAttemptTimeout => Sys2Proof.Machine.execLatchAttemptTimeout s
  | .officerPinTimeout => Sys2Proof.Machine.execOfficerPinTimeout s
  | .deliberateErase => Sys2Proof.Machine.execDeliberateErase s
  | .roomCodeReload room => Sys2Proof.Machine.execRoomCodeReload room s
  | .bridleUpdate r => Sys2Proof.Machine.execBridleUpdate r s
  | .bridleRefusal b a => Sys2Proof.Machine.execBridleRefusal b a s
  | .openCmd id => Sys2Proof.Machine.execOpenCmd id s
  | .attest id => Sys2Proof.Machine.execAttest id s
  | .timeToken id => Sys2Proof.Machine.execTimeToken id s
  | .keyGenerate id => Sys2Proof.Machine.execKeyGenerate id s
  | .keyRevoke id => Sys2Proof.Machine.execKeyRevoke id s
  | .keyReplace id => Sys2Proof.Machine.execKeyReplace id s
  | .keyDelete id => Sys2Proof.Machine.execKeyDelete id s
  | .keyReparent id => Sys2Proof.Machine.execKeyReparent id s
  | .keyInfo id => Sys2Proof.Machine.execKeyInfo id s
  | .publicImport id => Sys2Proof.Machine.execPublicImport id s
  | .pinTranslate id => Sys2Proof.Machine.execPinTranslate id s
  | .pinVerify id => Sys2Proof.Machine.execPinVerify id s
  | .pinOffsetGen id => Sys2Proof.Machine.execPinOffsetGen id s
  | .cvcGenerate id => Sys2Proof.Machine.execCvcGenerate id s
  | .cvcVerify id => Sys2Proof.Machine.execCvcVerify id s
  | .arqcVerify id => Sys2Proof.Machine.execArqcVerify id s
  | .smMac id => Sys2Proof.Machine.execSmMac id s
  | .smEncMac id => Sys2Proof.Machine.execSmEncMac id s
  | .dukptDecrypt id => Sys2Proof.Machine.execDukptDecrypt id s
  | .dukptPinTranslate id => Sys2Proof.Machine.execDukptPinTranslate id s
  | .macGenerate id => Sys2Proof.Machine.execMacGenerate id s
  | .macVerify id => Sys2Proof.Machine.execMacVerify id s
  | .tokenise id => Sys2Proof.Machine.execTokenise id s
  | .detokenise id => Sys2Proof.Machine.execDetokenise id s
  | .keyblockImport id => Sys2Proof.Machine.execKeyblockImport id s
  | .keyblockExport id => Sys2Proof.Machine.execKeyblockExport id s
  | .keyCheckValue id => Sys2Proof.Machine.execKeyCheckValue id s
  | .aeadEncrypt id => Sys2Proof.Machine.execAeadEncrypt id s
  | .aeadDecrypt id => Sys2Proof.Machine.execAeadDecrypt id s
  | .sign id => Sys2Proof.Machine.execSign id s
  | .verify id => Sys2Proof.Machine.execVerify id s
  | .keyAgree id => Sys2Proof.Machine.execKeyAgree id s
  | .kemDecapsulate id => Sys2Proof.Machine.execKemDecapsulate id s
  | .houseProgramCommand x => Sys2Proof.Machine.execHouseProgramCommand x s
  | .statusQuery src => Sys2Proof.Machine.execStatusQuery src s
  | .epochStatus src => Sys2Proof.Machine.execEpochStatus src s
  | .strongroomStatus src => Sys2Proof.Machine.execStrongroomStatus src s
  | .mgrWindow src => Sys2Proof.Machine.execMgrWindow src s
  | .boothCreate src => Sys2Proof.Machine.execBoothCreate src s
  | .boothModify src => Sys2Proof.Machine.execBoothModify src s
  | .boothClose src => Sys2Proof.Machine.execBoothClose src s
  | .boothCloseDrainTimeout => Sys2Proof.Machine.execBoothCloseDrainTimeout s
  | .resetBooth src => Sys2Proof.Machine.execResetBooth src s
  | .abort src => Sys2Proof.Machine.execAbort src s
  | .partitionSet src => Sys2Proof.Machine.execPartitionSet src s
  | .resetModule src => Sys2Proof.Machine.execResetModule src s
  | .mailboxAttest src => Sys2Proof.Machine.execMailboxAttest src s
  | .clockSource src => Sys2Proof.Machine.execClockSource src s
  | .clockPtp src => Sys2Proof.Machine.execClockPtp src s
  | .clockPps src => Sys2Proof.Machine.execClockPps src s
  | .setTime src => Sys2Proof.Machine.execSetTime src s
  | .houseRegister src => Sys2Proof.Machine.execHouseRegister src s
  | .houseRemove src => Sys2Proof.Machine.execHouseRemove src s
  | .officerAdd src => Sys2Proof.Machine.execOfficerAdd src s
  | .officerRemove src => Sys2Proof.Machine.execOfficerRemove src s
  | .latchOpen src => Sys2Proof.Machine.execLatchOpen src s
  | .latchSign src => Sys2Proof.Machine.execLatchSign src s
  | .latchClose src => Sys2Proof.Machine.execLatchClose src s
  | .keyEnter src => Sys2Proof.Machine.execKeyEnter src s
  | .commission src => Sys2Proof.Machine.execCommission src s
  | .lcStatus src => Sys2Proof.Machine.execLcStatus src s
  | .lcNonce src => Sys2Proof.Machine.execLcNonce src s
  | .lcTransition x => Sys2Proof.Machine.execLcTransition x s
  | .debugUnlock src => Sys2Proof.Machine.execDebugUnlock src s
  | .imageInstall src w => Sys2Proof.Machine.execImageInstall src w s
  | .liveUpdate src w => Sys2Proof.Machine.execLiveUpdate src w s
  | .progLoad src w => Sys2Proof.Machine.execProgLoad src w s
  | .progRemove src => Sys2Proof.Machine.execProgRemove src s
  | .ledgerExport src => Sys2Proof.Machine.execLedgerExport src s
  | .ledgerConfirm src => Sys2Proof.Machine.execLedgerConfirm src s
  | .netAddr src => Sys2Proof.Machine.execNetAddr src s
  | .netListen src w => Sys2Proof.Machine.execNetListen src w s
  | .peerConfig src => Sys2Proof.Machine.execPeerConfig src s
  | .peerPair src => Sys2Proof.Machine.execPeerPair src s
  | .peerUnpair src => Sys2Proof.Machine.execPeerUnpair src s
  | .peerResync src => Sys2Proof.Machine.execPeerResync src s
  | .mintMode src => Sys2Proof.Machine.execMintMode src s
  | .cellService src => Sys2Proof.Machine.execCellService src s
  | .classify src => Sys2Proof.Machine.execClassify src s
  | .clearBridle src => Sys2Proof.Machine.execClearBridle src s
  | .alertWidth src => Sys2Proof.Machine.execAlertWidth src s
  | .defaults src => Sys2Proof.Machine.execDefaults src s
  | .getVersion msg => Sys2Proof.Machine.execGetVersion msg s
  | .getCapabilities msg => Sys2Proof.Machine.execGetCapabilities msg s
  | .negotiateAlgorithms msg => Sys2Proof.Machine.execNegotiateAlgorithms msg s
  | .getDigests msg => Sys2Proof.Machine.execGetDigests msg s
  | .getCertificate msg => Sys2Proof.Machine.execGetCertificate msg s
  | .challenge msg => Sys2Proof.Machine.execChallenge msg s
  | .getMeasurements msg => Sys2Proof.Machine.execGetMeasurements msg s
  | .keyExchange msg => Sys2Proof.Machine.execKeyExchange msg s
  | .finish msg => Sys2Proof.Machine.execFinish msg s
  | .keyUpdate msg => Sys2Proof.Machine.execKeyUpdate msg s
  | .endSession msg => Sys2Proof.Machine.execEndSession msg s
  | .vendorDefinedRequest msg => Sys2Proof.Machine.execVendorDefinedRequest msg s
  | .cellDoorOpen => Sys2Proof.Machine.execCellDoorOpen s
  | .tcpRetransmissionTimeout conn => Sys2Proof.Machine.execTcpRetransmissionTimeout conn s
  | .tcpKeepaliveProbe conn => Sys2Proof.Machine.execTcpKeepaliveProbe conn s
  | .peerCopyEnd slots => Sys2Proof.Machine.execPeerCopyEnd slots s
  | .policyRecordWritten => Sys2Proof.Machine.execPolicyRecordWritten s
  | .portLinkUp p => Sys2Proof.Machine.execPortLinkUp p s
  | .throttleRelease die temp => Sys2Proof.Machine.execThrottleRelease die temp s
  | .ceremonyConsoleEntry x => Sys2Proof.Machine.execCeremonyConsoleEntry x s
  | .latchingRegisterRead off size => Sys2Proof.Machine.execLatchingRegisterRead off size s
  | .linkTrainingComplete width rate flit => Sys2Proof.Machine.execLinkTrainingComplete width rate flit s
  | .mgmtLinkChange x => Sys2Proof.Machine.execMgmtLinkChange x s
  | .testAccessRequest r => Sys2Proof.Machine.execTestAccessRequest r s
  | .identityInjection seed weak => Sys2Proof.Machine.execIdentityInjection seed weak s

end Sys2Proof.Machine
end

