-- ==== Sys2Proof/Machine/Step.lean ====
section
/-! DEFINITION. The step of the block: the command at the front of the queue, or, with none waiting, one microsecond of
the clocks. -/

namespace Sys2Proof.Machine

/-- With no command waiting, one microsecond passes (log 4), and a booth request whose bound has passed fails (R118). -/
def idle (s : State) : State := onRt (fun rt => expireRequest (advance 1 rt)) s

/-- One step: take the command at the front of the queue and run it on the rest. -/
def step (s : State) : Host.Outcome State Fault Refusal :=
  match s.pending with
  | [] => .next (idle s)
  | c :: q => exec c { s with pending := q }

/-- The state with the command that a table word spells at the front of its queue; no word spells one. -/
def State.withFetchWord (s : State) (nbits w : Nat) : State :=
  match decodeTableWord nbits w with
  | none => s
  | some c => { s with pending := c :: s.pending }

end Sys2Proof.Machine
end

