-- ==== Sys2Proof/Safety.lean ====
section
/-! DEFINITION. The terms in which claims about the module are stated: what a fuse array keeps, the canonical form of the
memories, a clerk that issues an instruction, a library command that runs with its keys, and the end of a command. -/

namespace Sys2Proof.Machine

/-! ## Fuses (05 R102) -/

/-- Every fuse that is blown in `a` is blown in `b`, and what the fuses number has not gone back. -/
structure FusesKept (a b : Otp) : Prop where
  lcT : a.lcT &&& b.lcT = a.lcT
  lcC : a.lcC &&& b.lcC = a.lcC
  mark0 : a.mark0 &&& b.mark0 = a.mark0
  mark1 : a.mark1 &&& b.mark1 = a.mark1
  mark2 : a.mark2 &&& b.mark2 = a.mark2
  mark3 : a.mark3 &&& b.mark3 = a.mark3
  tamperCnt : a.tamperCnt ≤ b.tamperCnt
  rootLostCnt : a.rootLostCnt ≤ b.rootLostCnt
  seed : a.seed &&& b.seed = a.seed
  seedCheck : a.seedCheck &&& b.seedCheck = a.seedCheck
  serial : b.serial = a.serial

/-! ## Memories -/

/-- The memories of the module are in canonical form: clerk desks, room windows and house code, and the reckoners' operand
memories list their words at rising addresses and no word that is zero. -/
def Memory.wf (rt : Rt) : Bool :=
  rt.clerks.all (fun kv => kcanon 0 kv.2.mem) &&
  rt.rooms.all (fun kv => kcanon 0 kv.2.window && kcanon 0 kv.2.code) &&
  rt.reckoners.all fun kv => kcanon 0 kv.2.mem

/-! ## Instructions of the Karua-20 -/

/-- A clerk issues an instruction of a format: it is ready, the words at IC are fetched and are the row's, the row may run on it and
the operand modes are legal. What comes back is where the operands lie and the state after base word updates and cache fills; none
where the clerk does not run or the checks of R223 and R224 trap. -/
def issue (f : Fmt) (ls : LenSpec) (c : ClerkId) (o : Opnds) (s : State) : Option (Args × Rt) :=
  if !clerkReady s.rt c then none
  else match begun s.nv.progs f ls c o s.rt with
    | .go x _ rt2 => some (x, rt2)
    | _ => none

/-- The flags of a `w`-bit result with carry and overflow (11 R226). -/
def arithFlags (w r : Nat) (carry overflow : Bool) : FlagSet :=
  { z := some (r == 0), n := some (r.testBit (w - 1)), c := some carry, v := some overflow, dc := none, id := none }

/-- The flags Z and N of a `w`-bit result. -/
def znFlags (w r : Nat) : FlagSet := { z := some (r == 0), n := some (r.testBit (w - 1)), c := none, v := none, dc := none, id := none }

/-- An integer is outside the signed range of `w` bits. -/
def outside (w : Nat) (v : Int) : Bool := decide (v < -((2 ^ (w - 1) : Nat) : Int) ∨ ((2 ^ (w - 1) : Nat) : Int) ≤ v)

/-- The state after an instruction that ends with flags and goes on at the next one. -/
def ended (f : Fmt) (x : Args) (fl : FlagSet) (rt : Rt) (s : State) : State :=
  { s with rt := finish x.ck fl f.sets (readsPort f x) x.next .running rt }

/-- The state after an instruction that goes on elsewhere. -/
def jumped (f : Fmt) (x : Args) (ic : Nat) (rt : Rt) (s : State) : State :=
  { s with rt := finish x.ck noFlags f.sets (readsPort f x) ic .running rt }

/-- The rows that write `n` words, or none, and the flags of SW that they keep beside bits 8 and up (11 R226, R228, R229). -/
def WordRow (f : Fmt) (n : Nat) (keep : List Nat) (mk : ClerkId → Opnds → Instr) : Prop :=
  (f, n, keep, mk) ∈ [(fmtNop, 0, [0, 1, 2, 3, 4, 5, 7], .nop), (fmtClr, 1, [0, 1, 2, 3, 4, 5, 7], .clr), (fmtMfsw, 1, [0, 1, 2, 3, 4, 5, 7], .mfsw),
    (fmtMtsw, 0, [], .mtsw), (fmtMov, 1, [2, 3, 4, 5], .mov), (fmtMovd, 2, [2, 3, 4, 5], .movd), (fmtAdd, 1, [4, 5], .add),
    (fmtAdc, 1, [4, 5], .adc), (fmtAddd, 2, [4, 5], .addd), (fmtInc, 1, [4, 5], .inc), (fmtSub, 1, [4, 5], .sub), (fmtSbc, 1, [4, 5], .sbc),
    (fmtSubd, 2, [4, 5], .subd), (fmtDec, 1, [4, 5], .dec), (fmtNeg, 1, [4, 5], .neg), (fmtMul, 2, [4, 5], .mul), (fmtMulu, 2, [4, 5], .mulu),
    (fmtCmp, 0, [4, 5], .cmp), (fmtCmpd, 0, [4, 5], .cmpd), (fmtTst, 0, [2, 3, 4, 5], .tst), (fmtAnd, 1, [2, 3, 4, 5], .and),
    (fmtOr, 1, [2, 3, 4, 5], .or), (fmtXor, 1, [2, 3, 4, 5], .xor), (fmtNot, 1, [2, 3, 4, 5], .not), (fmtShl, 1, [3, 4, 5], .shl),
    (fmtShr, 1, [3, 4, 5], .shr), (fmtSar, 1, [3, 4, 5], .sar), (fmtRol, 1, [2, 3, 4, 5], .rol)]

/-- The words that a destination of `n` words takes. -/
def storedAt (n : Nat) (l : Loc) : List Nat :=
  match l, n with
  | .word a _, 1 => [a]
  | .word a _, 2 => [a, (a + 1) % 2 ^ 20]
  | _, _ => []

/-! ## Engines -/

/-- The front command of an engine's queue is `b`, its code is `op`, clerk `c` holds the engine, and the engine may run it: no halt
is in force and its mask expander has blocks left (14 R313). -/
structure AtFront (rt : Rt) (e : EngineRef) (op : Nat) (c : ClerkId) (b : Block) : Prop where
  front : ∃ q, (comOf rt e).queue = b :: q
  holder : holderOf rt e = some c
  code : blkW b 0 = op
  runs : (inFatal rt || inTamperHalt rt) = false
  fresh : (comOf rt e).blocks < maskLimit

/-- The state after an engine command: its blocks are counted, its work is done, it leaves the queue, and the clerks that waited
for it go on. -/
def engineDone (e : EngineRef) (n : Nat) (work : Rt → Rt) (s : State) : State :=
  onRt (fun rt => afterCommand e (popQueue e (work (setCom e { comOf rt e with blocks := (comOf rt e).blocks + n } rt)))) s

/-- A press command at the front that passes every check beside its permission group: reserved words zero, a key in the register
that word 10 names, length and parameters of 14 Tables 14.3 and 14.5. -/
structure PressRuns (q : PressCmd) (d : Die) (p : Nat) (c : ClerkId) (b : Block) (key : EngKey) (s : State) : Prop where
  front : AtFront s.rt (pressRef d p) q.op c b
  plain : blkW b 1 = 0 ∧ blkZero b 14 2 = true
  reg : pressKey (pressOf s.rt (ekey (pressRef d p))) (blkW b 10) = some key
  len : pressLenOk q (key.alg == .tdea) (blkD b 6) = true
  par : pressParOk q key b = true

/-- The state after a press command's work. -/
def pressDone (d : Die) (p : Nat) (b : Block) (work : Rt → Rt) (s : State) : State :=
  engineDone (pressRef d p) (pressBlocks s.rt (pressRef d p) b) work s

/-- The source of a press command. -/
def pressSrc (s : State) (c : ClerkId) (b : Block) : Bytes := getPtr s.rt c b 2 (blkD b 6)

/-- The starting value, counter block or expected MAC that word 8 points to. -/
def pressIv (s : State) (c : ClerkId) (b : Block) (n : Nat) : Bytes := getPtr s.rt c b 8 n

/-- A hash command at the front that passes the checks of R307 beside its key's permission: `before` is what CONTINUE extends and
`src` what its source gives. -/
structure HashRuns (op : Nat) (d : Die) (h : Nat) (srcOk : Bool) (c : ClerkId) (b : Block) (a : HashAlg) (before src : Bytes)
    (s : State) : Prop where
  front : AtFront s.rt (hashRef d h) op c b
  plain : blkW b 1 < 32 ∧ blkZero b 11 5 = true
  alg : hashOfBlock b = some a
  par : hashParOk b a = true
  pre : blkFlag b 3 = true → prefixAllowed b = true ∧ (hashOf s.rt (ekey (hashRef d h))).pre.isSome = true
  len : blkD b 6 ≤ 16777216 ∧ (blkFlag b 1 = false → blkD b 6 % hashBlock a = 0)
  cont : if blkFlag b 0 then (hashOf s.rt (ekey (hashRef d h))).st = some (blkW b 8, op, before) else before = []
  source : readSource s.rt c b (blkFlag b 2) srcOk (blkD b 6) = .ok src

/-- Everything that a hash unit has absorbed: the prefix before the first source byte, or after the last with PREFIX_LAST. -/
def absorbed (s : State) (d : Die) (h : Nat) (b : Block) (before src : Bytes) : Bytes :=
  let pre := if blkFlag b 3 then (hashOf s.rt (ekey (hashRef d h))).pre.getD [] else []
  if blkFlag b 4 then before ++ src ++ pre else before ++ pre ++ src

/-- The state that a hash unit keeps for a CONTINUE. -/
def keepHash (d : Die) (h : Nat) (st : Option (Nat × Nat × Bytes)) (rt : Rt) : Rt :=
  setHash (ekey (hashRef d h)) { hashOf rt (ekey (hashRef d h)) with st := st } rt

/-- The state after a hash command's work. -/
def hashDone (d : Die) (h : Nat) (b : Block) (work : Rt → Rt) (s : State) : State := engineDone (hashRef d h) (hashBlocks b) work s

/-- A loom command at the front that passes the checks of R308 to R310 beside its key's permission group. -/
structure LoomRuns (op : Nat) (d : Die) (l : Nat) (srcOk : Bool) (c : ClerkId) (b : Block) (key : EngKey) (src : Bytes) (s : State) :
    Prop where
  front : AtFront s.rt (loomRef d l) op c b
  plain : blkW b 1 < 8 ∧ loomDst b < 2
  reg : (loomOf s.rt (ekey (loomRef d l))).k0 = some key
  aes : key.alg = .aes ∧ key.perms.ecbOnly = false
  par : loomParOk b = true
  len : loomLenOk b = true ∧ loomFits (jobCmd s.rt c) b = true
  source : readSource s.rt c b (blkFlag b 0) srcOk (blkD b 6) = .ok src

/-- The header that a loom authenticates. -/
def loomHdr (s : State) (c : ClerkId) (b : Block) : Bytes := if blkW b 14 = 0 then [] else getPtr s.rt c b 12 (blkW b 14)

/-- A loom's output goes to the desk, or is appended to the staged output of the clerk's command (14 R309). -/
def loomTo (s : State) (c : ClerkId) (b : Block) (out : Bytes) (rt : Rt) : Rt :=
  if loomDst b = 0 then putDest c b out rt
  else match jobCmd s.rt c with
    | some m => modCmd m.id (fun m => { m with output := m.output ++ out }) rt
    | none => rt

/-- A decrypted payload of at most 65 536 bytes passes through the hold buffer (14 R310). -/
def heldBack (d : Die) (l : Nat) (b : Block) (out : Bytes) (rt : Rt) : Rt :=
  if loomPayload b ≤ 65536 then setLoom (ekey (loomRef d l)) { loomOf rt (ekey (loomRef d l)) with hold := out } rt else rt

/-- A tag mismatch withholds the output of the clerk's command (14 R312). -/
def withhold (s : State) (c : ClerkId) (rt : Rt) : Rt :=
  match jobCmd s.rt c with
  | some m => modCmd m.id (fun m => { m with withheld := true }) rt
  | none => rt

/-- The state after a loom command's work. -/
def loomDone (d : Die) (l : Nat) (b : Block) (work : Rt → Rt) (s : State) : State := engineDone (loomRef d l) (loomBlocks b) work s

/-- A reckoner command at the front, its unused words and reserved bits zero, decoded as `x` (15 Table 15.2). -/
structure RecRuns (op : Nat) (d : Die) (i : Nat) (c : ClerkId) (b : Block) (x : RecCmd) (r : Reckoner) (s : State) : Prop where
  front : AtFront s.rt (recRef d i) op c b
  cmd : recCmd b = x
  unit : reckonerOf s.rt (ekey (recRef d i)) = r
  fields : fieldsOk x = true ∧ x.y = 0
  ptrs : noPtrs b = true

/-- Put a reckoner's registers and operand memory, its queue, latch and mask expander as they are. -/
def recPut (d : Die) (i : Nat) (r : Reckoner) (rt : Rt) : Rt :=
  setReckoner (ekey (recRef d i)) { r with com := comOf rt (recRef d i) } rt

/-- The state after a reckoner command's work. -/
def recDone (d : Die) (i : Nat) (work : Rt → Rt) (s : State) : State := engineDone (recRef d i) 0 work s

/-- Two ranges of limbs have no limb in common. -/
def disjoint (a n b m : Nat) : Prop := a + n ≤ b ∨ b + m ≤ a

/-- Two ranges of the same length are equal or have no limb in common. -/
def sameOrApart (a b n : Nat) : Prop := a = b ∨ disjoint a n b n

/-- A range lies in the 4 096 limbs of operand memory. -/
def fits (a n : Nat) : Prop := a + n ≤ 4096

/-! ## Library commands -/

/-- A key that a command uses: it passes the checks of Tables 12.3 and 13.4 and `ok`, the lookup needs no load, and its tiles pass their
checks. -/
def Finds (s : State) (x : JobCtx) (h : BitVec 64) (ok : SlotRec → Bool) (slot : Nat) (r : SlotRec) : Prop :=
  lookKey s.rt x h ok = .key slot r

/-- The material of a key as a command sees it. -/
def matOf (s : State) (x : JobCtx) (slot : Nat) (r : SlotRec) : Bytes := materialOf s.rt x.cmd.bundle x.cmd.epoch slot r

/-- The state once a command has looked a key up: its tiles are in the die's key cache. -/
def looked (x : JobCtx) (slot : Nat) (r : SlotRec) (s : State) : State := onRt (touchTiles x.cmd.die (readTiles s.rt x.cmd.bundle x.cmd.epoch slot r)) s

/-- Two keys that a command uses one after the other: the second is looked up once the first has been. -/
def FindsBoth (s : State) (x : JobCtx) (h1 : BitVec 64) (ok1 : SlotRec → Bool) (k1 : Nat) (r1 : SlotRec) (h2 : BitVec 64)
    (ok2 : SlotRec → Bool) (k2 : Nat) (r2 : SlotRec) : Prop :=
  Finds s x h1 ok1 k1 r1 ∧ Finds (looked x k1 r1 s) x h2 ok2 k2 r2

/-- The state once both keys have been looked up. -/
def lookedBoth (x : JobCtx) (k1 : Nat) (r1 : SlotRec) (k2 : Nat) (r2 : SlotRec) (s : State) : State := looked x k2 r2 (looked x k1 r1 s)

/-- The random bytes that a command draws on its die, and the run-time state after it. -/
def Draws (s : State) (x : JobCtx) (n : Nat) (b : Bytes) (rt : Rt) : Prop :=
  (mintOf s.rt x.cmd.die).exhausted = false ∧ drawNow x.cmd.die n s.rt = some (b, rt)

/-! ## Management requests -/

/-- A management request of a code is there from a source, its state accepts it, and its header is in order (17 Table 17.14). -/
structure Serves (src : ReqSrc) (n : Nat) (s : State) (q : Req) : Prop where
  here : reqOf src s.rt = some q
  code : q.code = n
  accepted : stateRefuses s.rt n = none
  head : q.headOk = true

/-- The state after a request is answered, the machine being otherwise as in `t`. -/
def replied (src : ReqSrc) (q : Req) (st : Nat) (res : Bytes) (t : State) : State := onRt (answer src q st res) t

/-- The state after a request is refused with a status. -/
def refusedWith (src : ReqSrc) (q : Req) (st : Nat) (t : State) : State := onRt (refuse src q st) t

/-- The state after a request is refused with INPUT_REFUSED and a reason. -/
def refusedFor (src : ReqSrc) (q : Req) (why : Nat) (t : State) : State := onRt (refuseReason src q why) t

/-- A row of the table serves management requests of a code (17 Table 17.9). -/
def ServesCode (src : ReqSrc) (w : Bulk) (p : Pulses) (code : Nat) (row : Instr) : Prop :=
  (code, row) ∈ [(0x01, .statusQuery src), (0x02, .epochStatus src), (0x03, .strongroomStatus src), (0x04, .mgrWindow src), (0x10, .boothCreate src),
   (0x11, .boothModify src), (0x12, .boothClose src), (0x13, .resetBooth src), (0x15, .abort src), (0x16, .partitionSet src),
   (0x18, .resetModule src), (0x20, .mailboxAttest src), (0x22, .clockSource src), (0x22, .clockPtp src), (0x22, .clockPps src),
   (0x22, .setTime src), (0x30, .houseRegister src), (0x31, .houseRemove src), (0x32, .officerAdd src), (0x33, .officerRemove src),
   (0x34, .latchOpen src), (0x35, .latchSign src), (0x36, .latchClose src), (0x37, .keyEnter src), (0x38, .commission src),
   (0x40, .lcStatus src), (0x41, .lcNonce src), (0x42, .lcTransition ⟨src, p⟩), (0x43, .debugUnlock src), (0x50, .imageInstall src w),
   (0x51, .liveUpdate src w), (0x52, .progLoad src w), (0x53, .progRemove src), (0x60, .ledgerExport src), (0x61, .ledgerConfirm src),
   (0x70, .netAddr src), (0x71, .netListen src w), (0x72, .peerConfig src), (0x73, .peerPair src), (0x74, .peerUnpair src),
   (0x75, .peerResync src), (0x80, .mintMode src), (0x81, .cellService src), (0x82, .classify src), (0x82, .clearBridle src),
   (0x82, .alertWidth src), (0x82, .defaults src)]

/-- A row serves requests of a code whose parameters have a fixed length (17 Tables 17.10 to 17.12). -/
def FixedLength (src : ReqSrc) (w : Bulk) (p : Pulses) (code len : Nat) (row : Instr) : Prop :=
  (code, len, row) ∈ [(0x01, 0, .statusQuery src), (0x02, 0, .epochStatus src), (0x03, 0, .strongroomStatus src), (0x04, 16, .mgrWindow src),
   (0x12, 8, .boothClose src), (0x13, 2, .resetBooth src), (0x15, 8, .abort src), (0x18, 0, .resetModule src), (0x30, 12, .houseRegister src),
   (0x31, 2, .houseRemove src), (0x32, 5, .officerAdd src), (0x33, 4, .officerRemove src), (0x34, 4, .latchOpen src),
   (0x35, 100, .latchSign src), (0x36, 0, .latchClose src), (0x38, 4, .commission src),
   (0x40, 0, .lcStatus src), (0x41, 0, .lcNonce src), (0x42, 324, .lcTransition ⟨src, p⟩), (0x43, 128, .debugUnlock src),
   (0x50, 12, .imageInstall src w), (0x51, 12, .liveUpdate src w), (0x52, 20, .progLoad src w), (0x53, 4, .progRemove src),
   (0x60, 12, .ledgerExport src), (0x61, 8, .ledgerConfirm src), (0x70, 40, .netAddr src), (0x71, 32, .netListen src w),
   (0x72, 1, .peerConfig src), (0x73, 25, .peerPair src), (0x74, 0, .peerUnpair src), (0x75, 1, .peerResync src),
   (0x80, 1, .mintMode src), (0x81, 0, .cellService src)]

/-- The ledger is far enough from 90 % that an entry raises no level (13 R297). -/
def RoomLeft (nv : Nv) : Prop := 10 * (unconfirmed nv.ledger + 8) < 9 * ledgerSize

/-- A command has ended in a state: its status, inline result, output and output length. -/
def EndedAs (t : State) (id : CmdId) (st : Nat) (res out : Bytes) (len : Nat) : Prop :=
  ∃ c, kget t.rt.cmds id = some c ∧ c.stage = .ended ∧ c.status = st ∧ c.result = res ∧ c.output = out ∧ c.outLen = len

end Sys2Proof.Machine
end

