-- ==== Sys2Proof/Certificates/Slice0/Obligations.lean ====
section
/-! DEFINITION. The statements about the model that are to be proved, each as a proposition; its docstring names the rules of the
spec that it formalises and the commands that it covers. -/

open Sys2Proof Sys2Proof.Machine

/-- NOP, MOV, MOVD, CLR, MFSW, MTSW, NEG, MUL and MULU complete: the destination receives the value of R226, the flags follow it, and the
clerk goes on at the next instruction. MTSW writes bits 5 to 0 of its source to the six flags (R229); a source in engine port space sets E (log 14). -/
def Obligations.ClerkMovesAndMultiplies : Prop :=
  ∀ (c : ClerkId) (o : Opnds) (s : State) (x : Args) (rt : Rt),
    (issue fmtNop noLen c o s = some (x, rt) →
      exec (.nop c o) s = .next (ended fmtNop x noFlags rt s)) ∧
    (issue fmtMov noLen c o s = some (x, rt) →
      exec (.mov c o) s = .next (ended fmtMov x (znFlags 20 (valW rt c x.lb)) (putW c x.la (valW rt c x.lb) rt) s)) ∧
    (issue fmtMovd noLen c o s = some (x, rt) →
      exec (.movd c o) s = .next (ended fmtMovd x (znFlags 40 (valD rt c x.lb)) (putD c x.la (valD rt c x.lb) rt) s)) ∧
    (issue fmtClr noLen c o s = some (x, rt) →
      exec (.clr c o) s = .next (ended fmtClr x noFlags (putW c x.la 0 rt) s)) ∧
    (issue fmtMfsw noLen c o s = some (x, rt) →
      exec (.mfsw c o) s = .next (ended fmtMfsw x noFlags (putW c x.la (clerkOf rt c).sw.toNat rt) s)) ∧
    (issue fmtMtsw noLen c o s = some (x, rt) →
      exec (.mtsw c o) s = .next (ended fmtMtsw x { z := some ((valW rt c x.la).testBit 0), n := some ((valW rt c x.la).testBit 1), c := some ((valW rt c x.la).testBit 2), v := some ((valW rt c x.la).testBit 3), dc := some ((valW rt c x.la).testBit 4), id := some ((valW rt c x.la).testBit 5) }
        (if inPort 1 x.la then setClerk c { clerkOf rt c with sw := swPut (clerkOf rt c).sw 7 true } rt else rt) s)) ∧
    (issue fmtNeg noLen c o s = some (x, rt) →
      exec (.neg c o) s = .next (ended fmtNeg x (arithFlags 20 (wrap 20 (0 - (valW rt c x.lb : Int))) (decide (0 < valW rt c x.lb)) (outside 20 (0 - signed 20 (valW rt c x.lb)))) (putW c x.la (wrap 20 (0 - (valW rt c x.lb : Int))) rt) s)) ∧
    (issue fmtMul noLen c o s = some (x, rt) →
      exec (.mul c o) s = .next (ended fmtMul x (arithFlags 40 (wrap 40 (signed 20 (valW rt c x.lb) * signed 20 (valW rt c x.lc))) false false) (putD c x.la (wrap 40 (signed 20 (valW rt c x.lb) * signed 20 (valW rt c x.lc))) rt) s)) ∧
    (issue fmtMulu noLen c o s = some (x, rt) →
      exec (.mulu c o) s = .next (ended fmtMulu x (arithFlags 40 (valW rt c x.lb * valW rt c x.lc) false false) (putD c x.la (valW rt c x.lb * valW rt c x.lc) rt) s))

/-- ADD, ADC, ADDD, INC, SUB, SBC, SUBD, DEC, CMP and CMPD complete with the sum or difference modulo 2^20 or 2^40, N its top bit, Z for
zero, C the carry out or the borrow, and V where the signed result does not fit the width; CMP and CMPD write nothing (R226). -/
def Obligations.ClerkSumsAndDifferences : Prop :=
  ∀ (c : ClerkId) (o : Opnds) (s : State) (x : Args) (rt : Rt),
    (issue fmtAdd noLen c o s = some (x, rt) →
      exec (.add c o) s = .next (ended fmtAdd x (arithFlags 20 ((valW rt c x.lb + valW rt c x.lc) % 2 ^ 20) (decide (2 ^ 20 ≤ valW rt c x.lb + valW rt c x.lc)) (outside 20 (signed 20 (valW rt c x.lb) + signed 20 (valW rt c x.lc)))) (putW c x.la ((valW rt c x.lb + valW rt c x.lc) % 2 ^ 20) rt) s)) ∧
    (issue fmtAdc noLen c o s = some (x, rt) →
      exec (.adc c o) s = .next (ended fmtAdc x (arithFlags 20 ((valW rt c x.lb + valW rt c x.lc + b2n (swBit (clerkOf rt c).sw 2)) % 2 ^ 20) (decide (2 ^ 20 ≤ valW rt c x.lb + valW rt c x.lc + b2n (swBit (clerkOf rt c).sw 2))) (outside 20 (signed 20 (valW rt c x.lb) + signed 20 (valW rt c x.lc) + b2n (swBit (clerkOf rt c).sw 2)))) (putW c x.la ((valW rt c x.lb + valW rt c x.lc + b2n (swBit (clerkOf rt c).sw 2)) % 2 ^ 20) rt) s)) ∧
    (issue fmtAddd noLen c o s = some (x, rt) →
      exec (.addd c o) s = .next (ended fmtAddd x (arithFlags 40 ((valD rt c x.lb + valD rt c x.lc) % 2 ^ 40) (decide (2 ^ 40 ≤ valD rt c x.lb + valD rt c x.lc)) (outside 40 (signed 40 (valD rt c x.lb) + signed 40 (valD rt c x.lc)))) (putD c x.la ((valD rt c x.lb + valD rt c x.lc) % 2 ^ 40) rt) s)) ∧
    (issue fmtInc noLen c o s = some (x, rt) →
      exec (.inc c o) s = .next (ended fmtInc x (arithFlags 20 ((valW rt c x.la + 1) % 2 ^ 20) (decide (2 ^ 20 ≤ valW rt c x.la + 1)) (outside 20 (signed 20 (valW rt c x.la) + signed 20 (1)))) (putW c x.la ((valW rt c x.la + 1) % 2 ^ 20) rt) s)) ∧
    (issue fmtSub noLen c o s = some (x, rt) →
      exec (.sub c o) s = .next (ended fmtSub x (arithFlags 20 (wrap 20 ((valW rt c x.lb : Int) - valW rt c x.lc)) (decide (valW rt c x.lb < valW rt c x.lc)) (outside 20 (signed 20 (valW rt c x.lb) - signed 20 (valW rt c x.lc)))) (putW c x.la (wrap 20 ((valW rt c x.lb : Int) - valW rt c x.lc)) rt) s)) ∧
    (issue fmtSbc noLen c o s = some (x, rt) →
      exec (.sbc c o) s = .next (ended fmtSbc x (arithFlags 20 (wrap 20 ((valW rt c x.lb : Int) - valW rt c x.lc - b2n (swBit (clerkOf rt c).sw 2))) (decide (valW rt c x.lb < valW rt c x.lc + b2n (swBit (clerkOf rt c).sw 2))) (outside 20 (signed 20 (valW rt c x.lb) - signed 20 (valW rt c x.lc) - b2n (swBit (clerkOf rt c).sw 2)))) (putW c x.la (wrap 20 ((valW rt c x.lb : Int) - valW rt c x.lc - b2n (swBit (clerkOf rt c).sw 2))) rt) s)) ∧
    (issue fmtSubd noLen c o s = some (x, rt) →
      exec (.subd c o) s = .next (ended fmtSubd x (arithFlags 40 (wrap 40 ((valD rt c x.lb : Int) - valD rt c x.lc)) (decide (valD rt c x.lb < valD rt c x.lc)) (outside 40 (signed 40 (valD rt c x.lb) - signed 40 (valD rt c x.lc)))) (putD c x.la (wrap 40 ((valD rt c x.lb : Int) - valD rt c x.lc)) rt) s)) ∧
    (issue fmtDec noLen c o s = some (x, rt) →
      exec (.dec c o) s = .next (ended fmtDec x (arithFlags 20 (wrap 20 ((valW rt c x.la : Int) - 1)) (decide (valW rt c x.la < 1)) (outside 20 (signed 20 (valW rt c x.la) - signed 20 (1)))) (putW c x.la (wrap 20 ((valW rt c x.la : Int) - 1)) rt) s)) ∧
    (issue fmtCmp noLen c o s = some (x, rt) →
      exec (.cmp c o) s = .next (ended fmtCmp x (arithFlags 20 (wrap 20 ((valW rt c x.lb : Int) - valW rt c x.lc)) (decide (valW rt c x.lb < valW rt c x.lc)) (outside 20 (signed 20 (valW rt c x.lb) - signed 20 (valW rt c x.lc)))) rt s)) ∧
    (issue fmtCmpd noLen c o s = some (x, rt) →
      exec (.cmpd c o) s = .next (ended fmtCmpd x (arithFlags 40 (wrap 40 ((valD rt c x.lb : Int) - valD rt c x.lc)) (decide (valD rt c x.lb < valD rt c x.lc)) (outside 40 (signed 40 (valD rt c x.lb) - signed 40 (valD rt c x.lc)))) rt s))

/-- AND, OR, XOR, NOT and TST act bit by bit with Z and N (R226). SHL, SHR and SAR by a count from 1 to 19 give the shifted word with C the
last bit shifted out; by a count of 20 or more SHL and SHR give zero and SAR all sign bits, and above 20 C is 0 after SHL and SHR
and the sign bit after SAR; by 0 the word stays and C is 0. ROL rotates by the count modulo 20 (R228). -/
def Obligations.ClerkLogicAndShifts : Prop :=
  ∀ (c : ClerkId) (o : Opnds) (s : State) (x : Args) (rt : Rt),
    (issue fmtAnd noLen c o s = some (x, rt) →
      exec (.and c o) s = .next (ended fmtAnd x (znFlags 20 (valW rt c x.lb &&& valW rt c x.lc)) (putW c x.la (valW rt c x.lb &&& valW rt c x.lc) rt) s)) ∧
    (issue fmtOr noLen c o s = some (x, rt) →
      exec (.or c o) s = .next (ended fmtOr x (znFlags 20 (valW rt c x.lb ||| valW rt c x.lc)) (putW c x.la (valW rt c x.lb ||| valW rt c x.lc) rt) s)) ∧
    (issue fmtXor noLen c o s = some (x, rt) →
      exec (.xor c o) s = .next (ended fmtXor x (znFlags 20 (valW rt c x.lb ^^^ valW rt c x.lc)) (putW c x.la (valW rt c x.lb ^^^ valW rt c x.lc) rt) s)) ∧
    (issue fmtNot noLen c o s = some (x, rt) →
      exec (.not c o) s = .next (ended fmtNot x (znFlags 20 (2 ^ 20 - 1 - valW rt c x.lb)) (putW c x.la (2 ^ 20 - 1 - valW rt c x.lb) rt) s)) ∧
    (issue fmtTst noLen c o s = some (x, rt) →
      exec (.tst c o) s = .next (ended fmtTst x (znFlags 20 (valW rt c x.lb &&& valW rt c x.lc)) rt s)) ∧
    (issue fmtShl noLen c o s = some (x, rt) → 0 < valW rt c x.lc → valW rt c x.lc < 20 →
      exec (.shl c o) s = .next (ended fmtShl x { znFlags 20 (valW rt c x.lb * 2 ^ (valW rt c x.lc) % 2 ^ 20) with c := some ((valW rt c x.lb).testBit (20 - valW rt c x.lc)) } (putW c x.la (valW rt c x.lb * 2 ^ (valW rt c x.lc) % 2 ^ 20) rt) s)) ∧
    (issue fmtShl noLen c o s = some (x, rt) → 20 < valW rt c x.lc →
      exec (.shl c o) s = .next (ended fmtShl x { znFlags 20 (0) with c := some false } (putW c x.la (0) rt) s)) ∧
    (issue fmtShl noLen c o s = some (x, rt) → valW rt c x.lc = 0 → valW rt c x.lb < 2 ^ 20 →
      exec (.shl c o) s = .next (ended fmtShl x { znFlags 20 (valW rt c x.lb) with c := some false } (putW c x.la (valW rt c x.lb) rt) s)) ∧
    (issue fmtShr noLen c o s = some (x, rt) → 0 < valW rt c x.lc → valW rt c x.lc < 20 →
      exec (.shr c o) s = .next (ended fmtShr x { znFlags 20 (valW rt c x.lb / 2 ^ (valW rt c x.lc)) with c := some ((valW rt c x.lb).testBit (valW rt c x.lc - 1)) } (putW c x.la (valW rt c x.lb / 2 ^ (valW rt c x.lc)) rt) s)) ∧
    (issue fmtShr noLen c o s = some (x, rt) → 20 < valW rt c x.lc →
      exec (.shr c o) s = .next (ended fmtShr x { znFlags 20 (0) with c := some false } (putW c x.la (0) rt) s)) ∧
    (issue fmtSar noLen c o s = some (x, rt) → 0 < valW rt c x.lc → valW rt c x.lc < 20 →
      exec (.sar c o) s = .next (ended fmtSar x { znFlags 20 (wrap 20 (signed 20 (valW rt c x.lb) / ((2 ^ (valW rt c x.lc) : Nat) : Int))) with c := some ((valW rt c x.lb).testBit (valW rt c x.lc - 1)) } (putW c x.la (wrap 20 (signed 20 (valW rt c x.lb) / ((2 ^ (valW rt c x.lc) : Nat) : Int))) rt) s)) ∧
    (issue fmtSar noLen c o s = some (x, rt) → 20 ≤ valW rt c x.lc →
      exec (.sar c o) s = .next (ended fmtSar x { znFlags 20 (if (valW rt c x.lb).testBit 19 then 2 ^ 20 - 1 else 0) with c := some ((valW rt c x.lb).testBit 19) } (putW c x.la (if (valW rt c x.lb).testBit 19 then 2 ^ 20 - 1 else 0) rt) s)) ∧
    (issue fmtShl noLen c o s = some (x, rt) → valW rt c x.lc = 20 →
      exec (.shl c o) s = .next (ended fmtShl x { znFlags 20 (0) with c := some ((valW rt c x.lb).testBit 0) } (putW c x.la (0) rt) s)) ∧
    (issue fmtShr noLen c o s = some (x, rt) → valW rt c x.lc = 20 →
      exec (.shr c o) s = .next (ended fmtShr x { znFlags 20 (0) with c := some ((valW rt c x.lb).testBit 19) } (putW c x.la (0) rt) s)) ∧
    (issue fmtShr noLen c o s = some (x, rt) → valW rt c x.lc = 0 →
      exec (.shr c o) s = .next (ended fmtShr x { znFlags 20 (valW rt c x.lb) with c := some (false) } (putW c x.la (valW rt c x.lb) rt) s)) ∧
    (issue fmtSar noLen c o s = some (x, rt) → valW rt c x.lc = 0 → valW rt c x.lb < 2 ^ 20 →
      exec (.sar c o) s = .next (ended fmtSar x { znFlags 20 (valW rt c x.lb) with c := some (false) } (putW c x.la (valW rt c x.lb) rt) s)) ∧
    (issue fmtRol noLen c o s = some (x, rt) →
      exec (.rol c o) s = .next (ended fmtRol x (znFlags 20 ((valW rt c x.lb <<< (valW rt c x.lc % 20)) % 2 ^ 20 ||| valW rt c x.lb >>> (20 - valW rt c x.lc % 20))) (putW c x.la ((valW rt c x.lb <<< (valW rt c x.lc % 20)) % 2 ^ 20 ||| valW rt c x.lb >>> (20 - valW rt c x.lc % 20)) rt) s))

/-- DIVU of a double by a word that is not zero completes: a quotient of at most FFFFFh goes to word A and the remainder to word A + 1 with V
clear, and a greater quotient writes FFFFFh to both words and sets V; Z and N follow the quotient; a divisor of zero traps DIVIDE (R227). -/
def Obligations.DivuDividesOrTraps : Prop :=
  ∀ (c : ClerkId) (o : Opnds) (s : State) (x : Args) (rt : Rt),
    (issue fmtDivu noLen c o s = some (x, rt) → 0 < valW rt c x.lc → valD rt c x.lb / valW rt c x.lc ≤ 0xFFFFF →
      exec (.divu c o) s = .next (ended fmtDivu x { znFlags 20 (valD rt c x.lb / valW rt c x.lc) with v := some false } (putD c x.la (valD rt c x.lb / valW rt c x.lc * 2 ^ 20 + valD rt c x.lb % valW rt c x.lc) rt) s)) ∧
    (issue fmtDivu noLen c o s = some (x, rt) → 0 < valW rt c x.lc → 0xFFFFF < valD rt c x.lb / valW rt c x.lc →
      exec (.divu c o) s = .next (ended fmtDivu x { znFlags 20 0xFFFFF with v := some true } (putD c x.la (0xFFFFF * 2 ^ 20 + 0xFFFFF) rt) s)) ∧
    (∀ rt1, clerkReady s.rt c = true → begun s.nv.progs fmtDivu noLen c o s.rt = .go x rt1 rt → valW rt c x.lc = 0 →
      exec (.divu c o) s = .next { s with rt := clerkTrap c trapDivide 0x18 rt1 })

/-- ADDP, SUBP, MULP, MOVP, SHP and BTOD with lengths of at most 320 nibbles complete: the decimal result of the source strings, or an invalid
source, goes into A by the store rule of R231, which gives the nibbles and the flags Z, N, DC and ID. SHP multiplies or divides by a power of
ten (R232); BTOD reads B as signed when SA is set. -/
def Obligations.DecimalArithmeticStoresUnderTheRule : Prop :=
  ∀ (c : ClerkId) (o : Opnds) (s : State) (x : Args) (rt : Rt),
    (issue fmtAddp decLen c o s = some (x, rt) → lenLA (valW rt c x.lc) ≤ 320 → lenLB (valW rt c x.lc) ≤ 320 →
      exec (.addp c o) s = .next (ended fmtAddp x (storeRule (lenSA (valW rt c x.lc)) (lenLA (valW rt c x.lc)) ((decVal (lenSA (valW rt c x.lc)) (readNibbles rt c (lenLA (valW rt c x.lc)) (nibOf x.la))).bind fun a => (decVal (lenSB (valW rt c x.lc)) (readNibbles rt c (lenLB (valW rt c x.lc)) (nibOf x.lb))).map fun b => a + b)).2 (writeNibbles c (nibOf x.la) (storeRule (lenSA (valW rt c x.lc)) (lenLA (valW rt c x.lc)) ((decVal (lenSA (valW rt c x.lc)) (readNibbles rt c (lenLA (valW rt c x.lc)) (nibOf x.la))).bind fun a => (decVal (lenSB (valW rt c x.lc)) (readNibbles rt c (lenLB (valW rt c x.lc)) (nibOf x.lb))).map fun b => a + b)).1 rt) s)) ∧
    (issue fmtSubp decLen c o s = some (x, rt) → lenLA (valW rt c x.lc) ≤ 320 → lenLB (valW rt c x.lc) ≤ 320 →
      exec (.subp c o) s = .next (ended fmtSubp x (storeRule (lenSA (valW rt c x.lc)) (lenLA (valW rt c x.lc)) ((decVal (lenSA (valW rt c x.lc)) (readNibbles rt c (lenLA (valW rt c x.lc)) (nibOf x.la))).bind fun a => (decVal (lenSB (valW rt c x.lc)) (readNibbles rt c (lenLB (valW rt c x.lc)) (nibOf x.lb))).map fun b => a - b)).2 (writeNibbles c (nibOf x.la) (storeRule (lenSA (valW rt c x.lc)) (lenLA (valW rt c x.lc)) ((decVal (lenSA (valW rt c x.lc)) (readNibbles rt c (lenLA (valW rt c x.lc)) (nibOf x.la))).bind fun a => (decVal (lenSB (valW rt c x.lc)) (readNibbles rt c (lenLB (valW rt c x.lc)) (nibOf x.lb))).map fun b => a - b)).1 rt) s)) ∧
    (issue fmtMulp decLen c o s = some (x, rt) → lenLA (valW rt c x.lc) ≤ 320 → lenLB (valW rt c x.lc) ≤ 320 →
      exec (.mulp c o) s = .next (ended fmtMulp x (storeRule (lenSA (valW rt c x.lc)) (lenLA (valW rt c x.lc)) ((decVal (lenSA (valW rt c x.lc)) (readNibbles rt c (lenLA (valW rt c x.lc)) (nibOf x.la))).bind fun a => (decVal (lenSB (valW rt c x.lc)) (readNibbles rt c (lenLB (valW rt c x.lc)) (nibOf x.lb))).map fun b => a * b)).2 (writeNibbles c (nibOf x.la) (storeRule (lenSA (valW rt c x.lc)) (lenLA (valW rt c x.lc)) ((decVal (lenSA (valW rt c x.lc)) (readNibbles rt c (lenLA (valW rt c x.lc)) (nibOf x.la))).bind fun a => (decVal (lenSB (valW rt c x.lc)) (readNibbles rt c (lenLB (valW rt c x.lc)) (nibOf x.lb))).map fun b => a * b)).1 rt) s)) ∧
    (issue fmtMovp decLen c o s = some (x, rt) → lenLA (valW rt c x.lc) ≤ 320 → lenLB (valW rt c x.lc) ≤ 320 →
      exec (.movp c o) s = .next (ended fmtMovp x (storeRule (lenSA (valW rt c x.lc)) (lenLA (valW rt c x.lc)) (decVal (lenSB (valW rt c x.lc)) (readNibbles rt c (lenLB (valW rt c x.lc)) (nibOf x.lb)))).2 (writeNibbles c (nibOf x.la) (storeRule (lenSA (valW rt c x.lc)) (lenLA (valW rt c x.lc)) (decVal (lenSB (valW rt c x.lc)) (readNibbles rt c (lenLB (valW rt c x.lc)) (nibOf x.lb)))).1 rt) s)) ∧
    (issue fmtShp aLen c o s = some (x, rt) → lenLA (valW rt c x.lc) ≤ 320 →
      exec (.shp c o) s = .next (ended fmtShp x (storeRule (lenSA (valW rt c x.lc)) (lenLA (valW rt c x.lc)) ((decVal (lenSA (valW rt c x.lc)) (readNibbles rt c (lenLA (valW rt c x.lc)) (nibOf x.la))).map fun v => shiftDigits v (signed 20 (valW rt c x.lb)) (lenLA (valW rt c x.lc)))).2 (writeNibbles c (nibOf x.la) (storeRule (lenSA (valW rt c x.lc)) (lenLA (valW rt c x.lc)) ((decVal (lenSA (valW rt c x.lc)) (readNibbles rt c (lenLA (valW rt c x.lc)) (nibOf x.la))).map fun v => shiftDigits v (signed 20 (valW rt c x.lb)) (lenLA (valW rt c x.lc)))).1 rt) s)) ∧
    (issue fmtBtod aLen c o s = some (x, rt) → lenLA (valW rt c x.lc) ≤ 320 →
      exec (.btod c o) s = .next (ended fmtBtod x (storeRule (lenSA (valW rt c x.lc)) (lenLA (valW rt c x.lc)) (some (if lenSA (valW rt c x.lc) then signed 40 (valD rt c x.lb) else ((valD rt c x.lb : Nat) : Int)))).2 (writeNibbles c (nibOf x.la) (storeRule (lenSA (valW rt c x.lc)) (lenLA (valW rt c x.lc)) (some (if lenSA (valW rt c x.lc) then signed 40 (valD rt c x.lb) else ((valD rt c x.lb : Nat) : Int)))).1 rt) s))

/-- CMPP compares two valid decimal strings and writes nothing; DTOB writes the signed double, with V and the value modulo 2^40 outside its
range; DAJ adjusts the sum of two packed words; DECZ replaces nibbles through a table of 16 digits. An invalid nibble sets ID, with Z and N
clear in CMPP and zero written by the others (R231, R232, R233, R236). -/
def Obligations.DecimalComparesAndConversions : Prop :=
  ∀ (c : ClerkId) (o : Opnds) (s : State) (x : Args) (rt : Rt),
    let w := valW rt c x.lc
    let a := readNibbles rt c (lenLA w) (nibOf x.la)
    let b := readNibbles rt c (lenLB w) (nibOf x.lb)
    let y := wrap 20 ((valW rt c x.la : Int) - valW rt c x.lb)
    let t := readNibbles rt c 16 (nibOf x.lb)
    (∀ p q : Int, issue fmtCmpp decLen c o s = some (x, rt) → lenLA w ≤ 320 → lenLB w ≤ 320 →
      decVal (lenSA w) a = some p → decVal (lenSB w) b = some q →
      exec (.cmpp c o) s = .next (ended fmtCmpp x { noFlags with z := some (decide (p = q)), n := some (decide (p < q)) } rt s)) ∧
    (issue fmtCmpp decLen c o s = some (x, rt) → lenLA w ≤ 320 → lenLB w ≤ 320 →
      (decVal (lenSA w) a = none ∨ decVal (lenSB w) b = none) →
      exec (.cmpp c o) s =
        .next (ended fmtCmpp x { noFlags with z := some false, n := some false, id := some true } rt s)) ∧
    (∀ p : Int, issue fmtDtob bLen c o s = some (x, rt) → lenLB w ≤ 320 → decVal (lenSB w) b = some p →
      exec (.dtob c o) s =
        .next (ended fmtDtob x { znFlags 40 (wrap 40 p) with v := some (outside 40 p) } (putD c x.la (wrap 40 p) rt) s)) ∧
    (issue fmtDtob bLen c o s = some (x, rt) → lenLB w ≤ 320 → decVal (lenSB w) b = none →
      exec (.dtob c o) s =
        .next (ended fmtDtob x { znFlags 40 0 with v := some false, id := some true } (putD c x.la 0 rt) s)) ∧
    (∀ p q : Nat, issue fmtDaj noLen c o s = some (x, rt) → packedVal y = some p → packedVal (valW rt c x.lb) = some q →
      exec (.daj c o) s =
        .next (ended fmtDaj x { noFlags with z := some (packed ((p + q) % 100000) == 0), dc := some (decide (100000 ≤ p + q)) }
          (putW c x.la (packed ((p + q) % 100000)) rt) s)) ∧
    (issue fmtDaj noLen c o s = some (x, rt) → (packedVal y = none ∨ packedVal (valW rt c x.lb) = none) →
      exec (.daj c o) s =
        .next (ended fmtDaj x { noFlags with z := some true, id := some true } (putW c x.la 0 rt) s)) ∧
    (issue fmtDecz deczLen c o s = some (x, rt) → lenLA w ≤ 320 → (∀ d ∈ t, d < 10) →
      exec (.decz c o) s =
        .next (ended fmtDecz x noFlags (writeNibbles c (nibOf x.la) (a.map fun i => t.getD i 0) rt) s)) ∧
    (issue fmtDecz deczLen c o s = some (x, rt) → lenLA w ≤ 320 → (∃ d ∈ t, 10 ≤ d) →
      exec (.decz c o) s =
        .next (ended fmtDecz x { noFlags with id := some true } (writeNibbles c (nibOf x.la) (a.map fun _ => 0) rt) s))

/-- EDP with DIR 0 writes one byte 30h + d for each digit, after a sign byte when SB is set; with DIR 1 it writes the digits of the bytes 30h to
39h, and an Ah sign when SA is set (R234). LUHN writes the check digit of the digits of B, or with VFY set 0 or 1 as the last digit matches
the check digit of those before it (R235). An invalid digit in LUHN sets ID. -/
def Obligations.TextAndCheckDigits : Prop :=
  ∀ (c : ClerkId) (o : Opnds) (s : State) (x : Args) (rt : Rt),
    let w := valW rt c x.lc
    let b := readNibbles rt c (lenLB w) (nibOf x.lb)
    let d := if lenSB w then b.dropLast else b
    let y := readBytes rt c (lenLB w) (nibOf x.lb)
    let signOk := lenSB w = false ∨ b = [] ∨ isSign (b.getLastD 0) = true
    (issue fmtEdp edpLen c o s = some (x, rt) → lenLB w ≤ 320 → w.testBit 0 = false → (∀ v ∈ d, v < 10) → signOk →
      exec (.edp c o) s = .next (ended fmtEdp x noFlags (writeNibbles c (nibOf x.la)
        ((if lenSB w then [2, if b.getLast? = some 0xB then 0xD else 0xB] else []) ++ d.flatMap fun v => [3, v]) rt) s)) ∧
    (issue fmtEdp edpLen c o s = some (x, rt) → lenLB w ≤ 320 → w.testBit 0 = true → (∀ v ∈ y, 0x30 ≤ v.toNat ∧ v.toNat ≤ 0x39) →
      exec (.edp c o) s = .next (ended fmtEdp x noFlags (writeNibbles c (nibOf x.la)
        (y.map (fun v => v.toNat - 0x30) ++ if lenSA w then [0xA] else []) rt) s)) ∧
    (issue fmtLuhn bLen c o s = some (x, rt) → lenLB w ≤ 320 → w.testBit 0 = false → (∀ v ∈ d, v < 10) → signOk →
      exec (.luhn c o) s = .next (ended fmtLuhn x { noFlags with z := some (luhnDigit d == 0) } (putW c x.la (luhnDigit d) rt) s)) ∧
    (issue fmtLuhn bLen c o s = some (x, rt) → lenLB w ≤ 320 → w.testBit 0 = true → (∀ v ∈ d, v < 10) → signOk → 2 ≤ d.length →
      exec (.luhn c o) s = .next (ended fmtLuhn x { noFlags with z := some (luhnDigit d.dropLast == d.getLastD 0) }
        (putW c x.la (if luhnDigit d.dropLast = d.getLastD 0 then 0 else 1) rt) s)) ∧
    (issue fmtLuhn bLen c o s = some (x, rt) → lenLB w ≤ 320 → (∃ v ∈ d, 10 ≤ v) →
      exec (.luhn c o) s = .next (ended fmtLuhn x { noFlags with z := some (!w.testBit 0), id := some true }
        (putW c x.la (if w.testBit 0 then 1 else 0) rt) s))

/-- MOVS, CMPS, SRCH, XORS, FILLS and TRN of at most 65 536 bytes complete: MOVS copies B, CMPS sets Z and N by the unsigned order of the bytes
and writes nothing, SRCH writes the index of the first byte sought or n, XORS writes A XOR B, FILLS writes one byte throughout, and TRN writes
for each byte of A the low byte of its word in a table that the job may read within one region (R237). -/
def Obligations.StringInstructions : Prop :=
  ∀ (c : ClerkId) (o : Opnds) (s : State) (x : Args) (rt : Rt),
    let n := valW rt c x.lc
    let a := readBytes rt c n (nibOf x.la)
    let b := readBytes rt c n (nibOf x.lb)
    let m := valD rt c x.lc % 2 ^ 20
    let sought : Byte := BitVec.ofNat 8 (valD rt c x.lc / 2 ^ 20)
    let hay := readBytes rt c m (nibOf x.lb)
    (issue fmtMovs strLen c o s = some (x, rt) → n ≤ 65536 →
      exec (.movs c o) s = .next (ended fmtMovs x noFlags (writeBytes c (nibOf x.la) b rt) s)) ∧
    (issue fmtCmps strLen c o s = some (x, rt) → n ≤ 65536 →
      exec (.cmps c o) s = .next (ended fmtCmps x { noFlags with z := some (decide (a = b)), n := some (belowBytes a b) } rt s)) ∧
    (issue fmtSrch srchLen c o s = some (x, rt) → m ≤ 65536 →
      exec (.srch c o) s = .next (ended fmtSrch x { noFlags with z := some (decide (hay.findIdx (fun v => decide (v = sought)) < m)) }
        (putW c x.la (hay.findIdx fun v => decide (v = sought)) rt) s)) ∧
    (issue fmtXors strLen c o s = some (x, rt) → n ≤ 65536 →
      exec (.xors c o) s = .next (ended fmtXors x { noFlags with z := some (allZero (bxor a b)) }
        (writeBytes c (nibOf x.la) (bxor a b) rt) s)) ∧
    (issue fmtFills strLenA c o s = some (x, rt) → n ≤ 65536 →
      exec (.fills c o) s = .next (ended fmtFills x noFlags
        (writeBytes c (nibOf x.la) (List.replicate n (BitVec.ofNat 8 (valW rt c x.lb))) rt) s)) ∧
    (issue fmtTrn strLenA c o s = some (x, rt) → n ≤ 65536 → trnTableOk rt c (valW rt c x.lb) = true →
      exec (.trn c o) s = .next (ended fmtTrn x noFlags
        (writeBytes c (nibOf x.la) (a.map fun v => BitVec.ofNat 8 (readWord rt c (valW rt c x.lb + v.toNat))) rt) s))

/-- BZ, BNZ, BN, BNN, BC, BNC, BV, BNV, BDC, BNDC, BID, BNID, BLT, BGE and BGT, issued while K and E are not both set and with a target that the
code of the clerk may branch to, complete: IC becomes the effective address of the target where the condition of Table 11.3 holds, and the
address of the next instruction where it does not; nothing else of the machine state changes but what every instruction refreshes (R238). -/
def Obligations.ConditionalBranches : Prop :=
  ∀ (c : ClerkId) (o : Opnds) (s : State) (x : Args) (rt : Rt),
    let sw := (clerkOf rt c).sw
    let z := sw.getLsbD 0
    let n := sw.getLsbD 1
    let v := sw.getLsbD 3
    let goes (f : Fmt) (i : Instr) (cond : Bool) : Prop :=
      issue f noLen c o s = some (x, rt) → (sw.getLsbD 6 && sw.getLsbD 7) = false →
      targetOk rt c x.ic (targetOf x.la) false = true →
      exec i s = .next (if cond then jumped f x (targetOf x.la) rt s else ended f x noFlags rt s)
    goes fmtBz (.bz c o) z ∧ goes fmtBnz (.bnz c o) (!z) ∧ goes fmtBn (.bn c o) n ∧ goes fmtBnn (.bnn c o) (!n) ∧
    goes fmtBc (.bc c o) (sw.getLsbD 2) ∧ goes fmtBnc (.bnc c o) (!sw.getLsbD 2) ∧
    goes fmtBv (.bv c o) v ∧ goes fmtBnv (.bnv c o) (!v) ∧
    goes fmtBdc (.bdc c o) (sw.getLsbD 4) ∧ goes fmtBndc (.bndc c o) (!sw.getLsbD 4) ∧
    goes fmtBid (.bid c o) (sw.getLsbD 5) ∧ goes fmtBnid (.bnid c o) (!sw.getLsbD 5) ∧
    goes fmtBlt (.blt c o) (n != v) ∧ goes fmtBge (.bge c o) (n == v) ∧ goes fmtBgt (.bgt c o) (!z && n == v)

/-- BR goes to its target. CALL with B14 above 00400h decrements B14, stores the address of the next instruction there and goes to its target.
RET with B14 below 10000h goes to the address that B14 names and increments B14. LOOP writes A − 1 and goes to B unless it is 0. The targets are
ones that the code of the clerk may branch to (R216, R238). -/
def Obligations.BranchesCallsAndLoops : Prop :=
  ∀ (c : ClerkId) (o : Opnds) (s : State) (x : Args) (rt : Rt),
    let sp := baseWord rt c 14
    let left := wrap 20 ((valW rt c x.la : Int) - 1)
    (issue fmtBr noLen c o s = some (x, rt) → targetOk rt c x.ic (targetOf x.la) false = true →
      exec (.br c o) s = .next (jumped fmtBr x (targetOf x.la) rt s)) ∧
    (issue fmtCall noLen c o s = some (x, rt) → 0x400 < sp → canWrite rt c (sp - 1) = .ok () →
      targetOk rt c x.ic (targetOf x.la) true = true →
      exec (.call c o) s = .next (jumped fmtCall x (targetOf x.la) (writeWord c (sp - 1) x.next (writeWord c 14 (sp - 1) rt)) s)) ∧
    (issue fmtRet noLen c o s = some (x, rt) → sp < 0x10000 → targetOk rt c x.ic (readWord rt c sp) false = true →
      exec (.ret c o) s = .next (jumped fmtRet x (readWord rt c sp) (writeWord c 14 (sp + 1) rt) s)) ∧
    (issue fmtLoop noLen c o s = some (x, rt) → left ≠ 0 → targetOk rt c x.ic (targetOf x.lb) false = true →
      exec (.loop c o) s = .next (jumped fmtLoop x (targetOf x.lb) (putW c x.la left rt) s)) ∧
    (issue fmtLoop noLen c o s = some (x, rt) → left = 0 →
      exec (.loop c o) s = .next (ended fmtLoop x noFlags (putW c x.la 0 rt) s))

/-- LATCH and WAITL of an engine that the clerk holds set Z and return at once. LATCH of a free engine gives it to the clerk and sets Z, and of
an engine that another holds clears Z; WAITL of a free engine gives it to the
clerk, and of a held one with room in its FIFO the clerk stalls; UNLATCH of a held engine with an empty queue releases it and the engine starts
zeroing; SUBMIT copies a defined command block into a queue with room; WAITE goes on when the queue is empty and stalls otherwise
(R241 to R245). -/
def Obligations.EngineInstructions : Prop :=
  ∀ (c : ClerkId) (o : Opnds) (s : State) (x : Args) (rt : Rt) (e : EngineRef),
    let y := comOf rt e
    let blk : Block := { words := (List.range 16).map (fun i => BitVec.ofNat 20 (readWord rt c (valW rt c x.lb + i))),
                         lib := decide (0x80000 ≤ x.ic ∧ x.ic < 0x8C000) }
    let stalls (f : Fmt) (why : Stall) (rt' : Rt) : State :=
      { s with rt := finish c noFlags f.sets (readsPort f x) x.next (.stalled why) rt' }
    let named (f : Fmt) : Prop := issue f noLen c o s = some (x, rt) ∧ portOf c (targetWord x.la) = .engine e 0
    (named fmtLatch → holds rt c e = true → exec (.latch c o) s = .next (ended fmtLatch x { noFlags with z := some true } rt s)) ∧
    (named fmtWaitl → holds rt c e = true → exec (.waitl c o) s = .next (ended fmtWaitl x { noFlags with z := some true } rt s)) ∧
    (named fmtLatch → otherHouse rt c e = false → holds rt c e = false → canClaim rt e = true →
      exec (.latch c o) s = .next (ended fmtLatch x { noFlags with z := some true } (grant e c rt) s)) ∧
    (named fmtLatch → otherHouse rt c e = false → holds rt c e = false → canClaim rt e = false →
      exec (.latch c o) s = .next (ended fmtLatch x { noFlags with z := some false } rt s)) ∧
    (named fmtWaitl → otherHouse rt c e = false → holds rt c e = false → canClaim rt e = true →
      exec (.waitl c o) s = .next (ended fmtWaitl x noFlags (grant e c rt) s)) ∧
    (named fmtWaitl → otherHouse rt c e = false → holds rt c e = false → canClaim rt e = false → y.latch.fifo.length < 8 →
      exec (.waitl c o) s = .next (stalls fmtWaitl (.latch e)
        (askStart (engineIsland e) (setCom e { y with latch := { y.latch with fifo := addTo c y.latch.fifo } } rt)))) ∧
    (named fmtUnlatch → holds rt c e = true → y.queue = [] →
      exec (.unlatch c o) s = .next (ended fmtUnlatch x noFlags (releaseLatch e c rt) s)) ∧
    (named fmtSubmit → holds rt c e = true → valW rt c x.lb + 16 ≤ 0x40000 → codeDefined e.kind (blkW blk 0) = true →
      desksOk e.kind blk = true → y.queue.length < 4 →
      exec (.submit c o) s = .next (ended fmtSubmit x noFlags (setCom e { y with queue := y.queue ++ [blk] } rt) s)) ∧
    (named fmtWaite → holds rt c e = true → y.queue = [] →
      exec (.waite c o) s = .next (ended fmtWaite x noFlags rt s)) ∧
    (named fmtWaite → holds rt c e = true → y.queue ≠ [] →
      exec (.waite c o) s = .next (stalls fmtWaite (.engine e) rt))

/-- KLOAD and KLOADX with an engine that the clerk holds place a locksmith request, with the target, derivation and data of the key-load block for
KLOADX, and the clerk stalls until the delivery; RAND of 1 to 65 536 bytes places a request at the mint of the die in its FIFO and the clerk
stalls; RAND of none does nothing (R246, R247). -/
def Obligations.KeyLoadsAndRandomBytes : Prop :=
  ∀ (c : ClerkId) (o : Opnds) (s : State) (x : Args) (rt : Rt) (e : EngineRef) (h : BitVec 64),
    let a := valW rt c x.lc
    let w := fun i => readWord rt c (a + i)
    let n := w 4 * 2 ^ 20 + w 5
    let stalls (f : Fmt) (why : Stall) (rt' : Rt) : State :=
      { s with rt := finish c noFlags f.sets (readsPort f x) x.next (.stalled why) rt' }
    let asks (q : LockReq) : Rt := { rt with strong := { rt.strong with reqs := rt.strong.reqs ++ [q] } }
    let m := mintOf rt (clerkDie c)
    (issue fmtKload noLen c o s = some (x, rt) → portOf c (targetWord x.la) = .engine e 0 → holds rt c e = true →
      keyHandle rt c x.lb = .ok h →
      exec (.kload c o) s = .next (stalls fmtKload .key
        (asks { clerk := c, eng := some e, handle := h, target := 0, deriv := 0, data := [] }))) ∧
    (∀ p, issue fmtKloadx noLen c o s = some (x, rt) → portOf c (targetWord x.la) = .engine e 0 → holds rt c e = true →
      keyHandle rt c x.lb = .ok h → a + 8 ≤ 0x40000 → longPtr (w 2) (w 3) = some p → (n = 0 ∨ inDesk p (2 * n) = true) →
      targetDefined e.kind (w 0) = true →
      exec (.kloadx c o) s = .next (stalls fmtKloadx .key
        (asks { clerk := c, eng := some e, handle := h, target := w 0, deriv := w 1, data := readBytes rt c n p }))) ∧
    (issue fmtRand randLen c o s = some (x, rt) → 0 < valW rt c x.lb → valW rt c x.lb ≤ 65536 → m.exhausted = false →
      exec (.rand c o) s = .next (stalls fmtRand .mint
        (setMint (clerkDie c) { m with waiting := m.waiting ++ [.rand c (nibOf x.la) (valW rt c x.lb)] } rt))) ∧
    (issue fmtRand randLen c o s = some (x, rt) → valW rt c x.lb = 0 →
      exec (.rand c o) s = .next (ended fmtRand x noFlags rt s))

/-- JEND of a job whose engines and streams have no work left and whose outcome word is clear ends the command with DONE, its 16 result bytes from C
and, for a descriptor without INLINE, its output of B bytes from A after what the streams have written; JFAIL with a clear outcome word ends it with
MALFORMED, USAGE_REFUSED or DUAL_CONTROL_REQUIRED, or with INPUT_REFUSED and the reason in B (R249, R250, R212). -/
def Obligations.JobEnds : Prop :=
  ∀ (c : ClerkId) (o : Opnds) (s : State) (x : Args) (rt : Rt) (id : CmdId) (m : Cmd),
    let k := clerkOf rt c
    let n := valD rt c x.lb
    let p := nibOf x.la
    let st := valW rt c x.la % 2 ^ 16
    let rt' := if k.houseProg then rt else setClerk c { k with blocks := [] } rt
    k.job = some id → kget rt.cmds id = some m → k.outcome.1 = 0 →
    (issue fmtJend jendLen c o s = some (x, rt) → workPending rt k = false → isInline m.desc = true → n ≤ 16 →
      exec (.jend c o) s = .next { s with rt := doneCmd id (readBytes rt c 16 (nibOf x.lc)) [] n rt' }) ∧
    (issue fmtJend jendLen c o s = some (x, rt) → workPending rt k = false → isInline m.desc = false → n ≤ 65536 →
      (nibbleExtent (2 * n) p).1 + (nibbleExtent (2 * n) p).2 ≤ 0x40000 →
      exec (.jend c o) s =
        .next { s with rt := doneCmd id (readBytes rt c 16 (nibOf x.lc)) (m.output ++ readBytes rt c n p) n rt' }) ∧
    (issue fmtJfail noLen c o s = some (x, rt) → (st = stMalformed ∨ st = stUsageRefused ∨ st = stDualControl) →
      exec (.jfail c o) s = .next { s with rt := failWith id st rt }) ∧
    (issue fmtJfail noLen c o s = some (x, rt) → st = stInputRefused →
      exec (.jfail c o) s = .next { s with rt := refuseInput id (valW rt c x.lb % 256) rt })

/-- On the head clerks MCALL in supervisor mode goes to a numbered entry of the monitor in monitor mode, MRET in monitor mode returns after the MCALL in
supervisor mode, IOR reads and IOW writes an internal register that is not reserved to the monitor, and WAITI stalls until an interrupt (R251). On every
other clerk each of them traps PRIVILEGED (R223). -/
def Obligations.PrivilegedInstructions : Prop :=
  (∀ (c : ClerkId) (o : Opnds) (s : State) (x : Args) (rt : Rt),
    let sw := (clerkOf rt c).sw
    (∀ a, issue fmtMcall noLen c o s = some (x, rt) → kget rt.head.entries (valW rt c x.la) = some a → valW rt c x.la < 256 →
      swMode sw = 2 →
      exec (.mcall c o) s = .next (jumped fmtMcall x a.toNat
        (setMode c 3 { rt with head := { rt.head with retIc := BitVec.ofNat 20 x.next } }) s)) ∧
    (issue fmtMret noLen c o s = some (x, rt) → swMode sw = 3 →
      exec (.mret c o) s = .next (jumped fmtMret x rt.head.retIc.toNat (setMode c 2 rt) s)) ∧
    (∀ v, issue fmtIor noLen c o s = some (x, rt) → kget rt.head.regs (valW rt c x.lb) = some v →
      monitorOnly rt c (valW rt c x.lb) = false →
      exec (.ior c o) s = .next (ended fmtIor x noFlags (putW c x.la v.toNat rt) s)) ∧
    (issue fmtIow noLen c o s = some (x, rt) → monitorOnly rt c (valW rt c x.la) = false →
      exec (.iow c o) s = .next (ended fmtIow x noFlags
        { rt with head := { rt.head with regs := kset rt.head.regs (valW rt c x.la) (BitVec.ofNat 20 (valW rt c x.lb)) } } s)) ∧
    (issue fmtWaiti noLen c o s = some (x, rt) →
      exec (.waiti c o) s = .next { s with rt := finish c noFlags false (readsPort fmtWaiti x) x.next (.stalled .interrupt) rt })) ∧
  (∀ (c : ClerkId) (o : Opnds) (s : State) (rt1 : Rt), c ≠ 128 → clerkReady s.rt c = true →
    fetchWords s.nv.progs c o.fill (insnWords o) (clerkOf s.rt c).ic.toNat s.rt = .ok rt1 →
    let traps (op : Nat) (i : Instr) : Prop := insnFits s.rt c (clerkOf s.rt c).ic.toNat op o = true →
      exec i s = .next { s with rt := clerkTrap c trapPrivileged op rt1 }
    traps 0x90 (.mcall c o) ∧ traps 0x91 (.mret c o) ∧ traps 0x92 (.ior c o) ∧ traps 0x93 (.iow c o) ∧ traps 0x94 (.waiti c o))

/-- The instructions that write one word or a double, or that write nothing, leave every other word of the clerk's memory as it stands
after the base word updates of their operands; without an operand of mode 5 or 6 those change no word, and with one only words 0 to 15.
They leave the flags that R226 does not name for them, the bits of SW above 7, every other clerk and room, the engines, the commands,
the strongroom, flash, fuses and gondola. -/
def Obligations.ClerkFrames : Prop :=
  ∀ (f : Fmt) (n : Nat) (keep : List Nat) (mk : ClerkId → Opnds → Instr) (c : ClerkId) (o : Opnds) (s t : State) (x : Args) (rt : Rt),
    WordRow f n keep mk → issue f noLen c o s = some (x, rt) → exec (mk c o) s = .next t →
    (∀ a, a < 0x90000 ∨ c = 128 → a ∉ storedAt n x.la → readWord t.rt c a = readWord rt c a) ∧
    (∀ a, a < 0x90000 ∨ c = 128 → 16 ≤ a → readWord rt c a = readWord s.rt c a) ∧
    (o.a.mode ∉ [5, 6] → o.b.mode ∉ [5, 6] → o.c.mode ∉ [5, 6] → ∀ a, a < 0x90000 ∨ c = 128 → readWord rt c a = readWord s.rt c a) ∧
    (∀ i, i ∈ keep ∨ 8 ≤ i → (clerkOf t.rt c).sw.getLsbD i = (clerkOf s.rt c).sw.getLsbD i) ∧
    (clerkOf t.rt c).job = (clerkOf s.rt c).job ∧ (clerkOf t.rt c).latches = (clerkOf s.rt c).latches ∧
    (∀ k, k ≠ c → clerkOf t.rt k = clerkOf s.rt k) ∧ (∀ r, r ≠ clerkRoom c → roomOf t.rt r = roomOf s.rt r) ∧
    t.rt.presses = s.rt.presses ∧ t.rt.hashes = s.rt.hashes ∧ t.rt.looms = s.rt.looms ∧ t.rt.reckoners = s.rt.reckoners ∧
    t.rt.cmds = s.rt.cmds ∧ t.rt.bundles = s.rt.bundles ∧ t.rt.strong = s.rt.strong ∧ t.rt.booths = s.rt.booths ∧ t.rt.fault = s.rt.fault ∧
    t.rt.mbx = s.rt.mbx ∧ t.rt.epoch = s.rt.epoch ∧ t.rt.disp = s.rt.disp ∧ t.rt.boot = s.rt.boot ∧ t.rt.out = s.rt.out ∧
    t.nv = s.nv ∧ t.otp = s.otp ∧ t.gon = s.gon ∧ t.pending = s.pending

/-- ECB_ENC, ECB_DEC, CBC_ENC, CBC_DEC, CTR, CMAC_GEN, CMAC_VER, MAC1_GEN, MAC1_VER, MAC3_GEN, MAC3_VER and KW_WRAP: with the group that
Table 14.3 names, the press writes the result at the destination (a _VER command: 0 on a match, 1 on a mismatch, to the result word,
and nothing else) and the command leaves the queue. Without the group, or with an ECB-only key outside ECB_ENC, it writes zeros and
records USAGE_REFUSED (R302); KW_WRAP refuses a register 1 key that target 81h did not load (R306). -/
def Obligations.PressCommands : Prop :=
  ∀ (d : Die) (p : Nat) (c : ClerkId) (b : Block) (k : EngKey) (s : State),
    let tdea := k.alg == .tdea
    let bl := blockLen tdea
    let src := pressSrc s c b
    let cut := fun (m : Bytes) => m.take (blkW b 11)
    let verdict := fun (m : Bytes) => writeWord c (blkW b 13) (if cut m = pressIv s c b (blkW b 11) then 0 else 1)
    let ok := fun q => PressRuns q d p c b k s
    let general := k.perms.ecbOnly = false
    let done := fun work => Host.Outcome.next (pressDone d p b work s)
    (ok ecbEncCmd → k.perms.enc = true → exec (.ecbEnc d p) s = done (putDest c b (ecbEnc tdea k.key src))) ∧
    (ok ecbDecCmd → k.perms.dec = true → general → exec (.ecbDec d p) s = done (putDest c b (ecbDec tdea k.key src))) ∧
    (ok cbcEncCmd → k.perms.enc = true → general →
      exec (.cbcEnc d p) s = done (putDest c b (cbcEnc tdea k.key (pressIv s c b bl) src))) ∧
    (ok cbcDecCmd → k.perms.dec = true → general →
      exec (.cbcDec d p) s = done (putDest c b (cbcDec tdea k.key (pressIv s c b bl) src))) ∧
    (ok ctrCmd → k.perms.enc = true → general → exec (.ctr d p) s = done (putDest c b (ctrMode tdea k.key (pressIv s c b bl) src))) ∧
    (ok cmacGenCmd → k.perms.macg = true → general → exec (.cmacGen d p) s = done (putDest c b (cut (cmac tdea k.key src)))) ∧
    (ok cmacVerCmd → k.perms.macv = true → general → exec (.cmacVer d p) s = done (verdict (cmac tdea k.key src))) ∧
    (ok mac1GenCmd → k.perms.macg = true → general →
      exec (.mac1Gen d p) s = done (putDest c b (cut (mac1 tdea k.key (blkW b 12) src)))) ∧
    (ok mac1VerCmd → k.perms.macv = true → general → exec (.mac1Ver d p) s = done (verdict (mac1 tdea k.key (blkW b 12) src))) ∧
    (ok mac3GenCmd → k.perms.macg = true → general →
      exec (.mac3Gen d p) s = done (putDest c b (cut (mac3 k.key (blkW b 12) src)))) ∧
    (ok mac3VerCmd → k.perms.macv = true → general → exec (.mac3Ver d p) s = done (verdict (mac3 k.key (blkW b 12) src))) ∧
    (ok kwWrapCmd → k.perms.wrap = true → general → ∀ k1, (pressOf s.rt (ekey (pressRef d p))).k1 = some k1 →
      exec (.kwWrap d p) s = (if k1.payload then done (putDest c b (kwWrap k.key k1.key))
        else done fun rt => recordOutcome c stUsageRefused 0 (putDest c b (zeros (k1.key.length + 8)) rt))) ∧
    (ok ecbEncCmd → k.perms.enc = false → exec (.ecbEnc d p) s =
      done fun rt => recordOutcome c stUsageRefused 0 (putDest c b (zeros (blkD b 6)) rt)) ∧
    (ok cbcEncCmd → k.perms.ecbOnly = true → exec (.cbcEnc d p) s =
      done fun rt => recordOutcome c stUsageRefused 0 (putDest c b (zeros (blkD b 6)) rt)) ∧
    (ok cmacVerCmd → k.perms.macv = false → exec (.cmacVer d p) s =
      done fun rt => recordOutcome c stUsageRefused 0 (writeWord c (blkW b 13) 0 rt))

/-- HASH, HMAC_GEN and HMAC_VER: without FINAL the unit keeps what it has absorbed for a CONTINUE of the same command; with FINAL, HASH
writes the digest, HMAC_GEN the HMAC, and HMAC_VER writes 0 or 1 to the result word, the expected MAC being the last digest-length
bytes of the source (R307). HMAC_GEN with a key that lacks HMACG leaves the absorbed state alone, writes zeros and records
USAGE_REFUSED (R302). -/
def Obligations.HashCommands : Prop :=
  ∀ (d : Die) (h : Nat) (srcOk : Bool) (c : ClerkId) (b : Block) (a : HashAlg) (before src : Bytes) (k : EngKey) (s : State),
    let u := hashOf s.rt (ekey (hashRef d h))
    let all := absorbed s d h b before src
    let n := digestLen (blkW b 9) a
    let ok := fun op => HashRuns op d h srcOk c b a before src s
    let done := fun work => Host.Outcome.next (hashDone d h b work s)
    let final := blkFlag b 1 = true
    (ok 1 → ¬ final → exec (.hash d h srcOk) s = done (keepHash d h (some (blkW b 8, 1, all)))) ∧
    (ok 1 → final → exec (.hash d h srcOk) s = done fun rt => putDest c b (digest a n all) (keepHash d h none rt)) ∧
    (ok 2 → u.k0 = some k → k.perms.hmacg = true → ¬ final →
      exec (.hmacGen d h srcOk) s = done (keepHash d h (some (blkW b 8, 2, all)))) ∧
    (ok 2 → u.k0 = some k → k.perms.hmacg = true → final →
      exec (.hmacGen d h srcOk) s = done fun rt => putDest c b (hmac a k.key all) (keepHash d h none rt)) ∧
    (ok 2 → u.k0 = some k → k.perms.hmacg = false → final → exec (.hmacGen d h srcOk) s =
      done fun rt => recordOutcome c stUsageRefused 0 (putDest c b (zeros n) rt)) ∧
    (ok 3 → u.k0 = some k → k.perms.hmacv = true → ¬ final →
      exec (.hmacVer d h srcOk) s = done (keepHash d h (some (blkW b 8, 3, all)))) ∧
    (ok 3 → u.k0 = some k → k.perms.hmacv = true → final → ∀ m mac, all = m ++ mac → mac.length = n → n ≤ src.length →
      exec (.hmacVer d h srcOk) s =
        done fun rt => writeWord c (blkW b 10) (if hmac a k.key m = mac then 0 else 1) (keepHash d h none rt))

/-- GCM_ENC, GCM_DEC, CCM_ENC and CCM_DEC with a desk or staged destination: an encryption delivers ciphertext and tag and writes 0 to the
result word; a decryption whose tag verifies delivers the plaintext and writes 0; after a mismatch the result word is 1, the job's
output is withheld (R312), and a payload of at most 65 536 bytes is replaced by as many zeros (R310). A key without the group DEC
gives zeros and USAGE_REFUSED (R302). Each of the four at the front of a loom's queue, with a key that permits it, legal parameters and
lengths, and a source that is read, completes to the desk, to staging or, for a decryption that R311 lets go direct, to the host: the
command leaves the queue, the result word is 0, a staged output is appended to the command's, and a direct one is written at its buffer. -/
def Obligations.LoomCommands : Prop :=
  (∀ (d : Die) (l : Nat) (srcOk : Bool) (c : ClerkId) (b : Block) (k : EngKey) (src : Bytes) (s : State),
    let nonce := getPtr s.rt c b 8 (blkW b 10)
    let hdr := loomHdr s c b
    let ct := src.take (src.length - blkW b 11)
    let tag := src.drop (src.length - blkW b 11)
    let ok := fun op => LoomRuns op d l srcOk c b k src s
    let done := fun work => Host.Outcome.next (loomDone d l b work s)
    let sent := fun out rt => writeWord c (blkW b 15) 0 (loomTo s c b out rt)
    let opened := fun out => done fun rt => writeWord c (blkW b 15) 0 (loomTo s c b out (heldBack d l b out rt))
    let failed := fun (out : Bytes) => done fun rt =>
      let o := if loomPayload b ≤ 65536 then zeros out.length else out
      withhold s c (writeWord c (blkW b 15) 1 (loomTo s c b o (heldBack d l b o rt)))
    (ok 1 → k.perms.enc = true → exec (.gcmEnc d l srcOk) s = done (sent (gcmEnc k.key nonce hdr src))) ∧
    (ok 3 → k.perms.enc = true → exec (.ccmEnc d l srcOk) s = done (sent (ccmEnc k.key nonce hdr src (blkW b 11)))) ∧
    (ok 2 → k.perms.dec = true → ∀ out, (gcmDec k.key nonce hdr ct tag = (out, true) → exec (.gcmDec d l srcOk) s = opened out) ∧
      (gcmDec k.key nonce hdr ct tag = (out, false) → exec (.gcmDec d l srcOk) s = failed out)) ∧
    (ok 4 → k.perms.dec = true → ∀ out, (ccmDec k.key nonce hdr ct tag = (out, true) → exec (.ccmDec d l srcOk) s = opened out) ∧
      (ccmDec k.key nonce hdr ct tag = (out, false) → exec (.ccmDec d l srcOk) s = failed out)) ∧
    (ok 2 → k.perms.dec = false → exec (.gcmDec d l srcOk) s = done fun rt =>
      recordOutcome c stUsageRefused 0 (writeWord c (blkW b 15) 0
        (if loomDst b = 0 then putDest c b (zeros (min (loomPayload b) 65552)) rt else rt)))) ∧
  (∀ (d : Die) (l : Nat) (srcOk : Bool) (c : ClerkId) (b : Block) (k : EngKey) (src out : Bytes) (m : Cmd) (s : State),
    let e := loomRef d l
    let completes (i : Instr) : Prop := ∃ t, exec i s = .next t ∧ (comOf t.rt e).queue = (comOf s.rt e).queue.drop 1 ∧
      readWord t.rt c (blkW b 15) = 0 ∧
      (loomDst b = 1 → (kget t.rt.cmds m.id).map Cmd.output = some (m.output ++ out)) ∧
      (loomDst b = 2 → t.rt.out =
        s.rt.out ++ [.hostWrite ((boothOf s.rt m.booth).map fun x => x.cfg.pasid) m.desc.outIova.toNat out s.rt.link.relaxed])
    AtFront s.rt e (blkW b 0) c b → blkW b 1 < 8 → loomDst b < 3 → (loomOf s.rt (ekey e)).k0 = some k → k.alg = .aes → k.perms.ecbOnly = false →
    (if loomDec (blkW b 0) then k.perms.dec else k.perms.enc) = true → loomParOk b = true → loomLenOk b = true → loomFits (some m) b = true →
    readSource s.rt c b (blkFlag b 0) srcOk (blkD b 6) = .ok src →
    loomOut k.key b (getPtr s.rt c b 8 (blkW b 10)) (loomHdr s c b) src = (out, true) →
    jobCmd s.rt c = some m → kget s.rt.cmds m.id = some m →
    (loomDst b = 2 → directOk s.rt (clerkOf s.rt c) m = true ∧ loomPayload b ≤ m.desc.outLim.toNat) →
    (blkW b 0 = 1 → completes (.gcmEnc d l srcOk)) ∧ (blkW b 0 = 2 → completes (.gcmDec d l srcOk)) ∧
    (blkW b 0 = 3 → completes (.ccmEnc d l srcOk)) ∧ (blkW b 0 = 4 → completes (.ccmDec d l srcOk)))

/-- MOVL, SETMOD, MACP, REDC, MADD, MSUB, CSWAP_BIT and BSET: the destination receives the value of Table 15.3 (REDC: the number below the
modulus that times 2^(64n) is congruent to A), marked secret when an operand or the modulus is (R323); SETMOD refuses an even modulus
with reason 37h and loads all ones (R328); CSWAP_BIT exchanges under the bit that BC selects, with FIN, RAW and the swap latch (R330). -/
def Obligations.ReckonerLimbs : Prop :=
  ∀ (d : Die) (i : Nat) (c : ClerkId) (b : Block) (x : RecCmd) (r : Reckoner) (s : State),
    let n := x.n
    let A := numAt r n x.a
    let B := numAt r n x.b
    let m := modReg r x.m
    let secA := anySecret r x.a n
    let secB := anySecret r x.b n
    let ok := fun op => RecRuns op d i c b x r s
    let small := 1 ≤ n ∧ n ≤ 128
    let done := fun q => Host.Outcome.next (recDone d i (recPut d i q) s)
    let bit := selBit r x.p
    let sec3 := secA || secB || anySecret r x.p 1 || anySecret r (x.p + r.bc / 64) 1
    let swapped := fun (sw : Bool) => putNum x.b n (if sw then A else B) sec3 (putNum x.a n (if sw then B else A) sec3 r)
    (ok 0x03 → 1 ≤ n → fits x.a n → fits x.d n → disjoint x.a n x.d n → x.p = 0 →
      exec (.movl d i) s = done (putNum x.d n A secA r)) ∧
    (ok 0x04 → small → fits x.a n → x.p = 0 → A % 2 = 1 → 3 ≤ A →
      exec (.setmod d i) s = done (setModReg x.m { len := n, m := A, secret := secA } r)) ∧
    (ok 0x04 → small → fits x.a n → x.p = 0 → A % 2 = 0 ∨ A < 3 →
      exec (.setmod d i) s = .next (recDone d i (fun rt => recordOutcome c stInputRefused 0x37 (recPut d i
        { setModReg x.m { len := n, m := 2 ^ (64 * n) - 1, secret := secA } r with refused := true } rt)) s)) ∧
    (ok 0x05 → small → fits x.a n → fits x.b n → fits x.d (2 * n) → disjoint x.a n x.d (2 * n) → disjoint x.b n x.d (2 * n) → x.p = 0 →
      fRsq x = false → fAcc x = false → exec (.macp d i) s = done (putNum x.d (2 * n) (A * B) (secA || secB) r)) ∧
    (ok 0x05 → small → fits x.a n → fits x.b n → fits x.d (2 * n) → disjoint x.a n x.d (2 * n) → disjoint x.b n x.d (2 * n) → x.p = 0 →
      fRsq x = false → fAcc x = true → numAt r (2 * n) x.d + A * B < 2 ^ (128 * n) →
      exec (.macp d i) s = done (putNum x.d (2 * n) (numAt r (2 * n) x.d + A * B) (secA || secB || anySecret r x.d (2 * n)) r)) ∧
    (ok 0x06 → small → fits x.a (2 * n) → fits x.d n → disjoint x.a (2 * n) x.d n → x.p = 0 → fRsq x = false → fZx x = false →
      0 < m.len → m.len = n → m.m % 2 = 1 → ∃ v, v < m.m ∧ v * 2 ^ (64 * n) % m.m = numAt r (2 * n) x.a % m.m ∧
        exec (.redc d i) s = done (putNum x.d n v (m.secret || anySecret r x.a (2 * n)) r)) ∧
    (ok 0x07 → small → fits x.a n → fits x.b n → fits x.d n → sameOrApart x.a x.d n → sameOrApart x.b x.d n → 0 < m.len → x.p = 0 →
      A < m.m → B < m.m → exec (.madd d i) s = done (putNum x.d n ((A + B) % m.m) (m.secret || secA || secB) r)) ∧
    (ok 0x08 → small → fits x.a n → fits x.b n → fits x.d n → sameOrApart x.a x.d n → sameOrApart x.b x.d n → 0 < m.len → x.p = 0 →
      A < m.m → B < m.m → exec (.msub d i) s =
        done (putNum x.d n (if B ≤ A then A - B else A + m.m - B) (m.secret || secA || secB) r)) ∧
    (ok 0x09 → 1 ≤ n → n ≤ 256 → fits x.a n → fits x.b n → disjoint x.a n x.b n → x.p < 4096 →
      (fFin x = true → exec (.cswapBit d i) s = done { swapped r.swap with swap := false }) ∧
      (fFin x = false → fRaw x = true → exec (.cswapBit d i) s =
        done { swapped bit with bc := if fDec x then r.bc - 1 else r.bc }) ∧
      (fFin x = false → fRaw x = false → exec (.cswapBit d i) s =
        done { swapped (bit ^^ r.swap) with swap := bit, bc := if fDec x then r.bc - 1 else r.bc })) ∧
    (ok 0x0A → x.p < 2 ^ 18 → exec (.bset d i) s = done { r with bc := x.p, swap := false })

/-- LOADL of class 0 places a big-endian integer, and of class 1 refuses 0 with reason 30h; STOREL writes a public range and, where
a limb is secret, zeros and USAGE_REFUSED (R324); RNDL asks the die's mint; RUNL runs its entries in order; CHK kind 1 releases a
range when the invariant holds in the library, and records nothing after a refusal (R337); of kind 3 it draws the indices from the mint
first (R336); RECKONER_WIPE empties the whole unit. -/
def Obligations.ReckonerTransfers : Prop :=
  ∀ (d : Die) (i : Nat) (c : ClerkId) (b : Block) (x : RecCmd) (r : Reckoner) (s : State),
    let e := recRef d i
    let n := x.n
    let src := getPtr s.rt c b 2 (blkD b 6)
    let at0 := fun op => AtFront s.rt e op c b ∧ recCmd b = x ∧ reckonerOf s.rt (ekey e) = r ∧ fieldsOk x = true
    let done := fun work => Host.Outcome.next (recDone d i work s)
    let load := at0 0x01 ∧ blkZero b 4 2 = true ∧ x.p = 0 ∧ x.y = 0 ∧ 1 ≤ n ∧ n ≤ 256 ∧ fits x.a n ∧ src.length ≤ 8 * n
    let store := at0 0x02 ∧ blkZero b 2 2 = true ∧ x.p = 0 ∧ x.x = 0 ∧ x.y = 0 ∧ 1 ≤ n ∧ n ≤ 256 ∧ fits x.a n ∧ fSec x = false ∧ blkD b 6 ≤ 8 * n
    let l := (readList s.rt c ((blkP b 2).getD 0 / 5) n)
    let inv := powMod (numAt r n x.a) (limbAt r x.d) (modReg r x.m).m = numAt r n x.b
    let chk := at0 0x0D ∧ noPtrs b = true ∧ x.p = 0x11 ∧ x.x < 4096 ∧ 1 ≤ x.y ∧ x.y ≤ 1024 ∧ fits x.x x.y ∧ 1 ≤ n ∧ n ≤ 128 ∧ fits x.a n ∧
      fits x.b n ∧ fits x.d 1 ∧ 0 < (modReg r x.m).len ∧ anySecret r x.d 1 = false
    let chk3 := at0 0x0D ∧ noPtrs b = true ∧ x.p = 0x13 ∧ x.x < 4096 ∧ 1 ≤ x.y ∧ x.y ≤ 1024 ∧ fits x.x x.y ∧ 1 ≤ n ∧ n ≤ 8 ∧ 0 < r.q ∧
      fits x.a (128 * n) ∧ fits x.b (128 * n)
    (load → x.x = 0 → exec (.loadl d i) s = done (recPut d i (putNum x.a n (ofBe src) (fSec x) r))) ∧
    (load → x.x = 1 → 0 < (modReg r x.m).len → (modReg r x.m).secret = false → ofBe src = 0 →
      exec (.loadl d i) s = done fun rt => recordOutcome c stInputRefused 0x30
        (recPut d i { putNum x.a n 0 (fSec x) r with refused := true } rt)) ∧
    (store → anySecret r x.a n = false → exec (.storel d i) s = done (putDest c b (be (blkD b 6) (numAt r n x.a)))) ∧
    (store → anySecret r x.a n = true → exec (.storel d i) s =
      done fun rt => putDest c b (zeros (blkD b 6)) (recordOutcome c stUsageRefused 0 rt)) ∧
    (at0 0x0B → noPtrs b = true → x.p = 0 → x.x = 0 → x.y = 0 → 1 ≤ n → n ≤ 256 → fits x.d n → (comOf s.rt e).running = false →
      (mintOf s.rt d.val).exhausted = false → exec (.rndl d i) s = .next (onRt (fun rt => setMint d.val
        { mintOf rt d.val with waiting := (mintOf rt d.val).waiting ++ [.rndl d i x.d n] }
        (setCom e { comOf rt e with running := true } rt)) s)) ∧
    (at0 0x0C → ∀ p, blkP b 2 = some p → p % 5 = 0 → blkZero b 4 4 = true → x.p = 0 → x.x = 0 → 1 ≤ n → n ≤ 64 → 1 ≤ x.y → x.y ≤ 8192 →
      (∀ y ∈ l, inList (blkW y 0) = true) → ∀ q,
      forN x.y (fun _ t => runEntries (l.map fun y => listCmd y b.lib) t) ({ r with list := l }, []) = (q, []) →
      exec (.runl d i) s = done (recPut d i q)) ∧
    (chk3 → drawNow d.val (16 * n) s.rt = none → exec (.chk d i) s = .next s) ∧
    (∀ v rt, chk3 → drawNow d.val (16 * n) s.rt = some (v, rt) → x.lib = true → r.refused = false → r.keyPerms = none →
      (nttAgrees v x r = true → exec (.chk d i) s = .next (recDone d i (recPut d i (markRange x.x x.y false r)) { s with rt := rt })) ∧
      (nttAgrees v x r = false → ∃ ev : FaultEvent, ev.source = .reckonerInvariant ∧ exec (.chk d i) s = .next (recDone d i (fun rt =>
        raise ev (recordOutcome c stDeviceFault 0 (recPut d i (putNum x.x x.y 0 false r) rt))) { s with rt := rt }))) ∧
    (chk → x.lib = true → r.refused = false → r.keyPerms = none → inv →
      exec (.chk d i) s = done (recPut d i (markRange x.x x.y false r))) ∧
    (chk → x.lib = true → r.refused = true → exec (.chk d i) s = done (recPut d i (putNum x.x x.y 0 false r))) ∧
    (chk → x.lib = false → exec (.chk d i) s =
      done fun rt => recordOutcome c stUsageRefused 0 (recPut d i (putNum x.x x.y 0 false r) rt)) ∧
    ((comOf s.rt e).latch.wiping = true → exec (.reckonerWipe d i) s = .next (onRt (fun rt => passLatch e (setReckoner (ekey e)
      { Reckoner.reset with com := { EngCom.reset with latch := { (comOf rt e).latch with wiping := false } } } rt)) s))

/-- SETQ takes the two built-in moduli without a table, and refuses an even q with reason 37h (R333). LBFLY applies one NTT layer to each
of k polynomials in place; LPMUL, LPADD and LPSUB work coefficient by coefficient modulo q, LBASEM by FIPS 203 base case; LROUND
applies the function of word 13; LNORM writes the rejection bit for an ML-DSA signing job of the library, and elsewhere zero with
USAGE_REFUSED (R335). -/
def Obligations.ReckonerLattice : Prop :=
  ∀ (d : Die) (i : Nat) (c : ClerkId) (b : Block) (x : RecCmd) (r : Reckoner) (s : State),
    let k := x.n
    let w := 128 * k
    let ok := fun op => RecRuns op d i c b x r s
    let done := fun q => Host.Outcome.next (recDone d i (recPut d i q) s)
    let polys := 1 ≤ k ∧ k ≤ 8 ∧ 0 < r.q ∧ fits x.a w ∧ fits x.b w ∧ fits x.d w ∧ x.p = 0 ∧ x.x = 0
    let sec := anySecret r x.a w || anySecret r x.b w
    let out := fun l => putLattice x x.d l sec r
    let each := fun (f : List Nat → List Nat → List Nat) =>
      (List.range k).map fun j => f ((polysAt r k x.a).getD j []) ((polysAt r k x.b).getD j [])
    let q := x.p + 2 ^ 20 * (x.x % 16)
    let bound := x.p + 2 ^ 20 * (x.x % 16)
    (ok 0x10 → x.x < 16 → q = 3329 ∨ q = 8380417 → exec (.setq d i) s = done { r with q := q, tw := [] }) ∧
    (ok 0x10 → x.x < 16 → q % 2 = 0 ∨ q < 3 ∨ 2 ^ 24 ≤ q → exec (.setq d i) s = .next (recDone d i (fun rt =>
      recordOutcome c stInputRefused 0x37 (recPut d i { r with refused := true } rt)) s)) ∧
    (ok 0x11 → 1 ≤ k → k ≤ 8 → 0 < r.q → fits x.a w → x.p < layerCount r.q → x.x = 0 → exec (.lbfly d i) s =
      done (putLattice x x.a ((polysAt r k x.a).map (nttLayer r.q r.tw x.p (fInv x))) (anySecret r x.a w) r)) ∧
    (ok 0x12 → polys → fAcc x = false → sameOrApart x.a x.d w → sameOrApart x.b x.d w →
      exec (.lpmul d i) s = done (out (each (polyMul r.q)))) ∧
    (ok 0x13 → polys → fAcc x = false → disjoint x.a w x.d w → disjoint x.b w x.d w →
      exec (.lbasem d i) s = done (out (each (baseMul r.q)))) ∧
    (ok 0x14 → polys → sameOrApart x.a x.d w → sameOrApart x.b x.d w → exec (.lpadd d i) s = done (out (each (polyAdd r.q)))) ∧
    (ok 0x15 → polys → sameOrApart x.a x.d w → sameOrApart x.b x.d w → exec (.lpsub d i) s = done (out (each (polySub r.q)))) ∧
    (ok 0x16 → 1 ≤ k → k ≤ 8 → 0 < r.q → fits x.a w → fits x.d w → sameOrApart x.a x.d w → x.p ∈ [0, 1, 2, 4, 5] → lroundOk r.q x.p x.x = true →
      exec (.lround d i) s = done (putLattice x x.d (List.zipWith (List.zipWith fun u v => lroundD r.q x.p x.x u v) (polysAt r k x.a) (polysAt r k x.b))
        (anySecret r x.a w) r)) ∧
    (ok 0x17 → 1 ≤ k → k ≤ 8 → 0 < r.q → fits x.a w → x.x < 16 → x.lib = true → ∀ perms z, r.keyPerms = some perms → 1 ∈ perms → r.mlDsa = some z →
      bound ∈ mlDsaBounds z → exec (.lnorm d i) s =
        done (putNum x.d 1 (if ∃ v ∈ (polysAt r k x.a).flatten, (bound : Int) ≤ (centred r.q v).natAbs then 1 else 0) false r)) ∧
    (ok 0x17 → 1 ≤ k → k ≤ 8 → 0 < r.q → fits x.a w → x.x < 16 → x.lib = false → exec (.lnorm d i) s = .next (recDone d i (fun rt =>
      recordOutcome c stUsageRefused 0 (recPut d i (putNum x.d 1 0 false r) rt)) s))

/-- LATCH_BREAK ends the holder's job with DEVICE_FAULT and raises LATCH_BREAK (R299); ENGINE_ZEROING_END clears WIPING and passes the latch
(R241, R300); MASK_RESEED_REQUEST, _ARRIVAL and _TIMEOUT follow R313; INPUT_STREAM_READ of a session's command moves the next input bytes
to the desk and OUTPUT_STREAM_WRITE appends the source to the staged output (R244); LOCKSMITH_DELIVERY of an AES key for a press
writes register 0 with the permissions of the stored key, and the clerk runs on (R246, R301). -/
def Obligations.EngineEvents : Prop :=
  (∀ (e : EngineRef) (c : ClerkId) (id : CmdId) (m : Cmd) (s : State), holderOf s.rt e = some c → (clerkOf s.rt c).job = some id →
    kget s.rt.cmds id = some m → e.kind = .press → (comOf s.rt e).running = false → inFatal s.rt = false → inTamperHalt s.rt = false →
    ∃ ev t, exec (.latchBreak e) s = .next t ∧ t = onRt (fun rt => raise ev (failWith id stDeviceFault (advanceTo ((comOf rt e).latch.claimedAt + holdLimit) rt))) s ∧ ev.source = .latchBreak ∧
      ev.booth = some m.booth ∧ ev.island = some (engineIsland e) ∧ ev.houseProg = (clerkOf s.rt c).houseProg ∧
      ev.detail = le 2 (engineBlock e) ++ [BitVec.ofNat 8 (c % 64)] ++
        le 4 (max s.rt.now ((comOf s.rt e).latch.claimedAt + holdLimit) - (comOf s.rt e).latch.claimedAt)) ∧
  (∀ (e : EngineRef) (s : State), e.kind ≠ .reckoner → (comOf s.rt e).latch.wiping = true → exec (.engineZeroingEnd e) s =
    .next (onRt (fun rt => passLatch e (setCom e { comOf rt e with latch := { (comOf rt e).latch with wiping := false } } rt)) s)) ∧
  (∀ (e : EngineRef) (s : State), e.kind ≠ .reckoner → engineExists e = true → 2 ^ 20 - 2 ^ 16 ≤ (comOf s.rt e).blocks →
    (comOf s.rt e).reseedAsked = false → ∃ t, exec (.maskReseedRequest e) s = .next t ∧ (comOf t.rt e).reseedAsked = true ∧
      (mintOf t.rt e.die.val).waiting = .reseed e :: (mintOf s.rt e.die.val).waiting) ∧
  (∀ (e : EngineRef) (s : State), (comOf s.rt e).reseedAsked = true → (mintOf s.rt e.die.val).seeded = true →
    (comOf s.rt e).latch.fifo = [] → ∃ t, exec (.maskReseedArrival e) s = .next t ∧ (comOf t.rt e).blocks = 0 ∧
      (comOf t.rt e).reseedAsked = false ∧ (comOf t.rt e).rejecting = false ∧ (comOf t.rt e).running = false) ∧
  (∀ (e : EngineRef) (c : ClerkId) (s : State), e.kind ≠ .reckoner → holderOf s.rt e = some c → (comOf s.rt e).running = true →
    exec (.maskReseedTimeout e) s = .next (onRt (fun rt => afterCommand e (popQueue e (recordOutcome c stRngUnavailable 0
      (setCom e { comOf rt e with rejecting := true } rt)))) s)) ∧
  (∀ (c : ClerkId) (b : Block) (q : List Block) (id : CmdId) (m : Cmd) (p : Nat) (srcOk : Bool) (s : State),
    let k := clerkOf s.rt c
    k.inQ = b :: q → k.job = some id → kget s.rt.cmds id = some m → blkP b 4 = some p → m.session.isSome = true →
    inFatal s.rt = false → inTamperHalt s.rt = false → exec (.inputStreamRead c srcOk) s = .next (onRt (fun rt =>
      let rt1 := writeBytes c p (padTo (blkD b 6) (slice m.input k.inPos (blkD b 6))) rt
      streamDone c false (setClerk c { clerkOf rt1 c with inPos := k.inPos + min (blkD b 6) (m.input.length - k.inPos) } rt1)) s)) ∧
  (∀ (c : ClerkId) (b : Block) (q : List Block) (id : CmdId) (p : Nat) (s : State),
    (clerkOf s.rt c).outQ = b :: q → (clerkOf s.rt c).job = some id → blkP b 2 = some p → inFatal s.rt = false → inTamperHalt s.rt = false →
    exec (.outputStreamWrite c) s = .next (onRt (fun rt =>
      let rt1 := modCmd id (fun m => { m with output := m.output ++ readBytes s.rt c (blkD b 6) p }) rt
      streamDone c true (setClerk c { clerkOf rt1 c with streamUsed := true } rt1)) s)) ∧
  (∀ (c : ClerkId) (t : List (Nat × TileImage)) (q : LockReq) (x : JobCtx) (e : EngineRef) (slot : Nat) (r : SlotRec) (s : State),
    (s.rt.strong.reqs.find? fun y => y.clerk == c) = some q → jobCtx s.rt c = some x → q.eng = some e → e.kind = .press →
    (comOf s.rt e).queue = [] → (comOf s.rt e).running = false → inFatal s.rt = false → inTamperHalt s.rt = false → tileMiss s.rt x q.handle t = none →
    q.target = 0 → q.deriv = 0 → q.data = [] → findKey s.rt x.house x.cmd.bundle x.cmd.epoch q.handle (requestAccepts s.rt x q) = .key slot r →
    keyAlgOf r.alg = some .aes → ∃ u, exec (.locksmithDelivery c t) s = .next u ∧
      (pressOf u.rt (ekey e)).k0 = some { alg := .aes, key := materialOf s.rt x.cmd.bundle x.cmd.epoch slot r, perms := storedPerms r, payload := false } ∧
      (clerkOf u.rt c).st = .running ∧ (u.rt.strong.reqs.find? fun y => y.clerk == c) = none)

/-- DISPATCH and HOUSE_PROGRAM_COMMAND give a free clerk of a ready room the command that the pick finds: the clerk runs at the entry point with SW zero
and the job's command (R209). An input that stage 4 has not read is read then; outside the windows, or where the read fails, the
command ends with ACCESS_REFUSED (R11, R135). CLERK_WIPE frees a wiping clerk: job frame and noted blocks read zero, every other desk word stays
(R211). TIME_LIMIT traps the job (R213). STAGING_RESERVATION_GRANT serves the first waiting command when the pool suffices (R142). -/
def Obligations.ClerkJobs : Prop :=
  (∀ (c : ClerkId) (m0 m : Cmd) (data : Option Bytes) (reads : List (Nat × TileImage)) (rt0 rt1 : Rt) (s : State), clerkTakes s.rt c = true → mayRun s.rt = true → pick c (pickOrder s.rt) s.rt = (some m0, rt0) →
    readHost m0 data rt0 = some (rt1, some m) →
    ∃ t, exec (.dispatch ⟨c, data, reads⟩) s = .next t ∧ t.rt = startJob s.nv.progs c m reads rt1 ∧ (clerkOf t.rt c).st = .running ∧ (clerkOf t.rt c).job = some m.id ∧
      (clerkOf t.rt c).sw = 0 ∧ (clerkOf t.rt c).latches = [] ∧ t.nv = s.nv ∧
      (clerkOf t.rt c).ic = entryPoint (progFor s.nv.progs (boothHouse rt1 m.booth) m.desc.opcode.toNat m.epoch) m.desc.opcode.toNat) ∧
  (∀ (c : ClerkId) (m : Cmd) (d : Bytes) (rt0 : Rt) (s : State), clerkTakes s.rt c = true → mayRun s.rt = true →
    pick c (pickOrder s.rt) s.rt = (some m, rt0) → m.inputDone = false →
    (rangeOk (cmdWindows rt0 m m.epoch) false (hostBase m) (min (hostInput m) 65536) = false →
      exec (.dispatch ⟨c, some d, []⟩) s = .next { s with rt := failWith m.id stAccessRefused rt0 }) ∧
    (rangeOk (cmdWindows rt0 m m.epoch) false (hostBase m) (min (hostInput m) 65536) = true → d.length = hostInput m →
      ∃ t, exec (.dispatch ⟨c, some d, []⟩) s = .next t ∧ (clerkOf t.rt c).job = some m.id ∧
        (kget t.rt.cmds m.id).map Cmd.input = some d) ∧
    (rangeOk (cmdWindows rt0 m m.epoch) false (hostBase m) (min (hostInput m) 65536) = true →
      exec (.dispatch ⟨c, none, []⟩) s = .next { s with rt := inputDmaFault m (failWith m.id stAccessRefused rt0) })) ∧
  (∀ (c : ClerkId) (s : State), (clerkOf s.rt c).st = .wiping → ∃ t, exec (.clerkWipe c) s = .next t ∧ (clerkOf t.rt c).st = .free ∧
    (∀ a, 0x200 ≤ a → a < 0x400 → kget (clerkOf t.rt c).mem a = none) ∧
    (∀ a, a / 1024 ∈ (clerkOf s.rt c).blocks → kget (clerkOf t.rt c).mem a = none) ∧
    (∀ a, a < 0x200 ∨ 0x400 ≤ a → a / 1024 ∉ (clerkOf s.rt c).blocks → kget (clerkOf t.rt c).mem a = kget (clerkOf s.rt c).mem a) ∧
    (∀ c', c' ≠ c → clerkOf t.rt c' = clerkOf s.rt c')) ∧
  (∀ (c : ClerkId) (s : State), c < 128 → (clerkOf s.rt c).job.isSome = true → inFatal s.rt = false → inTamperHalt s.rt = false →
    exec (.timeLimit c) s = .next (onRt (fun rt => clerkTrap c trapTime (opcodeAt s.rt c) (advanceTo ((clerkOf rt c).dispatchedAt + jobLimit) rt)) s)) ∧
  (∀ (m : Cmd) (id : CmdId) (q : List CmdId) (s : State), s.rt.disp.resvQueue = id :: q → (∀ i ∈ id :: q, i ∉ s.rt.disp.drain) →
    kget s.rt.cmds id = some m → resvNeed s.rt m ≤ s.rt.disp.pool → ∃ t, exec .stagingReservationGrant s = .next t ∧
      kget t.rt.cmds id = some { m with resv := resvNeed s.rt m, resvWait := false } ∧
      t.rt.disp.pool = s.rt.disp.pool - resvNeed s.rt m ∧ id ∉ t.rt.disp.resvQueue) ∧
  (∀ (id : CmdId) (c : ClerkId) (m : Cmd) (d : Bytes) (rt0 : Rt) (s : State), kget s.rt.cmds id = some m → 0x8000 ≤ m.desc.opcode.toNat →
    m.desc.opcode.toNat < 0x9000 → m.stage = .admitted → clerkFor s.rt id = some c → mayRun s.rt = true →
    pick c (pickOrder s.rt) s.rt = (some m, rt0) → (m.inputDone = true ∨ (rangeOk (cmdWindows rt0 m m.epoch) false (hostBase m) (min (hostInput m) 65536) = true ∧
      d.length = hostInput m)) →
    ∃ t, exec (.houseProgramCommand ⟨id, some d, []⟩) s = .next t ∧ (clerkOf t.rt c).st = .running ∧ (clerkOf t.rt c).job = some id ∧ (clerkOf t.rt c).sw = 0)

/-- SQ_TAIL_WRITE and CQ_HEAD_WRITE take the low 16 bits of a value in range, and otherwise only raise DOORBELL_INVALID (R127, R128).
DESCRIPTOR_FETCH of one good entry makes one command and moves the fetch head; a bad one ends with the status of Table 7.4.
In tamper halt every descriptor ends with TAMPER_HALT (R16, R418).
DESCRIPTOR_READ_FAIL stops fetching (R134). INPUT_FETCH reads before admission an input with TALLY_IN and a format 1 prefix, and nothing
else (R11, R132, R143). ADMISSION gives the command the current epoch and a
credit, or refuses with QUEUE_FULL or ADMISSION_CLOSED (R178 to R180). -/
def Obligations.RingCommands : Prop :=
  (∀ (b : Nat) (v : BitVec 32) (x : Booth) (s : State), boothOf s.rt b = some x → doorbellLive s.rt x = true →
    let w := v.toNat % 65536
    let n := 2 ^ x.cfg.cqLog2
    let moved := (w + n - x.cqHead) % n
    (w < 2 ^ x.cfg.sqLog2 → exec (.sqTailWrite b v) s = .next (onRt (setBooth b { x with sqTail := w }) s)) ∧
    (2 ^ x.cfg.sqLog2 ≤ w → exec (.sqTailWrite b v) s = .next (onRt (badDoorbell b 0 w) s)) ∧
    (w < n → moved ≤ x.cqUnread →
      exec (.cqHeadWrite b v) s = .next (onRt (setBooth b { x with cqHead := w, cqUnread := x.cqUnread - moved }) s)) ∧
    (n ≤ w ∨ x.cqUnread < moved → exec (.cqHeadWrite b v) s = .next (onRt (badDoorbell b 1 w) s))) ∧
  (∀ (b : Nat) (e : Bytes) (x : Booth) (s : State), boothOf s.rt b = some x → ptFetches s.rt x = true → 1 ≤ sqWaiting x →
    x.fetchHead + 1 ≤ 2 ^ x.cfg.sqLog2 → cqClaimed s.rt b x + 1 ≤ 2 ^ x.cfg.cqLog2 →
    let d := descOf x.cfg.fmt e
    let c := newCmd s.rt.disp.nextCmd b none x.fetchHead d s.rt.epoch x.cfg.preset
    x.openBundle = none → markFirst d = false → markMore d = false → d.opcode ≠ 1 →
    checkDesc s.nv.progs (boothCtx s.rt x) false d = none → cmdRefusal s.rt d.opcode.toNat = none →
    ∃ t, exec (.descriptorFetch b [e]) s = .next t ∧ kget t.rt.cmds s.rt.disp.nextCmd = some c ∧
      t.rt.disp.nextCmd = s.rt.disp.nextCmd + 1 ∧
      (boothOf t.rt b).map Booth.fetchHead = some ((x.fetchHead + 1) % 2 ^ x.cfg.sqLog2)) ∧
  (∀ (b : Nat) (e : Bytes) (x : Booth) (st : Nat) (s : State), boothOf s.rt b = some x → ptFetches s.rt x = true → 1 ≤ sqWaiting x →
    x.fetchHead + 1 ≤ 2 ^ x.cfg.sqLog2 → cqClaimed s.rt b x + 1 ≤ 2 ^ x.cfg.cqLog2 →
    let d := descOf x.cfg.fmt e
    x.openBundle = none → markFirst d = false → markMore d = false →
    (inTamperHalt s.rt = true ∧ st = stTamperHalt ∨ inTamperHalt s.rt = false ∧ checkDesc s.nv.progs (boothCtx s.rt x) false d = some st) →
    ∃ t m, exec (.descriptorFetch b [e]) s = .next t ∧ kget t.rt.cmds s.rt.disp.nextCmd = some m ∧ m.stage = .ended ∧ m.status = st ∧
      m.desc = d ∧ m.booth = b ∧ m.admitted = false) ∧
  (∀ (b : Nat) (x : Booth) (s : State), boothOf s.rt b = some x → ptFetches s.rt x = true → 1 ≤ sqWaiting x →
    cqClaimed s.rt b x + 1 ≤ 2 ^ x.cfg.cqLog2 → ∃ t rest, exec (.descriptorReadFail b) s = .next t ∧
      (boothOf t.rt b).map Booth.fetchStopped = some true ∧
      t.rt.out = s.rt.out ++ [.hostWrite (some x.cfg.pasid) (x.cfg.cqIova + 32 * x.cqTail) (le 4 0xFFFFFFFF ++
        le 2 (if inTamperHalt s.rt then stTamperHalt else stAccessRefused) ++
        [BitVec.ofNat 8 (b2n x.phase + 4 * b2n (peerLost s)), 0] ++ zeros 4 ++ le 4 s.rt.epoch ++ zeros 16) false] ++ rest) ∧
  (∀ (id : CmdId) (c : Cmd) (data : Bytes) (s : State), kget s.rt.cmds id = some c → c.stage = .fetched → c.session = none →
    cmdRefusal s.rt c.desc.opcode.toNat = none → inputRangeOk s.rt c s.rt.epoch = true → outputRangeOk s.rt c s.rt.epoch = true →
    (c.prefixed = false → hasTallyIn c.desc = false →
      ∃ t, exec (.inputFetch id (some data)) s = .next t ∧
        kget t.rt.cmds id = some { c with input := [], inputDone := hostInput c == 0, stage := .input }) ∧
    (c.prefixed = false → isInline c.desc = false → hasTallyIn c.desc = true → 0 < c.desc.inLen.toNat →
      data.length = c.desc.inLen.toNat → ∀ m, stripTally (presetOf s.rt c.preset) data = some m →
      ∃ t, exec (.inputFetch id (some data)) s = .next t ∧
        kget t.rt.cmds id = some { c with input := m, inputDone := true, stage := .input }) ∧
    (c.prefixed = true → hasTallyIn c.desc = false → data.length = 16 → zeroAt data 14 2 = true →
      ∃ t, exec (.inputFetch id (some data)) s = .next t ∧ kget t.rt.cmds id =
        some { c with desc := { c.desc with fmt := 2, inl := data.take 14 }, input := [], inputDone := hostInput c == 0, stage := .input })) ∧
  (∀ (id : CmdId) (c : Cmd) (x : Booth) (die : Nat) (s : State), kget s.rt.cmds id = some c → c.id = id → c.stage = .input → c.desc.opcode ≠ 1 →
    c.bundle = none → cmdRefusal s.rt c.desc.opcode.toNat = none → earlierWaits s.rt c id = false → boothOf s.rt c.booth = some x →
    inputRangeOk s.rt c s.rt.epoch = true → outputRangeOk s.rt c s.rt.epoch = true →
    (0 < x.cfg.share → placeDie s.rt x.cfg.house = some die → occupancy s.rt c.booth + 1 ≤ x.cfg.share →
      ∃ t, exec (.admission id) s = .next t ∧ t.rt.disp.ready = s.rt.disp.ready ++ [id] ∧ kget t.rt.cmds id =
        some { c with admitted := true, admitSeq := s.rt.disp.nextAdmit, stage := .admitted, epoch := s.rt.epoch, die := die,
                      level := min (c.desc.prio.toNat % 8) x.cfg.ceiling, streaming := x.cfg.streaming, preset := x.cfg.preset }) ∧
    (x.cfg.share = 0 → exec (.admission id) s = .next (onRt (failWith id stAdmissionClosed) s)) ∧
    (0 < x.cfg.share → placeDie s.rt x.cfg.house = some die → x.cfg.share < occupancy s.rt c.booth + 1 →
      exec (.admission id) s = .next (onRt (failWith id stQueueFull) s)))

/-- COMPLETION_POST of a lone ring command writes its output and then one entry of 32 bytes at the completion tail with the booth's phase,
moves the tail, and takes the command from the module (R136, R137); in tamper halt the entry carries TAMPER_HALT and no output is
written (R16, R418). COALESCE_TIMER sends the booth's message and starts the count again
(R114). OUTPUT_SCRUB writes zeros over what a loom released (R312). MSIX_MASK_CLEAR sends a pending message (R113). -/
def Obligations.CompletionCommands : Prop :=
  (∀ (id : CmdId) (c : Cmd) (x : Booth) (s : State), kget s.rt.cmds id = some c → c.id = id → c.session = none → c.bundle = none → c.grouped = false →
    c.stage = .ended → needsScrub c = false → endedBefore s.rt c = false → inTamperHalt s.rt = false → c.discard = false → hostTakes s.rt = true → boothOf s.rt c.booth = some x → x.closing = false →
    s.rt.waiting = none → c.output ≠ [] → x.cfg.coalTime ≠ 0 → x.unsignalled + 1 < x.cfg.coalCount →
    ∃ t, exec (.completionPost id true) s = .next t ∧ kget t.rt.cmds id = none ∧
      t.rt.out = s.rt.out ++ [.hostWrite (some x.cfg.pasid) c.desc.outIova.toNat c.output s.rt.link.relaxed,
        .hostWrite (some x.cfg.pasid) (x.cfg.cqIova + 32 * x.cqTail) (entryOf x.phase (peerLost s) 0 c) false] ∧
      (boothOf t.rt c.booth).map (fun y => (y.cqTail, y.phase, y.cqUnread, y.unsignalled)) =
        some (if x.cqTail + 1 = 2 ^ x.cfg.cqLog2 then (0, !x.phase, x.cqUnread + 1, x.unsignalled + 1)
          else (x.cqTail + 1, x.phase, x.cqUnread + 1, x.unsignalled + 1))) ∧
  (∀ (id : CmdId) (c : Cmd) (x : Booth) (s : State), kget s.rt.cmds id = some c → c.id = id → c.session = none → c.bundle = none → c.grouped = false →
    c.stage = .ended → needsScrub c = false → endedBefore s.rt c = false → inTamperHalt s.rt = true → c.discard = false → hostTakes s.rt = true →
    boothOf s.rt c.booth = some x → x.cfg.coalTime ≠ 0 → x.unsignalled + 1 < x.cfg.coalCount →
    ∃ t, exec (.completionPost id true) s = .next t ∧ kget t.rt.cmds id = none ∧
      t.rt.out = s.rt.out ++ [.hostWrite (some x.cfg.pasid) (x.cfg.cqIova + 32 * x.cqTail) (entryOf x.phase (peerLost s) 0
        { c with status := stTamperHalt, result := zeros 16, output := [], outLen := 0 }) false]) ∧
  (∀ (c : Cmd) (lost phase : Bool) (m : Nat), (entryOf phase lost m c).length = 32) ∧
  (∀ (b : Nat) (x : Booth) (s : State), boothOf s.rt b = some x → x.coalRunning = true → 0 < x.unsignalled →
    exec (.coalesceTimer b) s = .next (onRt (fun rt => signal x.cfg.vector (setBooth b { x with unsignalled := 0, coalRunning := false } rt)) s)) ∧
  (∀ (id : CmdId) (c : Cmd) (s : State), kget s.rt.cmds id = some c → c.stage = .ended → needsScrub c = true → hostTakes s.rt = true →
    ∃ t, exec (.outputScrub id) s = .next t ∧ kget t.rt.cmds id = some { c with scrubbed := true } ∧ t.rt.out = s.rt.out ++
      [.hostWrite ((boothOf s.rt c.booth).map fun x => x.cfg.pasid) c.desc.outIova.toNat (zeros c.direct) s.rt.link.relaxed]) ∧
  (∀ (v : Nat) (s : State), v < 4096 → hostReaches s.rt = true → s.rt.msix.funcMask = false → s.rt.msix.pending = [v] →
    let e := msixEntry s.rt.msix v
    ∃ t, exec (.msixMaskClear (some v)) s = .next t ∧ msixEntry t.rt.msix v = { e with mask := false } ∧ t.rt.msix.pending = [] ∧
      t.rt.out = s.rt.out ++ [.msix v (e.addrHi ++ e.addrLo) e.data]) ∧
  (∀ (v : Nat) (s : State), hostReaches s.rt = true → s.rt.msix.pending = [v] → (msixEntry s.rt.msix v).mask = false →
    let e := msixEntry s.rt.msix v
    ∃ t, exec (.msixMaskClear none) s = .next t ∧ t.rt.msix.funcMask = false ∧ t.rt.msix.pending = [] ∧
      t.rt.out = s.rt.out ++ [.msix v (e.addrHi ++ e.addrLo) e.data])

/-- LATCHING_REGISTER_READ returns the register and latches the companion of an _LO register; another size or alignment reads all ones
(R110, R470), and configuration space answers with a retry until it is served (R84). REGISTER_WRITE writes the request buffer while BUSY is clear, and MBX_GO sets BUSY; a read-only register keeps its value.
FAULT_ACK clears the pending flags written as 1 and nothing else; a flag already clear clears its count (R434). TALLY_PRESET_VALIDATE
sets VALID of a good, free preset and persists it (R404). MBX_GO_WHILE_BUSY sets OVERRUN (R116). -/
def Obligations.RegisterCommands : Prop :=
  (∀ (s : State), hostReaches s.rt = true → ∃ t, exec (.latchingRegisterRead 0x1020 4) s = .next t ∧
    t.rt.out = s.rt.out ++ [.readData 0x1020 (BitVec.ofNat 32 (s.rt.epoch % 2 ^ 32))] ∧
    t.rt.rlatch.epochHi = some (BitVec.ofNat 32 (s.rt.epoch / 2 ^ 32)) ∧
    ∃ u, exec (.latchingRegisterRead 0x1024 4) t = .next u ∧
      u.rt.out = t.rt.out ++ [.readData 0x1024 (BitVec.ofNat 32 (s.rt.epoch / 2 ^ 32))]) ∧
  (∀ (off size : Nat) (s : State), hostReaches s.rt = true → mustRetry s.rt off = false → size ≠ 4 ∨ off % 4 ≠ 0 →
    ∃ t, exec (.latchingRegisterRead off size) s = .next t ∧ t.rt.out = s.rt.out ++ [.readData off 0xFFFFFFFF]) ∧
  (∀ (k : Nat) (v : BitVec 32) (s : State), hostReaches s.rt = true → s.rt.mbx.busy = false → k < 512 →
    ∃ t, exec (.registerWrite (0x2800 + 4 * k) 4 v) s = .next t ∧ kgetD t.rt.mbx.req k 0 = v ∧
      (∀ j, j ≠ k → kgetD t.rt.mbx.req j 0 = kgetD s.rt.mbx.req j 0) ∧ t.rt.mbx.busy = false ∧ t.nv = s.nv) ∧
  (∀ (off : Nat) (v : BitVec 32) (s : State), off < 0x2000 → exec (.registerWrite off 4 v) s = .next s) ∧
  (∀ (off size : Nat) (v : BitVec 32) (s : State), mustRetry s.rt off = false → size ≠ 4 ∨ off % 4 ≠ 0 →
    exec (.registerWrite off size v) s = .next s) ∧
  (∀ (off size : Nat) (v : BitVec 32) (s : State), hostReaches s.rt = true → 0x1400000 ≤ off → configServed s.rt = false →
    exec (.latchingRegisterRead off size) s = .next (onRt (emit (.configRetry off)) s) ∧
    exec (.registerWrite off size v) s = .next (onRt (emit (.configRetry off)) s)) ∧
  (∀ (s : State), hostReaches s.rt = true → s.rt.mbx.busy = false → (parseReq (reqBuffer s.rt.mbx)).code = 0x01 →
    ∃ t, exec (.registerWrite 0x2000 4 1) s = .next t ∧ t.rt.mbx.busy = true ∧ t.rt.mbx.req = s.rt.mbx.req) ∧
  (∀ (v : BitVec 32) (s : State), hostReaches s.rt = true →
    let f := s.rt.fault
    let ack := fun (w p : Bool) (n : Nat) => if w then (false, if p then n else 0) else (p, n)
    ∃ t, exec (.faultAck v) s = .next t ∧ (t.rt.fault.pendCorr, t.rt.fault.cntCorr) = ack (v.getLsbD 0) f.pendCorr f.cntCorr ∧
      (t.rt.fault.pendCont, t.rt.fault.cntCont) = ack (v.getLsbD 1) f.pendCont f.cntCont ∧
      (t.rt.fault.pendFatal, t.rt.fault.cntFatal) = ack (v.getLsbD 2) f.pendFatal f.cntFatal ∧
      (t.rt.fault.pendBooth, t.rt.fault.cntBooth) = ack (v.getLsbD 4) f.pendBooth f.cntBooth ∧ t.rt.fault.halted = f.halted ∧
      t.rt.fault.ring = f.ring ∧ t.rt.alert = s.rt.alert ∧ t.rt.cmds = s.rt.cmds) ∧
  (∀ (k : Nat) (s : State), 3 ≤ k → k ≤ 7 → blockServed s.rt 0x9000 = true → presetLocked s k = false → (presetOf s.rt k).valid = false →
    let p := presetOf s.rt k
    (presetOk p = true → ∃ t, exec (.tallyPresetValidate k) s = .next t ∧ presetOf t.rt k = { p with valid := true } ∧
      kgetD t.nv.presets k Preset.zero = { p with valid := true }) ∧
    (presetOk p = false → exec (.tallyPresetValidate k) s = .next s)) ∧
  (∀ (s : State), hostReaches s.rt = true → s.rt.mbx.busy = true →
    exec .mbxGoWhileBusy s = .next (onRt (fun rt => { rt with mbx := { rt.mbx with overrun := true } }) s))

/-- FAULT_EVENT of a contained source with no flag pending writes record NEXT_SEQ to its place in the ring of 40, sets PEND_CONT, counts it
and drives ALERT_N low; with PEND_CONT set it escalates to fatal, sets HALTED, every admitted command ends and the twin is paired no more
(R17, R432, R175). FABRIC_CE of a flit that the checker corrects records quietly under its count; FABRIC_UE of one that it cannot correct
fails the command concerned, or a management request after its retry, with DEVICE_FAULT, and no sink takes its data (R62, R64). ALERT_WIDTH_EXPIRY and ALERT_HOLD_CLEAR end
the two holds of the pin (R439). -/
def Obligations.FaultCommands : Prop :=
  (∀ (e : FaultEvent) (s : State), mainPower s.rt = true → s.rt.power.powerFail = false → boothAttr e = false →
    classifOf s.rt e = .cls .contained → inFatal s.rt = false → s.rt.fault.irqMask.getLsbD 1 = true →
    (s.rt.fault.pendCont = false → ∃ t r, exec (.faultEvent e) s = .next t ∧ kget t.rt.fault.ring (s.rt.fault.nextSeq % 40) = some r ∧
      r.seq = s.rt.fault.nextSeq ∧ r.source = e.source ∧ r.cls = .contained ∧ r.escalated = false ∧ r.booth = e.booth ∧
      t.rt.fault.pendCont = true ∧ t.rt.fault.cntCont = min (s.rt.fault.cntCont + 1) 255 ∧ t.rt.fault.firstCont = some r ∧
      t.rt.fault.nextSeq = (s.rt.fault.nextSeq + 1) % 2 ^ 32 ∧ t.rt.alert.hold = true ∧ t.rt.alert.pin = true ∧ t.rt.cmds = s.rt.cmds)) ∧
  (∀ (e : FaultEvent) (s : State), mainPower s.rt = true → s.rt.power.powerFail = false → boothAttr e = false →
    classifOf s.rt e = .cls .contained → s.rt.fault.halted = false → inTamperHalt s.rt = false → s.rt.fault.pendCont = true →
    ∃ t r, exec (.faultEvent e) s = .next t ∧ kget t.rt.fault.ring (s.rt.fault.nextSeq % 40) = some r ∧ r.cls = .fatal ∧ r.escalated = true ∧
      t.rt.fault.halted = true ∧ t.rt.fault.pendFatal = true ∧
      t.rt.peer.paired = false ∧
      ∀ id c, kget s.rt.cmds id = some c → c.admitted = true → ∃ d, kget t.rt.cmds id = some d ∧ d.stage = .ended ∧ d.status = stDeviceFault) ∧
  (∀ (die : Fin 3) (checker src : Nat) (addr : BitVec 56) (f : Flit) (s : State), mainPower s.rt = true → s.rt.power.powerFail = false →
    inFatal s.rt = false → isCorrected (checkFlit s.rt.fabricPerm f) = true → s.rt.fault.inForce = [] → s.rt.fault.wins = [] →
    ∃ t r, exec (.fabricCe die checker src ⟨addr, f⟩) s = .next t ∧
      kget t.rt.fault.ring (s.rt.fault.nextSeq % 40) = some r ∧ r.source = .fabricCe ∧ r.quiet = true ∧ r.cls = .corrected ∧
      r.island = some checker ∧ r.detail = BitVec.ofNat 8 src :: le 7 addr.toNat ∧ t.rt.alert = s.rt.alert ∧
      t.rt.fault.pendCorr = s.rt.fault.pendCorr) ∧
  (∀ (checker src : Nat) (addr : BitVec 56) (f : Flit) (id : CmdId) (c : Cmd) (s : State), mainPower s.rt = true →
    s.rt.power.powerFail = false → checkFlit s.rt.fabricPerm f = .uncorrectable → kget s.rt.cmds id = some c → c.id = id → c.stage = .dispatched → ∃ ev : FaultEvent, ev.source = .fabricUe ∧ ev.island = some checker ∧ ev.booth = some c.booth ∧
      exec (.fabricUe checker src ⟨addr, f⟩ (.command id)) s = .next (onRt (fun rt => failWith id stDeviceFault (raise ev rt)) s)) ∧
  (∀ (checker src : Nat) (addr : BitVec 56) (f : Flit) (use : FlitUse) (s : State), checkFlit s.rt.fabricPerm f = .uncorrectable →
    (forwarded s.rt.fabricPerm f).poison = true ∧ sinkTakes s.rt.fabricPerm f = none ∧ (mainPower s.rt = true → s.rt.power.powerFail = false →
      use = .management false → ∃ ev : FaultEvent, ev.source = .fabricUe ∧ ev.island = some checker ∧
        exec (.fabricUe checker src ⟨addr, f⟩ use) s = .next (onRt (fun rt => failRequest stDeviceFault [] (raise ev rt)) s))) ∧
  (∀ (v : Option Bytes) (f : Flit), sinkTakes v { f with poison := true } = none) ∧
  (∀ (s : State), s.rt.alert.widthActive = true → s.rt.alert.pin = true → s.rt.alert.hold = true → mainPower s.rt = true →
    ∃ t, exec .alertWidthExpiry s = .next t ∧ t.rt.alert = { s.rt.alert with widthActive := false } ∧ t.rt.out = s.rt.out ∧
      t.rt.now = max s.rt.now s.rt.alert.widthEnds) ∧
  (∀ (s : State), s.rt.fault.pendCont = false → s.rt.fault.pendFatal = false → s.rt.fault.halted = false → ∃ t, exec .alertHoldClear s = .next t ∧
    t.rt.alert.hold = false ∧ t.rt.alert.pin = (mainPower s.rt && (s.rt.alert.tamperHold || s.rt.alert.widthActive))) ∧
  (∀ (s : State), s.rt.fault.pendCont = true ∨ s.rt.fault.pendFatal = true ∨ s.rt.fault.halted = true → exec .alertHoldClear s = .next s)

/-- MAIN_POWER_APPLIED: with the last input a cold reset follows; before it the module only waits (R32). AUX_INPUT_MISSING notes the end of
the 100 ms. PERST_ASSERT is a warm reset that keeps fuses, gondola and the pending register; PERST_RELEASE begins the start, and a
150 W cable holds it with BOOT_STAGE 80h (R30, R66). POWER_FAIL drops every run-time value. LINK_TRAINING_COMPLETE sets the LINK fields,
after DL_Down too; HOST_LINK_LOSS, by DL_Down or by the loss of a Secure stream, stops fetching and raises HOST_LINK, and HOST_LINK_RETURN, with
the link up, leaves every open booth's ring as new (R28, R125). MGMT_LINK_CHANGE sets the management port's link, which a
partner without 1000BASE-T does not get (R39). -/
def Obligations.PowerAndLink : Prop :=
  (∀ (a b c : Bool) (sense : Cable) (s : State), mainPower s.rt = false → (s.rt.power.slot12 || a) = true → (s.rt.power.slot33 || b) = true →
    (s.rt.power.aux12 || c) = true → s.rt.power.perst = false → sense ≠ .w150 → (s.rt.cageA.present && s.rt.cageA.lowPower) = false →
    (s.rt.cageB.present && s.rt.cageB.lowPower) = false → ∃ t, exec (.mainPowerApplied a b c sense) s = .next t ∧
      mainPower t.rt = true ∧ t.rt.power.powerFail = false ∧ t.rt.power.cable = sense ∧ t.rt.boot.stage = 0x01 ∧ t.rt.boot.lastReset = 0 ∧
      t.rt.boot.moduleResets = 0 ∧ t.rt.booths = [] ∧ t.rt.cmds = [] ∧ t.rt.fault.ring = [] ∧ t.gon = s.gon ∧ t.otp = s.otp) ∧
  (∀ (a b c : Bool) (sense : Cable) (s : State), mainPower s.rt = false →
    ((s.rt.power.slot12 || a) && (s.rt.power.slot33 || b) && (s.rt.power.aux12 || c)) = false → ∃ t,
      exec (.mainPowerApplied a b c sense) s = .next t ∧ mainPower t.rt = false ∧ t.rt.boot = s.rt.boot ∧ t.rt.cmds = s.rt.cmds ∧
      t.rt.power.slot12 = (s.rt.power.slot12 || a)) ∧
  (∀ (s : State), mainPower s.rt = false → exec .auxInputMissing s =
    .next (onRt (fun rt => { rt with power := { rt.power with waitExpired := true } }) s)) ∧
  (∀ (s : State), mainPower s.rt = true → s.rt.power.powerFail = false → ∃ t, exec .perstAssert s = .next t ∧ t.rt.power.perst = true ∧
    t.rt.boot.stage = 0x01 ∧ t.rt.boot.lastReset = 1 ∧ t.rt.boot.moduleResets = s.rt.boot.moduleResets ∧ t.rt.booths = [] ∧ t.rt.cmds = [] ∧
    t.rt.lc.pendingTarget = s.rt.lc.pendingTarget ∧ t.rt.fault.ring = s.rt.fault.ring ∧ t.rt.fault.firstFatal = s.rt.fault.firstFatal ∧
    t.gon = s.gon ∧ t.otp = s.otp ∧ t.nv.slots = s.nv.slots) ∧
  (∀ (sense : Cable) (s : State), s.rt.power.perst = true → mainPower s.rt = true → s.rt.power.powerFail = false →
    (s.rt.cageA.present && s.rt.cageA.lowPower) = false → (s.rt.cageB.present && s.rt.cageB.lowPower) = false → ∃ t,
    exec (.perstRelease sense) s = .next t ∧ t.rt.power.perst = false ∧ t.rt.power.cable = sense ∧
    (sense = .w150 → t.rt.boot.stage = 0x80 ∧ t.rt.boot.auxLow = true) ∧ (sense ≠ .w150 → t.rt.boot.stage = s.rt.boot.stage)) ∧
  (∀ (s : State), mainPower s.rt = true → s.rt.power.powerFail = false → s.rt.window.isOpen = false → ∃ t, exec .powerFail s = .next t ∧
    t.rt.power.powerFail = true ∧ mainPower t.rt = false ∧ t.rt.clerks = Rt.reset.clerks ∧ t.rt.presses = [] ∧ t.rt.reckoners = [] ∧
    t.rt.cmds = [] ∧ t.rt.strong = Strong.reset ∧ t.rt.out = s.rt.out ∧ t.gon = s.gon ∧ t.otp = s.otp ∧ t.nv.slots = s.nv.slots) ∧
  (∀ (w r : Nat) (f : Bool) (s : State), mainPower s.rt = true → s.rt.power.powerFail = false → s.rt.power.perst = false → s.rt.link.up = false →
    w ∈ [4, 8, 16] → r ∈ [3, 4, 5, 6] → exec (.linkTrainingComplete w r f) s =
      .next (onRt (fun rt => { rt with link := { rt.link with up := true, width := w, rate := r, flit := f } }) s)) ∧
  (∀ (s : State), hostReaches s.rt = true → ∃ t r, exec (.hostLinkLoss none) s = .next t ∧
    t.rt.link.up = false ∧ t.rt.link.lost = true ∧ kget t.rt.fault.ring (s.rt.fault.nextSeq % 40) = some r ∧ r.source = .hostLink ∧
    (∀ b x, boothOf t.rt b = some x → ptFetches t.rt x = false)) ∧
  (∀ (k : Nat) (s : State), hostReaches s.rt = true → ideSecure s.rt.link.ideGo k = true → ∃ t r, exec (.hostLinkLoss (some k)) s = .next t ∧
    t.rt.link.up = true ∧ t.rt.link.lost = true ∧ (∀ x, (k, x) ∉ t.rt.link.ideGo) ∧
    kget t.rt.fault.ring (s.rt.fault.nextSeq % 40) = some r ∧ r.source = .hostLink) ∧
  (∀ (b : Nat) (x : Booth) (s : State), s.rt.link.lost = true → s.rt.link.up = true → mainPower s.rt = true → s.rt.power.powerFail = false → s.rt.power.perst = false →
    s.rt.booths = [(b, x)] → s.rt.cmds = [] → s.rt.waiting = none →
    ∃ t y, exec .hostLinkReturn s = .next t ∧ t.rt.link = { s.rt.link with lost := false } ∧ boothOf t.rt b = some y ∧ y.cfg = x.cfg ∧ y.version = x.version ∧ y.sqTail = 0 ∧ y.cqHead = 0 ∧ y.cqTail = 0 ∧ y.fetchHead = 0 ∧
      y.cqUnread = 0 ∧ y.phase = true ∧ y.fetchStopped = false) ∧
  (∀ (up gigabit : Bool) (s : State), mainPower s.rt = true → s.rt.power.powerFail = false → exec (.mgmtLinkChange ⟨up, gigabit⟩) s =
    .next (onRt (fun rt => { rt with net := { rt.net with mgmtLink := up && gigabit } }) s))

/-- START_UP: a tampered module halts with 81h at step 2 and its root cleared (R70); a SEALED module without an open mark or pending
target stops with 83h at step 4; step 10 sets the epoch one above the highest in flash (R76); step 11 seals the map (R79); step 13
re-creates the booths that check (R81). MINT_START_UP_TESTS seeds a DRBG when sources pass; MINT_START_TIMEOUT is fatal, 85h (R78);
MASK_EXPANDER_SEEDING and SERVICE_READY follow (R69, R77); BACKGROUND_TILE_LOAD and DEMAND_LOAD bring tiles in
(R80); a tile whose two stored copies both fail their check is a failed tile, with one good copy it is not (R270). -/
def Obligations.StartUp : Prop :=
  (∀ (e : StartEnv) (s : State), starting s.rt 2 = true → stepReady s.rt 2 = true → stepDone s.rt 2 = false → e.glinkOk = true →
    s.gon.tamperFlag = true → inTamperHalt s.rt = false → ∃ t, exec (.startUp 2 e) s = .next t ∧ t.rt.boot.stage = 0x81 ∧ t.gon.root = 0 ∧
      t.rt.alert.tamperHold = true ∧ t.rt.boot.serviceReady = false ∧ 2 ∈ t.rt.boot.stepsDone) ∧
  (∀ (e : StartEnv) (s : State), starting s.rt 4 = true → stepReady s.rt 4 = true → stepDone s.rt 4 = false → s.gon.uncounted = false →
    openSlot s.otp = none → s.rt.lc.pendingTarget = none → lcDecode s.otp = 0x03 → s.rt.boot.stage.toNat < 0x80 → inFatal s.rt = false →
    ∃ t, exec (.startUp 4 e) s = .next t ∧ t.rt.boot.stage = 0x83 ∧ t.rt.boot.lcState = 0x03 ∧ t.gon.root = 0 ∧ t.otp = s.otp) ∧
  (∀ (e : StartEnv) (s : State), starting s.rt 5 = true → stepReady s.rt 5 = true → stepDone s.rt 5 = false →
    ∃ t, exec (.startUp 5 e) s = .next t ∧ t.rt.strong.keys = some (rootKeys s.gon.root s.otp.serial) ∧ t.rt.kdbRoot = 0 ∧
      5 ∈ t.rt.boot.stepsDone) ∧
  (∀ (e : StartEnv) (s : State), starting s.rt 10 = true → stepReady s.rt 10 = true → stepDone s.rt 10 = false → s.nv.journal = [] →
    ∃ t, exec (.startUp 10 e) s = .next t ∧ t.rt.epoch = topEpoch s.nv + 1 ∧ markOf t.nv = markOf s.nv ∧ 10 ∈ t.rt.boot.stepsDone) ∧
  (∀ (e : StartEnv) (s : State), starting s.rt 11 = true → stepReady s.rt 11 = true → stepDone s.rt 11 = false → canServe s.rt s.rt.mint0 = true →
    s.rt.mint0.waiting = [] → ∃ t p, exec (.startUp 11 e) s = .next t ∧ t.rt.boot.isSealed = true ∧ t.rt.fabricPerm = some p ∧
      t.rt.bridles.tables = mapTables s.nv ∧ t.nv = s.nv) ∧
  (∀ (e : StartEnv) (k : Bytes) (s : State), starting s.rt 12 = true → stepReady s.rt 12 = true → stepDone s.rt 12 = false → e.tiles1 = [] →
    kget s.rt.mint0.delivered userTileKey = some k → ∃ t, exec (.startUp 12 e) s = .next t ∧ t.rt.strong.tileKey = some k ∧ t.rt.strong.slots = s.nv.slots ∧
      t.rt.strong.indexLoaded = true ∧ t.rt.strong.nextTile = 1024) ∧
  (∀ (e : StartEnv) (b : Nat) (c : BoothCfg) (s : State), starting s.rt 13 = true → stepReady s.rt 13 = true → stepDone s.rt 13 = false → e.badBooths = [] →
    kget s.nv.boothTable b = some c → ∃ t, exec (.startUp 13 e) s = .next t ∧ boothOf t.rt b = some (newBooth c) ∧ t.rt.boot.notRecreated = []) ∧
  (∀ (d : Die) (smp : Samples) (s : State), let m := mintOf s.rt d.val
    islandReady s.rt (mintIsland d.val) = true → m.seeded = false → m.forerunner = false → (stepDone s.rt 6 || cd0Alone s.rt d.val) = true →
    (∀ i, (srcOf m i).st ≠ .retired ∧ (sampleOf smp i).length = 4096) →
    (∀ i, (assay (freshSrc (srcOf m i)) (sampleOf smp i)).2 = none) → ∃ t, exec (.mintStartUpTests d smp) s = .next t ∧
      (mintOf t.rt d.val).seeded = true ∧ inServiceList (mintOf t.rt d.val) = [0, 2] ∧ (mintOf t.rt d.val).served = 0 ∧
      (mintOf t.rt d.val).blocks = m.blocks + 2) ∧
  (∀ (d : Die) (s : State), stepDone s.rt 6 = true → (mintOf s.rt d.val).seeded = false → inServiceList (mintOf s.rt d.val) = [] → inTamperHalt s.rt = false →
    inFatal s.rt = false → s.rt.boot.serviceReady = false → s.rt.boot.stage ∉ [0x81#8, 0x82#8, 0x86#8, 0x87#8] →
    ∃ t, exec (.mintStartTimeout d) s = .next t ∧ t.rt.boot.stage = 0x85 ∧ t.rt.fault.pendFatal = true ∧ t.rt.fault.halted = true) ∧
  (∀ (d : Die) (s : State), (mintOf s.rt d.val).seeded = true → (mintOf s.rt d.val).maskSeeded = false → stepDone s.rt 6 = true →
    ∃ t, exec (.maskExpanderSeeding d) s = .next t ∧ (mintOf t.rt d.val).maskSeeded = true ∧
      (mintOf t.rt d.val).served = (mintOf s.rt d.val).served + ((unseeded s.rt d.val).map expanders).sum) ∧
  (∀ (s : State), starting s.rt 14 = true → stepReady s.rt 14 = true → s.rt.boot.serviceReady = false → inFatal s.rt = false →
    ∃ t, exec .serviceReady s = .next t ∧ t.rt.boot.serviceReady = true ∧ t.rt.boot.stage = 0x0C ∧ t.rt.net.listening = true ∧
      t.rt.boot.srTime = min 0xFFFFF ((s.rt.now - s.rt.boot.startAt) / 1000) ∧ t.nv.align.length = s.nv.align.length + 1) ∧
  (∀ (r1 r2 : Option TileImage) (s : State), loading s.rt = true → demanded s.rt = false → s.rt.strong.nextTile ∉ s.rt.strong.extra →
    flashBad s.rt s.rt.strong.nextTile r1 = false → ∃ t, exec (.backgroundTileLoad r1 r2) s = .next t ∧ t.rt.strong.nextTile = s.rt.strong.nextTile + 1 ∧
      t.rt.boot.resident = (s.rt.boot.resident || decide (s.rt.strong.nextTile + 1 = 4194304)) ∧ t.rt.strong.failed = s.rt.strong.failed) ∧
  (∀ (r1 r2 : Option TileImage) (s : State), loading s.rt = true → demanded s.rt = true → exec (.backgroundTileLoad r1 r2) s = .next s) ∧
  (∀ (k : Nat) (r1 r2 : Option TileImage) (s : State), loading s.rt = true → k < 4194304 → tileResident s.rt k = false →
    flashBad s.rt k r1 = false → ∃ t, exec (.demandLoad k r1 r2) s = .next t ∧ tileResident t.rt k = true ∧ t.rt.strong.failed = s.rt.strong.failed) ∧
  (∀ (k : Nat) (r1 r2 : Option TileImage) (s : State), loading s.rt = true → k < 4194304 → tileResident s.rt k = false → flashBad s.rt k r1 = true →
    (flashBad s.rt k r2 = true → ∃ t, exec (.demandLoad k r1 r2) s = .next t ∧ t.rt.strong.failed = addTo k s.rt.strong.failed ∧ k ∈ t.rt.strong.extra) ∧
    (flashBad s.rt k r2 = false → ∃ t, exec (.demandLoad k r1 r2) s = .next t ∧ t.rt.strong.failed = s.rt.strong.failed ∧ k ∈ t.rt.strong.extra))

/-- SMBUS_READ answers only while main power is present (R29), with the inlet temperature and the input power of that moment;
the numbers that stand for the lights' states are the model's (log 29).
CAGE_INSERT leaves a module above 12 W in low-power mode and records CAGE_POWER quietly; CAGE_REMOVE takes the link of the port down
(R38). OFFICER_CARD_INSERT activates at class B first, then at class A (R40); OFFICER_CARD_WITHDRAW and OFFICER_CARD_OVERCURRENT leave
the slot empty and fail a ceremony in progress that uses the slot. -/
def Obligations.BoardCommands : Prop :=
  (∀ (x : SmbusItem) (inlet : Int) (tenths : Nat) (s : State), mainPower s.rt = true → s.rt.power.powerFail = false →
    ∃ t, exec (.smbusRead ⟨x, inlet, tenths⟩) s = .next t ∧ t.rt.ballast.inlet = BitVec.ofInt 16 inlet ∧ t.rt.ballast.power = tenths ∧
      t.rt.out = s.rt.out ++ [.smbus (smbusValue t.rt x)] ∧ t.rt.cmds = s.rt.cmds ∧ t.rt.fault = s.rt.fault ∧
      (x = .inlet → t.rt.out = s.rt.out ++ [.smbus (BitVec.ofInt 16 inlet).toNat]) ∧
      (x = .inputPower → t.rt.out = s.rt.out ++ [.smbus tenths])) ∧
  (∀ (x : SmbusItem) (inlet : Int) (tenths : Nat) (s : State), mainPower s.rt = false → exec (.smbusRead ⟨x, inlet, tenths⟩) s = .next s) ∧
  (∀ (p : Port) (w : Nat) (s : State), (cageOf s.rt p).present = false → w ≤ 12 →
    (.cagePower, p.val) ∉ s.rt.fault.entered → ∃ t, exec (.cageInsert p w) s = .next t ∧
    cageOf t.rt p = { present := true, watts := w, lowPower := false } ∧ cageOf t.rt (1 - p) = cageOf s.rt (1 - p) ∧
    t.rt.fault = s.rt.fault ∧ t.rt.net = s.rt.net) ∧
  (∀ (p : Port) (w : Nat) (s : State), (cageOf s.rt p).present = false → 12 < w → powered s.rt = true →
    (.cagePower, p.val) ∉ s.rt.fault.entered → inFatal s.rt = false → ∃ t r,
    exec (.cageInsert p w) s = .next t ∧ cageOf t.rt p = { present := true, watts := w, lowPower := true } ∧
    kget t.rt.fault.ring (s.rt.fault.nextSeq % 40) = some r ∧ r.source = .cagePower ∧ r.quiet = true ∧ r.detail = padTo 8 [BitVec.ofNat 8 p.val] ∧
    t.rt.fault.pendCorr = s.rt.fault.pendCorr ∧ t.rt.alert = s.rt.alert ∧ t.rt.net = s.rt.net) ∧
  (∀ (p : Port) (s : State), (cageOf s.rt p).present = true → (portOfNet s.rt p).link = true → ∃ t, exec (.cageRemove p) s = .next t ∧
    (cageOf t.rt p).present = false ∧ (portOfNet t.rt p).link = false ∧ (portOfNet t.rt (1 - p)).link = (portOfNet s.rt (1 - p)).link ∧
    (∀ k c, kget t.rt.net.conns k = some c → c.port ≠ p.val) ∧ t.gon = s.gon) ∧
  (∀ (p : Port) (s : State), (cageOf s.rt p).present = true → (portOfNet s.rt p).link = false →
    (.cagePower, p.val) ∉ s.rt.fault.entered → ∃ t, exec (.cageRemove p) s = .next t ∧
    (cageOf t.rt p).present = false ∧ t.rt.net = s.rt.net ∧ t.rt.fault = s.rt.fault) ∧
  (∀ (k : CardSlot) (card : Card) (s : State), rawCard s.rt k.val = none → (card.answersB || card.answersA) = true →
    exec (.officerCardInsert k card) s =
      .next (onRt (setCard k (some { card := card, classA := !card.answersB, wrong := 0, active := powered s.rt })) s)) ∧
  (∀ (k : CardSlot) (card : Card) (s : State), card.answersA = false → card.answersB = false → exec (.officerCardInsert k card) s = .next s) ∧
  (∀ (k : CardSlot) (s : State), s.rt.ceremony = none → exec (.officerCardWithdraw k) s = .next (onRt (setCard k none) s) ∧
    exec (.officerCardOvercurrent k) s = .next (onRt (setCard k none) s)) ∧
  (∀ (k : CardSlot) (c : Ceremony) (s : State), s.rt.ceremony = some c → usesSlot c k = true →
    (∃ t, exec (.officerCardWithdraw k) s = .next t ∧ cardOf t.rt k.val = none ∧ t.rt.ceremony = none ∧ t.nv = s.nv) ∧
    (∃ t, exec (.officerCardOvercurrent k) s = .next t ∧ cardOf t.rt k.val = none ∧ t.rt.ceremony = none ∧ t.nv = s.nv)) ∧
  (∀ (k : CardSlot) (c : Ceremony) (s : State), s.rt.ceremony = some c → usesSlot c k = false →
    exec (.officerCardWithdraw k) s = .next (onRt (setCard k none) s) ∧ exec (.officerCardOvercurrent k) s = .next (onRt (setCard k none) s))

/-- NOISE_SAMPLE_TEST_FAIL takes a failing source out of service, discards the block in assembly, and brings a standby source of the
other design first into service (R347); the eighth failure retires it (R348). FORERUNNER_SOURCE_FAIL restarts the same source at once
(R349); SOURCE_RESTART puts a source that passes on standby. MINT_BLOCK_COMPLETE conditions 256 samples with SHA3-256 (R343),
DRBG_RESEED uses it, DRBG_GENERATE serves the first request within the limits of its seed (R344), KEY_GRADE_REQUEST reseeds first
(R345). MINT_EXHAUSTED ends every waiting request and is fatal (R351). -/
def Obligations.MintCommands : Prop :=
  (∀ (d : Die) (i : Fin 4) (t : HealthTest) (s : State), let m := mintOf s.rt d.val
    m.seeded = true → m.forerunner = false → (srcOf m i).st = .standby → (srcOf m i).fails < 7 → ∃ u,
      exec (.noiseSampleTestFail d i t) s = .next u ∧ (srcOf (mintOf u.rt d.val) i).st = .out ∧
      (srcOf (mintOf u.rt d.val) i).fails = (srcOf m i).fails + 1 ∧ (mintOf u.rt d.val).evt = true ∧
      (mintOf u.rt d.val).cnt = min (m.cnt + 1) 255 ∧ (mintOf u.rt d.val).blockLen = m.blockLen ∧
      (∀ j, j ≠ i → srcOf (mintOf u.rt d.val) j = srcOf m j)) ∧
  (∀ (d : Die) (t : HealthTest) (s : State), let m := mintOf s.rt d.val
    m.seeded = true → m.forerunner = false → m.ro0.st = .inService → m.ml0.st = .inService → m.ro1.st = .standby → m.ml1.st = .standby → ∃ u,
      exec (.noiseSampleTestFail d 0 t) s = .next u ∧ (mintOf u.rt d.val).ro0.st = (if 7 ≤ m.ro0.fails then .retired else .out) ∧
      (mintOf u.rt d.val).ml1.st = .inService ∧ (mintOf u.rt d.val).ro1 = m.ro1 ∧ (mintOf u.rt d.val).ml0 = m.ml0 ∧
      (mintOf u.rt d.val).blockLen = 0 ∧ (mintOf u.rt d.val).ready = m.ready) ∧
  (∀ (d : Die) (t : HealthTest) (smp : Bytes) (s : State), let m := mintOf s.rt d.val
    m.forerunner = true → m.seeded = true → m.ro0.st = .inService → smp.length < 4096 → ∃ u, exec (.forerunnerSourceFail d 0 t smp) s = .next u ∧
      (mintOf u.rt d.val).ro0.st = .test ∧ (mintOf u.rt d.val).ro0.fails = min (m.ro0.fails + 1) 255 ∧ (mintOf u.rt d.val).blockLen = 0 ∧
      (mintOf u.rt d.val).ml0 = m.ml0 ∧ (mintOf u.rt d.val).evt = true) ∧
  (∀ (d : Die) (t : HealthTest) (smp : Bytes) (s : State), let m := mintOf s.rt d.val
    m.forerunner = true → m.seeded = true → m.ro0.st = .test → smp.length = 4096 → (assay (freshSrc m.ro0) smp).2 = none → ∃ u,
      exec (.forerunnerSourceFail d 0 t smp) s = .next u ∧ (mintOf u.rt d.val).ro0.st = .inService ∧ u.rt.fault = s.rt.fault) ∧
  (∀ (d : Die) (i : Fin 4) (smp : Bytes) (s : State), let m := mintOf s.rt d.val
    m.forerunner = false → (srcOf m i).st = .out → smp.length = 4096 → (assay (freshSrc (srcOf m i)) smp).2 = none → ∃ u,
      exec (.sourceRestart d i smp) s = .next u ∧ (srcOf (mintOf u.rt d.val) i).st = .standby ∧
      (srcOf (mintOf u.rt d.val) i).fails = (srcOf m i).fails ∧ u.rt.fault = s.rt.fault) ∧
  (∀ (d : Die) (smp : Bytes) (s : State), let m := mintOf s.rt d.val
    m.seeded = true → inServiceList m ≠ [] → smp.length = 256 → (assayBlock (blockOrder m) smp m).2 = true → ∃ u,
      exec (.mintBlockComplete d smp) s = .next u ∧ (mintOf u.rt d.val).ready = m.ready ++ [sha3_256 smp] ∧
      (mintOf u.rt d.val).blocks = (m.blocks + 1) % 2 ^ 32 ∧ (mintOf u.rt d.val).key = m.key ∧ (mintOf u.rt d.val).v = m.v) ∧
  (∀ (d : Die) (b : Bytes) (l : List Bytes) (s : State), let m := mintOf s.rt d.val
    m.ready = b :: l → m.seeded = true → m.keyGrade = [] → let kv := drbgReseed b m.key m.v
      exec (.drbgReseed d) s =
        .next (onRt (setMint d.val { m with ready := l, key := kv.1, v := kv.2, served := 0, seededAt := s.rt.now }) s)) ∧
  (∀ (d : Die) (b : Bytes) (s : State), (mintOf s.rt d.val).ready = [b] → (mintOf s.rt d.val).keyGrade ≠ [] → exec (.drbgReseed d) s = .next s) ∧
  (∀ (d : Die) (u : MintUser) (l : List MintUser) (s : State), let m := mintOf s.rt d.val
    m.waiting = u :: l → m.seeded = true → m.served < 4096 → s.rt.now < m.seededAt + 1000000 →
      let r := drbgGen (userBytes u) m.key m.v
      let m' := { m with waiting := l, key := r.2.1, v := r.2.2, served := m.served + 1 }
      exec (.drbgGenerate d) s = .next (onRt (fun rt => deliver d.val u r.1 (setMint d.val m' rt)) s)) ∧
  (∀ (d : Die) (s : State), (mintOf s.rt d.val).served = 4096 ∨ (mintOf s.rt d.val).seededAt + 1000000 ≤ s.rt.now →
    exec (.drbgGenerate d) s = .next s) ∧
  (∀ (d : Die) (who n : Nat) (l : List MintUser) (b : Bytes) (bs : List Bytes) (s : State), let m := mintOf s.rt d.val
    m.keyGrade = .firmware who n :: l → m.ready = b :: bs → m.seeded = true → let kv := drbgReseed b m.key m.v
      ∃ u, exec (.keyGradeRequest d) s = .next u ∧ kget (mintOf u.rt d.val).delivered who = some (drbgGen n kv.1 kv.2).1 ∧
        (mintOf u.rt d.val).key = (drbgGen n kv.1 kv.2).2.1 ∧ (mintOf u.rt d.val).v = (drbgGen n kv.1 kv.2).2.2 ∧
        (mintOf u.rt d.val).keyGrade = l ∧ (mintOf u.rt d.val).ready = bs ∧ (mintOf u.rt d.val).served = 1 ∧
        (mintOf u.rt d.val).seededAt = s.rt.now ∧ (mintOf u.rt d.val).waiting = m.waiting) ∧
  (∀ (d : Die) (s : State), let m := mintOf s.rt d.val
    m.seeded = true → inServiceList m = [] → m.exhausted = false → m.waiting = [] → m.keyGrade = [] → s.rt.fault.halted = false → ∃ u,
      exec (.mintExhausted d) s = .next u ∧ (mintOf u.rt d.val).exhausted = true ∧ u.rt.fault.pendFatal = true ∧ u.rt.fault.halted = true) ∧
  (∀ (d : Die) (id : CmdId) (c : Cmd) (n : Nat) (s : State), let m := mintOf s.rt d.val
    m.seeded = true → inServiceList m = [] → m.exhausted = false → m.waiting = [] → m.keyGrade = [.firmware (1000 + id) n] →
    kget s.rt.cmds id = some c → c.admitted = true → c.bundle = none → c.stage = .dispatched → c.booth = 0 → s.rt.fault.halted = true → ∃ u x,
      exec (.mintExhausted d) s = .next u ∧ kget u.rt.cmds id = some x ∧ x.stage = .ended ∧ x.status = stRngUnavailable)

/-- BALLAST_REQUEST puts a metered start into its rail's FIFO by class (R57), but not under PERST# (R66); BALLAST_GRANT waits until the bucket,
which refills a unit in 250 ns, holds the head entry's cost and takes it out (R56, R57), and a granted stop gates the island (R54);
ISLAND_READY ends a granted start, and a counting room then holds the house code (R54). IDLE_GATING_TIMER asks for an idle island's stop
only with idle gating on, which the firmware turns on with a period (R55). THERMAL_THROTTLE_STEP slows the hottest die above 95 °C and then
down to 92 °C, with THERMAL_HIGH where an island is slowed; THROTTLE_RELEASE frees it below 92 °C, THERMAL_FATAL above 105 °C is fatal and stops the compute dies
(R43, R58); RAIL_WARN is fatal. -/
def Obligations.BallastCommands : Prop :=
  (∀ (i : Nat) (s : State), i < 60 → islandsRun s.rt = true → s.rt.boot.auxLow = false → islandCost i ≠ 0 →
    (islandOf s.rt i).st = .gated → islandWaiting s.rt i = false → ∃ t, exec (.ballastRequest i .start) s = .next t ∧
      (islandOf t.rt i).st = .starting ∧ fifoOf t.rt (islandRail i) =
        insertEntry (entryFor s.rt i .start (islandCost i) 0) (fifoOf s.rt (islandRail i)) ∧ t.rt.now = s.rt.now) ∧
  (∀ (i : Nat) (k : BallastKind) (s : State), s.rt.power.powerFail = true ∨ s.rt.power.perst = true → exec (.ballastRequest i k) s = .next s) ∧
  (∀ (rail : Fin 3) (e : BallastEntry) (f : List BallastEntry) (s : State), fifoOf s.rt rail.val = e :: f → islandsRun s.rt = true →
    (e.kind = .stop → islandIdle s.rt e.island = true) → let ns := 250 * e.cost - tokensOf s.rt rail.val
    ∃ t, exec (.ballastGrant rail) s = .next t ∧ t.rt.now = s.rt.now + ns ∧
      tokensOf t.rt rail.val = min 4000 (tokensOf s.rt rail.val + ns) - 250 * e.cost ∧
      ((e.kind = .freq → (islandOf s.rt e.island).throttle ≤ e.throttle) → fifoOf t.rt rail.val = f) ∧
      (e.kind = .stop → islandOf t.rt e.island = Island.gated) ∧
      (e.kind = .freq → islandOf t.rt e.island = { islandOf s.rt e.island with throttle := e.throttle }) ∧
      (e.kind = .start → t.rt.ballast.islands = s.rt.ballast.islands)) ∧
  (∀ (i : Nat) (bad : List Nat) (s : State), (islandOf s.rt i).st = .starting → islandWaiting s.rt i = false → islandsRun s.rt = true →
    ∃ t, exec (.islandReady ⟨i, bad⟩) s = .next t ∧ islandReady t.rt i = true ∧ (islandOf t.rt i).throttle = 0 ∧ t.nv = s.nv ∧
    (i < 4 → bad = [] → (roomOf t.rt i).code = houseCode s.nv.progs ∧ (roomOf t.rt i).window = [])) ∧
  (∀ (i : Nat) (bad : List Nat) (s : State), (islandOf s.rt i).st ≠ .starting ∨ islandWaiting s.rt i = true →
    exec (.islandReady ⟨i, bad⟩) s = .next s) ∧
  (∀ (i : Nat) (s : State), s.rt.ballast.idleGating = true → i < 36 → islandGating i = 0 → islandReady s.rt i = true →
    islandIdle s.rt i = true → islandsRun s.rt = true → ∃ t, exec (.idleGatingTimer ⟨i, none⟩) s = .next t ∧
      (islandOf t.rt i).st = .stopping ∧ islandWaiting t.rt i = true) ∧
  (∀ (i : Nat) (s : State), s.rt.ballast.idleGating = false → exec (.idleGatingTimer ⟨i, none⟩) s = .next s) ∧
  (∀ (i : Nat) (s : State), inService s.rt = true → exec (.idleGatingTimer ⟨i, some 0⟩) s = .next (onRt (setIdle 0) s)) ∧
  (∀ (i p : Nat) (s : State), inService s.rt = true → 10 ≤ p → p ≤ 10000 → ∃ t, exec (.idleGatingTimer ⟨i, some p⟩) s = .next t ∧
    t.rt.ballast.idleGating = true ∧ t.rt.ballast.idlePeriod = p) ∧
  (∀ (d : Fin 3) (t : Int) (s : State), let rt := readTemp d.val t s.rt
    stepDue rt d.val t = true → isHottest rt d.val = true → islandsRun s.rt = true → ∃ u, exec (.thermalThrottleStep d t) s = .next u ∧
      dieTemp u.rt d.val = dieTemp rt d.val ∧ (∀ i ∈ throttled d.val, canSlow s.rt i = true → islandWaiting u.rt i = true) ∧
      ((∃ i ∈ throttled d.val, canSlow s.rt i = true) → ∃ r, kget u.rt.fault.ring (s.rt.fault.nextSeq % 40) = some r ∧ r.source = .thermalHigh) ∧
      ((∀ i ∈ throttled d.val, canSlow s.rt i = false) → u.rt.fault = s.rt.fault)) ∧
  (∀ (d : Fin 3) (t : Int) (s : State), stepDue (readTemp d.val t s.rt) d.val t = false → exec (.thermalThrottleStep d t) s = .next (onRt (readTemp d.val t) s)) ∧
  (∀ (d : Fin 3) (t : Int) (s : State), t < 736 → islandsRun s.rt = true → ∃ u, exec (.throttleRelease d t) s = .next u ∧ u.rt.fault = s.rt.fault ∧
      ∀ i ∈ throttled d.val, islandReady s.rt i = true → 0 < (islandOf s.rt i).throttle → islandWaiting u.rt i = true) ∧
  (∀ (d : Fin 3) (t : Int) (s : State), 736 ≤ t → exec (.throttleRelease d t) s = .next (onRt (readTemp d.val t) s)) ∧
  (∀ (d : Fin 3) (t : Int) (s : State), 840 < t → mainPower s.rt = true → s.rt.power.powerFail = false → s.rt.fault.halted = false → ∃ u,
    exec (.thermalFatal d t) s = .next u ∧ u.rt.fault.pendFatal = true ∧ u.rt.fault.halted = true ∧ u.rt.strong.keys = s.rt.strong.keys ∧
      u.gon = s.gon ∧ ∀ i, i < 36 → islandCost i ≠ 0 → islandReady s.rt i = true → (islandOf u.rt i).st = .stopping) ∧
  (∀ (d : Fin 3) (t : Int) (s : State), t ≤ 840 → exec (.thermalFatal d t) s = .next (onRt (readTemp d.val t) s)) ∧
  (∀ (row : Nat) (s : State), row < 8 → mainPower s.rt = true → s.rt.power.powerFail = false → s.rt.fault.halted = false → ∃ u r,
    exec (.railWarn row) s = .next u ∧ kget u.rt.fault.ring (s.rt.fault.nextSeq % 40) = some r ∧ r.source = .railWarn ∧ r.cls = .fatal ∧
      u.rt.fault.pendFatal = true ∧ u.rt.fault.halted = true ∧ u.gon = s.gon)

/-- TAMPER_SOURCE_TRIP on main power clears the root, sets the flag and TAMPER_OUT_N, ends service with 81h, zeroes every store of a
secret, and completes admitted commands with TAMPER_HALT (R419, R420). Without main power, TAMPER_SOURCE_TRIP and GONDOLA_CELL_TAMPER
act on the gondola alone (R421). TAMPER_COUNT_BURN burns one fuse for an uncounted episode, or raises OTP_BURN (R424).
GONDOLA_LOG_READ copies the log (R425). CELL_MEASURE records a low cell once (R46), CELL_DECAY empties the gondola and leaves a root whose check fails (R426).
CELL_SERVICE_WINDOW_EXPIRY, CELL_DOOR_OPEN and CELL_DOOR_CLOSE open and close the window, which excuses the door for its 600 s alone (R45). -/
def Obligations.TamperCommands : Prop :=
  (∀ (x : Trip) (s : State), mainPower s.rt = true → s.rt.power.powerFail = false → (cellsSource x.code || mainArmed s.rt x) = true →
    x.code ≠ 0x08 → ∃ t e, exec (.tamperSourceTrip x) s = .next t ∧ t.gon.root = 0 ∧ t.gon.tamperFlag = true ∧ t.gon.tamperOut = true ∧
      kget t.gon.log s.gon.logNext = some e ∧ e.source = BitVec.ofNat 8 x.code ∧ e.site = BitVec.ofNat 8 x.site ∧ e.flags.getLsbD 0 = false ∧
      t.rt.boot.stage = 0x81 ∧ t.rt.boot.serviceReady = false ∧ t.rt.alert.pin = true ∧ t.rt.clerks = [(128, headClerk)] ∧ t.rt.presses = [] ∧
      t.rt.reckoners = [] ∧ t.rt.strong = Strong.reset ∧ (∀ k y, kget t.rt.net.conns k = some y → y.rxSecret = [] ∧ y.txSecret = []) ∧ t.rt.lc.nonce = none ∧ t.rt.twoKey = .closed ∧
      (∀ id c, kget s.rt.cmds id = some c → c.admitted = true → ∃ d, kget t.rt.cmds id = some d ∧ d.stage = .ended ∧ d.status = stTamperHalt ∧
        d.output = []) ∧ t.otp = s.otp ∧ t.nv = s.nv) ∧
  (∀ (x : Trip) (s : State), mainPower s.rt = true → s.rt.power.powerFail = false → cellsSource x.code = false → mainArmed s.rt x = false →
    exec (.tamperSourceTrip x) s = .next s) ∧
  (∀ (x : Trip) (s : State), mainPower s.rt = false → cellsSource x.code = true → x.code ≠ 0x08 → ∃ t e,
    (exec (.tamperSourceTrip x) s = .next t ∧ exec (.gondolaCellTamper x) s = .next t) ∧ t.gon.root = 0 ∧ t.gon.tamperFlag = true ∧
    kget t.gon.log s.gon.logNext = some e ∧ e.source = BitVec.ofNat 8 x.code ∧ e.flags.getLsbD 0 = true ∧
    (s.gon.tamperFlag = false → t.gon.uncounted = true ∧ t.gon.firstCause = some e ∧ t.gon.episode = s.gon.episode + 1) ∧
    (s.gon.tamperFlag = true → t.gon.uncounted = s.gon.uncounted ∧ t.gon.firstCause = s.gon.firstCause ∧ t.gon.episode = s.gon.episode) ∧
    t.rt = s.rt ∧ t.otp = s.otp) ∧
  (∀ (x : Trip) (s : State), mainPower s.rt = false → cellsSource x.code = false → exec (.gondolaCellTamper x) s = .next s) ∧
  (∀ (s : State), mainPower s.rt = true → s.rt.power.powerFail = false → inTamperHalt s.rt = true → s.gon.uncounted = true → s.otp.tamperCnt < 256 →
    (∃ t, exec (.tamperCountBurn []) s = .next t ∧ t.otp = { s.otp with tamperCnt := s.otp.tamperCnt + 1 } ∧ t.gon.uncounted = false ∧ t.rt = s.rt) ∧
    (s.rt.fault.halted = false → ∃ t, exec (.tamperCountBurn [{ field := 6, bit := s.otp.tamperCnt }]) s = .next t ∧
      t.otp = { s.otp with lastBurnFail := true } ∧ t.gon = s.gon ∧ t.rt.fault.pendFatal = true)) ∧
  (∀ (w : List Fuse) (s : State), s.gon.uncounted = false → exec (.tamperCountBurn w) s = .next s) ∧
  (∀ (lost : List Nat) (s : State), mainPower s.rt = true → s.rt.power.powerFail = false → (∀ j ∈ lost, j < 64) → ∃ t,
    exec (.gondolaLogRead lost) s = .next t ∧ t.rt.fault.glog = s.gon.log ∧ t.rt.fault.glogLost = lost ∧ t.rt.fault.glogFirst = s.gon.firstCause ∧
      t.rt.fault.glogOver = s.gon.logOver ∧ t.gon = s.gon) ∧
  (∀ (a b : Nat) (s : State), mainPower s.rt = true → s.rt.power.powerFail = false → 2700 ≤ a → 2700 ≤ b → a < 65536 → b < 65536 →
    s.rt.fault.entered = [] → exec (.cellMeasure a b) s = .next (onRt (fun rt => { rt with cellA := a, cellB := b }) s)) ∧
  (∀ (a b : Nat) (s : State), mainPower s.rt = true → s.rt.power.powerFail = false → a < 2700 → 2700 ≤ b → s.rt.fault.entered = [] → ∃ t r,
    exec (.cellMeasure a b) s = .next t ∧ t.rt.cellA = a ∧ t.rt.fault.entered = [(.cellLow, 0)] ∧
      kget t.rt.fault.ring (s.rt.fault.nextSeq % 40) = some r ∧ r.source = .cellLow ∧ r.quiet = true ∧
      exec (.cellMeasure a b) t = .next (onRt (fun rt => { rt with cellB := min b 65535 }) t)) ∧
  (∀ (s : State), mainPower s.rt = false → ∃ t, exec .cellDecay s = .next t ∧
      t.gon.rootCheck ≠ BitVec.ofNat 32 (crc32c (le 32 t.gon.root.toNat)) ∧ t.gon.tamperFlag = false ∧ t.gon.log = [] ∧
    t.gon.episode = 0 ∧ t.gon.countRestarted = true ∧ t.rt = { s.rt with freeCtr := s.rt.freeCtr + 1 } ∧ t.otp = s.otp) ∧
  (∀ (s : State), s.rt.window.isOpen = true → s.gon.doorOpen = false → ∃ t, exec .cellServiceWindowExpiry s = .next t ∧
    t.rt.window = CellWindow.closed ∧ t.nv.ledger.nextSeq = s.nv.ledger.nextSeq + 1 ∧ t.gon = s.gon ∧
    t.nv.ledger.entries.getLast?.map LedgerEntry.event = some 0x0107) ∧
  (∀ (s : State), s.rt.window.isOpen = false → exec .cellServiceWindowExpiry s = .next s) ∧
  (∀ (s : State), s.rt.window.isOpen = true → s.rt.now < s.rt.window.endsAt → ∃ t, exec .cellDoorOpen s = .next t ∧ t.gon = { s.gon with doorOpen := true } ∧
    t.rt.window = { s.rt.window with opened := true } ∧ t.rt.boot = s.rt.boot) ∧
  (∀ (s : State), s.rt.window.isOpen = false ∨ s.rt.window.endsAt ≤ s.rt.now → mainPower s.rt = true → s.rt.power.powerFail = false →
    ∃ t, exec .cellDoorOpen s = .next t ∧
    t.gon.doorOpen = true ∧ t.gon.root = 0 ∧ t.gon.tamperFlag = true ∧ t.rt.boot.stage = 0x81) ∧
  (∀ (s : State), s.rt.window.isOpen = true → s.rt.window.opened = true → ∃ t, exec .cellDoorClose s = .next t ∧ t.gon.doorOpen = false ∧
    t.rt.window = CellWindow.closed ∧ t.nv.ledger.nextSeq = s.nv.ledger.nextSeq + 1 ∧ t.gon.root = s.gon.root) ∧
  (∀ (s : State), s.rt.window.isOpen = false → exec .cellDoorClose s =
    .next { s with gon := { s.gon with doorOpen := false, active := s.gon.active.filter (· ≠ 0x08) } })

/-- BUNDLE_COMMIT commits a bundle that changes nothing as its output is written, refuses one whose entries the full ledger cannot
take or a tile of which fails its check (R258), and else begins a journal record, of which nothing is applied yet (R147, R267). JOURNAL_RECORD_WRITTEN makes it complete;
COMMIT_MARK_WRITTEN, once it is acknowledged, applies it to the working copy, advances the epoch for each policy change and writes its
ledger entries; PERSISTENT_TILE_WRITE writes the persistent copies and retires it. PEER_ACK_TIMEOUT and DRAIN_TWIN_TIMEOUT let the
records that wait for the twin commit alone (R175, R195). LEDGER_SEAL signs each 10 000th entry's chain value (R295). -/
def Obligations.JournalCommands : Prop :=
  (∀ (u : Nat) (x : Bundle) (reads : List (Nat × TileImage)) (s : State), kget s.rt.bundles u = some x → mayRun s.rt = true → x.closed = true → x.failed = none →
    x.committed = false → x.record = none → membersDone s.rt x = true →
    (x.changes = [] → x.entries = [] → exec (.bundleCommit ⟨u, reads⟩) s =
      .next (onRt (fun rt => releaseMembers x.members { rt with bundles := kset rt.bundles u { x with committed := true } }) s)) ∧
    (∀ id, ledgerFull s.nv = true → x.entries ≠ [] → x.single = true → x.members = [id] → exec (.bundleCommit ⟨u, reads⟩) s =
      .next { onRt (failCmd id stStateRefused (stateRes s.rt)) s with nv := { s.nv with journal := dropRecord u s.nv.journal } }) ∧
    (x.changes ≠ [] → ledgerFull s.nv = false → (∀ c ∈ x.changes, heldByTwin s c.slot = false) → failedChange s.rt x = none →
      commitWaits s x = false → (∀ c ∈ x.changes, readBad s.rt reads (tileOf c.slot) = false) → s.nv.pairing.mode = false → ∃ t r, exec (.bundleCommit ⟨u, reads⟩) s = .next t ∧ t.nv.journal = s.nv.journal ++ [r] ∧
        r.seq = s.rt.strong.nextSeq ∧ r.epoch = s.rt.epoch ∧ r.changes = x.changes ∧ r.entries = x.entries ∧ r.complete = false ∧
        r.marked = false ∧ r.acked = true ∧ r.pairSeq = none ∧ kget t.rt.bundles u = some { x with record := some r.seq } ∧
        t.rt.strong.slots = s.rt.strong.slots ∧ t.rt.strong.nextSeq = s.rt.strong.nextSeq + 1 ∧ t.nv.slots = s.nv.slots ∧ t.rt.out = s.rt.out) ∧
    (x.changes ≠ [] → ledgerFull s.nv = false → (∀ c ∈ x.changes, heldByTwin s c.slot = false) → failedChange s.rt x = none →
      commitWaits s x = false → (∀ c ∈ x.changes, readBad s.rt reads (tileOf c.slot) = false) → s.nv.pairing.mode = true → s.nv.pairing.twin.isSome = true → s.rt.peer.paired = true →
      ∃ t r, exec (.bundleCommit ⟨u, reads⟩) s = .next t ∧ t.nv.journal = s.nv.journal ++ [r] ∧ r.acked = false ∧
        r.pairSeq = some s.nv.pairing.nextSeq ∧ t.nv.pairing.nextSeq = s.nv.pairing.nextSeq + 1 ∧
        t.rt.peer.txFrames = s.rt.peer.txFrames + 1 ∧
        t.rt.out = s.rt.out ++ [sealPeer s.rt.peer 2 s.nv.pairing.nextSeq (recordBytes (x.changes.map peerChange))]) ∧
    (∀ c, ledgerFull s.nv = false → (∀ c ∈ x.changes, heldByTwin s c.slot = false) → failedChange s.rt x = none → commitWaits s x = false →
      (x.changes.find? fun c => readBad s.rt reads (tileOf c.slot)) = some c →
      exec (.bundleCommit ⟨u, reads⟩) s = .next (failCommit u c.member stTileCheckFail (onRt (tileEvent 1 (tileOf c.slot)) s)))) ∧
  (∀ (q : Nat) (r : JRec) (s : State), recordOf s.nv q = some r → r.complete = false → flashWorks s.rt = true →
    (r.held = false → exec (.journalRecordWritten q true) s = .next { s with nv := modRecord q (fun r => { r with complete := true }) s.nv }) ∧
    (r.held = true → ∃ t, exec (.journalRecordWritten q true) s = .next t ∧ t.rt.out = s.rt.out ++ [sealPeer s.rt.peer 3 (r.pairSeq.getD 0) []]) ∧
    (r.bundle = none → ∃ t, exec (.journalRecordWritten q false) s = .next t ∧ recordOf t.nv q = none ∧ t.rt = s.rt)) ∧
  (∀ (q : Nat) (r : JRec) (s : State), recordOf s.nv q = some r → r.complete = true → r.acked = true → r.marked = false →
    flashWorks s.rt = true → mayRun s.rt = true → ∃ t x, exec (.commitMarkWritten q) s = .next t ∧
      t.rt.strong.slots = applySlots r.changes s.rt.strong.slots ∧ t.rt.strong.vers = bumpVers (tilesOf r.changes) s.rt.strong.vers ∧
      t.rt.epoch = s.rt.epoch + (r.changes.filter SlotChange.policy).length ∧
      t.nv.ledger.nextSeq = s.nv.ledger.nextSeq + r.entries.length ∧ recordOf t.nv q = some x ∧ x.marked = true ∧ x.changes = r.changes ∧
      t.nv.slots = s.nv.slots ∧ (∀ k, k ∈ tilesOf r.changes → k ∉ t.rt.strong.cache0 ∧ k ∉ t.rt.strong.cache1)) ∧
  (∀ (q : Nat) (r : JRec) (s : State), recordOf s.nv q = some r → (r.complete = false ∨ r.acked = false ∨ mayRun s.rt = false) →
    exec (.commitMarkWritten q) s = .next s) ∧
  (∀ (q : Nat) (r : JRec) (s : State), recordOf s.nv q = some r → r.marked = true → r.retired = false → flashWorks s.rt = true → ∃ t,
    exec (.persistentTileWrite q) s = .next t ∧ t.nv.slots = applySlots r.changes s.nv.slots ∧
      t.nv.vers = bumpVers (tilesOf r.changes) s.nv.vers ∧ t.nv.epochMark = max s.nv.epochMark r.epoch ∧ recordOf t.nv q = none ∧
      t.nv.ledger = s.nv.ledger ∧ t.rt = s.rt) ∧
  (∀ (u : Nat) (s : State), s.rt.peer.paired = true → awaitsTwin s.nv u = true → flashWorks s.rt = true →
    (∃ t, exec (.peerAckTimeout u) s = .next t ∧ t.rt.peer = { s.rt.peer with paired := false, lost := true } ∧
      (∀ r ∈ t.nv.journal, r.held = false → r.acked = true) ∧ t.nv.journal.map JRec.changes = s.nv.journal.map JRec.changes ∧
      t.rt.fault.nextSeq = (s.rt.fault.nextSeq + 1) % 2 ^ 32) ∧
    (∀ ch, bundleChange s.rt u = some ch →
      exec (.drainTwinTimeout u) s = exec (.peerAckTimeout u) (onRt (advanceTo (ch.commitAt + drainTwinLimit)) s) ∧
      ∃ t, exec (.drainTwinTimeout u) s = .next t ∧ awaitsTwin t.nv u = s.nv.journal.any fun r => r.bundle == some u && r.held && !r.acked)) ∧
  (∀ (q : Nat) (chain : Bytes) (s : State), sealDue s.nv.ledger = some (q, chain) → flashWorks s.rt = true → seedOk s.otp = true →
    canServe s.rt s.rt.mint0 = true → s.rt.mint0.waiting = [] → ∃ t x, exec .ledgerSeal s = .next t ∧
      t.nv.ledger.seals = s.nv.ledger.seals ++ [x] ∧ x.seq = q ∧ x.chain = chain ∧ t.nv.ledger.entries = s.nv.ledger.entries ∧
      t.rt.mint0.served = s.rt.mint0.served + 1) ∧
  (∀ (s : State), sealDue s.nv.ledger = none → exec .ledgerSeal s = .next s)

/-- POLICY_RECORD_WRITTEN commits the change that a request has staged: the epoch advances by one and the epoch mark covers it (R76,
R189), a new booth opens with its table entry and ledger entry, a map takes effect, a program serves from the new epoch, a live room
takes no new command until ROOM_CODE_RELOAD loads its code (R220); past the request's bound nothing commits (R118). POLICY_CHANGE_COMPLETE ends a change whose last touched command has
retired (R190), DRAIN_TIMEOUT aborts a touched command that is not dispatched (R194). -/
def Obligations.PolicyCommands : Prop :=
  (∀ (w : Waiting) (b : Nat) (cfg : BoothCfg) (s : State), s.rt.waiting = some w → w.staged = some (.boothCreate b cfg) →
    isPast w.due s.rt = false → mainPower s.rt = true → s.rt.power.powerFail = false → s.rt.disp.changes = [] → ∃ t, exec .policyRecordWritten s = .next t ∧
      boothOf t.rt b = some (newBooth { cfg with epoch := s.rt.epoch + 1 }) ∧
      kget t.nv.boothTable b = some { cfg with epoch := s.rt.epoch + 1 } ∧ t.rt.epoch = s.rt.epoch + 1 ∧
      t.nv.epochMark = max s.nv.epochMark (s.rt.epoch + 1) ∧ t.rt.disp.changes = [] ∧ t.rt.waiting = none ∧
      t.nv.ledger.entries.getLast?.map LedgerEntry.event = some 0x0108) ∧
  (∀ (w : Waiting) (b : Nat) (x : Booth) (cfg : BoothCfg) (s : State), s.rt.waiting = some w → w.staged = some (.boothModify b cfg false) →
    isPast w.due s.rt = false → mainPower s.rt = true → s.rt.power.powerFail = false → boothOf s.rt b = some x → ∃ t y, exec .policyRecordWritten s = .next t ∧
      boothOf t.rt b = some y ∧ y.cfg = { cfg with epoch := s.rt.epoch + 1 } ∧ y.oldWindows = x.oldWindows ∧ y.sqTail = x.sqTail ∧ y.cqTail = x.cqTail ∧ y.version = x.version ∧
      t.rt.epoch = s.rt.epoch + 1 ∧ kget t.nv.boothTable b = some y.cfg) ∧
  (∀ (w : Waiting) (m : Option PartMap) (s : State), s.rt.waiting = some w → w.staged = some (.partition m) → mainPower s.rt = true →
    isPast w.due s.rt = false → s.rt.power.powerFail = false → s.rt.cmds = [] → s.rt.net.conns = [] →
    let m' := m.map fun x => { x with epoch := s.rt.epoch + 1 }
    ∃ t, exec .policyRecordWritten s = .next t ∧ t.rt.disp.part = m' ∧ t.rt.disp.partOld = none ∧ t.nv.part = m' ∧ t.rt.epoch = s.rt.epoch + 1 ∧ t.rt.waiting = none) ∧
  (∀ (w : Waiting) (m : Option PartMap) (id : CmdId) (c : Cmd) (s : State), s.rt.waiting = some w → w.staged = some (.partition m) →
    isPast w.due s.rt = false → mainPower s.rt = true → s.rt.power.powerFail = false → s.rt.cmds = [(id, c)] → c.admitted = true → c.retired = false → c.epoch ≤ s.rt.epoch →
    s.rt.disp.changes = [] → s.nv.ledger.nextSeq = 0 → ∃ t, exec .policyRecordWritten s = .next t ∧
      t.rt.disp.part = (m.map fun x => { x with epoch := s.rt.epoch + 1 }) ∧
      t.rt.disp.partOld = s.rt.disp.part ∧ (t.rt.disp.changes.map Change.epoch) = [s.rt.epoch + 1] ∧ t.rt.waiting.isSome = true ∧
      exec (.policyChangeComplete (s.rt.epoch + 1)) t = .next t) ∧
  (∀ (w : Waiting) (h op base : Nat) (d : Bytes) (ws : List Word) (win : List (Nat × Nat)) (s : State), s.rt.waiting = some w →
    w.staged = some (.progLoad h op base d ws win) → isPast w.due s.rt = false → mainPower s.rt = true → s.rt.power.powerFail = false → s.rt.cmds = [] → s.nv.progs = [] →
    ∃ t p, exec .policyRecordWritten s = .next t ∧ t.nv.progs = [p] ∧ p.house = h ∧ p.opcode = op ∧ p.base = base ∧ p.code = ws ∧
      p.since = s.rt.epoch + 1 ∧ p.upto = none ∧ t.rt.epoch = s.rt.epoch + 1) ∧
  (∀ (w : Waiting) (l : Nat) (x : Listener) (s : State), s.rt.waiting = some w → w.staged = some (.listener l x []) → x.removing = false →
    isPast w.due s.rt = false → mainPower s.rt = true → s.rt.power.powerFail = false → ∃ t, exec .policyRecordWritten s = .next t ∧ kget t.nv.listeners l = some x ∧
      t.rt.epoch = s.rt.epoch ∧ t.rt.waiting = none ∧ t.rt.net = s.rt.net) ∧
  (∀ (w : Waiting) (room : Nat) (d : Bytes) (v : BitVec 32) (s : State), s.rt.waiting = some w → w.staged = some (.liveRoom [room] d v) →
    isPast w.due s.rt = false → mainPower s.rt = true → s.rt.power.powerFail = false → anyUpdating s.rt = false → ∃ t, exec .policyRecordWritten s = .next t ∧
      (roomOf t.rt room).updating = true ∧ t.rt.epoch = s.rt.epoch + 1 ∧ t.rt.waiting.isSome = true ∧
      (∃ ch ∈ t.rt.disp.changes, ch.kind = .liveRoom room ∧ ch.respond = true)) ∧
  (∀ (s : State), s.rt.waiting = none → exec .policyRecordWritten s = .next s) ∧
  (∀ (w : Waiting) (s : State), s.rt.waiting = some w → isPast w.due s.rt = true → ∃ t, exec .policyRecordWritten s = .next t ∧
    t.rt.waiting = none ∧ t.rt.epoch = s.rt.epoch ∧ t.rt.disp = s.rt.disp ∧ t.nv = s.nv) ∧
  (∀ (room : Nat) (s : State), (roomOf s.rt room).updating = true → roomFree s.rt room = true → ∃ t, exec (.roomCodeReload room) s = .next t ∧
    (roomOf t.rt room).updating = false ∧ (roomOf t.rt room).icache = [] ∧ (roomOf t.rt room).code = (roomOf s.rt room).code ∧
    (roomOf t.rt room).version = (if s.nv.image3.activeB then s.nv.image3.copyB else s.nv.image3.copyA).version ∧
    t.nv.ledger.entries.getLast?.map LedgerEntry.event = some 0x010D) ∧
  (∀ (room : Nat) (s : State), roomFree s.rt room = false → exec (.roomCodeReload room) s = .next s) ∧
  (∀ (e : Nat) (ch : Change) (s : State), s.rt.disp.changes.find? (fun x => x.epoch == e) = some ch → untouched s.rt ch = true →
    (∀ b, ch.kind = .keys b → ch.respond = false → ∃ t, exec (.policyChangeComplete e) s = .next t ∧ (∀ x ∈ t.rt.disp.changes, x.epoch ≠ e) ∧
      (∀ x ∈ t.rt.strong.shadow, x.epoch ≠ e) ∧ t.rt.epoch = s.rt.epoch) ∧
    (ch.kind = .partition → ch.respond = false → ∃ t, exec (.policyChangeComplete e) s = .next t ∧ t.rt.disp.partOld = none ∧
      t.rt.disp.part = s.rt.disp.part) ∧
    (∀ b, ch.kind = .boothFields b → ch.respond = true → ∃ t, exec (.policyChangeComplete e) s = .next t ∧ t.rt.waiting = none ∧
      ∀ x ∈ t.rt.disp.changes, x.epoch ≠ e)) ∧
  (∀ (e : Nat) (ch : Change) (s : State), s.rt.disp.changes.find? (fun x => x.epoch == e) = some ch → untouched s.rt ch = false →
    exec (.policyChangeComplete e) s = .next s) ∧
  (∀ (id : CmdId) (c : Cmd) (s : State), kget s.rt.cmds id = some c → c.stage = .admitted →
    (∀ ch, s.rt.disp.changes.find? (fun ch => touchesCmd s.rt ch c) = some ch → ∃ ev : FaultEvent, ev.source = .drainAbort ∧ ev.booth = some c.booth ∧
      exec (.drainTimeout id) s = .next (onRt (fun rt => raise ev (failWith id stAborted (advanceTo (ch.commitAt + drainLimit) rt))) s)) ∧
    ((∀ ch ∈ s.rt.disp.changes, touchesCmd s.rt ch c = false) → exec (.drainTimeout id) s = .next s))

/-- ETHERNET_FRAME_RECEIVE counts a frame with a bad FCS, discards one that is too long, a fragment or of another VLAN, answers ARP for an
address of the port on the frame's VLAN, closes a connection on RST, and else forgets its retransmissions and takes its round trip
into the timer (R153, R154). PORT_LINK_UP and PORT_DOWN set the link; a
port that goes down closes its connections without an alert and raises PORT_DOWN (R153). TCP_SYN is accepted on a listener while
the table, whose connections in TIME_WAIT count too, has room, else answered with RST (R154, R155); TCP_RETRANSMISSION_TIMEOUT resends
and backs off, TCP_KEEPALIVE_PROBE probes. -/
def Obligations.PortsAndTcp : Prop :=
  (∀ (p : Port) (f : EthFrame) (s : State), portServes s.rt p = false → exec (.ethernetFrameReceive p f) s = .next s) ∧
  (∀ (p : Port) (f : EthFrame) (s : State), portServes s.rt p = true →
    (f.fcsOk = false → exec (.ethernetFrameReceive p f) s =
      .next (onRt (fun rt => setPort p { portOfNet rt p with badFcs := (portOfNet rt p).badFcs + 1 } rt) s)) ∧
    (f.fcsOk = true → 9216 < f.len ∨ f.fragment = true ∨ vlanTaken s.nv p f.vlan = false → exec (.ethernetFrameReceive p f) s =
      .next (onRt (fun rt => setPort p { portOfNet rt p with discarded := (portOfNet rt p).discarded + 1 } rt) s)) ∧
    (f.fcsOk = true → f.len ≤ 9216 → f.fragment = false → vlanTaken s.nv p f.vlan = true →
      (∀ i a, f.kind = .arp i → addrAt s.nv p i = some a → a.family = 4 → onVlan a f.vlan = true → exec (.ethernetFrameReceive p f) s =
        .next { s with rt := { s.rt with out := s.rt.out ++ [.netReply p.val "ARP" []] } }) ∧
      (∀ i, f.kind = .arp i → (∀ a, addrAt s.nv p i = some a → onVlan a f.vlan = false) → exec (.ethernetFrameReceive p f) s =
        .next (onRt (fun rt => setPort p { portOfNet rt p with discarded := (portOfNet rt p).discarded + 1 } rt) s)) ∧
      (∀ k syn fin rtt x, f.kind = .tcp k syn fin true rtt → kget s.rt.net.conns k = some x → x.port = p.val → ∃ t,
        exec (.ethernetFrameReceive p f) s = .next t ∧ kget t.rt.net.conns k = none ∧ ∀ j, j ≠ k → kget t.rt.net.conns j = kget s.rt.net.conns j) ∧
      (∀ k syn fin rtt x, f.kind = .tcp k syn fin false rtt → kget s.rt.net.conns k = some x → x.port = p.val → ∃ t,
        exec (.ethernetFrameReceive p f) s = .next t ∧ kget t.rt.net.conns k = some (measured rtt { x with retrans := 0 }) ∧ t.rt.cmds = s.rt.cmds))) ∧
  (∀ (p : Port) (s : State), powered s.rt = true → (cageOf s.rt p).present = true → (p = 0 ∨ s.rt.peer.mode = false) →
    ((cageOf s.rt p).lowPower = false → ∃ t, exec (.portLinkUp p) s = .next t ∧ (portOfNet t.rt p).link = true ∧
      portOfNet t.rt (1 - p) = portOfNet s.rt (1 - p) ∧ t.rt.net.conns = s.rt.net.conns) ∧
    ((cageOf s.rt p).lowPower = true → exec (.portLinkUp p) s = .next s)) ∧
  (∀ (p : Port) (s : State), (portOfNet s.rt p).link = true → ∃ t r, exec (.portDown p) s = .next t ∧ (portOfNet t.rt p).link = false ∧
    (∀ k c, kget t.rt.net.conns k = some c → c.port ≠ p.val) ∧ kget t.rt.fault.ring (s.rt.fault.nextSeq % 40) = some r ∧ r.source = .portDown) ∧
  (∀ (p : Port) (s : State), (portOfNet s.rt p).link = false → exec (.portDown p) s = .next s) ∧
  (∀ (p : Port) (addr tcpPort k : Nat) (o : TcpOpts) (s : State), portServes s.rt p = true → kget s.rt.net.conns k = none → s.rt.net.listening = true →
    (∀ l x a, listenerAt s p addr tcpPort = some (l, x) → allConns s.rt < 16384 → addrAt s.nv p addr = some a → ∃ t,
      exec (.tcpSyn p addr tcpPort ⟨k, o⟩) s = .next t ∧ kget t.rt.net.conns k = some (newConn p.val l x.booth a.mtu o) ∧ t.rt.out = s.rt.out) ∧
    (listenerAt s p addr tcpPort = none ∨ 16384 ≤ allConns s.rt → exec (.tcpSyn p addr tcpPort ⟨k, o⟩) s =
      .next { s with rt := { s.rt with out := s.rt.out ++ [.tcpRst p.val k] } })) ∧
  (∀ (k : Nat) (c : Conn) (s : State), kget s.rt.net.conns k = some c →
    (c.unacked ≠ 0 → ∃ t, exec (.tcpRetransmissionTimeout k) s = .next t ∧ t.rt.out = s.rt.out ++ [.tcpResend k (min c.unacked c.mtu)] ∧
      kget t.rt.net.conns k = some { c with retrans := c.retrans + 1, rto := 2 * c.rto }) ∧
    (c.unacked = 0 → exec (.tcpRetransmissionTimeout k) s = .next s) ∧
    exec (.tcpKeepaliveProbe k) s = .next { s with rt := { s.rt with out := s.rt.out ++ [.tcpProbe k] } }) ∧
  (∀ (k : Nat) (s : State), kget s.rt.net.conns k = none → exec (.tcpKeepaliveProbe k) s = .next s ∧
    exec (.tcpRetransmissionTimeout k) s = .next s)

/-- TLS_HANDSHAKE chooses suite, group and scheme in the module's order and authenticates the client in the order of Table 8.4, ending
with the alert of the first check that fails; without a credit it waits, and while a command comes before it (R159, R184). A second hello
without the share that the retry asked for ends with illegal_parameter; a tile of the server key that fails its check ends the handshake with internal_error (R258). HANDSHAKE_TIMEOUT resets; SESSION_ESTABLISHED binds the session
to a die with a secret for each direction, derived from free values (R160). REQUEST_FRAME takes a request, with a loom of the die (R161),
closes on a frame-level error (R167), and reads nothing while the send queue is full (R169). RESPONSE_FRAME answers, in the order of ends, with the completion entry and the output (R168); SEND_QUEUE_DRAIN frees the queue.
SESSION_CLOSE and SESSION_IDLE_TIMEOUT end a session: admitted commands go on with discarded output, the others go without effect
(R163). KEY_UPDATE_SEND follows 2^24 records; KEY_UPDATE_RECEIVE may come at any time. -/
def Obligations.SessionCommands : Prop :=
  (∀ (k : Nat) (h : ClientHello) (c : Conn) (l : Listener) (b : Booth) (d slot : Nat) (r : SlotRec) (s : State),
    kget s.rt.net.conns k = some c → c.st = .accepted → inService s.rt = true → kget s.nv.listeners c.listener = some l →
    boothOf s.rt c.booth = some b →
    let s' := onRt (fun rt => { rt with disp := { rt.disp with nextAdmit := rt.disp.nextAdmit + 1 } }) s
    let c' := { c with st := .ready d, epoch := s.rt.epoch, arrival := s.rt.disp.nextAdmit }
    let ends := fun a => exec (.tlsHandshake k h) s = .next (onRt (closeConn k (some a)) s')
    (b.cfg.share ≤ occupancy s.rt c.booth → exec (.tlsHandshake k h) s = .next (onRt (setConn k { c with st := .waitCredit }) s)) ∧
    (occupancy s.rt c.booth < b.cfg.share → placeDie s.rt b.cfg.house = some d →
      takenBefore s'.rt d b.cfg.ceiling s.rt.disp.nextAdmit = true → exec (.tlsHandshake k h) s = .next (onRt (setConn k c') s')) ∧
    (occupancy s.rt c.booth < b.cfg.share → placeDie s.rt b.cfg.house = some d →
      takenBefore s'.rt d b.cfg.ceiling s.rt.disp.nextAdmit = false → serverKey s'.rt s.rt.epoch b.cfg.house l.key = .key slot r →
      (h.version13 = false → ends "protocol_version") ∧
      (∀ p, h.version13 = true → keyMiss s'.rt d b.cfg.house none s.rt.epoch l.key h.reads = some p → exec (.tlsHandshake k h) s =
        .next (onRt (fun rt => closeConn k (some "internal_error") (tileBreak p.1 p.2 rt)) s')) ∧
      (h.version13 = true → keyMiss s'.rt d b.cfg.house none s.rt.epoch l.key h.reads = none → tlsChoose l r h = none → ends "handshake_failure") ∧
      (∀ x, h.version13 = true → keyMiss s'.rt d b.cfg.house none s.rt.epoch l.key h.reads = none → tlsChoose l r h = some x → x.retry = true → ∃ t, exec (.tlsHandshake k h) s = .next t ∧
        kget t.rt.net.conns k = some { c' with st := .retry d x.group } ∧
        t.rt.out = s.rt.out ++ [.tlsServer k x.suite x.group x.scheme true []]) ∧
      (∀ x, h.version13 = true → keyMiss s'.rt d b.cfg.house none s.rt.epoch l.key h.reads = none → tlsChoose l r h = some x → x.retry = false →
        (shareHolds x.group (shareOf h x.group) = false → ends "illegal_parameter") ∧
        (shareHolds x.group (shareOf h x.group) = true →
          (∀ a, clientAlert s'.rt l h = some a → ends a) ∧
          (clientAlert s'.rt l h = none → ∃ t, exec (.tlsHandshake k h) s = .next t ∧
            kget t.rt.net.conns k = some { c' with st := .handshake d, suite := x.suite, group := x.group, scheme := x.scheme, spki := leafSpki h } ∧
            t.rt.out = s.rt.out ++ [.tlsServer k x.suite x.group x.scheme false l.chain]))))) ∧
  (∀ (k d g slot : Nat) (h : ClientHello) (c : Conn) (l : Listener) (b : Booth) (r : SlotRec) (x : TlsChoice) (s : State),
    kget s.rt.net.conns k = some c → c.st = .retry d g → inService s.rt = true → kget s.nv.listeners c.listener = some l →
    boothOf s.rt c.booth = some b → serverKey s.rt c.epoch b.cfg.house l.key = .key slot r → h.version13 = true →
    keyMiss s.rt d b.cfg.house none c.epoch l.key h.reads = none → tlsChoose l r h = some x → x.retry = true ∨ x.group ≠ g → exec (.tlsHandshake k h) s = .next (onRt (closeConn k (some "illegal_parameter")) s)) ∧
  (∀ (k : Nat) (c : Conn) (s : State), kget s.rt.net.conns k = some c → isEstablished c = false →
    exec (.handshakeTimeout k) s = .next (onRt (fun rt => emit (.tcpRst c.port k) (closeConn k none rt)) s)) ∧
  (∀ (k d0 d : Nat) (c : Conn) (s : State), kget s.rt.net.conns k = some c → c.st = .handshake d0 →
    sessionDie s.rt (boothHouse s.rt c.booth) = some d → ∃ t x, exec (.sessionEstablished k) s = .next t ∧ kget t.rt.net.conns k = some x ∧
      x.st = .established d ∧ x.rxSecret = trafficSecret c.suite s.rt.freeCtr true ∧ x.txSecret = trafficSecret c.suite s.rt.freeCtr false ∧ x.spki = c.spki ∧ x.version = c.version ∧ t.rt.freeCtr = s.rt.freeCtr + 1) ∧
  (∀ (k : Nat) (c : Conn) (s : State), kget s.rt.net.conns k = some c → isEstablished c = true →
    (16777216 ≤ c.records → ∃ t, exec (.keyUpdateSend k) s = .next t ∧ t.rt.out = s.rt.out ++ [.keyUpdate k] ∧
      kget t.rt.net.conns k = some { c with records := 0, txEpoch := c.txEpoch + 1, txSecret := nextSecret c.suite c.txSecret }) ∧
    (c.records < 16777216 → exec (.keyUpdateSend k) s = .next s) ∧
    exec (.keyUpdateReceive k) s = .next (onRt (setConn k { c with rxEpoch := c.rxEpoch + 1, rxSecret := nextSecret c.suite c.rxSecret }) s) ∧
    exec (.handshakeTimeout k) s = .next s) ∧
  (∀ (k : Nat) (c : Conn) (s : State), kget s.rt.net.conns k = some c → ∃ t, exec (.sessionClose k) s = .next t ∧
    kget t.rt.net.conns k = none ∧
    (∀ id m, kget s.rt.cmds id = some m → m.session = some k → m.admitted = true → ∃ x, kget t.rt.cmds id = some x ∧ x.discard = true) ∧
    (∀ id m, kget s.rt.cmds id = some m → m.session = some k → m.admitted = false → kget t.rt.cmds id = none) ∧
    (∀ l, kget s.nv.listeners c.listener = some l → isEstablished c = true → l.idle ≠ 0 →
      exec (.sessionIdleTimeout k) s = .next (onRt (enterTimeWait k) t))) ∧
  (∀ (k : Nat) (c : Conn) (l : Listener) (s : State), kget s.rt.net.conns k = some c → kget s.nv.listeners c.listener = some l → l.idle = 0 →
    exec (.sessionIdleTimeout k) s = .next s) ∧
  (∀ (k : Nat) (f : Bytes) (c : Conn) (l : Listener) (b : Booth) (s : State), kget s.rt.net.conns k = some c → isEstablished c = true →
    kget s.nv.listeners c.listener = some l → boothOf s.rt c.booth = some b → l.removing = false → openOutstanding s.rt k = false →
    stagedInput s.rt k + (f.length - 80) ≤ 4194304 → recordLoom s.rt c = true →
    (4194304 < c.sendQ → exec (.requestFrame k f) s = .next s) ∧
    (∀ a, c.sendQ ≤ 4194304 → frameError c f = some a → exec (.requestFrame k f) s = .next (onRt (closeConn k (some a)) s)) ∧
    (c.sendQ ≤ 4194304 → frameError c f = none → f.length = 16 + leAt f 4 4 → ∃ t x, exec (.requestFrame k f) s = .next t ∧
      t.rt.disp.nextCmd = s.rt.disp.nextCmd + 1 ∧ kget t.rt.net.conns k = some x ∧ x.rxSeq = (c.rxSeq + 1) % 2 ^ 32 ∧ x.txSeq = c.txSeq ∧
      x.spki = c.spki ∧ t.nv = s.nv)) ∧
  (∀ (id : CmdId) (k v : Nat) (c : Cmd) (x : Conn) (s : State), kget s.rt.cmds id = some c → c.id = id → c.session = some k → c.bundle = none →
    c.stage = .ended → needsScrub c = false → endedBefore s.rt c = false → c.discard = false → kget s.rt.net.conns k = some x →
    recordLoom s.rt x = true → x.version = some v → ∃ t ph,
      exec (.responseFrame id) s = .next t ∧ kget t.rt.cmds id = none ∧ (let body := entryOf ph (peerLost s) 0 c ++ c.output
        c.grouped = false → s.rt.waiting = none → s.nv.listeners.all (fun kv => !kv.2.removing) = true → inTamperHalt s.rt = false → t.rt.out = s.rt.out ++ [.frame k (frameHeader (BitVec.ofNat 8 v) (if isBusy c then 3 else 2) body.length x.txSeq) body])) ∧
  (∀ (k n : Nat) (c : Conn) (s : State), kget s.rt.net.conns k = some c →
    exec (.sendQueueDrain k n) s = .next (onRt (setConn k { c with sendQ := c.sendQ - n, unacked := c.unacked - n }) s))

/-- PEER_LINK_UP exchanges serials and nonces, and confirms keys or stays down with PEER_AUTH (R172); PEER_REKEY renews both keys after
2^32 frames. Every frame goes out under AES-256-GCM and is counted; a SOURCE that owes its copy sends it at link-up (R171). PEER_RECORD_RECEIVE journals a record of the twin as held, or refuses it by naming the conflicting slot (R173, R174);
PEER_ACK_RECEIVE and PEER_COMMIT_NOTICE let the mark follow. PEER_LOST keeps held records (R175); PEER_REPAIR_RESEND resends what the
twin has not applied and applies what it resends, or diverges (R176); PEER_COPY_END replaces the strongroom of the TARGET (R177). That
both keys and both counts begin again at a rekey, when the twin counts as paired, and what a frame holds beside its rule, are readings
of the model (log 33). -/
def Obligations.PeerCommands : Prop :=
  (∀ (serial nonce own : Bytes) (slot : Nat) (r : SlotRec) (s : State), s.nv.pairing.twin = some serial → peerPort s.rt = true →
    s.rt.peer.linkUp = false → s.rt.boot.serviceReady = true → canServe s.rt s.rt.mint1 = true → s.rt.mint1.waiting = [] →
    pairingKey s.rt s.nv.pairing.keyHandle = .key slot r → own = (drbgGen 32 s.rt.mint1.key s.rt.mint1.v).1 →
    let p := setLinkKeys 0 (materialOf s.rt none s.rt.epoch slot r) own nonce s.otp.serial serial s.rt.peer
    let hello := Out.peer "hello" 0 (s.otp.serial ++ own)
    let copies := s.nv.pairing.sending
    (∃ t, exec (.peerLinkUp serial nonce (twinConfirm p serial)) s = .next t ∧ t.rt.peer.linkUp = true ∧ t.rt.peer.paired = pairNow s ∧
      t.rt.peer.lost = s.rt.peer.lost ∧ t.rt.peer.txKey = p.txKey ∧ t.rt.peer.rxKey = p.rxKey ∧ t.rt.peer.rxFrames = 1 ∧
      t.rt.peer.txFrames = (if copies then 2 else 1) ∧ t.nv.pairing.sending = false ∧
      t.rt.out = s.rt.out ++ [hello, sealPeer p 1 0 s.otp.serial] ++
        (if copies then [sealPeer { p with txFrames := 1 } 6 0 (copyBytes s.rt.strong.slots)] else []) ∧
      t.rt.mint1.served = s.rt.mint1.served + 1) ∧
    (∀ confirm, confirm ≠ twinConfirm p serial → ∃ t, exec (.peerLinkUp serial nonce confirm) s = .next t ∧ t.rt.peer.linkUp = false ∧
      t.rt.peer.paired = false ∧ t.rt.fault.nextSeq = (s.rt.fault.nextSeq + 1) % 2 ^ 32) ∧
    (∀ other confirm, other ≠ serial → ∃ t, exec (.peerLinkUp other nonce confirm) s = .next t ∧ t.rt.peer.linkUp = false)) ∧
  (∀ (serial nonce confirm : Bytes) (s : State), s.nv.pairing.twin = none → exec (.peerLinkUp serial nonce confirm) s = .next s) ∧
  (∀ (tx : Bool) (slot : Nat) (r : SlotRec) (twin : Bytes) (s : State), s.rt.peer.linkUp = true → s.nv.pairing.twin = some twin →
    pairingKey s.rt s.nv.pairing.keyHandle = .key slot r →
    (2 ^ 32 ≤ (if tx then s.rt.peer.txFrames else s.rt.peer.rxFrames) → ∃ t, exec (.peerRekey tx) s = .next t ∧ t.rt.peer.txFrames = 0 ∧
      t.rt.peer.rxFrames = 0 ∧ t.rt.peer.nonceOwn = s.rt.peer.nonceOwn ∧ t.rt.peer.paired = s.rt.peer.paired ∧
      t.rt.freeCtr = s.rt.freeCtr + 1) ∧
    ((if tx then s.rt.peer.txFrames else s.rt.peer.rxFrames) < 2 ^ 32 → exec (.peerRekey tx) s = .next s)) ∧
  (∀ (r : PeerRecord) (s : State), linkServes s = true → unretired s.nv < 32 →
    (conflictOf s r = none → ∃ t x, exec (.peerRecordReceive r) s = .next t ∧ t.nv.journal = s.nv.journal ++ [x] ∧ x.held = true ∧
      x.pairSeq = some r.seq ∧ x.complete = false ∧ x.acked = false ∧ x.changes.map SlotChange.slot = r.changes.map PeerChange.slot ∧
      t.rt.strong.slots = s.rt.strong.slots ∧ t.rt.out = s.rt.out ∧
      t.rt.peer.rxFrames = s.rt.peer.rxFrames + 1) ∧
    (∀ slot, conflictOf s r = some slot → ∃ t, exec (.peerRecordReceive r) s = .next t ∧
      t.rt.out = s.rt.out ++ [sealPeer s.rt.peer 4 r.seq (le 4 slot)] ∧ t.nv = s.nv)) ∧
  (∀ (q : Nat) (r : JRec) (s : State), pairRecord s.nv false q = some r → linkServes s = true → s.rt.peer.paired = true →
    r.acked = false → r.marked = false →
    exec (.peerAckReceive q none) s = .next (onRt peerGot { s with nv := modRecord r.seq (fun r => { r with acked := true }) s.nv }) ∧
    (∀ slot u, r.bundle = some u → ∃ m, exec (.peerAckReceive q (some slot)) s = .next (failCommit u m stKeyStale (onRt peerGot s)))) ∧
  (∀ (q : Nat) (r : JRec) (s : State), pairRecord s.nv true q = some r →
    (linkServes s = true → r.complete = true → r.acked = false → exec (.peerCommitNotice q) s =
      .next (onRt peerGot { s with nv := modRecord r.seq (fun r => { r with acked := true }) s.nv })) ∧
    (r.complete = false → exec (.peerCommitNotice q) s = .next s)) ∧
  (∀ (s : State), ∃ t, exec .peerLost s = .next t ∧ t.rt.peer.linkUp = false ∧ t.rt.peer.paired = false ∧
    t.nv.journal.filter JRec.held = s.nv.journal.filter JRec.held ∧ t.nv.slots = s.nv.slots ∧
    (s.rt.peer.paired = true → t.rt.peer.lost = true ∧ t.rt.fault.nextSeq = (s.rt.fault.nextSeq + 1) % 2 ^ 32) ∧
    (s.rt.peer.paired = false → t.rt.fault = s.rt.fault)) ∧
  (∀ (n : Nat) (s : State), linkServes s = true → pairNow s = true → s.nv.pairing.retained.length ≤ 16777216 →
    let keep := s.nv.pairing.retained.filter fun r => decide (n < r.seq)
    (∃ t, exec (.peerRepairResend n []) s = .next t ∧ t.nv.pairing.retained = keep ∧
      t.rt.out = (keep.foldl (fun rt x => peerSend 2 x.seq (recordBytes x.changes) rt) (peerSend 7 s.nv.pairing.appliedTwin [] s.rt)).out ∧
      t.rt.peer.paired = true ∧ t.rt.peer.lost = false ∧ (∀ r ∈ t.nv.journal, r.held = false ∨ r.marked = true)) ∧
    (∀ r, s.nv.journal = [] → s.nv.pairing.appliedTwin < r.seq →
      (conflictOf s r = none → ∃ t, exec (.peerRepairResend n [r]) s = .next t ∧ t.nv.pairing.appliedTwin = r.seq ∧ t.nv.journal = [] ∧
        t.rt.peer.paired = true ∧ t.nv.slots = applySlots (r.changes.map (twinChange s.rt)) s.nv.slots) ∧
      (∀ slot, conflictOf s r = some slot → ∃ t, exec (.peerRepairResend n [r]) s = .next t ∧ t.rt.peer.diverged = true ∧
        t.nv.pairing.diverged = true ∧ t.rt.peer.paired = false ∧ t.nv.slots = s.nv.slots))) ∧
  (∀ (l : List (Nat × Bytes)) (s : State), s.nv.pairing.copying = true → linkServes s = true → ∃ t, exec (.peerCopyEnd l) s = .next t ∧
    t.rt.strong.slots = copiedSlots l ∧ t.nv.slots = copiedSlots l ∧ t.nv.journal = [] ∧ t.nv.pairing.copying = false ∧
    t.rt.strong.failed = [] ∧ t.rt.strong.cache0 = [] ∧ t.rt.peer.diverged = false ∧ t.rt.peer.lost = false) ∧
  (∀ (l : List (Nat × Bytes)) (s : State), s.nv.pairing.copying = false → exec (.peerCopyEnd l) s = .next s)

/-- PPS_IN_EDGE takes the label that TOD_DATAGRAM has given after its checks, and measures the offset from it (R447); an edge without a
label, or a second without a Sync, is one missed, and after three SOURCE_LOSS has its effect. SECOND_BOUNDARY takes a due step, compares with the source and
ages the uncertainty: a small offset is slewed, a larger one stepped or refused (R445, R448). CLOCK_LOCK, SOURCE_LOSS and
OCXO_WARMUP_END change the state (R444, R449); ALIGNMENT_RECORD_WRITE keeps the count beside the time (R453). PTP_DELAY_REQ answers at
most 4 096 a second; PTP_SYNC_SEND and PTP_ANNOUNCE_SEND number their messages (R450); PPS_OUT_EDGE raises the outputs unless squelched
(R451). The servo's correction is a free value; that the slew takes effect at once is the model's reading. -/
def Obligations.ClockCommands : Prop :=
  (∀ (ns : Nat) (s : State), powered s.rt = true → ns < 1000000000 →
    (∀ sec utc leap, s.nv.clockCfg.source = 1 → s.rt.clock.label = some (sec, utc, leap) → ∃ t, exec (.ppsInEdge ns) s = .next t ∧
      t.rt.clock.ppsInNs = ns ∧ t.rt.clock.measured = some ((s.rt.clock.sec : Int) * 1000000000 + ns - sec * 1000000000) ∧ t.rt.clock.utcOffset = utc ∧ t.rt.clock.leap = leap ∧ t.rt.clock.label = none ∧
      t.rt.clock.sec = s.rt.clock.sec) ∧
    (s.nv.clockCfg.source = 1 → s.rt.clock.label = none → ∃ t, exec (.ppsInEdge ns) s = .next t ∧ t.rt.clock.ppsInNs = ns ∧
      t.rt.clock.measured = s.rt.clock.measured) ∧
    (s.nv.clockCfg.source ≠ 1 → ∃ t, exec (.ppsInEdge ns) s = .next t ∧ t.rt.clock.ppsValid = true ∧ t.rt.clock.measured = s.rt.clock.measured)) ∧
  (∀ (d : Bytes) (us : Nat) (s : State), powered s.rt = true → s.rt.net.mgmtLink = true → s.nv.clockCfg.source = 1 → d.length = 48 →
    zeroAt d 6 2 = true → s.rt.clock.todSeq ≤ leAt d 12 4 → 10000 ≤ us → us ≤ 990000 →
    (todMacOk s d = true → ∃ t, exec (.todDatagram d s.nv.clockCfg.todAddr us) s = .next t ∧
      t.rt.clock.label = some (leAt d 0 6, leAt d 8 2, (leAt d 10 2).testBit 0) ∧ t.rt.clock.todSeq = leAt d 12 4 + 1) ∧
    (todMacOk s d = false → exec (.todDatagram d s.nv.clockCfg.todAddr us) s = .next (onRt mgmtFrame s)) ∧
    (∀ a, a ≠ s.nv.clockCfg.todAddr → exec (.todDatagram d a us) s = .next (onRt mgmtFrame s))) ∧
  (∀ (d a : Bytes) (us : Nat) (s : State), us < 10000 ∨ 990000 < us ∨ leAt d 12 4 < s.rt.clock.todSeq →
    exec (.todDatagram d a us) s = .next (onRt mgmtFrame s)) ∧
  (∀ (s : State), powered s.rt = true → s.rt.clock.pendingStep = none → s.nv.clockCfg.source = 0 → s.rt.clock.st = .set → s.rt.clock.warmup = false →
    ∃ t, exec (.secondBoundary none) s = .next t ∧ t.rt.clock.uncertainty = min (s.rt.clock.uncertainty + 10) 0xFFFFFFFF ∧
      t.rt.clock.ppsValid = s.rt.clock.edgeSeen ∧ t.rt.clock.edgeSeen = false ∧ t.rt.clock.sec = s.rt.clock.sec ∧ t.rt.clock.ptpDelay = []) ∧
  (∀ (d : Int) (o : Option Int) (s : State), powered s.rt = true → s.rt.clock.pendingStep = none →
    (s.nv.clockCfg.source = 1 ∧ s.rt.clock.measured = some d) ∨ (2 ≤ s.nv.clockCfg.source ∧ o = some d) → s.rt.clock.st = .locked →
    d.natAbs ≤ 1000 → ∃ t, exec (.secondBoundary o) s = .next t ∧ t.rt.clock.lastOffset = d ∧ t.rt.clock.measured = none ∧
      t.rt.clock.uncertainty = d.natAbs + (if s.nv.clockCfg.source = 1 then 40 else 200) ∧
      t.rt.clock.goodRun = s.rt.clock.goodRun + 1 ∧ t.rt.clock.missed = 0 ∧ t.rt.clock.lockedSecs = s.rt.clock.lockedSecs + 1 ∧
      -100000 ≤ t.rt.clock.freqCorr ∧ t.rt.clock.freqCorr ≤ 100000) ∧
  (∀ (o : Option Int) (s : State), powered s.rt = true → s.rt.clock.pendingStep = none →
    s.nv.clockCfg.source = 0 ∨ (s.nv.clockCfg.source = 1 ∧ s.rt.clock.measured = none) ∨ (2 ≤ s.nv.clockCfg.source ∧ o = none) →
    ∃ t, exec (.secondBoundary o) s = .next t ∧ t.rt.clock.missed = s.rt.clock.missed + 1 ∧ t.rt.clock.goodRun = 0 ∧
      t.rt.clock.sec = s.rt.clock.sec ∧ t.rt.clock.ns = s.rt.clock.ns) ∧
  (∀ (d : Int) (o : Option Int) (s : State), powered s.rt = true → s.rt.clock.pendingStep = none →
    (s.nv.clockCfg.source = 1 ∧ s.rt.clock.measured = some d) ∨ (2 ≤ s.nv.clockCfg.source ∧ o = some d) → 100000 < d.natAbs →
    (d.natAbs ≤ s.nv.clockCfg.maxStepMs * 1000000 → ∃ t, exec (.secondBoundary o) s = .next t ∧
      t.rt.clock.pendingStep = some (-d) ∧ t.rt.clock.sec = s.rt.clock.sec ∧ t.rt.clock.goodRun = 0) ∧
    (s.nv.clockCfg.maxStepMs ≠ 0 → s.nv.clockCfg.maxStepMs * 1000000 < d.natAbs → ∃ t, exec (.secondBoundary o) s = .next t ∧
      t.rt.clock.sourceRefused = true ∧ 3 ≤ t.rt.clock.missed ∧ t.rt.clock.pendingStep = none ∧ t.rt.clock.sec = s.rt.clock.sec ∧ t.rt.clock.ns = s.rt.clock.ns)) ∧
  (∀ (d : Int) (s : State), powered s.rt = true → s.rt.clock.pendingStep = some d → s.nv.clockCfg.source = 0 → ∃ t,
    exec (.secondBoundary none) s = .next t ∧ t.rt.clock.pendingStep = none ∧ t.rt.clock.stepCount = min (s.rt.clock.stepCount + 1) 0xFFFF ∧
      t.rt.clock.sec = (moveTime d s.rt.clock).sec ∧ t.rt.clock.ns = (moveTime d s.rt.clock).ns ∧ t.nv.align.length = s.nv.align.length + 1) ∧
  (∀ (s : State), powered s.rt = true → s.nv.clockCfg.source ≠ 0 → 10 ≤ s.rt.clock.goodRun → s.rt.clock.st = .set →
    (s.rt.clock.warmup = false → ∃ t, exec .clockLock s = .next t ∧ t.rt.clock.st = .locked ∧ t.rt.clock.clockClass = 6 ∧
      t.rt.clock.lockedSecs = 0 ∧ t.nv.align.length = s.nv.align.length + 1) ∧
    (s.rt.clock.warmup = true → exec .clockLock s = .next s)) ∧
  (∀ (s : State), powered s.rt = true → s.rt.clock.st = .locked → 3 ≤ s.rt.clock.missed → ∃ t, exec .sourceLoss s = .next t ∧ t.rt.clock.st = .holdover ∧
    t.rt.clock.holdSecs = 0 ∧ t.rt.clock.clockClass = (if s.rt.clock.uncertainty ≤ s.nv.clockCfg.holdLimit then 7 else 52) ∧
    t.rt.clock.uncertainty = s.rt.clock.uncertainty) ∧
  (∀ (s : State), s.rt.clock.st ≠ .locked ∨ s.rt.clock.missed < 3 → exec .sourceLoss s = .next s) ∧
  (∀ (s : State), powered s.rt = true → exec .ocxoWarmupEnd s = .next (onRt (onClock fun k => { k with warmup := false }) s)) ∧
  (∀ (s : State), powered s.rt = true → stepDone s.rt 2 = true → ∃ t a, exec .alignmentRecordWrite s = .next t ∧ t.nv.align = s.nv.align ++ [a] ∧
    a.g0 = gonNow s.gon s.rt.now ∧ a.t0Sec = s.rt.clock.sec ∧ a.t0Ns = s.rt.clock.ns ∧ a.u0 = s.rt.clock.uncertainty ∧ t.rt = s.rt) ∧
  (∀ (p : Port) (seq : Nat) (s : State), ptpMaster s p = true →
    (kgetD s.rt.clock.ptpDelay p.val 0 < 4096 → ∃ t, exec (.ptpDelayReq p seq) s = .next t ∧
      t.rt.out = s.rt.out ++ [.ptp p.val "Delay_Resp" seq s.rt.clock.clockClass] ∧
      kgetD t.rt.clock.ptpDelay p.val 0 = kgetD s.rt.clock.ptpDelay p.val 0 + 1) ∧
    (4096 ≤ kgetD s.rt.clock.ptpDelay p.val 0 → exec (.ptpDelayReq p seq) s = .next s) ∧
    (let n := kgetD s.rt.clock.ptpSeq p.val 0
     ∃ t, exec (.ptpSyncSend p) s = .next t ∧ kgetD t.rt.clock.ptpSeq p.val 0 = (n + 1) % 65536 ∧ t.rt.out = s.rt.out ++
      [.ptp p.val "Sync" n s.rt.clock.clockClass, .ptp p.val "Follow_Up" n s.rt.clock.clockClass]) ∧
    (let n := kgetD s.rt.clock.ptpSeq (2 + p.val) 0
     ∃ t, exec (.ptpAnnounceSend p) s = .next t ∧ kgetD t.rt.clock.ptpSeq (2 + p.val) 0 = (n + 1) % 65536 ∧
      t.rt.out = s.rt.out ++ [.ptp p.val "Announce" n s.rt.clock.clockClass])) ∧
  (∀ (p : Port) (seq : Nat) (s : State), ptpMaster s p = false → exec (.ptpDelayReq p seq) s = .next s ∧ exec (.ptpSyncSend p) s = .next s ∧
    exec (.ptpAnnounceSend p) s = .next s) ∧
  (∀ (s : State), powered s.rt = true →
    (squelched s.nv.clockCfg s.rt.clock = false → ∃ t, exec .ppsOutEdge s = .next t ∧ t.rt.clock.ppsHigh = true ∧
      t.rt.out = s.rt.out ++ [.pps true]) ∧
    (squelched s.nv.clockCfg s.rt.clock = true → exec .ppsOutEdge s = .next s))

/-- LC_NONCE_EXPIRY drops the nonce (R107). LATCH_EXPIRY closes an open latch that nothing has claimed, with a ledger entry, and
LATCH_ATTEMPT_TIMEOUT an attempt (R285, R286). OFFICER_PIN_TIMEOUT ends a ceremony that waits for a PIN (R481).
CEREMONY_CONSOLE_ENTRY counts wrong PINs, the third of which blocks the card, and a right PIN signs an attempt (R284, R285).
DELIBERATE_ERASE clears the root without a flag, and resets the module (R95). TEST_ACCESS_REQUEST answers as the state allows (R89,
R90); IDENTITY_INJECTION burns a seed and its check word where none is (R457). -/
def Obligations.CeremonyEvents : Prop :=
  (∀ (s : State), exec .lcNonceExpiry s = .next (onRt (fun rt => { rt with lc := { rt.lc with nonce := none } }) s)) ∧
  (∀ (h b : Nat) (o : Nat × Nat) (s : State), s.rt.twoKey = .opened h b o none → ledgerFull s.nv = false → ∃ t e, exec .latchExpiry s = .next t ∧
    t.rt.twoKey = .closed ∧ t.nv.ledger.entries.getLast? = some e ∧ e.event = 0x0011 ∧ e.house = h ∧ e.officer1 = o.1 ∧ e.officer2 = o.2 ∧
    e.seq = s.nv.ledger.nextSeq ∧ t.nv.ledger.nextSeq = s.nv.ledger.nextSeq + 1) ∧
  (∀ (h b u : Nat) (o : Nat × Nat) (s : State), s.rt.twoKey = .opened h b o (some u) → exec .latchExpiry s = .next s) ∧
  (∀ (c : Bytes) (h b : Nat) (f : Option (Nat × Bytes)) (s : State), s.rt.twoKey = .attempt c h b f → ledgerFull s.nv = false → ∃ t e,
    exec .latchAttemptTimeout s = .next t ∧ t.rt.twoKey = .closed ∧ t.nv.ledger.entries.getLast? = some e ∧ e.event = 0x0012 ∧ e.house = h) ∧
  (∀ (s : State), s.rt.twoKey = .closed → exec .latchAttemptTimeout s = .next s ∧ exec .latchExpiry s = .next s) ∧
  (∀ (c : Ceremony) (s : State), s.rt.ceremony = some c →
    (c.pins ≠ [] → c.console = false → ∃ t, exec .officerPinTimeout s = .next t ∧ t.rt.ceremony = none ∧ t.rt.mbx.done = true ∧
      t.rt.mbx.busy = false ∧ t.rt.mbx.seq = c.seq ∧ t.nv = s.nv ∧ t.gon = s.gon) ∧
    (c.pins = [] → exec .officerPinTimeout s = .next s)) ∧
  (∀ (k : CardSlot) (x : CardState) (p : Pulses) (s : State), powered s.rt = true → cardOf s.rt k.val = some x → x.card.blocked = false → s.rt.ceremony = none →
    (∃ t y, exec (.ceremonyConsoleEntry ⟨.pin k false, p⟩) s = .next t ∧ cardOf t.rt k.val = some y ∧ y.wrong = x.wrong + 1 ∧
      y.card.blocked = decide (2 ≤ x.wrong) ∧ y.card.serial = x.card.serial ∧ t.nv = s.nv) ∧
    (∀ ch h b o, s.rt.twoKey = .attempt ch h b none → ledgerFull s.nv = false →
      ((houseOfficers s.rt h).find? fun o => o.active && o.serial == cardSerial x.card && o.key == padTo 49 (x.card.pubKey.take 49)) = some o →
      ∃ t, exec (.ceremonyConsoleEntry ⟨.pin k true, p⟩) s = .next t ∧ t.rt.twoKey = .attempt ch h b (some (o.ident, o.serial)) ∧
        (cardOf t.rt k.val).map CardState.wrong = some 0 ∧ t.nv = s.nv)) ∧
  (∀ (e : ConsoleEntry) (p : Pulses) (s : State), s.rt.ceremony = none → powered s.rt = true → (∀ k, cardOf s.rt k = none) →
    exec (.ceremonyConsoleEntry ⟨e, p⟩) s = .next s) ∧
  (∀ (s : State), s.rt.lc.eraseDue = true → flashWorks s.rt = true → s.rt.boot.auxLow = false → ∃ t, exec .deliberateErase s = .next t ∧ t.gon.root = 0 ∧
    t.gon.rootCheck = 0 ∧ t.gon.tamperFlag = s.gon.tamperFlag ∧ t.gon.log = s.gon.log ∧ t.rt.boot.stage = 0x03 ∧ t.rt.boot.lastReset = 2 ∧
    t.rt.cmds = [] ∧ t.rt.strong = Strong.reset ∧ t.rt.lc.pendingTarget = s.rt.lc.pendingTarget ∧ t.otp = s.otp ∧ t.nv.slots = s.nv.slots) ∧
  (∀ (s : State), s.rt.lc.eraseDue = false → exec .deliberateErase s = .next s) ∧
  (∀ (d : Die) (i : Fin 4) (on : Bool) (s : State), powered s.rt = true →
    (s.rt.boot.lcState = 0x03 ∨ s.rt.boot.lcState = 0x04 → exec (.testAccessRequest .jtag) s =
      .next { s with rt := { s.rt with out := s.rt.out ++ [.testReply "IDCODE"] } }) ∧
    (s.rt.boot.lcState = 0x01 → exec (.testAccessRequest .jtag) s = .next { s with rt := { s.rt with out := s.rt.out ++ [.testReply "JTAG"] } }) ∧
    (s.rt.boot.lcState = 0x01 → exec (.testAccessRequest (.pattern d i on)) s =
      .next (onRt (fun rt => emit (.testReply "PATTERN") (selectPattern d i on rt)) s)) ∧
    (s.rt.boot.lcState = 0x05 → exec (.testAccessRequest (.pattern d i on)) s =
      .next { s with rt := { s.rt with out := s.rt.out ++ [.testReply "IDCODE"] } })) ∧
  (∀ (seed : Bytes) (s : State), powered s.rt = true → s.rt.boot.stage = 0x83 → s.rt.boot.lcState = 0x01 → s.otp.seed = 0 → s.otp.seedCheck = 0 →
    ∃ t, exec (.identityInjection seed []) s = .next t ∧ t.otp.seed = BitVec.ofNat 256 (ofLe seed) ∧
      t.otp.seedCheck = BitVec.ofNat 32 (crc32c (le 32 (ofLe seed % 2 ^ 256))) ∧ t.otp.lcT = s.otp.lcT ∧ t.otp.tamperCnt = s.otp.tamperCnt) ∧
  (∀ (seed : Bytes) (weak : List Fuse) (s : State), s.rt.boot.stage ≠ 0x83 → exec (.identityInjection seed weak) s = .next s)

/-- BRIDLE_UPDATE: the boot monitor checks every entry; an accepted request removes and adds entries of its bridles, a refused one
changes none and raises BRIDLE_REQUEST with the bridle (R413), a request for which no entry is free is refused with INPUT_REFUSED.
BRIDLE_REFUSAL latches the first refused beat in the bridle's record and counts every one (R411); the command of a refused host
transfer completes with ACCESS_REFUSED (Table 20.3). -/
def Obligations.BridleCommands : Prop :=
  (∀ (r : BridleRequest) (e : BridleEdit) (s : State), s.rt.boot.isSealed = true → mainPower s.rt = true → inFatal s.rt = false →
    inTamperHalt s.rt = false → r.edits = [e] →
    (refusedEdit s.rt r = none → ∃ t, exec (.bridleUpdate r) s = .next t ∧ (∀ b, b ≠ e.bridle → bridleTable t.rt b = bridleTable s.rt b) ∧
      (∀ x, x ∈ bridleTable t.rt e.bridle ↔ (x ∈ bridleTable s.rt e.bridle ∧ x ∉ e.remove) ∨ (x ∈ e.add ∧ x ∉ bridleTable s.rt e.bridle)) ∧
      t.rt.bridles.recs = s.rt.bridles.recs ∧ t.rt.fault = s.rt.fault) ∧
    (∀ b, refusedEdit s.rt r = some (some b) → ∃ t v, exec (.bridleUpdate r) s = .next t ∧ t.rt.bridles = s.rt.bridles ∧
      kget t.rt.fault.ring (s.rt.fault.nextSeq % 40) = some v ∧ v.source = .bridleRequest ∧ v.detail = padTo 8 [BitVec.ofNat 8 b]) ∧
    (refusedEdit s.rt r = some none → ∃ t, exec (.bridleUpdate r) s = .next t ∧ t.rt.bridles = s.rt.bridles ∧ t.rt.fault = s.rt.fault)) ∧
  (∀ (r : BridleRequest) (e : BridleEdit) (x : Region) (s : State), r.edits = [e] → x ∈ e.add → entryOk s.rt r.house e.bridle x = false →
    refusedEdit s.rt r = some (some e.bridle)) ∧
  (∀ (r : BridleRequest) (s : State), s.rt.boot.isSealed = false → exec (.bridleUpdate r) s = .next s) ∧
  (∀ (b x : Nat) (l : List Nat) (a : Access) (s : State), b < 40 → mainPower s.rt = true → refusedBeats s.rt b a = x :: l →
    (kget s.rt.bridles.recs b = none → ∃ t v, exec (.bridleRefusal b a) s = .next t ∧ kget t.rt.bridles.recs b = some v ∧ v.valid = true ∧
      v.addr = x ∧ some v.cause = verdict s.rt b a x ∧ v.house = a.house ∧ v.initiator = a.initiator ∧ v.kind = kindCode a.kind ∧
      v.count = min (l.length + 1) 255 ∧ t.rt.bridles.tables = s.rt.bridles.tables) ∧
    (∀ v, kget s.rt.bridles.recs b = some v → v.valid = true → v.count ≤ 255 → ∃ t w, exec (.bridleRefusal b a) s = .next t ∧
      kget t.rt.bridles.recs b = some w ∧ w.addr = v.addr ∧ w.cause = v.cause ∧ w.house = v.house ∧ w.epoch = v.epoch ∧ w.count = min (v.count + l.length + 1) 255) ∧
    (∀ id c, b = 38 ∨ b = 39 → a.cmd = some id → kget s.rt.cmds id = some c → c.bundle = none → ∃ t x, exec (.bridleRefusal b a) s = .next t ∧
      kget t.rt.cmds id = some x ∧ x.stage = .ended ∧ x.status = stAccessRefused)) ∧
  (∀ (b : Nat) (a : Access) (s : State), refusedBeats s.rt b a = [] → exec (.bridleRefusal b a) s = .next s)

/-- What the end of a command leaves, for one that stands in no bundle: its clerk's job ends and the clerk wipes (R211), a refusal carries a
status and inline result with no output, at the command's own epoch or, before admission, the current one (R10); DONE carries output
and length, a check value behind the output with TALLY_OUT (R143), and a limit below the length gives MALFORMED with the length needed
(R141). A failing member of a bundle is noted with its status, and every member ends with BUNDLE_ABORTED once the bundle is whole (R148). -/
def Obligations.CommandEnds : Prop :=
  (∀ (id : CmdId) (c : Cmd) (st : Nat) (res : Bytes) (s : State), kget s.rt.cmds id = some c → c.bundle = none → ∃ x,
    kget (failCmd id st res s.rt).cmds id = some x ∧ x.stage = .ended ∧ x.status = st ∧ x.result = padTo 16 (res.take 16) ∧ x.output = [] ∧
      x.outLen = 0 ∧ x.epoch = (if c.admitted then c.epoch else s.rt.epoch) ∧ x.desc = c.desc ∧ (c.session = none → x.retired = true) ∧ x.resv = 0 ∧
      (∀ j, j ≠ id → kget (failCmd id st res s.rt).cmds j = kget s.rt.cmds j)) ∧
  (∀ (id : CmdId) (c : Cmd) (k : ClerkId) (st : Nat) (res : Bytes) (s : State), kget s.rt.cmds id = some c → c.bundle = none →
    s.rt.clerks = [(k, { Clerk.reset with st := .running, job := some id })] →
    (clerkOf (failCmd id st res s.rt) k).st = .wiping ∧ (clerkOf (failCmd id st res s.rt) k).job = none) ∧
  (∀ (id : CmdId) (c : Cmd) (res out : Bytes) (span : Nat) (s : State), kget s.rt.cmds id = some c → c.bundle = none → c.withheld = false →
    (isInline c.desc = true → span ≤ c.desc.outLim.toNat → EndedAs { s with rt := doneCmd id res out span s.rt } id stDone
      (padTo 16 (res.take 16)) [] span) ∧
    (isInline c.desc = true → c.desc.outLim.toNat < span → EndedAs { s with rt := doneCmd id res out span s.rt } id stMalformed (zeros 16) [] span) ∧
    (isInline c.desc = false → hasTallyOut c.desc = false → out.length + c.direct ≤ c.desc.outLim.toNat →
      EndedAs { s with rt := doneCmd id res out span s.rt } id stDone (padTo 16 (res.take 16)) out (out.length + c.direct)) ∧
    (isInline c.desc = false → hasTallyOut c.desc = true → let full := out ++ tallyBytes (presetOf s.rt c.preset) out
      full.length + c.direct ≤ c.desc.outLim.toNat →
      EndedAs { s with rt := doneCmd id res out span s.rt } id stDone (padTo 16 (res.take 16)) full (full.length + c.direct)) ∧
    (isInline c.desc = false → hasTallyOut c.desc = false → c.desc.outLim.toNat < out.length + c.direct →
      EndedAs { s with rt := doneCmd id res out span s.rt } id stMalformed (zeros 16) [] (out.length + c.direct))) ∧
  (∀ (id : CmdId) (c : Cmd) (res out : Bytes) (span : Nat) (s : State), kget s.rt.cmds id = some c → c.withheld = true →
    EndedAs { s with rt := doneCmd id res out span s.rt } id stDone (padTo 16 (res.take 16)) [] 0) ∧
  (∀ (id u : Nat) (c : Cmd) (b : Bundle) (st : Nat) (res : Bytes) (s : State), kget s.rt.cmds id = some c → c.bundle = some u →
    kget s.rt.bundles u = some b → b.single = false → b.committed = false → b.failed = none →
    (b.closed = false → ∃ x, kget (failCmd id st res s.rt).bundles u = some x ∧ x.failed = some (c.member, st, padTo 16 res) ∧
      x.changes = b.changes) ∧
    (b.closed = true → b.members = [id] → EndedAs { s with rt := failCmd id st res s.rt } id stBundleAborted
      (padTo 16 ((le 2 st ++ (padTo 16 res).take 14).take 16)) [] 0))

/-- What each key management command hands to its bundle, and how it is refused: KEY_GENERATE and PUBLIC_IMPORT place a key under a usable
parent (R274, R362); KEY_REVOKE zeroes material and sets usage 00, KEY_DELETE frees the extent at the next generation, KEY_REPLACE
writes new material at the next generation, KEY_REPARENT writes another parent under the latch (R291 to R294); KEY_INFO returns the
head of the record. A tile of the key that fails its check ends the command with TILE_CHECK_FAIL (R258, R259). The bundle of one then
holds the changes, and the command waits for its commit (R264). -/
def Obligations.KeyCommands : Prop :=
  (∀ (id : CmdId) (x : JobCtx) (slot : Nat) (r : SlotRec) (s : State), plainForm x = true →
    lookSlot s.rt x x.cmd.desc.key1 = .key slot r →
    (jobOf s.rt id 0x11 = some x → r.usage = u00 → exec (.keyRevoke id) s = .next (failJob x stUsageRefused s)) ∧
    (jobOf s.rt id 0x11 = some x → r.usage ≠ u00 → needsLatch r = true → latchOpenFor s.rt x = false →
      exec (.keyRevoke id) s = .next (failJob x stDualControl s)) ∧
    (jobOf s.rt id 0x11 = some x → r.usage ≠ u00 → (needsLatch r = true → latchOpenFor s.rt x = true) → let new := revokedSlot 0 r
      let d : Delta := { changes := extentChanges s.rt x slot r revokedSlot, reads := [], entries := [jobEntry s.rt x 0x0004 slot r.gen new.gen (needsLatch r) []] }
      exec (.keyRevoke id) s = .next (submitJob x d (needsLatch r) (le 8 (echoOf slot new)) [] 8 s)) ∧
    (jobOf s.rt id 0x13 = some x → (needsLatch r = true → latchOpenFor s.rt x = true) →
      let d : Delta := { changes := extentChanges s.rt x slot r (fun _ r => freedSlot r), reads := [], entries := [jobEntry s.rt x 0x0006 slot r.gen (freedSlot r).gen (needsLatch r) []] }
      exec (.keyDelete id) s = .next (submitJob x d (needsLatch r) [] [] 0 s)) ∧
    (jobOf s.rt id 0x15 = some x → exec (.keyInfo id) s = .next (doneJob x [] (headBytes slot r) 0 s))) ∧
  (∀ (id : CmdId) (x : JobCtx) (p k : Nat) (s : State), plainForm x = true → lookSlot s.rt x x.cmd.desc.key1 = .bad p k →
    let t := failJob x stTileCheckFail (onRt (tileBreak p k) s)
    (jobOf s.rt id 0x11 = some x → exec (.keyRevoke id) s = .next t) ∧ (jobOf s.rt id 0x13 = some x → exec (.keyDelete id) s = .next t) ∧
    (jobOf s.rt id 0x15 = some x → exec (.keyInfo id) s = .next t)) ∧
  (∀ (id : CmdId) (x : JobCtx) (s : State), plainForm x = false →
    (jobOf s.rt id 0x11 = some x → exec (.keyRevoke id) s = .next (failJob x stMalformed s)) ∧
    (jobOf s.rt id 0x13 = some x → exec (.keyDelete id) s = .next (failJob x stMalformed s)) ∧
    (jobOf s.rt id 0x14 = some x → exec (.keyReparent id) s = .next (failJob x stMalformed s)) ∧
    (jobOf s.rt id 0x15 = some x → exec (.keyInfo id) s = .next (failJob x stMalformed s))) ∧
  (∀ (r : SlotRec), r.gen < 0xFFFF → (revokedSlot 0 r).usage = u00 ∧ (revokedSlot 0 r).usageBefore = r.usage ∧ (revokedSlot 0 r).gen = r.gen + 1 ∧
    (revokedSlot 0 r).mat = zeros r.mat.length ∧ (revokedSlot 0 r).parent = r.parent ∧ freedSlot r = { SlotRec.free with gen := r.gen + 1 }) ∧
  (∀ (id : CmdId) (x : JobCtx) (slot : Nat) (r : SlotRec) (ws : Nat) (w : SlotRec) (m : Bytes) (a : Attrs) (ver : BitVec 16) (s : State),
    jobOf s.rt id 0x12 = some x → byteAt x.cmd.desc.inl 0 = 2 → zeroAt x.cmd.desc.inl 1 13 = true →
    lookSlot s.rt x x.cmd.desc.key1 = .key slot r → (needsLatch r = true → latchOpenFor s.rt x = true) →
    Finds s x x.cmd.desc.key2 (fun w => keyIs 0x10 [uK0] [mB, mD] w && w.alg == algA) ws w →
    (replacement r w (matOf s x ws w) x.cmd.input 2 = none → exec (.keyReplace id) s = .next (refuseJobInput x 0x08 (looked x ws w s))) ∧
    (replacement r w (matOf s x ws w) x.cmd.input 2 = some (m, a, ver) → replaceFits r a m = false →
      exec (.keyReplace id) s = .next (refuseJobInput x 0x15 (looked x ws w s))) ∧
    (replacement r w (matOf s x ws w) x.cmd.input 2 = some (m, a, ver) → replaceFits r a m = true → r.gen ≠ 0xFFFF →
      let t := looked x ws w s
      let ch := (layKey slot (replacedHead r a ver) m).map fun c => jobChange t.rt x c.1 c.2 (c.1 == slot)
      let d : Delta := { changes := ch, reads := [], entries := [jobEntry t.rt x 0x0005 slot r.gen (r.gen + 1) (needsLatch r) []] }
      exec (.keyReplace id) s = .next (submitJob x d (needsLatch r) (le 8 (echoOf slot (replacedHead r a ver)) ++ resultCheck r.alg m) [] 13 t))) ∧
  (∀ (id : CmdId) (x : JobCtx) (slot ps : Nat) (r pr : SlotRec) (s : State), jobOf s.rt id 0x14 = some x → plainForm x = true →
    lookSlot s.rt x x.cmd.desc.key1 = .key slot r →
    (r.usage = u00 → exec (.keyReparent id) s = .next (failJob x stUsageRefused s)) ∧
    (r.usage ≠ u00 → latchOpenFor s.rt x = false → exec (.keyReparent id) s = .next (failJob x stDualControl s)) ∧
    (r.usage ≠ u00 → latchOpenFor s.rt x = true → Finds s x x.cmd.desc.key2 (fun _ => true) ps pr → let t := looked x ps pr s
      let lvl := levelOf t.rt x.cmd.bundle x.cmd.epoch pr + 1
      (ps = slot → exec (.keyReparent id) s = .next (refuseJobInput x 0x14 t)) ∧
      (r.cls ≠ 1 → mayParent pr.cls = true → ps ≠ slot → slot ∉ (ancestors t.rt x.cmd.bundle x.cmd.epoch 3 pr).map Prod.fst → lvl ≤ 2 →
        (lvl = 2 → hasChildren t.rt x.cmd.bundle slot = false) → let new := { r with parent := some ps, parentGen := pr.gen }
        let d : Delta := { changes := [jobChange t.rt x slot new true], reads := [ps], entries := [jobEntry t.rt x 0x0007 slot r.gen r.gen true (parentDetail (some (ps, pr.gen)))] }
        exec (.keyReparent id) s = .next (submitJob x d true (le 8 (echoOf slot new)) [] 8 t)))) ∧
  (∀ (id : CmdId) (x : JobCtx) (ps : Nat) (pr : SlotRec) (s : State), let p := x.cmd.desc.inl
    let a := attrsOf p
    let v := x.cmd.input
    let t := looked x ps pr s
    Finds s x x.cmd.desc.key1 (fun r => mayParent r.cls) ps pr → byteAt p 7 ≤ 1 → zeroAt p 8 6 = true → attrsOk a = true →
    levelFits t.rt x.cmd.bundle x.cmd.epoch pr = true → dualOk t.rt x a = true →
    (∀ rnd rt, jobOf s.rt id 0x10 = some x → isInline x.cmd.desc = false → v.length = 16 → notGenerated a.cls = false →
      takeDelivered x.cmd.die (userCmd x.id) t.rt = some (rnd, rt) → let m := generateKey a rnd
      let k : NewKey := { a := a, nb := leAt v 0 8, na := leAt v 8 8, ver := 0 }
      exec (.keyGenerate id) s = .next (placeKey x 0x0001 k ps pr m (resultCheck a.alg m) (if writesPublic a.cls then publicHalf a.alg a.size m else []) 13
        { t with rt := rt })) ∧
    (jobOf s.rt id 0x10 = some x → isInline x.cmd.desc = false → v.length = 0 → notGenerated a.cls = false →
      takeDelivered x.cmd.die (userCmd x.id) t.rt = none → (mintOf t.rt x.cmd.die).exhausted = false →
      exec (.keyGenerate id) s = .next (onRt (askKeyGrade x.cmd.die (userCmd x.id) (seedLen a)) t)) ∧
    (∀ why, jobOf s.rt id 0x16 = some x → a.cls = 0x28 → 16 ≤ v.length → publicRefused a.alg a.size (v.drop 16) = some why →
      exec (.publicImport id) s = .next (refuseJobInput x why t)) ∧
    (jobOf s.rt id 0x16 = some x → a.cls = 0x28 → 16 ≤ v.length → publicRefused a.alg a.size (v.drop 16) = none →
      let k : NewKey := { a := a, nb := leAt v 0 8, na := leAt v 8 8, ver := 0 }
      exec (.publicImport id) s = .next (placeKey x 0x0002 k ps pr (v.drop 16) [] [] 8 t))) ∧
  (∀ (x : JobCtx) (ev : Nat) (k : NewKey) (ps : Nat) (pr : SlotRec) (mat tail out : Bytes) (span : Nat) (s : State),
    (7372 < mat.length → placeKey x ev k ps pr mat tail out span s = refuseJobInput x 0x12 s) ∧
    (mat.length ≤ 7372 → allocRun s x.house (extentLen mat.length) = none → placeKey x ev k ps pr mat tail out span s = refuseJobInput x 0x10 s)) ∧
  (∀ (x : JobCtx) (ch : SlotChange) (e : LedgerEntry) (span : Nat) (res : Bytes) (s : State), kget s.rt.cmds x.id = some x.cmd → x.cmd.bundle = none →
    x.cmd.withheld = false → isInline x.cmd.desc = true → span ≤ x.cmd.desc.outLim.toNat →
    let d : Delta := { changes := [ch], reads := [], entries := [e] }
    let u := s.rt.disp.nextBundle
    (heldByTwin s ch.slot = true → submitJob x d false res [] span s = failJob x stStateRefused s) ∧
    (heldByTwin s ch.slot = false → reservedByOther s.rt u ch.slot = true → submitJob x d false res [] span s = failJob x stKeyStale s) ∧
    (heldByTwin s ch.slot = false → reservedByOther s.rt u ch.slot = false → isCurrent s.rt x ch.slot = true → ∃ b c,
      kget (submitJob x d false res [] span s).rt.bundles u = some b ∧ b.members = [x.id] ∧ b.closed = true ∧ b.single = true ∧
      b.changes = [ch] ∧ b.entries = [e] ∧ b.committed = false ∧ kget (submitJob x d false res [] span s).rt.cmds x.id = some c ∧
      c.stage = .committing ∧ c.status = stDone ∧ c.result = padTo 16 (res.take 16) ∧ c.bundle = some u ∧
      (submitJob x d false res [] span s).rt.strong.slots = s.rt.strong.slots))

/-- OPEN, once the booth's occupancy is zero, chooses the highest version of the range, which the booth or session then holds, or ends
with VERSION_UNSUPPORTED or MALFORMED and changes nothing (R356 to R358). ATTEST returns the statement over a nonce of 8 to 64 bytes
signed with 88 random bytes (R460); TIME_TOKEN a token signed with 56 (R452). -/
def Obligations.ServiceCommands : Prop :=
  (∀ (id : CmdId) (c : Cmd) (b : Booth) (s : State), openReady s.rt id = some c → kget s.rt.cmds id = some c → boothOf s.rt c.booth = some b →
    c.bundle = none → c.withheld = false → isInline c.desc = true → c.desc.outLim = 16 → zeroAt c.desc.inl 2 12 = true →
    (1 ≤ byteAt c.desc.inl 0 → byteAt c.desc.inl 0 ≤ 3 → 3 ≤ byteAt c.desc.inl 1 → c.session = none → ∃ t x, exec (.openCmd id) s = .next t ∧
      boothOf t.rt c.booth = some x ∧ x.version = some 3 ∧ x.cfg = b.cfg ∧ x.sqTail = b.sqTail ∧ EndedAs t id stDone (openResult s 3 c.booth b.cfg) [] 16) ∧
    (1 ≤ byteAt c.desc.inl 0 → byteAt c.desc.inl 0 ≤ 2 → byteAt c.desc.inl 1 = 2 → (∀ k y, c.session = some k → kget s.rt.net.conns k = some y →
      ∃ t z, exec (.openCmd id) s = .next t ∧ kget t.rt.net.conns k = some z ∧ z.version = some 2 ∧ (boothOf t.rt c.booth).map Booth.version = some b.version)) ∧
    (4 ≤ byteAt c.desc.inl 0 → byteAt c.desc.inl 0 ≤ byteAt c.desc.inl 1 → ∃ t, exec (.openCmd id) s = .next t ∧
      EndedAs t id stVersionUnsupported (zeros 16) [] 0 ∧ (boothOf t.rt c.booth).map Booth.version = some b.version) ∧
    (byteAt c.desc.inl 1 < byteAt c.desc.inl 0 → ∃ t, exec (.openCmd id) s = .next t ∧ EndedAs t id stMalformed (zeros 16) [] 0)) ∧
  (∀ (id : CmdId) (s : State), openReady s.rt id = none → exec (.openCmd id) s = .next s) ∧
  (∀ (id : CmdId) (c : Cmd) (s : State), running s.rt id 2 = some c → zeroAt c.desc.inl 1 13 = true → byteAt c.desc.inl 0 ≤ 1 →
    (∀ rnd rt, 8 ≤ (cmdInput c).length → (cmdInput c).length ≤ 64 → seedOk s.otp = true → drawNow c.die 88 s.rt = some (rnd, rt) →
      let m := statement s (cmdInput c) (some c.booth) (byteAt c.desc.inl 0 == 1) rnd
      exec (.attest id) s = .next { s with rt := doneCmd id (zeros 16) m m.length rt }) ∧
    ((cmdInput c).length < 8 ∨ 64 < (cmdInput c).length → exec (.attest id) s = .next (onRt (failWith id stMalformed) s)) ∧
    (8 ≤ (cmdInput c).length → (cmdInput c).length ≤ 64 → seedOk s.otp = false → exec (.attest id) s = .next (onRt (failWith id stDeviceFault) s))) ∧
  (∀ (id : CmdId) (c : Cmd) (s : State), running s.rt id 3 = some c → isInline c.desc = false → zeroAt c.desc.inl 0 14 = true →
    (∀ rnd rt, 8 ≤ c.input.length → c.input.length ≤ 64 → seedOk s.otp = true → drawNow c.die 56 s.rt = some (rnd, rt) →
      let prot := cborMap [(1, cborNeg 34)]
      let pay := tokenPayload s c c.input
      let m := coseSign1 prot (cborMap []) pay (signEc (identityEc s.otp labelAttestEc) rnd (sigStructure prot pay))
      exec (.timeToken id) s = .next { s with rt := doneCmd id (zeros 16) m m.length rt }) ∧
    (c.input.length < 8 ∨ 64 < c.input.length → exec (.timeToken id) s = .next (onRt (failWith id stMalformed) s)))

/-- PIN_TRANSLATE recovers the PIN with checks 1 to 4 of R376, refuses a pair of formats outside Table 18.4, and builds the block under the
second key with random fill (R377, R378); its inline form carries the account digits and takes formats 0 and 4 by the key. PIN_VERIFY
compares the value or offset of R379, PIN_OFFSET_GEN computes it, a form that R482 does not know being MALFORMED. DUKPT_DECRYPT and
DUKPT_PIN_TRANSLATE derive the working key of R384, reason 09h refusing a counter or key type. -/
def Obligations.PinCommands : Prop :=
  (∀ (id : CmdId) (x : JobCtx) (pan : List Nat) (k1 k2 : Nat) (r1 r2 : SlotRec) (rnd : Bytes) (rt : Rt) (s : State),
    let p := x.cmd.desc.inl
    jobOf s.rt id 0x0100 = some x → x.cmd.desc.opcode = 0x0100 → isInline x.cmd.desc = false → byteAt p 1 = 0 → zeroAt p 12 2 = true →
    x.cmd.input.length = 8 ∨ x.cmd.input.length = 16 → panDigits (slice p 2 10) = some pan → byteAt p 0 ≠ 3 →
    Finds s x x.cmd.desc.key1 (accepts 0x0100 false) k1 r1 → let s1 := looked x k1 r1 s
    keyWaits x x.cmd.desc.key2 (accepts 0x0100 true) s1 = false → Draws s1 x 8 rnd rt → let s2 := { s1 with rt := rt }
    Finds s2 x x.cmd.desc.key2 (accepts 0x0100 true) k2 r2 → let s3 := looked x k2 r2 s2
    let v := recoverPin (r1.alg == algT) (matOf s x k1 r1) x.cmd.input (cardOfPan pan)
    (∀ why, v.bad = some why → exec (.pinTranslate id) s = .next (refuseJobInput x why s3)) ∧
    (v.bad = none → pairAllowed v.fmt (byteAt p 0) = false → exec (.pinTranslate id) s = .next (refuseJobInput x 0x04 s3)) ∧
    (v.bad = none → pairAllowed v.fmt (byteAt p 0) = true → (byteAt p 0 == 4) = (r2.alg == algA) → (r2.alg == algT) = !(r2.alg == algA) →
      versionOf s3.rt x.cmd = some 3 → exec (.pinTranslate id) s =
        .next (doneJob x [] (buildPin (matOf s2 x k2 r2) (byteAt p 0) v.pin (nibbles rnd) [] (cardOfPan pan)) 0 s3))) ∧
  (∀ (id : CmdId) (x : JobCtx) (s : State), jobOf s.rt id 0x0100 = some x →
    (isInline x.cmd.desc = true → (∃ d ∈ nibbles (slice x.cmd.desc.inl 8 6), 9 < d) → exec (.pinTranslate id) s = .next (refuseJobInput x 0x01 s)) ∧
    (isInline x.cmd.desc = false → byteAt x.cmd.desc.inl 1 ≠ 0 → exec (.pinTranslate id) s = .next (failJob x stMalformed s))) ∧
  (∀ (verify : Bool) (id : CmdId) (x : JobCtx) (pan : List Nat) (n k1 k2 : Nat) (r1 r2 : SlotRec) (usage : BitVec 16) (s : State),
    let p := x.cmd.desc.inl
    let op := if verify then 0x0101 else 0x0102
    let c := if verify then Instr.pinVerify id else .pinOffsetGen id
    let l := byteAt p 10
    let s2 := lookedBoth x k1 r1 k2 r2 s
    let v := recoverPin (r1.alg == algT) (matOf s x k1 r1) (x.cmd.input.take n) (cardOfPan pan)
    let key := matOf (looked x k1 r1 s) x k2 r2
    jobOf s.rt id op = some x → x.cmd.desc.opcode = BitVec.ofNat 16 op → zeroAt p 11 3 = true → panDigits p = some pan →
    FindsBoth s x x.cmd.desc.key1 (accepts op false) k1 r1 x.cmd.desc.key2 (fun r => accepts op true r && r.usage == usage) k2 r2 →
    versionOf s2.rt x.cmd = some 3 →
    (∀ why, pinForm verify l x.cmd.input.length = .value n → usage = uV2 → v.bad = some why → exec c s = .next (refuseJobInput x why s2)) ∧
    (pinForm verify l x.cmd.input.length = .value n → usage = uV2 → v.bad = none → 4 ≤ v.pin.length →
      let val := packNibbles (pinValue key (accountOf pan) v.pin l)
      exec c s = .next (doneJob x (if verify then [if val = x.cmd.input.drop n then 0#8 else 1#8] else val) [] 0 s2)) ∧
    (pinForm verify l x.cmd.input.length = .offset n → usage = uV1 → let rest := x.cmd.input.drop n
      let table := nibbles (slice rest 8 8)
      tableOk table = true → v.bad = none → l ≤ v.pin.length → let o := pinOffset key (rest.take 8) table v.pin l
      exec c s = .next (doneJob x (if verify then [if o = (nibbles (rest.drop 16)).take l then 0#8 else 1#8] else packF 6 o) [] 0 s2))) ∧
  (∀ (id : CmdId) (x : JobCtx) (pan : List Nat) (s : State), jobOf s.rt id 0x0101 = some x → zeroAt x.cmd.desc.inl 11 3 = true →
    panDigits x.cmd.desc.inl = some pan →
    (pinForm true (byteAt x.cmd.desc.inl 10) x.cmd.input.length = .malformed → exec (.pinVerify id) s = .next (failJob x stMalformed s)) ∧
    (∀ why, pinForm true (byteAt x.cmd.desc.inl 10) x.cmd.input.length = .refused why → exec (.pinVerify id) s = .next (refuseJobInput x why s))) ∧
  (∀ (id : CmdId) (x : JobCtx) (k1 : Nat) (r1 : SlotRec) (s : State), let p := x.cmd.desc.inl
    let b := x.cmd.input
    jobOf s.rt id 0x0130 = some x → x.cmd.desc.opcode = 0x0130 →
    (ksnRefused p = true → exec (.dukptDecrypt id) s = .next (refuseJobInput x 0x09 s)) ∧
    (ksnRefused p = false → byteAt p 13 = 1 ∨ byteAt p 13 = 2 → 32 ≤ b.length → b.length ≤ 2048 → b.length % 16 = 0 →
      Finds s x x.cmd.desc.key1 (accepts 0x0130 false) k1 r1 → let m := matOf s x k1 r1
      (m.length < dukptKeyLen (byteAt p 12) → exec (.dukptDecrypt id) s = .next (refuseJobInput x 0x09 (looked x k1 r1 s))) ∧
      (dukptKeyLen (byteAt p 12) ≤ m.length → let key := dukptWorking m (p.take 12) (if byteAt p 13 = 1 then 0x3001 else 0x3002) (byteAt p 12)
        exec (.dukptDecrypt id) s = .next (doneJob x [] (cbcDec false key (b.take 16) (b.drop 16)) 0 (looked x k1 r1 s))))) ∧
  (∀ (id : CmdId) (x : JobCtx) (pan : List Nat) (k1 k2 : Nat) (r1 r2 : SlotRec) (rnd : Bytes) (rt : Rt) (s : State), let p := x.cmd.desc.inl
    let b := x.cmd.input
    jobOf s.rt id 0x0131 = some x → x.cmd.desc.opcode = 0x0131 → ksnRefused p = false → byteAt p 13 = 0 → b.length = 26 →
    panDigits (b.drop 16) = some pan → Finds s x x.cmd.desc.key1 (accepts 0x0131 false) k1 r1 → let s1 := looked x k1 r1 s
    let m := matOf s x k1 r1
    dukptKeyLen (byteAt p 12) ≤ m.length → keyWaits x x.cmd.desc.key2 (accepts 0x0131 true) s1 = false → Draws s1 x 8 rnd rt →
    let s2 := { s1 with rt := rt }
    Finds s2 x x.cmd.desc.key2 (accepts 0x0131 true) k2 r2 →
    let v := recoverPin false (dukptWorking m (p.take 12) 0x1000 (byteAt p 12)) (b.take 16) (cardOfPan pan)
    (∀ why, v.bad = some why → exec (.dukptPinTranslate id) s = .next (refuseJobInput x why (looked x k2 r2 s2))) ∧
    (v.bad = none → exec (.dukptPinTranslate id) s =
      .next (doneJob x [] (buildPin (matOf s2 x k2 r2) 4 v.pin (nibbles rnd) [] (cardOfPan pan)) 0 (looked x k2 r2 s2))))

/-- CVC_GENERATE and CVC_VERIFY compute the code of R380 over the PAN, the expiry date and the service code. ARQC_VERIFY, SM_MAC and
SM_ENC_MAC use the session key that derivation 0004h gives (R381 to R383). MAC_GENERATE and MAC_VERIFY compute the MAC of the key's
usage (R385); TOKENISE and DETOKENISE put the middle digits through FF1 under the tweak of the kept ones (R386). A PAN field with a
digit outside 0 to 9 is refused with reason 01h (R371). -/
def Obligations.CardCommands : Prop :=
  (∀ (verify : Bool) (id : CmdId) (x : JobCtx) (pan : List Nat) (k : Nat) (r : SlotRec) (s : State), let p := x.cmd.desc.inl
    let op := if verify then 0x0111 else 0x0110
    let c := if verify then Instr.cvcVerify id else .cvcGenerate id
    let t := nibbles (slice p 10 4)
    let n := t.getD 7 0
    jobOf s.rt id op = some x → x.cmd.desc.opcode = BitVec.ofNat 16 op → panDigits p = some pan → (∀ d ∈ t.take 7, d ≤ 9) →
    (n < 3 ∨ 5 < n → exec c s = .next (refuseJobInput x 0x06 s)) ∧
    (3 ≤ n → n ≤ 5 → Finds s x x.cmd.desc.key1 (accepts op false) k r →
      let code := packF (cdiv n 2) (cvcCode (r.alg == algT) (matOf s x k r) pan (t.take 7) n)
      (verify = false → exec c s = .next (doneJob x code [] (cdiv n 2) (looked x k r s))) ∧
      (verify = true → x.cmd.input.length = cdiv n 2 → exec c s =
        .next (doneJob x [if code = x.cmd.input then 0#8 else 1#8] [] 0 (looked x k r s))))) ∧
  (∀ (id : CmdId) (x : JobCtx) (s : State), panDigits x.cmd.desc.inl = none →
    (jobOf s.rt id 0x0110 = some x → exec (.cvcGenerate id) s = .next (refuseJobInput x 0x01 s)) ∧
    (jobOf s.rt id 0x0120 = some x → exec (.arqcVerify id) s = .next (refuseJobInput x 0x01 s)) ∧
    (jobOf s.rt id 0x0150 = some x → byteAt x.cmd.desc.inl 11 ≤ 1 → zeroAt x.cmd.desc.inl 12 2 = true →
      exec (.tokenise id) s = .next (refuseJobInput x 0x01 s))) ∧
  (∀ (id : CmdId) (x : JobCtx) (data : Bytes) (k : Nat) (r : SlotRec) (key : EngKey) (s : State), let p := x.cmd.desc.inl
    let b := x.cmd.input
    jobOf s.rt id 0x0120 = some x → emvCard p = .ok data →
    (arqcLayout (byteAt p 13) b = false → exec (.arqcVerify id) s = .next (refuseJobInput x 0x07 s)) ∧
    (arqcLayout (byteAt p 13) b = true → Finds s x x.cmd.desc.key1 (accepts 0x0120 false) k r → derive r (matOf s x k r) 4 data = .key key →
      let arqc := slice b (1 + byteAt b 0) 8
      (emvMac key (slice b 1 (byteAt b 0)) = arqc → exec (.arqcVerify id) s =
        .next (doneJob x (0#8 :: arpcOf key (byteAt p 13) arqc (b.drop (9 + byteAt b 0))) [] 0 (looked x k r s))) ∧
      (emvMac key (slice b 1 (byteAt b 0)) ≠ arqc → exec (.arqcVerify id) s = .next (doneJob x [1#8] [] 0 (looked x k r s))))) ∧
  (∀ (id : CmdId) (x : JobCtx) (data : Bytes) (k : Nat) (r : SlotRec) (key : EngKey) (s : State), jobOf s.rt id 0x0121 = some x →
    byteAt x.cmd.desc.inl 13 = 0 → emvCard x.cmd.desc.inl = .ok data →
    (x.cmd.input.length < 5 ∨ 2048 < x.cmd.input.length → exec (.smMac id) s = .next (refuseJobInput x 0x07 s)) ∧
    (5 ≤ x.cmd.input.length → x.cmd.input.length ≤ 2048 → Finds s x x.cmd.desc.key1 (accepts 0x0121 false) k r →
      derive r (matOf s x k r) 4 data = .key key → exec (.smMac id) s = .next (doneJob x (emvMac key x.cmd.input) [] 0 (looked x k r s)))) ∧
  (∀ (id : CmdId) (x : JobCtx) (data : Bytes) (i j : Nat) (r1 r2 : SlotRec) (k1 k2 : EngKey) (s : State), let b := x.cmd.input
    jobOf s.rt id 0x0122 = some x → byteAt x.cmd.desc.inl 13 = 0 → emvCard x.cmd.desc.inl = .ok data → 6 ≤ b.length → b.length ≤ 2005 →
    FindsBoth s x x.cmd.desc.key1 (accepts 0x0122 false) i r1 x.cmd.desc.key2 (accepts 0x0122 true) j r2 →
    derive r1 (matOf s x i r1) 4 data = .key k1 → derive r2 (matOf (looked x i r1 s) x j r2) 4 data = .key k2 → let t := k2.alg == .tdea
    let ct := cbcEnc t k2.key (zeros (blockLen t)) (isoPad (blockLen t) 2 (b.drop 5))
    exec (.smEncMac id) s = .next (doneJob x [] (ct ++ emvMac k1 (b.take 5 ++ ct)) 0 (lookedBoth x i r1 j r2 s))) ∧
  (∀ (verify : Bool) (id : CmdId) (x : JobCtx) (k : Nat) (r : SlotRec) (s : State), let p := x.cmd.desc.inl
    let b := x.cmd.input
    let op := if verify then 0x0141 else 0x0140
    let c := if verify then Instr.macVerify id else .macGenerate id
    let len := byteAt p 0
    let msg := if verify then b.take (b.length - len) else b
    jobOf s.rt id op = some x → x.cmd.desc.opcode = BitVec.ofNat 16 op → zeroAt p 2 12 = true → (verify = true → len ≤ b.length) → msg.length ≤ 2048 →
    Finds s x x.cmd.desc.key1 (accepts op false) k r → let s1 := looked x k r s
    let mac := (macOf r (matOf s x k r) (byteAt p 1) msg).take len
    ((if verify then (storedPerms r).macv else (storedPerms r).macg) = true → macParBad r len (byteAt p 1) = true →
      exec c s = .next (refuseJobInput x 0x21 s1)) ∧
    ((if verify then (storedPerms r).macv else (storedPerms r).macg) = true → macParBad r len (byteAt p 1) = false →
      exec c s = .next (doneJob x (if verify then [if mac = b.drop msg.length then 0#8 else 1#8] else mac) [] 0 s1))) ∧
  (∀ (back : Bool) (id : CmdId) (x : JobCtx) (d : List Nat) (k : Nat) (r : SlotRec) (s : State), let p := x.cmd.desc.inl
    let op := if back then 0x0151 else 0x0150
    let c := if back then Instr.detokenise id else .tokenise id
    let lead := byteAt p 10 / 16
    let n := d.length - lead - byteAt p 10 % 16
    jobOf s.rt id op = some x → x.cmd.desc.opcode = BitVec.ofNat 16 op → byteAt p 11 ≤ 1 → zeroAt p 12 2 = true → panDigits p = some d →
    (d.length < lead + byteAt p 10 % 16 + 6 → exec c s = .next (refuseJobInput x 0x0B s)) ∧
    (lead + byteAt p 10 % 16 + 6 ≤ d.length → Finds s x x.cmd.desc.key1 (accepts op false) k r → let m := matOf s x k r
      let tweak := tokenTweak (byteAt p 11 == 1) (d.take lead ++ d.drop (lead + n))
      let mid := (d.drop lead).take n
      exec c s = .next (doneJob x (packF 10 (d.take lead ++ (if back then ff1Dec m tweak mid else ff1Enc m tweak mid) ++ d.drop (lead + n))) []
        10 (looked x k r s))))

/-- KEYBLOCK_IMPORT places the key of a block that verifies and whose attributes Table 13.2 allows (R387); KEYBLOCK_EXPORT returns a block with
a ledger entry (R388); KEY_CHECK_VALUE the value of R289. AEAD_ENCRYPT returns ciphertext and tag; AEAD_DECRYPT plaintext and
the verdict, withholding the output of a tag that does not match (R312, R390). -/
def Obligations.BlockCommands : Prop :=
  (∀ (id : CmdId) (x : JobCtx) (ps : Nat) (pr : SlotRec) (s : State), let p := x.cmd.desc.inl
    let dual := byteAt p 0 == 1
    let t := looked x ps pr s
    jobOf s.rt id 0x0160 = some x → byteAt p 0 ≤ 1 → zeroAt p 1 13 = true → Finds s x x.cmd.desc.key1 (accepts 0x0160 false) ps pr →
    levelFits t.rt x.cmd.bundle x.cmd.epoch pr = true → (dual = true → latchOpenFor t.rt x = true) → 48 ≤ x.cmd.input.length →
    x.cmd.input.length ≤ 4096 →
    (kbUnwrap (pr.alg == algT) (matOf s x ps pr) x.cmd.input = none → exec (.keyblockImport id) s = .next (refuseJobInput x 0x08 t)) ∧
    (∀ c, kbUnwrap (pr.alg == algT) (matOf s x ps pr) x.cmd.input = some c → let a := { kbAttrs c with dual := dual }
      (attrsOk a = false → exec (.keyblockImport id) s = .next (refuseJobInput x 0x15 t)) ∧
      (attrsOk a = true → let k : NewKey := { a := a, nb := 0, na := 0, ver := BitVec.ofNat 16 (leAt c.ver 0 2) }
        exec (.keyblockImport id) s = .next (placeKey x 0x0002 k ps pr c.key (resultCheck a.alg c.key) [] 13 t)))) ∧
  (∀ (id : CmdId) (x : JobCtx) (s : State), jobOf s.rt id 0x0161 = some x → zeroAt x.cmd.desc.inl 0 14 = true → x.cmd.input = [] →
    (∀ st, lockExport x x.cmd.desc.key1 x.cmd.desc.key2 s.rt = .error (.no st) → exec (.keyblockExport id) s = .next (failJob x st s)) ∧
    (∀ b slot r rt, lockExport x x.cmd.desc.key1 x.cmd.desc.key2 s.rt = .ok (b, slot, r, rt) →
      let d : Delta := { changes := [], reads := [slot], entries := [jobEntry s.rt x 0x0003 slot r.gen r.gen (needsLatch r) []] }
      exec (.keyblockExport id) s = .next (submitJob x d (needsLatch r) [] b 0 { s with rt := touchTiles x.cmd.die (readTiles rt x.cmd.bundle x.cmd.epoch slot r) rt }))) ∧
  (∀ (id : CmdId) (x : JobCtx) (k : Nat) (r : SlotRec) (s : State), jobOf s.rt id 0x0162 = some x →
    (zeroAt x.cmd.desc.inl 0 14 = false → exec (.keyCheckValue id) s = .next (failJob x stMalformed s)) ∧
    (zeroAt x.cmd.desc.inl 0 14 = true → Finds s x x.cmd.desc.key1 (accepts 0x0162 false) k r → let v := checkValue r.alg (matOf s x k r)
      exec (.keyCheckValue id) s = .next (doneJob x v [] v.length (looked x k r s)))) ∧
  (∀ (dec : Bool) (id : CmdId) (x : JobCtx) (k : Nat) (r : SlotRec) (s : State), let p := x.cmd.desc.inl
    let b := x.cmd.input
    let op := if dec then 0x0171 else 0x0170
    let c := if dec then Instr.aeadDecrypt id else .aeadEncrypt id
    let ccm := byteAt p 0 == 2
    let nl := byteAt p 1
    let tl := byteAt p 2
    let hl := leAt p 4 4
    let src := b.drop (nl + hl)
    let t := looked x k r s
    jobOf s.rt id op = some x → x.cmd.desc.opcode = BitVec.ofNat 16 op → byteAt p 0 = 1 ∨ byteAt p 0 = 2 → byteAt p 3 = 0 → zeroAt p 8 6 = true →
    nl + hl ≤ 65536 → nl + hl ≤ b.length → Finds s x x.cmd.desc.key1 (accepts op false) k r →
    (aeadParOk ccm nl tl = false → exec c s = .next (refuseJobInput x 0x21 t)) ∧
    (aeadParOk ccm nl tl = true → dec = false → src.length ≤ 16777216 → let m := matOf s x k r
      exec c s = .next (doneJob x [] (if ccm then ccmEnc m (b.take nl) (slice b nl hl) src tl else gcmEnc m (b.take nl) (slice b nl hl) src) 0 t)) ∧
    (aeadParOk ccm nl tl = true → dec = true → tl ≤ src.length → src.length - tl ≤ 65536 → let m := matOf s x k r
      let ct := src.take (src.length - tl)
      let tag := src.drop (src.length - tl)
      let v := if ccm then ccmDec m (b.take nl) (slice b nl hl) ct tag else gcmDec m (b.take nl) (slice b nl hl) ct tag
      (v.2 = true → exec c s = .next (doneJob x [0#8] v.1 0 t)) ∧
      (v.2 = false → exec c s = .next (doneJob x [1#8] (zeros (src.length - tl)) 0 (onRt (modCmd x.id fun c => { c with withheld := true }) t)))) ∧
    (aeadParOk ccm nl tl = true → dec = true → src.length < tl → exec c s = .next (refuseJobInput x 0x20 t)))

/-- SIGN and VERIFY take the scheme and hash of R391, refuse a combination with reason 0Ah, and a private key, point or scalar that fails its
validation with the reason of 15 Table 15.5, and an RSA signature whose invariant fails with DEVICE_FAULT (15 R337); KEY_AGREE gives the one-step KDF of the shared value, KEM_DECAPSULATE the 32-byte
secret (R392). ML-DSA and ML-KEM themselves are abstract functions. -/
def Obligations.SignCommands : Prop :=
  (∀ (id : CmdId) (x : JobCtx) (k : Nat) (r : SlotRec) (s : State), let p := x.cmd.desc.inl
    let b := x.cmd.input
    let scheme := byteAt p 0
    let hash := byteAt p 1
    let t := looked x k r s
    let m := matOf s x k r
    jobOf s.rt id 0x0200 = some x → x.cmd.desc.opcode = 0x0200 → byteAt p 2 = 1 → zeroAt p 3 11 = true → versionOf s.rt x.cmd = some 3 →
    (schemeRefused false scheme hash true = true → exec (.sign id) s = .next (refuseJobInput x 0x0A s)) ∧
    (schemeRefused false scheme hash true = false → b.length = digestLen 0 (sigHash hash) → Finds s x x.cmd.desc.key1 (accepts 0x0200 false) k r →
      (∀ why, keyRefused r m = some why → exec (.sign id) s = .next (refuseJobInput x why t)) ∧
      (keyRefused r m = none → schemeFits scheme r.alg = false → exec (.sign id) s = .next (refuseJobInput x 0x0A t)) ∧
      (∀ sig, keyRefused r m = none → schemeFits 1 r.alg = true → scheme = 1 → signWith 1 hash r m [] b = some sig →
        baseRefused (rsaMessage 1 hash r m [] b) (beAt m 0 (32 * r.size)) = none →
        exec (.sign id) s = .next (if rsaHolds r.size m (rsaMessage 1 hash r m [] b) sig = true then doneJob x [] sig 0 t
          else rsaFault x k t)) ∧
      (∀ rnd rt sig, keyRefused r m = none → schemeFits 3 r.alg = true → scheme = 3 → Draws t x (curveBytes r.size + 8) rnd rt →
        signWith 3 hash r m rnd b = some sig → exec (.sign id) s = .next (doneJob x [] sig 0 { t with rt := rt })))) ∧
  (∀ (id : CmdId) (x : JobCtx) (k : Nat) (r : SlotRec) (s : State), let p := x.cmd.desc.inl
    let b := x.cmd.input
    let n := sigLen r.alg r.size
    let t := looked x k r s
    jobOf s.rt id 0x0201 = some x → byteAt p 2 = 1 → zeroAt p 3 11 = true → versionOf s.rt x.cmd = some 3 →
    schemeRefused false (byteAt p 0) (byteAt p 1) true = false → Finds s x x.cmd.desc.key1 (accepts 0x0201 false) k r →
    (b.length < n → exec (.verify id) s = .next (refuseJobInput x 0x0A t)) ∧
    (schemeFits (byteAt p 0) r.alg = true → b.length = n + digestLen 0 (sigHash (byteAt p 1)) → let len := b.length - n
      let v := verifyWith (byteAt p 0) (byteAt p 1) r.size (matOf s x k r) (b.take len) (b.drop len)
      (∀ why, v = .error why → exec (.verify id) s = .next (refuseJobInput x why t)) ∧
      (∀ ok, v = .ok ok → exec (.verify id) s = .next (doneJob x [if ok then 0#8 else 1#8] [] 0 t)))) ∧
  (∀ (id : CmdId) (x : JobCtx) (k : Nat) (r : SlotRec) (s : State), let p := x.cmd.desc.inl
    let b := x.cmd.input
    let t := looked x k r s
    let m := matOf s x k r
    let l := peerLen r.size
    jobOf s.rt id 0x0202 = some x → x.cmd.desc.opcode = 0x0202 → 16 ≤ byteAt p 0 → byteAt p 0 ≤ 64 → zeroAt p 2 12 = true →
    (byteAt p 1 = 0 → exec (.keyAgree id) s = .next (refuseJobInput x 0x0A s)) ∧
    (byteAt p 1 = 1 ∨ byteAt p 1 = 2 → Finds s x x.cmd.desc.key1 (accepts 0x0202 false) k r → keyRefused r m = none →
      (b.length < l → exec (.keyAgree id) s = .next (failJob x stMalformed t)) ∧
      (∀ why, l ≤ b.length → b.length ≤ l + 256 → sharedValue r.size m (b.take l) = .error why →
        exec (.keyAgree id) s = .next (refuseJobInput x why t)) ∧
      (∀ z, l ≤ b.length → b.length ≤ l + 256 → sharedValue r.size m (b.take l) = .ok z →
        exec (.keyAgree id) s = .next (doneJob x [] (oneStepKdf (sigHash (byteAt p 1)) z (b.drop l) (byteAt p 0)) 0 t)))) ∧
  (∀ (id : CmdId) (x : JobCtx) (k : Nat) (r : SlotRec) (s : State), let t := looked x k r s
    let m := matOf s x k r
    jobOf s.rt id 0x0203 = some x → x.cmd.desc.opcode = 0x0203 → zeroAt x.cmd.desc.inl 0 14 = true →
    Finds s x x.cmd.desc.key1 (accepts 0x0203 false) k r → keyRefused r m = none →
    (x.cmd.input.length = (if r.size = 0x12 then 1088 else 1568) → exec (.kemDecapsulate id) s =
      .next (doneJob x [] (exactly 32 (Config.mlKemDecaps r.size m x.cmd.input)) 0 t)) ∧
    (x.cmd.input.length ≠ (if r.size = 0x12 then 1088 else 1568) → exec (.kemDecapsulate id) s = .next (refuseJobInput x 0x0A t)))

/-- Each of the 47 request rows answers only the requests of its code. A request that the present state does not accept (Table 17.14,
first row that matches; the states at rest by Table 5.1) is refused with the status of that row and has no effect; one whose header is
out of order, or whose parameters have not the length of Tables 17.10 to 17.12, is MALFORMED. A mailbox response sets DONE and clears
BUSY; it leaves flash, fuses, gondola, commands, epoch and fault records as they were. The console's goes out on its session, and the bound of a
mailbox request that waits meanwhile begins anew (R367). -/
def Obligations.ManagementAccess : Prop :=
  (∀ (src : ReqSrc) (w : Bulk) (p : Pulses) (n : Nat) (row : Instr) (s : State), ServesCode src w p n row →
    (reqOf src s.rt = none → exec row s = .next s) ∧
    (∀ q, reqOf src s.rt = some q → (q.code ≠ n → exec row s = .next s) ∧
      (∀ st, q.code = n → stateRefuses s.rt n = some st → exec row s = .next (refusedWith src q st s)) ∧
      (q.code = n → stateRefuses s.rt n = none → q.headOk = false → exec row s = .next (refusedWith src q stMalformed s)))) ∧
  (∀ (src : ReqSrc) (w : Bulk) (p : Pulses) (n len : Nat) (row : Instr) (s : State) (q : Req), FixedLength src w p n len row → Serves src n s q →
    q.params.length ≠ len → exec row s = .next (refusedWith src q stMalformed s)) ∧
  (∀ (rt : Rt) (n : Nat),
    (inTamperHalt rt = true → stateRefuses rt n = if n ∈ [0x01, 0x40, 0x20, 0x04, 0x60, 0x61, 0x82, 0x38] then none else some stTamperHalt) ∧
    (rt.boot.stage = 0x86 ∨ rt.boot.stage = 0x87 → stateRefuses rt n = if lcAccepts rt.boot.lcState n then none else some stStateRefused) ∧
    (inTamperHalt rt = false → rt.boot.stage ≠ 0x86 → rt.boot.stage ≠ 0x87 → inFatal rt = true →
      stateRefuses rt n = if n ∈ [0x01, 0x02, 0x40, 0x20, 0x04, 0x60, 0x61, 0x82, 0x18] then none else some stDeviceFault) ∧
    (inTamperHalt rt = false → inFatal rt = false → rt.boot.stage ≠ 0x86 → rt.boot.stage ≠ 0x87 →
      rt.boot.stage = 0x80 ∨ rt.boot.erasing = true →
      stateRefuses rt n = if n = 0x01 ∨ n = 0x40 then none else some stStateRefused) ∧
    (inTamperHalt rt = false → inFatal rt = false → rt.boot.erasing = false →
      (rt.boot.stage = 0x84 → stateRefuses rt n = if n ∈ [0x01, 0x40, 0x41, 0x42, 0x20, 0x04, 0x50] then none else some stStateRefused) ∧
      (rt.boot.stage = 0x83 → rt.boot.lcState = 0x03 →
        stateRefuses rt n = if n ∈ [0x01, 0x40, 0x41, 0x42, 0x20, 0x35, 0x38] then none else some stStateRefused) ∧
      (1 ≤ rt.boot.stage.toNat ∧ rt.boot.stage.toNat ≤ 0x0B →
        stateRefuses rt n = if n = 0x01 ∨ n = 0x40 then none else some stStateRefused) ∧
      (rt.boot.stage = 0x0C → rt.boot.serviceReady = true → stateRefuses rt n = if n = 0x38 then some stStateRefused else none))) ∧
  (∀ (q : Req) (st : Nat) (s : State), ∃ t, refusedWith .mailbox q st s = t ∧ t.rt.mbx.done = true ∧ t.rt.mbx.busy = false ∧
    t.rt.mbx.seq = q.seq ∧ t.rt.mbx.resp.take 2 = le 2 st ∧ t.rt.mbx.req = s.rt.mbx.req ∧ t.nv = s.nv ∧ t.otp = s.otp ∧ t.gon = s.gon ∧
    t.rt.cmds = s.rt.cmds ∧ t.rt.epoch = s.rt.epoch ∧ t.rt.fault = s.rt.fault ∧ t.rt.twoKey = s.rt.twoKey ∧ t.rt.strong = s.rt.strong) ∧
  (∀ (b : Bytes) (q : Req) (st : Nat) (s : State), refusedWith (.console b) q st s =
    { s with rt := { s.rt with
        out := s.rt.out ++ [.console (respBytes s.rt q.seq st (refuseRes s.rt st))]
        mbx := { s.rt.mbx with goAt := if s.rt.mbx.busy then s.rt.now else s.rt.mbx.goAt } } })

/-- What the accepted requests answer and do: STATUS_QUERY, EPOCH_STATUS, STRONGROOM_STATUS and LC_STATUS answer the fields of Tables
17.10 and 17.12 and change nothing; MGR_WINDOW replaces the window with its entries in the host bridles; LEDGER_EXPORT copies the oldest
unconfirmed entries, LEDGER_CONFIRM refuses a sequence above the last exported one; ATTEST gives a part of the held statement;
MINT_MODE is persisted with its ledger entry; CELL_SERVICE opens a window of 600 s under a latch, which closes. -/
def Obligations.StatusRequests : Prop :=
  (∀ (src : ReqSrc) (q : Req) (s : State), Serves src 0x01 s q → q.params = [] → ∃ res, exec (.statusQuery src) s = .next (replied src q stDone res s) ∧
    res.head? = some s.rt.boot.stage ∧ res[1]? = some s.rt.boot.lcState ∧ (byteAt res 2).testBit 0 = s.rt.boot.serviceReady ∧
    (byteAt res 2).testBit 1 = s.rt.boot.resident ∧ (byteAt res 2).testBit 2 = s.rt.peer.paired ∧
    (byteAt res 2).testBit 3 = s.rt.disp.part.isSome ∧ byteAt res 3 = 0 ∧ leAt res 4 2 = s.rt.booths.length % 65536 ∧
    leAt res 6 2 = min 1012 s.rt.boot.notRecreated.length ∧ res.length = 8 + 2 * min 1012 s.rt.boot.notRecreated.length) ∧
  (∀ (src : ReqSrc) (q : Req) (s : State), Serves src 0x02 s q → q.params = [] → s.rt.epoch < 2 ^ 64 → ∃ res,
    exec (.epochStatus src) s = .next (replied src q stDone res s) ∧ res.length = 16 ∧ leAt res 0 8 = s.rt.epoch ∧ leAt res 8 8 ≤ s.rt.epoch ∧
    (∀ ch ∈ s.rt.disp.changes, leAt res 8 8 ≤ ch.epoch) ∧ (s.rt.disp.changes = [] → leAt res 8 8 = s.rt.epoch)) ∧
  (∀ (src : ReqSrc) (q : Req) (s : State), Serves src 0x03 s q → q.params = [] → s.rt.strong.slots.length ≤ 33554432 → ∃ res,
    exec (.strongroomStatus src) s = .next (replied src q stDone res s) ∧ res.length = 24 ∧
    leAt res 8 4 = (s.rt.strong.slots.filter fun kv => kv.2.kind == 4).length ∧
    leAt res 4 4 = 33554432 - leAt res 0 4 - leAt res 8 4 ∧ leAt res 16 4 = s.rt.strong.failed.length % 2 ^ 32) ∧
  (∀ (src : ReqSrc) (q : Req) (s : State), Serves src 0x04 s q → q.params.length = 16 → let a := leAt q.params 0 8; let n := leAt q.params 8 8
    (a % 4096 = 0 → n % 4096 = 0 → n ≤ 1073741824 → a + n ≤ 2 ^ 64 → ∃ t, exec (.mgrWindow src) s = .next (replied src q stDone [] t) ∧
      t.rt.mgrWindow = (if n = 0 then none else some (a, n)) ∧ t.nv = s.nv ∧
      (∀ b, b ≠ 38 → b ≠ 39 → bridleTable t.rt b = bridleTable s.rt b) ∧
      (∀ r, r ∈ bridleTable t.rt 38 ↔ (r ∈ bridleTable s.rt 38 ∧ r.mailbox = false) ∨ (n ≠ 0 ∧ r = windowRegion a n 1)) ∧
      (∀ r, r ∈ bridleTable t.rt 39 ↔ (r ∈ bridleTable s.rt 39 ∧ r.mailbox = false) ∨ (n ≠ 0 ∧ r = windowRegion a n 2))) ∧
    (a % 4096 ≠ 0 ∨ n % 4096 ≠ 0 ∨ 1073741824 < n → exec (.mgrWindow src) s = .next (refusedWith src q stMalformed s))) ∧
  (∀ (src : ReqSrc) (q : Req) (a n : Nat) (s : State), Serves src 0x60 s q → q.params.length = 12 → s.rt.mgrWindow = some (a, n) →
    leAt q.params 0 8 ≤ n → s.nv.ledger.seals = [] → ∃ t es, es = ((s.nv.ledger.entries.filter fun e => decide (s.nv.ledger.confirmed ≤ e.seq)).take
      (leAt q.params 8 4)).take ((n - leAt q.params 0 8) / 128) ∧
      exec (.ledgerExport src) s = .next (replied src q stDone (le 8 s.nv.ledger.confirmed ++ le 4 es.length ++ le 4 0) t) ∧
      t.rt.out = s.rt.out ++ [.bulk (leAt q.params 0 8) (es.flatMap ledgerBytes)] ∧ t.nv.ledger.entries = s.nv.ledger.entries ∧
      t.nv.ledger.confirmed = s.nv.ledger.confirmed ∧ t.nv.ledger.exported = max s.nv.ledger.exported (s.nv.ledger.confirmed + es.length)) ∧
  (∀ (src : ReqSrc) (q : Req) (s : State), Serves src 0x60 s q → q.params.length = 12 → s.rt.mgrWindow = none →
    exec (.ledgerExport src) s = .next (refusedWith src q stAccessRefused s)) ∧
  (∀ (src : ReqSrc) (q : Req) (s : State), Serves src 0x61 s q → q.params.length = 8 →
    (s.nv.ledger.exported ≤ leAt q.params 0 8 → exec (.ledgerConfirm src) s = .next (refusedFor src q 0x47 s)) ∧
    (leAt q.params 0 8 < s.nv.ledger.exported → ∃ t, exec (.ledgerConfirm src) s = .next (replied src q stDone [] t) ∧
      t.nv.ledger.confirmed = max s.nv.ledger.confirmed (leAt q.params 0 8 + 1) ∧ t.nv.ledger.entries = s.nv.ledger.entries ∧
      t.nv.ledger.nextSeq = s.nv.ledger.nextSeq)) ∧
  (∀ (src : ReqSrc) (q : Req) (m : Bytes) (s : State), Serves src 0x20 s q → q.params.length = 8 → byteAt q.params 0 = 0 → byteAt q.params 1 < 2 →
    zeroAt q.params 2 2 = true → s.rt.held = some m →
    (leAt q.params 4 4 < m.length → exec (.mailboxAttest src) s = .next (replied src q stDone (statementPart m (leAt q.params 4 4)) s)) ∧
    (m.length ≤ leAt q.params 4 4 → exec (.mailboxAttest src) s = .next (refusedWith src q stMalformed s))) ∧
  (∀ (src : ReqSrc) (q : Req) (n : Nat) (rnd : Bytes) (rt : Rt) (s : State), Serves src 0x20 s q → byteAt q.params 0 = n → 8 ≤ n → n ≤ 64 →
    q.params.length = 8 + n → byteAt q.params 1 < 2 → zeroAt q.params 2 6 = true → seedOk s.otp = true → drawCd0 88 s.rt = .got rnd rt →
    cd0Sleeps rt = false → cd0Sleeps (replied src q stDone (statementPart (statement s (q.params.drop 8) none (byteAt q.params 1 == 1) rnd) 0)
      { s with rt := { rt with held := some (statement s (q.params.drop 8) none (byteAt q.params 1 == 1) rnd) } }).rt = false →
    exec (.mailboxAttest src) s = .next (replied src q stDone (statementPart (statement s (q.params.drop 8) none (byteAt q.params 1 == 1) rnd) 0)
      { s with rt := { rt with held := some (statement s (q.params.drop 8) none (byteAt q.params 1 == 1) rnd) } })) ∧
  (∀ (src : ReqSrc) (q : Req) (s : State), Serves src 0x40 s q → q.params = [] → ∃ res, exec (.lcStatus src) s = .next (replied src q stDone res s) ∧
    res.length = 21 ∧ leAt res 0 4 = s.otp.lcT.toNat ∧ leAt res 4 4 = s.otp.lcC.toNat ∧ res[16]? = some s.rt.boot.lcState ∧
    byteAt res 19 = b2n s.otp.lastBurnFail ∧ (s.rt.lc.pendingTarget = none → byteAt res 20 = 0xFF) ∧
    (s.rt.boot.lcState ≠ 0x06 → leAt res 17 2 = if s.otp.seed = 0 ∧ s.otp.seedCheck = 0 then 0xFFFF else 0xFFFE)) ∧
  (∀ (src : ReqSrc) (q : Req) (s : State), Serves src 0x80 s q → q.params.length = 1 → ledgerFull s.nv = false →
    (byteAt q.params 0 < 4 → ∃ t e, exec (.mintMode src) s = .next (replied src q stDone [] t) ∧ t.nv.mintFore0 = (byteAt q.params 0).testBit 0 ∧
      t.nv.mintFore1 = (byteAt q.params 0).testBit 1 ∧ t.nv.ledger.entries.getLast? = some e ∧ e.event = 0x0113 ∧ (RoomLeft s.nv → t.rt.mint0 = s.rt.mint0)) ∧
    (4 ≤ byteAt q.params 0 → exec (.mintMode src) s = .next (refusedWith src q stMalformed s))) ∧
  (∀ (src : ReqSrc) (q : Req) (h : Nat) (o : Nat × Nat) (s : State), Serves src 0x81 s q → q.params = [] → ledgerFull s.nv = false →
    (s.rt.twoKey = .opened h 0xFFFF o none → ∃ t e, exec (.cellService src) s = .next (replied src q stDone [] t) ∧ t.rt.window.isOpen = true ∧
      t.rt.window.endsAt = s.rt.now + 600000000000 ∧ t.rt.window.officers = o ∧ t.rt.twoKey = .closed ∧
      t.nv.ledger.entries.getLast? = some e ∧ e.event = 0x0106 ∧ e.house = h ∧ e.officer1 = o.1 ∧ e.officer2 = o.2) ∧
    (s.rt.twoKey = .closed → exec (.cellService src) s = .next (refusedWith src q stDualControl s)))

/-- A booth request taken past its bound fails with DEVICE_FAULT (R118). BOOTH_CREATE and BOOTH_MODIFY that pass the checks of Tables 6.7
and 6.8, a valid preset among them (R404), wait for their record in flash, the first with the lowest
free booth number; failed checks give their reasons. BOOTH_CLOSE in DRAIN mode waits while commands of the booth are left; with none
left the booth's entry and number go at an epoch of their own, with the ledger entry 010Ah. BOOTH_CLOSE_DRAIN_TIMEOUT aborts what
remains. RESET_BOOTH drops the booth's commands and restarts its rings (010Bh). ABORT counts what it aborts. PARTITION_SET stages a
map whose bindings hold, an empty one for shared mode (the four-byte bindings are the model's layout, log 12). -/
def Obligations.BoothRequests : Prop :=
  (∀ (src : ReqSrc) (q : Req) (s : State), isPast (dueOf src q s.rt) s.rt = true →
    (Serves src 0x10 s q → exec (.boothCreate src) s = .next (refusedWith src q stDeviceFault s)) ∧
    (Serves src 0x11 s q → exec (.boothModify src) s = .next (refusedWith src q stDeviceFault s)) ∧
    (Serves src 0x12 s q → q.params.length = 8 → exec (.boothClose src) s = .next (refusedWith src q stDeviceFault s)) ∧
    (Serves src 0x13 s q → q.params.length = 2 → exec (.resetBooth src) s = .next (refusedWith src q stDeviceFault s))) ∧
  (∀ (rt : Rt) (p : Bytes) (o : Nat), fieldOk rt p o 13 = true → (presetOf rt (boothFields p o).preset).valid = true) ∧
  (∀ (src : ReqSrc) (q : Req) (b : Nat) (s : State), Serves src 0x10 s q → isPast (dueOf src q s.rt) s.rt = false → ledgerFull s.nv = false → freeBooth s.rt = some b →
    createCheck s.rt q.params = none → ∃ t w, exec (.boothCreate src) s = .next t ∧ t.rt.waiting = some w ∧
      w.staged = some (.boothCreate b (boothFields q.params 0)) ∧ w.result = le 2 b ∧ w.code = 0x10 ∧ w.seq = q.seq ∧
      w.console = fromConsole src ∧ t.rt.booths = s.rt.booths ∧ t.nv = s.nv ∧ t.rt.mbx = s.rt.mbx) ∧
  (∀ (src : ReqSrc) (q : Req) (b : Nat) (s : State), Serves src 0x10 s q → isPast (dueOf src q s.rt) s.rt = false → ledgerFull s.nv = false → freeBooth s.rt = some b →
    let c := boothFields q.params 0
    (q.params.length ≠ 40 + 24 * byteAt q.params 38 ∨ 131072 < c.share ∨ c.sqLog2 < 6 ∨ 16 < c.cqLog2 ∨ c.sqIova % 4096 ≠ 0 ∨ c.vector = 0 →
      exec (.boothCreate src) s = .next (refusedWith src q stMalformed s)) ∧
    (q.params.length = 40 + 24 * byteAt q.params 38 → byteAt q.params 39 = 0 → (∀ i, i < 15 → fieldOk s.rt q.params 0 i = true) →
      ringsApart c = true → shareFits c = true →
      (houseRegistered s.rt c.house = false → exec (.boothCreate src) s = .next (refusedFor src q 0x43 s)) ∧
      (houseRegistered s.rt c.house = true →
        (∀ k x, boothOf s.rt k = some x → x.cfg.pasid = c.pasid → exec (.boothCreate src) s = .next (refusedFor src q 0x41 s)) ∧
        ((s.rt.booths.any fun kv => kv.2.cfg.pasid == c.pasid) = false → s.rt.booths.length < 4096 → 131072 < shareSum s.rt + c.share →
          exec (.boothCreate src) s = .next (refusedFor src q 0x40 s))))) ∧
  (∀ (src : ReqSrc) (q : Req) (x : Booth) (s : State), Serves src 0x11 s q → isPast (dueOf src q s.rt) s.rt = false → 44 ≤ q.params.length → boothOf s.rt (leAt q.params 0 2) = some x →
    let m := leAt q.params 2 2
    (m ≠ 0 → ledgerFull s.nv = false → modifyCheck s.rt x m q.params = none → ∃ t w, exec (.boothModify src) s = .next t ∧
      t.rt.waiting = some w ∧ w.staged = some (.boothModify (leAt q.params 0 2) (maskedCfg x.cfg m q.params) (m.testBit 14)) ∧
      t.rt.booths = s.rt.booths ∧ t.nv = s.nv) ∧
    (m.testBit 0 = true ∨ m.testBit 1 = true ∨ m.testBit 5 = true ∨ m.testBit 8 = true ∨ m.testBit 15 = true →
      exec (.boothModify src) s = .next (refusedWith src q stMalformed s))) ∧
  (∀ (src : ReqSrc) (q : Req) (s : State), Serves src 0x11 s q → isPast (dueOf src q s.rt) s.rt = false → 44 ≤ q.params.length → boothOf s.rt (leAt q.params 0 2) = none →
    exec (.boothModify src) s = .next (refusedFor src q 0x46 s)) ∧
  (∀ (old : BoothCfg) (m : Nat) (p : Bytes), (m.testBit 4 = false → (maskedCfg old m p).share = old.share) ∧
    (m.testBit 4 = true → (maskedCfg old m p).share = leAt p 12 4) ∧ (m.testBit 13 = true → (maskedCfg old m p).preset = byteAt p 41) ∧
    (maskedCfg old m p).pasid = old.pasid ∧ (maskedCfg old m p).sqIova = old.sqIova ∧ (maskedCfg old m p).house = old.house) ∧
  (∀ (src : ReqSrc) (q : Req) (b : Nat) (x : Booth) (s : State), Serves src 0x12 s q → isPast (dueOf src q s.rt) s.rt = false → q.params.length = 8 → leAt q.params 0 2 = b →
    byteAt q.params 2 = 0 → byteAt q.params 3 = 0 → 1 ≤ leAt q.params 4 4 → leAt q.params 4 4 ≤ 10000 → ledgerFull s.nv = false →
    boothOf s.rt b = some x → s.rt.net.conns = [] → s.rt.bundles = [] →
    ((s.rt.cmds.any fun kv => kv.2.booth == b) = true → ∃ t y w, exec (.boothClose src) s = .next t ∧ boothOf t.rt b = some y ∧
      y.closing = true ∧ y.cfg = x.cfg ∧ t.rt.waiting = some w ∧ w.booth = some b ∧ t.rt.cmds = s.rt.cmds ∧ t.nv = s.nv) ∧
    ((s.rt.cmds.any fun kv => kv.2.booth == b) = false → RoomLeft s.nv → ∃ t e, exec (.boothClose src) s = .next t ∧
      boothOf t.rt b = none ∧ kget t.nv.boothTable b = none ∧ t.rt.epoch = s.rt.epoch + 1 ∧ t.rt.waiting = none ∧
      t.nv.ledger.entries.getLast? = some e ∧ e.event = 0x010A ∧ e.booth = b ∧ e.house = x.cfg.house ∧ t.rt.cmds = s.rt.cmds ∧
      (∀ k, k ≠ b → boothOf t.rt k = boothOf s.rt k))) ∧
  (∀ (src : ReqSrc) (q : Req) (s : State), Serves src 0x12 s q → isPast (dueOf src q s.rt) s.rt = false → q.params.length = 8 →
    leAt q.params 4 4 = 0 ∨ 10000 < leAt q.params 4 4 ∨ 1 < byteAt q.params 2 → exec (.boothClose src) s = .next (refusedWith src q stMalformed s)) ∧
  (∀ (s : State), s.rt.waiting.bind Waiting.booth = none → exec .boothCloseDrainTimeout s = .next s) ∧
  (∀ (b : Nat) (id : CmdId) (c : Cmd) (s : State), s.rt.waiting.bind Waiting.booth = some b → s.rt.cmds = [(id, c)] → c.id = id → c.booth = b →
    c.bundle = none → c.stage = .admitted → ∃ t x, exec .boothCloseDrainTimeout s = .next t ∧ kget t.rt.cmds id = some x ∧ x.stage = .ended ∧
      x.status = stAborted ∧ x.desc = c.desc ∧ t.nv = s.nv) ∧
  (∀ (src : ReqSrc) (q : Req) (b : Nat) (x : Booth) (s : State), Serves src 0x13 s q → isPast (dueOf src q s.rt) s.rt = false → q.params = le 2 b → b < 4096 → boothOf s.rt b = some x →
    ledgerFull s.nv = false → s.rt.cmds = [] → s.rt.net.conns = [] → ∃ t y e, exec (.resetBooth src) s = .next (replied src q stDone [] t) ∧
      boothOf t.rt b = some y ∧ y.sqTail = 0 ∧ y.cqHead = 0 ∧ y.fetchHead = 0 ∧ y.cqTail = 0 ∧ y.phase = true ∧ y.cfg = x.cfg ∧
      t.nv.ledger.entries.getLast? = some e ∧ e.event = 0x010B ∧ e.booth = b ∧ t.rt.epoch = s.rt.epoch) ∧
  (∀ (src : ReqSrc) (q : Req) (s : State), Serves src 0x13 s q → isPast (dueOf src q s.rt) s.rt = false → q.params.length = 2 → boothOf s.rt (leAt q.params 0 2) = none →
    exec (.resetBooth src) s = .next (refusedFor src q 0x46 s)) ∧
  (∀ (src : ReqSrc) (q : Req) (id : CmdId) (c : Cmd) (b : Nat) (x : Booth) (s : State), Serves src 0x15 s q → q.params.length = 8 →
    leAt q.params 0 2 = b → zeroAt q.params 2 2 = true → boothOf s.rt b = some x → s.rt.cmds = [(id, c)] → c.id = id → c.booth = b → c.bundle = none →
    c.stage = .admitted →
    (c.desc.tag.toNat = leAt q.params 4 4 → ∃ t y, exec (.abort src) s = .next (replied src q stDone (le 4 1) t) ∧ kget t.rt.cmds id = some y ∧
      y.stage = .ended ∧ y.status = stAborted ∧ t.nv = s.nv) ∧
    (c.desc.tag.toNat ≠ leAt q.params 4 4 → exec (.abort src) s = .next (replied src q stDone (le 4 0) s))) ∧
  (∀ (src : ReqSrc) (q : Req) (s : State), Serves src 0x15 s q → q.params.length = 8 → zeroAt q.params 2 2 = true →
    boothOf s.rt (leAt q.params 0 2) = none → exec (.abort src) s = .next (refusedFor src q 0x46 s)) ∧
  (∀ (src : ReqSrc) (q : Req) (s : State), Serves src 0x16 s q → ledgerFull s.nv = false →
    (q.params = [] → ∃ t w, exec (.partitionSet src) s = .next t ∧ t.rt.waiting = some w ∧ w.staged = some (.partition none) ∧
      t.rt.disp = s.rt.disp ∧ t.nv = s.nv) ∧
    (q.params ≠ [] → q.params.length % 4 = 0 → unitsOk s.rt (bindings q.params) = true → mapOk s.rt (bindings q.params) = true →
      ∃ t w m, exec (.partitionSet src) s = .next t ∧ t.rt.waiting = some w ∧ w.staged = some (.partition (some m)) ∧
        m.rooms = unitMap (bindings q.params) 0 ∧ m.reckoners = unitMap (bindings q.params) 3 ∧ t.rt.disp = s.rt.disp ∧ t.nv = s.nv) ∧
    (q.params ≠ [] → q.params.length % 4 = 0 → unitsOk s.rt (bindings q.params) = true → mapOk s.rt (bindings q.params) = false →
      exec (.partitionSet src) s = .next (refusedFor src q 0x49 s)) ∧
    (q.params ≠ [] → q.params.length % 4 = 0 → unitsOk s.rt (bindings q.params) = false →
      exec (.partitionSet src) s = .next (refusedWith src q stMalformed s)))

/-- RESET_MODULE ends the commands, writes entry 0111h and resets the module. IMAGE_INSTALL writes the inactive copy, which the next
start takes (R74); a bad signature gives 45h. LIVE_UPDATE and PROG_LOAD wait for their records, PROG_REMOVE for its own. CLOCK_CONFIG
replaces the configuration of its operation; SET_TIME steps the time, but not while LOCKED. CLASSIFY, ALERT_WIDTH and DEFAULTS are
persisted, CLEAR_BRIDLE clears a record but for COUNT, and COUNT when VALID is already clear (R412). -/
def Obligations.ModuleRequests : Prop :=
  (∀ (src : ReqSrc) (q : Req) (s : State), Serves src 0x18 s q → q.params = [] → ledgerFull s.nv = false → ∃ t e,
    exec (.resetModule src) s = .next t ∧ t.rt.boot.stage = (if s.rt.boot.auxLow then 0x80 else 0x03) ∧ t.rt.boot.lastReset = 2 ∧ t.rt.cmds = [] ∧ t.rt.mgrWindow = none ∧
    t.rt.strong = Strong.reset ∧ t.nv.ledger.entries.getLast? = some e ∧ e.event = 0x0111 ∧ t.nv.slots = s.nv.slots ∧ t.otp = s.otp ∧ t.gon = s.gon) ∧
  (∀ (src : ReqSrc) (w : Bulk) (q : Req) (data : Bytes) (n : Nat) (s : State), Serves src 0x50 s q → q.params.length = 12 → byteAt q.params 0 = n →
    1 ≤ n → n ≤ 3 → zeroAt q.params 1 3 = true → ledgerFull s.nv = false → readBulk s.rt (leAt q.params 4 4) (leAt q.params 8 4) w = some data →
    (signatureOk data w = true → ∃ t e, exec (.imageInstall src w) s = .next (replied src q stDone [] t) ∧
      (imageOf t.nv n).activeB = (imageOf s.nv n).activeB ∧ (imageOf t.nv n).nextB = !(imageOf s.nv n).activeB ∧
      activeCopy (imageOf t.nv n) = activeCopy (imageOf s.nv n) ∧
      (if (imageOf s.nv n).activeB then (imageOf t.nv n).copyA else (imageOf t.nv n).copyB) = copyOf data w ∧
      t.nv.ledger.entries.getLast? = some e ∧ e.event = 0x0110 ∧ (RoomLeft s.nv → t.rt.boot = s.rt.boot)) ∧
    (signatureOk data w = false → exec (.imageInstall src w) s = .next (refusedFor src q 0x45 s))) ∧
  (∀ (src : ReqSrc) (w : Bulk) (q : Req) (s : State), Serves src 0x50 s q → q.params.length = 12 →
    (byteAt q.params 0 = 0 ∨ 3 < byteAt q.params 0 → exec (.imageInstall src w) s = .next (refusedWith src q stMalformed s)) ∧
    (1 ≤ byteAt q.params 0 → byteAt q.params 0 ≤ 3 → zeroAt q.params 1 3 = true → ledgerFull s.nv = false → s.rt.mgrWindow = none →
      exec (.imageInstall src w) s = .next (refusedWith src q stAccessRefused s))) ∧
  (∀ (src : ReqSrc) (w : Bulk) (q : Req) (data : Bytes) (s : State), Serves src 0x51 s q → q.params.length = 12 →
    byteAt q.params 0 < 8 ∨ byteAt q.params 0 = 0xFF → zeroAt q.params 1 3 = true → ledgerFull s.nv = false →
    readBulk s.rt (leAt q.params 4 4) (leAt q.params 8 4) w = some data →
    (signatureOk data w = true → ∃ t x, exec (.liveUpdate src w) s = .next t ∧ t.nv.stagedLib = some (copyOf data w) ∧ t.rt.waiting = some x ∧
      x.staged = some (.liveRoom (if byteAt q.params 0 = 0xFF then List.range 8 else [byteAt q.params 0]) (sha384 data) w.version) ∧
      t.nv.image3 = s.nv.image3 ∧ t.rt.epoch = s.rt.epoch) ∧
    (signatureOk data w = false → exec (.liveUpdate src w) s = .next (refusedFor src q 0x45 s))) ∧
  (∀ (src : ReqSrc) (w : Bulk) (q : Req) (data : Bytes) (k : Nat) (r : SlotRec) (s : State), Serves src 0x52 s q → q.params.length = 20 →
    leAt q.params 0 2 < 1024 → isHouseOp (leAt q.params 2 2) = true → ledgerFull s.nv = false → houseRegistered s.rt (leAt q.params 0 2) = true →
    resolve s.rt (leAt q.params 0 2) none s.rt.epoch true (BitVec.ofNat 64 (leAt q.params 12 8)) = .key k r →
    usable s.rt none s.rt.epoch k r (keyIs 0x29 [uOwn 6] [mV, mN]) = .key k r →
    readBulk s.rt (leAt q.params 4 4) (leAt q.params 8 4) w = some data →
    (signatureOk data w = false → exec (.progLoad src w) s = .next (refusedFor src q 0x45 s)) ∧
    (signatureOk data w = true → opcodesOk w.words w.words.length = true → windowWordsOk w.window = true → regionsFit s.rt w.window.length = true →
      (∀ base, codeSpace s.nv.progs w.words.length = some base → ∃ t x, exec (.progLoad src w) s = .next t ∧
        t.rt.waiting = some x ∧ x.staged = some (.progLoad (leAt q.params 0 2) (leAt q.params 2 2) base (sha384 data) (w.words) w.window) ∧
        t.nv = s.nv) ∧
      (codeSpace s.nv.progs w.words.length = none → exec (.progLoad src w) s = .next (refusedFor src q 0x47 s))) ∧
    (signatureOk data w = true → opcodesOk w.words w.words.length = false → ∃ t why, exec (.progLoad src w) s = .next (refusedFor src q why t) ∧ t.nv = s.nv ∧
      t.rt.freeCtr = s.rt.freeCtr + 1)) ∧
  (∀ (src : ReqSrc) (q : Req) (s : State), Serves src 0x53 s q → q.params.length = 4 → leAt q.params 0 2 < 1024 →
    isHouseOp (leAt q.params 2 2) = true → ledgerFull s.nv = false →
    ((s.nv.progs.any fun x => x.house == leAt q.params 0 2 && x.opcode == leAt q.params 2 2 && x.upto.isNone) = true → ∃ t x,
      exec (.progRemove src) s = .next t ∧ t.rt.waiting = some x ∧ x.staged = some (.progRemove (leAt q.params 0 2) (leAt q.params 2 2)) ∧ t.nv = s.nv) ∧
    (s.nv.progs = [] → ∃ t why, exec (.progRemove src) s = .next (refusedFor src q why t) ∧ t.nv = s.nv)) ∧
  (∀ (src : ReqSrc) (q : Req) (s : State), Serves src 0x22 s q → byteAt q.params 0 = 1 → q.params.length = 40 → zeroAt q.params 2 2 = true →
    leAt q.params 12 4 ≤ 65535 →
    (byteAt q.params 1 = 0 ∨ byteAt q.params 1 = 2 → ∃ t, exec (.clockSource src) s = .next (replied src q stDone [] t) ∧
      t.nv.clockCfg.source = byteAt q.params 1 ∧ t.nv.clockCfg.maxStepMs = leAt q.params 4 4 ∧ t.nv.clockCfg.holdLimit = leAt q.params 8 4 ∧
      t.nv.clockCfg.squelch = s.nv.clockCfg.squelch ∧ t.rt.clock.goodRun = 0 ∧ t.rt.clock.sec = s.rt.clock.sec ∧ t.rt.clock.st = s.rt.clock.st) ∧
    (byteAt q.params 1 = 3 → s.rt.peer.mode = true → exec (.clockSource src) s = .next (refusedWith src q stStateRefused s)) ∧
    (3 < byteAt q.params 1 → exec (.clockSource src) s = .next (refusedWith src q stMalformed s)) ∧
    exec (.clockPtp src) s = .next s) ∧
  (∀ (src : ReqSrc) (q : Req) (s : State), Serves src 0x22 s q → byteAt q.params 0 = 2 → q.params.length = 6 → byteAt q.params 1 ≤ 127 →
    byteAt q.params 2 ∈ [0, 1, 255] → byteAt q.params 3 ≤ 3 → ∃ t, exec (.clockPtp src) s = .next (replied src q stDone [] t) ∧
      t.nv.clockCfg.domain = byteAt q.params 1 ∧ t.nv.clockCfg.logAnnounce = byteAt q.params 3 ∧ t.nv.clockCfg.prio1 = byteAt q.params 4 ∧
      t.nv.clockCfg.prio2 = byteAt q.params 5 ∧ t.nv.clockCfg.source = s.nv.clockCfg.source ∧ t.rt = s.rt) ∧
  (∀ (src : ReqSrc) (q : Req) (s : State), Serves src 0x22 s q → byteAt q.params 0 = 3 → q.params.length = 2 →
    (byteAt q.params 1 ≤ 1 → ∃ t, exec (.clockPps src) s = .next (replied src q stDone [] t) ∧ t.nv.clockCfg.squelch = (byteAt q.params 1 == 1) ∧
      t.nv.clockCfg.source = s.nv.clockCfg.source ∧ t.rt = s.rt) ∧
    (1 < byteAt q.params 1 → exec (.clockPps src) s = .next (refusedWith src q stMalformed s))) ∧
  (∀ (src : ReqSrc) (q : Req) (s : State), Serves src 0x22 s q → byteAt q.params 0 = 4 → q.params.length = 26 → zeroAt q.params 1 7 = true →
    leAt q.params 8 8 < 2 ^ 48 → leAt q.params 16 4 < 1000000000 →
    (s.rt.clock.st ≠ .locked → ∃ t, exec (.setTime src) s = .next (replied src q stDone [] t) ∧ t.rt.clock.sec = leAt q.params 8 8 ∧
      t.rt.clock.ns = leAt q.params 16 4 ∧ t.rt.clock.uncertainty = leAt q.params 20 4 ∧ t.rt.clock.utcOffset = leAt q.params 24 2 ∧
      t.rt.clock.st = .set ∧ t.rt.clock.clockClass = 248 ∧ t.rt.clock.stepCount = min (s.rt.clock.stepCount + 1) 0xFFFF ∧
      t.nv.align.length = s.nv.align.length + 1) ∧
    (s.rt.clock.st = .locked → exec (.setTime src) s = .next (refusedWith src q stStateRefused s))) ∧
  (∀ (src : ReqSrc) (q : Req) (f : FaultSource) (c : Classif) (s : State), Serves src 0x82 s q → byteAt q.params 0 = 1 → q.params.length = 13 →
    byteAt q.params 1 = 0 → byteAt q.params 7 = 0 → byteAt q.params 12 = 0 → f ≠ .mintSource → f ∈ allSources → faultCode f = leAt q.params 2 2 →
    classifOfBytes q.params = some c →
    (isFixed false f = false → ∃ t, exec (.classify src) s = .next (replied src q stDone [] t) ∧
      { source := f, die := none, classif := c } ∈ t.nv.classes ∧ (∀ e ∈ t.nv.classes, e.source = f → e.die = none → e.classif = c) ∧
      (∀ e, e.source ≠ f → (e ∈ t.nv.classes ↔ e ∈ s.nv.classes)) ∧ t.rt = s.rt) ∧
    (isFixed false f = true → exec (.classify src) s = .next (refusedWith src q stMalformed s))) ∧
  (∀ (src : ReqSrc) (q : Req) (s : State), Serves src 0x82 s q → byteAt q.params 0 = 2 → q.params.length = 9 → zeroAt q.params 1 3 = true → ∃ t,
    exec (.clearBridle src) s = .next (replied src q stDone [] t) ∧ t.rt.bridles.tables = s.rt.bridles.tables ∧ t.nv = s.nv ∧
    (∀ b, 40 ≤ b ∨ (leAt q.params 4 5).testBit b = false → kget t.rt.bridles.recs b = kget s.rt.bridles.recs b) ∧
    (∀ b v, b < 40 → (leAt q.params 4 5).testBit b = true → kget s.rt.bridles.recs b = some v →
      kgetD t.rt.bridles.recs b VRec.zero = if v.valid then { VRec.zero with count := v.count } else VRec.zero)) ∧
  (∀ (src : ReqSrc) (q : Req) (s : State), Serves src 0x82 s q → byteAt q.params 0 = 3 → q.params.length = 3 → byteAt q.params 1 = 0 →
    (1 ≤ byteAt q.params 2 ∧ byteAt q.params 2 ≤ 100 → ∃ t, exec (.alertWidth src) s = .next (replied src q stDone [] t) ∧
      t.nv.minWidth = byteAt q.params 2 ∧ t.rt.alert.minWidth = byteAt q.params 2 ∧ t.rt.fault = s.rt.fault) ∧
    (byteAt q.params 2 = 0 ∨ 100 < byteAt q.params 2 → exec (.alertWidth src) s = .next (refusedWith src q stMalformed s))) ∧
  (∀ (src : ReqSrc) (q : Req) (s : State), Serves src 0x82 s q → byteAt q.params 0 = 4 → q.params.length = 4 → zeroAt q.params 1 3 = true → ∃ t,
    exec (.defaults src) s = .next (replied src q stDone [] t) ∧ t.nv.classes = [] ∧ t.rt = s.rt)

/-- LC_NONCE issues the one nonce that the module holds. LC_TRANSITION serves the rows of Table 5.4 alone, in their authorisation mode,
once per nonce (reason 44h), writing a progress mark or the pending register, entry 0100h and, where the row erases, the end of service.
DEBUG_UNLOCK opens JTAG in PROVISIONED. HOUSE_REGISTER, OFFICER_ADD, OFFICER_REMOVE and HOUSE_REMOVE make the bundle of one that changes
the house's reserved tile, under the latch, which closes. LATCH_OPEN, LATCH_SIGN and LATCH_CLOSE lead the two-key latch. KEY_ENTER waits
for PINs and components; COMMISSION for root, master key and, in SEALED, the PINs; in tamper halt it founds the module anew. -/
def Obligations.OfficerRequests : Prop :=
  (∀ (src : ReqSrc) (q : Req) (s : State), Serves src 0x41 s q → q.params = [] →
    (s.rt.mint0.exhausted = true → exec (.lcNonce src) s = .next (refusedWith src q stRngUnavailable s)) ∧
    (∀ b rt, drawCd0 32 s.rt = .got b rt → ∃ t, exec (.lcNonce src) s = .next t ∧ t.rt.lc.nonce = some b ∧ t.nv = s.nv ∧ t.otp = s.otp ∧
      (src = .mailbox → t.rt.mbx.done = true ∧ t.rt.mbx.resp.drop 16 = b))) ∧
  (∀ (lc : BitVec 8) (target : Nat) (row : TransRow), transRow lc target = some row →
    (lc = 0x04 → row = { mode := if target = 5 then 3 else 0, mark := true, erase := true } ∧ (target = 5 ∨ target = 6)) ∧
    (lc = 0x03 → row = { mode := if target = 5 then 2 else 1, mark := true, erase := true } ∧ (target = 5 ∨ target = 6)) ∧
    (lc = 0x02 → row = { mode := 1, mark := false, erase := false } ∧ (target = 3 ∨ target = 6)) ∧ lc ≠ 0x06) ∧
  (∀ (src : ReqSrc) (p : Pulses) (q : Req) (s : State), Serves src 0x42 s q → q.params.length = 324 →
    (transRow s.rt.boot.lcState (byteAt q.params 0) = none → exec (.lcTransition ⟨src, p⟩) s = .next (refusedWith src q stStateRefused s)) ∧
    (∀ row, transRow s.rt.boot.lcState (byteAt q.params 0) = some row →
      (transPending s = true → exec (.lcTransition ⟨src, p⟩) s = .next (refusedWith src q stStateRefused s)) ∧
      (transPending s = false → byteAt q.params 1 = row.mode → zeroAt q.params 2 2 = true → unusedZero row.mode q.params = true →
        transCond s (byteAt q.params 0) = true → ledgerFull s.nv = false →
        (byLatch row.mode = true → latchFor s.rt 0 0xFFFF none = false → exec (.lcTransition ⟨src, p⟩) s = .next (refusedWith src q stDualControl s)) ∧
        ((byLatch row.mode = true → latchFor s.rt 0 0xFFFF none = true) → needCd0 s.rt = .got [] s.rt →
        (s.rt.lc.nonce ≠ some (slice q.params 4 32) → exec (.lcTransition ⟨src, p⟩) s = .next (onRt restCd0 (refusedFor src q 0x44 s))) ∧
        (s.rt.lc.nonce = some (slice q.params 4 32) → transSigners s.otp row.mode (byteAt q.params 0) q.params = none → ∃ t,
          exec (.lcTransition ⟨src, p⟩) s = .next (onRt restCd0 (refusedFor src q 0x44 t)) ∧ t.rt.lc.nonce = none ∧ t.nv = s.nv ∧ t.otp = s.otp) ∧
        (∀ keys, s.rt.lc.nonce = some (slice q.params 4 32) → transSigners s.otp row.mode (byteAt q.params 0) q.params = some keys →
          (row.mark = false → ∃ t e, exec (.lcTransition ⟨src, p⟩) s = .next t ∧ t.rt.lc.nonce = none ∧
            t.rt.lc.pendingTarget = some (BitVec.ofNat 8 (byteAt q.params 0)) ∧ t.rt.lc.accepted = t.rt.lc.pendingTarget ∧ t.otp = s.otp ∧
            t.rt.boot.erasing = row.erase ∧ t.nv.ledger.entries.getLast? = some e ∧ e.event = 0x0100) ∧
          (∀ k, row.mark = true → s.rt.boot.stage ≠ 0x84 → unusedSlot s.otp = some k → let f := markFuses k (byteAt q.params 0)
            (p.cut = none → (∀ x ∈ f, x ∉ p.weak) → ∃ t e, exec (.lcTransition ⟨src, p⟩) s = .next t ∧
              (markSlots t.otp).getD k 0 = BitVec.ofNat 16 (byteAt q.params 0 + 16 * (15 - byteAt q.params 0)) ∧
              openSlot t.otp = some (k, byteAt q.params 0) ∧ t.otp.lcT = s.otp.lcT ∧ t.otp.lcC = s.otp.lcC ∧
              t.rt.lc.pendingTarget = s.rt.lc.pendingTarget ∧ t.rt.lc.eraseDue = true ∧ t.rt.boot.erasing = true ∧
              t.nv.ledger.entries.getLast? = some e ∧ e.event = 0x0100 ∧ (byLatch row.mode = true → t.rt.twoKey = .closed)) ∧
            (∀ x, p.cut = none → f.head? = some x → x ∈ p.weak → ∃ t, exec (.lcTransition ⟨src, p⟩) s = .next t ∧ t.otp = { s.otp with lastBurnFail := true } ∧
              t.nv.ledger.entries = s.nv.ledger.entries ∧ t.rt.lc.accepted = s.rt.lc.accepted) ∧
            (p.cut = some (0, none) → powered s.rt = true → ∃ t, exec (.lcTransition ⟨src, p⟩) s = .next t ∧ t.otp = s.otp ∧ mainPower t.rt = false ∧
              t.nv.ledger.entries = s.nv.ledger.entries ∧ t.rt.out = s.rt.out))))))) ∧
  (∀ (src : ReqSrc) (q : Req) (s : State), Serves src 0x43 s q → q.params.length = 128 → ledgerFull s.nv = false →
    (s.rt.boot.lcState ≠ 0x02 → exec (.debugUnlock src) s = .next (refusedWith src q stStateRefused s)) ∧
    (s.rt.boot.lcState = 0x02 → s.rt.lc.nonce = some (slice q.params 0 32) →
      needCd0 s.rt = .got [] s.rt → romSigned Config.debugKey (signedBytes s.otp 2 (slice q.params 0 32)) (slice q.params 32 96) = true → ∃ t e,
      exec (.debugUnlock src) s = .next (onRt restCd0 (replied src q stDone [] t)) ∧ t.rt.lc.jtagOpen = true ∧ t.rt.lc.nonce = none ∧
      t.nv.ledger.entries.getLast? = some e ∧ e.event = 0x0101) ∧
    (s.rt.boot.lcState = 0x02 → s.rt.lc.nonce = none → needCd0 s.rt = .got [] s.rt → exec (.debugUnlock src) s = .next (onRt restCd0 (refusedFor src q 0x44 s)))) ∧
  (∀ (src : ReqSrc) (q : Req) (h n first : Nat) (a b : CardState) (s : State), Serves src 0x30 s q → q.params.length = 12 → leAt q.params 0 2 = h →
    h < 1024 → zeroAt q.params 2 2 = true → leAt q.params 4 4 = n → 1 ≤ n → n % 64 = 0 → identOk (leAt q.params 8 2) = true →
    identOk (leAt q.params 10 2) = true → leAt q.params 8 2 ≠ leAt q.params 10 2 → identUsed s.rt (leAt q.params 8 2) = false →
    identUsed s.rt (leAt q.params 10 2) = false → houseRegistered s.rt h = false → s.rt.cardA = some a → s.rt.cardB = some b →
    a.card.blocked = false → b.card.blocked = false → ledgerFull s.nv = false → latchFor s.rt 0 0xFFFF none = true →
    lowestRange (houseRanges s.rt) n = some first → (∀ i, i < 4 → (slotIn s.rt none (8 * h + i)).kind = 0) → s.rt.bundles = [] → s.nv.journal = [] →
    (∀ key rt, takeDelivered 0 userMasterKey s.rt = some (key, rt) → ∃ t w x, exec (.houseRegister src) s = .next t ∧ t.rt.waiting = some w ∧
      w.bundle = some s.rt.disp.nextBundle ∧ kget t.rt.bundles s.rt.disp.nextBundle = some x ∧ x.closed = true ∧ x.single = true ∧
      (∀ k, (∃ c ∈ x.changes, c.slot = k) ↔ (8 * h ≤ k ∧ k < 8 * h + 4)) ∧
      (∃ c ∈ x.changes, c.slot = 8 * h ∧ c.after.cls = 1 ∧ c.after.mat = key ∧ c.after.house = h) ∧ w.result.length = 8 ∧
      t.rt.twoKey = .closed ∧ t.nv = s.nv ∧ t.rt.strong.slots = s.rt.strong.slots) ∧
    (takeDelivered 0 userMasterKey s.rt = none → s.rt.mint0.exhausted = false →
      exec (.houseRegister src) s = .next (onRt (askKeyGrade 0 userMasterKey 32) s))) ∧
  (∀ (src : ReqSrc) (q : Req) (s : State), Serves src 0x30 s q → q.params.length = 12 → zeroAt q.params 2 2 = true → leAt q.params 0 2 < 1024 →
    1 ≤ leAt q.params 4 4 → identOk (leAt q.params 8 2) = true → identOk (leAt q.params 10 2) = true →
    (leAt q.params 4 4 % 64 ≠ 0 → exec (.houseRegister src) s = .next (refusedWith src q stMalformed s)) ∧
    (leAt q.params 4 4 % 64 = 0 → houseRegistered s.rt (leAt q.params 0 2) = true → exec (.houseRegister src) s = .next (refusedFor src q 0x43 s)) ∧
    (leAt q.params 4 4 % 64 = 0 → houseRegistered s.rt (leAt q.params 0 2) = false → leAt q.params 8 2 = leAt q.params 10 2 →
      exec (.houseRegister src) s = .next (refusedFor src q 0x19 s))) ∧
  (∀ (src : ReqSrc) (q : Req) (h : Nat) (s : State), Serves src 0x31 s q → q.params.length = 2 → leAt q.params 0 2 = h → h < 1024 →
    houseRegistered s.rt h = true →
    (h = 0 → exec (.houseRemove src) s = .next (refusedFor src q 0x17 s)) ∧
    (∀ b x, boothOf s.rt b = some x → x.cfg.house = h → exec (.houseRemove src) s = .next (refusedFor src q 0x17 s)) ∧
    (1 ≤ h → (s.rt.booths.any fun kv => kv.2.cfg.house == h) = false →
      (s.rt.strong.slots.any fun kv => decide (8192 ≤ kv.1) && isOccupied kv.2 && kv.2.house == h) = false → ledgerFull s.nv = false →
      s.rt.bundles = [] → s.nv.journal = [] →
      (latchFor s.rt 0 0xFFFF none = false → exec (.houseRemove src) s = .next (refusedWith src q stDualControl s)) ∧
      (latchFor s.rt 0 0xFFFF none = true → ∃ t w x, exec (.houseRemove src) s = .next t ∧ t.rt.waiting = some w ∧
        w.bundle = some s.rt.disp.nextBundle ∧ kget t.rt.bundles s.rt.disp.nextBundle = some x ∧
        (∀ k, (∃ c ∈ x.changes, c.slot = k) ↔ (8 * h ≤ k ∧ k < 8 * h + 8 ∧ isOccupied (slotIn s.rt none k) = true)) ∧
        (∀ c ∈ x.changes, isOccupied c.after = false) ∧ t.rt.twoKey = .closed ∧ t.nv = s.nv))) ∧
  (∀ (src : ReqSrc) (q : Req) (h n i : Nat) (x : CardState) (s : State), Serves src 0x32 s q → q.params.length = 5 → leAt q.params 0 2 = h → h < 1024 →
    leAt q.params 2 2 = n → identOk n = true → byteAt q.params 4 ≤ 1 → houseRegistered s.rt h = true →
    (identUsed s.rt n = true → exec (.officerAdd src) s = .next (refusedFor src q 0x19 s)) ∧
    (identUsed s.rt n = false → (∀ k, 2 ≤ k → k < 8 → (slotIn s.rt none (8 * h + k)).kind ≠ 0) →
      exec (.officerAdd src) s = .next (refusedFor src q 0x47 s)) ∧
    (identUsed s.rt n = false → 2 ≤ i → i < 8 → (slotIn s.rt none (8 * h + i)).kind = 0 →
      (∀ k, 2 ≤ k → k < i → (slotIn s.rt none (8 * h + k)).kind ≠ 0) → cardOf s.rt (byteAt q.params 4) = some x → x.card.blocked = false →
      ledgerFull s.nv = false → latchFor s.rt h 0xFFFF none = true → s.rt.bundles = [] → s.nv.journal = [] → ∃ t w y,
      exec (.officerAdd src) s = .next t ∧ t.rt.waiting = some w ∧ w.bundle = some s.rt.disp.nextBundle ∧
      kget t.rt.bundles s.rt.disp.nextBundle = some y ∧ y.changes.map SlotChange.slot = [8 * h + i, 8 * h + 1] ∧
      (∃ c ∈ y.changes, c.slot = 8 * h + i ∧ leAt c.after.mat 0 2 = n ∧ slice c.after.mat 4 8 = cardSerial x.card ∧ c.after.cls = 2) ∧
      t.rt.twoKey = .closed ∧ t.nv = s.nv)) ∧
  (∀ (src : ReqSrc) (q : Req) (h n : Nat) (o : Officer) (s : State), Serves src 0x33 s q → q.params.length = 4 → leAt q.params 0 2 = h → h < 1024 →
    leAt q.params 2 2 = n → identOk n = true → houseRegistered s.rt h = true →
    (((houseOfficers s.rt h).find? fun o => o.ident == n) = none → exec (.officerRemove src) s = .next (refusedFor src q 0x1A s)) ∧
    (((houseOfficers s.rt h).find? fun o => o.ident == n) = some o → o.active = true →
      (((houseOfficers s.rt h).filter Officer.active).length ≤ 2 → exec (.officerRemove src) s = .next (refusedFor src q 0x18 s)) ∧
      (3 ≤ ((houseOfficers s.rt h).filter Officer.active).length → ledgerFull s.nv = false → latchFor s.rt h 0xFFFF none = true →
        s.rt.bundles = [] → s.nv.journal = [] → ∃ t w y, exec (.officerRemove src) s = .next t ∧ t.rt.waiting = some w ∧
        w.bundle = some s.rt.disp.nextBundle ∧ kget t.rt.bundles s.rt.disp.nextBundle = some y ∧
        y.changes.map SlotChange.slot = [o.slot, 8 * h + 1] ∧ (∃ c ∈ y.changes, c.slot = o.slot ∧ isOccupied c.after = false ∧ c.policy = true) ∧
        t.rt.twoKey = .closed ∧ t.nv = s.nv))) ∧
  (∀ (src : ReqSrc) (q : Req) (h : Nat) (s : State), Serves src 0x34 s q → q.params.length = 4 → leAt q.params 0 2 = h → h < 1024 →
    leAt q.params 2 2 = 0xFFFF → ledgerFull s.nv = false →
    (s.rt.twoKey ≠ .closed → exec (.latchOpen src) s = .next (refusedWith src q stStateRefused s)) ∧
    (s.rt.twoKey = .closed → houseRegistered s.rt h = false → exec (.latchOpen src) s = .next (refusedFor src q 0x43 s)) ∧
    (∀ c rt, s.rt.twoKey = .closed → houseRegistered s.rt h = true → drawCd0 32 s.rt = .got c rt →
      exec (.latchOpen src) s = .next (replied src q stDone c { s with rt := { rt with twoKey := .attempt c h 0xFFFF none } }))) ∧
  (∀ (src : ReqSrc) (q : Req) (c : Bytes) (h b : Nat) (o : Officer) (s : State), Serves src 0x35 s q → q.params.length = 100 →
    zeroAt q.params 2 2 = true → ledgerFull s.nv = false →
    (∀ f, s.rt.twoKey = .attempt c h b f → ((houseOfficers s.rt h).find? fun o => o.active && o.ident == leAt q.params 0 2 &&
      officerSigned o (latchMessage s.otp c h b) (slice q.params 4 96)) = none → ∃ t e, exec (.latchSign src) s = .next (refusedFor src q 0x48 t) ∧
      t.rt.twoKey = .closed ∧ t.nv.ledger.entries.getLast? = some e ∧ e.event = 0x0012 ∧ e.house = h) ∧
    (((houseOfficers s.rt h).find? fun o => o.active && o.ident == leAt q.params 0 2 &&
      officerSigned o (latchMessage s.otp c h b) (slice q.params 4 96)) = some o →
      (s.rt.twoKey = .attempt c h b none → ∃ t, exec (.latchSign src) s = .next (replied src q stDone [0] t) ∧
        t.rt.twoKey = .attempt c h b (some (o.ident, o.serial)) ∧ t.nv = s.nv) ∧
      (∀ i z, s.rt.twoKey = .attempt c h b (some (i, z)) → i ≠ o.ident → z ≠ o.serial → ∃ t e,
        exec (.latchSign src) s = .next (replied src q stDone [1] t) ∧ t.rt.twoKey = .opened h b (i, o.ident) none ∧
        t.nv.ledger.entries.getLast? = some e ∧ e.event = 0x0010 ∧ e.officer1 = i ∧ e.officer2 = o.ident) ∧
      (∀ z, s.rt.twoKey = .attempt c h b (some (o.ident, z)) → ∃ t, exec (.latchSign src) s = .next (refusedFor src q 0x48 t) ∧
        t.rt.twoKey = .closed)) ∧
    (s.rt.twoKey = .closed → exec (.latchSign src) s = .next (refusedWith src q stStateRefused s))) ∧
  (∀ (src : ReqSrc) (q : Req) (s : State), Serves src 0x36 s q → q.params = [] → ledgerFull s.nv = false →
    (s.rt.twoKey = .closed → exec (.latchClose src) s = .next (replied src q stDone [] s)) ∧
    (∀ h b o, s.rt.twoKey = .opened h b o none → ∃ t e, exec (.latchClose src) s = .next (replied src q stDone [] t) ∧ t.rt.twoKey = .closed ∧
      t.nv.ledger.entries.getLast? = some e ∧ e.event = 0x0011 ∧ e.house = h ∧ e.officer1 = o.1 ∧ e.officer2 = o.2)) ∧
  (∀ (src : ReqSrc) (q : Req) (h ps : Nat) (pr : SlotRec) (s : State), Serves src 0x37 s q → keyEnterForm (fromConsole src) q.params = true →
    leAt q.params 0 2 = h → clearKind (attrsOf (slice q.params 10 8)) = true → attrsOk (attrsOf (slice q.params 10 8)) = true →
    (∀ k ∈ cardSlots q.params, ∃ x, cardOf s.rt k.val = some x ∧ x.card.blocked = false) → ledgerFull s.nv = false →
    (latchFor s.rt h 0xFFFF none = false → exec (.keyEnter src) s = .next (refusedWith src q stDualControl s)) ∧
    (latchFor s.rt h 0xFFFF none = true → findParent s.rt h (BitVec.ofNat 64 (leAt q.params 2 8)) = .key ps pr →
      (levelFits s.rt none s.rt.epoch pr = false → exec (.keyEnter src) s = .next (refusedFor src q 0x13 s)) ∧
      (levelFits s.rt none s.rt.epoch pr = true → ((components q.params).map Component.officer).Nodup →
        (∀ x ∈ components q.params, ∃ o, ((houseOfficers s.rt h).find? fun o => o.active && o.ident == x.officer) = some o ∧
          (x.source = 2 ∨ ∃ k, cardOf s.rt x.source = some k ∧ cardSerial k.card = o.serial)) → ∃ t c,
        exec (.keyEnter src) s = .next t ∧ t.rt.ceremony = some c ∧ c.params = q.params ∧ c.pins = cardSlots q.params ∧ c.got = [] ∧
        c.officers = latchOfficers s.rt ∧ t.rt.twoKey = .closed ∧ t.nv = s.nv ∧ t.rt.strong = s.rt.strong))) ∧
  (∀ (src : ReqSrc) (q : Req) (a b : CardState) (s : State), Serves src 0x38 s q → q.params.length = 4 → identOk (leAt q.params 0 2) = true →
    identOk (leAt q.params 2 2) = true →
    (leAt q.params 0 2 = leAt q.params 2 2 → exec (.commission src) s = .next (refusedFor src q 0x19 s)) ∧
    (leAt q.params 0 2 ≠ leAt q.params 2 2 → inTamperHalt s.rt = true → recommissionOk s = false →
      exec (.commission src) s = .next (refusedWith src q stStateRefused s)) ∧
    (leAt q.params 0 2 ≠ leAt q.params 2 2 → transPending s = false → ledgerFull s.nv = false → s.rt.cardA = some a → s.rt.cardB = some b →
      a.card.blocked = false → b.card.blocked = false → s.rt.mint0.exhausted = false → s.rt.mint0.seeded = true →
      (s.rt.boot.lcState = 0x03 → inTamperHalt s.rt = false → (unusedSlot s.otp).isSome = true → kget s.rt.mint0.delivered userRoot = none →
        kget s.rt.mint0.delivered userMasterKey = none → exec (.commission src) s =
          .next (onRt (fun rt => askKeyGrade 0 userMasterKey 32 (askKeyGrade 0 userRoot 32 rt)) s)) ∧
      (∀ root key, kget s.rt.mint0.delivered userRoot = some root → kget s.rt.mint0.delivered userMasterKey = some key →
        (s.rt.boot.lcState = 0x03 → inTamperHalt s.rt = false → (unusedSlot s.otp).isSome = true → ∃ t c, exec (.commission src) s = .next t ∧
          t.rt.ceremony = some c ∧ c.pins = [0, 1] ∧ c.cards = [a.card, b.card] ∧ c.code = 0x38 ∧ t.nv = s.nv ∧ t.gon = s.gon ∧ t.otp = s.otp) ∧
        (s.rt.boot.lcState = 0x04 → inTamperHalt s.rt = true → recommissionOk s = true → ∃ t r e, exec (.commission src) s = .next t ∧
          t.gon.root = BitVec.ofNat 256 (ofLe root) ∧ t.gon.rootCheck = BitVec.ofNat 32 (crc32c root) ∧ t.gon.tamperFlag = false ∧
          t.gon.latched = [] ∧ t.rt.boot.stage = 0x03 ∧ t.nv.journal = [r] ∧ r.marked = true ∧ t.nv.slots = [] ∧ t.nv.boothTable = [] ∧
          t.nv.ledger.entries.getLast? = some e ∧ e.event = 0x0112 ∧ e.officer1 = leAt q.params 0 2 ∧ e.officer2 = leAt q.params 2 2 ∧
          t.otp = s.otp))))

/-- NET_ADDR writes one of the sixteen addresses of a port and gives its gateway to the addresses of its family there. NET_LISTEN waits for
its record: a new entry for an open booth whose server key serves, with the digests that it takes off the list, or a removal.
PEER_CONFIG, PEER_PAIR, PEER_UNPAIR and PEER_RESYNC need the operator house's latch, which closes; the first takes effect at the next
reset (R152), the others leave entries 0102h, 0103h and 0105h; a TARGET refuses commands until the copy ends, a SOURCE owes the copy
and sends it on a resynchronisation while the link is up (R171, R177). -/
def Obligations.NetPeerRequests : Prop :=
  (∀ (src : ReqSrc) (q : Req) (s : State), Serves src 0x70 s q → q.params.length = 40 → byteAt q.params 0 ≤ 1 → byteAt q.params 1 ≤ 15 →
    (byteAt q.params 2 = 4 ∧ byteAt q.params 3 ≤ 32) ∨ (byteAt q.params 2 = 6 ∧ byteAt q.params 3 ≤ 128) →
    leAt q.params 4 2 ≤ 4094 ∨ leAt q.params 4 2 = 0xFFFF → 1280 ≤ leAt q.params 6 2 → leAt q.params 6 2 ≤ 9000 →
    let k := 16 * byteAt q.params 0 + byteAt q.params 1
    ∃ t a, exec (.netAddr src) s = .next (replied src q stDone [] t) ∧ kget t.nv.addrs k = some a ∧ a.addr = slice q.params 8 16 ∧
      a.gateway = slice q.params 24 16 ∧ a.family = byteAt q.params 2 ∧ a.prefixLen = byteAt q.params 3 ∧ a.vlan = leAt q.params 4 2 ∧
      a.mtu = leAt q.params 6 2 ∧ t.rt = s.rt ∧
      (∀ j x, j ≠ k → kget s.nv.addrs j = some x → ∃ y, kget t.nv.addrs j = some y ∧ y.addr = x.addr ∧ y.mtu = x.mtu ∧ y.vlan = x.vlan ∧
        y.gateway = if j / 16 = byteAt q.params 0 ∧ x.family = byteAt q.params 2 then a.gateway else x.gateway)) ∧
  (∀ (src : ReqSrc) (q : Req) (s : State), Serves src 0x70 s q → q.params.length = 40 → 1 < byteAt q.params 0 ∨ 15 < byteAt q.params 1 ∨
    leAt q.params 6 2 < 1280 ∨ 9000 < leAt q.params 6 2 → exec (.netAddr src) s = .next (refusedWith src q stMalformed s)) ∧
  (∀ (src : ReqSrc) (w : Bulk) (q : Req) (s : State), Serves src 0x71 s q → q.params.length = 32 → leAt q.params 0 2 < 1024 →
    byteAt q.params 2 ≤ 1 → byteAt q.params 3 ≤ 15 → leAt q.params 16 4 ≤ 3600 → byteAt q.params 24 < 2 → zeroAt q.params 26 2 = true →
    byteAt q.params 20 < 4 → byteAt q.params 21 < 16 → byteAt q.params 22 < 32 → byteAt q.params 23 = 0 →
    (byteAt q.params 25 = 1 → kget s.nv.listeners (leAt q.params 0 2) = none → exec (.netListen src w) s = .next (replied src q stDone [] s)) ∧
    (∀ old, byteAt q.params 25 = 1 → kget s.nv.listeners (leAt q.params 0 2) = some old → ∃ t x, exec (.netListen src w) s = .next t ∧
      t.rt.waiting = some x ∧ x.staged = some (.listener (leAt q.params 0 2) { old with removing := true } []) ∧ t.nv = s.nv) ∧
    (byteAt q.params 25 = 0 → boothOf s.rt (leAt q.params 6 2) = none → exec (.netListen src w) s = .next (refusedFor src q 0x46 s)) ∧
    (∀ b st, byteAt q.params 25 = 0 → boothOf s.rt (leAt q.params 6 2) = some b →
      serverKey s.rt s.rt.epoch b.cfg.house (BitVec.ofNat 64 (leAt q.params 8 8)) = .no st →
      exec (.netListen src w) s = .next (refusedWith src q stUsageRefused s)) ∧
    (∀ b k r data, byteAt q.params 25 = 0 → boothOf s.rt (leAt q.params 6 2) = some b →
      serverKey s.rt s.rt.epoch b.cfg.house (BitVec.ofNat 64 (leAt q.params 8 8)) = .key k r → readBulk s.rt (leAt q.params 28 4) 0 w = some data →
      w.anchors.length ≤ 8 → w.chain.length ≤ 16384 → w.allow.length ≤ 256 → ∃ t x l ds, exec (.netListen src w) s = .next t ∧ t.rt.waiting = some x ∧
        x.staged = some (.listener (leAt q.params 0 2) l ds) ∧ l.tcpPort = leAt q.params 4 2 ∧ l.booth = leAt q.params 6 2 ∧
        l.idle = leAt q.params 16 4 ∧ l.allow = w.allow ∧ l.anchors = w.anchors ∧ l.chain = w.chain ∧ l.tallies = (byteAt q.params 24).testBit 0 ∧ l.removing = false ∧
        (∀ d, d ∈ ds ↔ d ∉ w.allow ∧ ∃ old, kget s.nv.listeners (leAt q.params 0 2) = some old ∧ d ∈ old.allow) ∧ t.nv = s.nv)) ∧
  (∀ (src : ReqSrc) (q : Req) (s : State), Serves src 0x72 s q → q.params.length = 1 →
    (1 < byteAt q.params 0 → exec (.peerConfig src) s = .next (refusedWith src q stMalformed s)) ∧
    (byteAt q.params 0 ≤ 1 → latchFor s.rt 0 0xFFFF none = false → exec (.peerConfig src) s = .next (refusedWith src q stDualControl s)) ∧
    (byteAt q.params 0 ≤ 1 → latchFor s.rt 0 0xFFFF none = true → ∃ t, exec (.peerConfig src) s = .next (replied src q stDone [] t) ∧
      t.nv.pairing.nextMode = (byteAt q.params 0 == 1) ∧ t.nv.pairing.mode = s.nv.pairing.mode ∧ t.rt.peer = s.rt.peer ∧ t.rt.twoKey = .closed)) ∧
  (∀ (src : ReqSrc) (q : Req) (k : Nat) (r : SlotRec) (s : State), Serves src 0x73 s q → q.params.length = 25 → byteAt q.params 24 ≤ 1 →
    ledgerFull s.nv = false →
    (s.rt.peer.mode = false → exec (.peerPair src) s = .next (refusedWith src q stStateRefused s)) ∧
    (s.rt.peer.mode = true → pairingKey s.rt (BitVec.ofNat 64 (leAt q.params 16 8)) = .key k r →
      (latchFor s.rt 0 0xFFFF none = false → exec (.peerPair src) s = .next (refusedWith src q stDualControl s)) ∧
      (latchFor s.rt 0 0xFFFF none = true → ∃ t e, exec (.peerPair src) s = .next (replied src q stDone [] t) ∧
        t.nv.pairing.twin = some (slice q.params 0 16) ∧ t.nv.pairing.target = (byteAt q.params 24 == 1) ∧
        t.nv.pairing.copying = (byteAt q.params 24 == 1) ∧ t.nv.pairing.sending = (byteAt q.params 24 == 0) ∧ t.nv.pairing.retained = [] ∧ t.rt.peer.linkUp = false ∧ t.rt.peer.diverged = false ∧
        t.nv.ledger.entries.getLast? = some e ∧ e.event = 0x0102 ∧ t.rt.twoKey = .closed))) ∧
  (∀ (src : ReqSrc) (q : Req) (s : State), Serves src 0x74 s q → q.params = [] → ledgerFull s.nv = false →
    (s.nv.pairing.twin = none → exec (.peerUnpair src) s = .next (refusedWith src q stStateRefused s)) ∧
    (∀ z, s.nv.pairing.twin = some z → latchFor s.rt 0 0xFFFF none = true → ∃ t e, exec (.peerUnpair src) s = .next (replied src q stDone [] t) ∧
      t.nv.pairing.twin = none ∧ t.nv.pairing.retained = [] ∧ (∀ r ∈ t.nv.journal, r.acked = true ∧ (r.held = true → r.marked = true)) ∧
      t.rt.peer.paired = false ∧ t.rt.peer.linkUp = false ∧ t.rt.peer.mode = s.rt.peer.mode ∧ t.nv.ledger.entries.getLast? = some e ∧
      e.event = 0x0103 ∧ t.rt.twoKey = .closed ∧ t.nv.slots = s.nv.slots)) ∧
  (∀ (src : ReqSrc) (q : Req) (z : Bytes) (s : State), Serves src 0x75 s q → q.params.length = 1 → byteAt q.params 0 ≤ 1 → ledgerFull s.nv = false →
    s.rt.peer.mode = true → s.nv.pairing.twin = some z →
    (latchFor s.rt 0 0xFFFF none = false → exec (.peerResync src) s = .next (refusedWith src q stDualControl s)) ∧
    (latchFor s.rt 0 0xFFFF none = true → ∃ t e, exec (.peerResync src) s = .next (replied src q stDone [] t) ∧ t.nv.pairing.twin = some z ∧
      t.nv.pairing.target = (byteAt q.params 0 == 1) ∧ t.rt.peer.copying = (byteAt q.params 0 == 1) ∧ t.rt.peer.diverged = false ∧ t.nv.pairing.diverged = false ∧
      t.nv.pairing.sending = (byteAt q.params 0 == 0 && !s.rt.peer.linkUp) ∧ t.nv.ledger.entries.getLast? = some e ∧ e.event = 0x0105 ∧ t.rt.twoKey = .closed))

/-- The responder answers while the link is up, the module has main power and the seed is present. GET_VERSION offers 1.2 and 1.3 and
begins anew; GET_CAPABILITIES selects the version; NEGOTIATE_ALGORITHMS needs the P-384 and SHA-384 of Table 24.3; digests and
certificate portions come from slot 0; CHALLENGE and GET_MEASUREMENTS draw on CD0; KEY_EXCHANGE opens the one session, FINISH completes
it with a MAC, KEY_UPDATE counts keys, END_SESSION closes it, and VENDOR_DEFINED_REQUEST serves IDE_KM in it. A request out of order is
an unexpected request. Message layouts are those of DMTF SPDM, presumed (log 6). -/
def Obligations.SpdmCommands : Prop :=
  (∀ (m : Bytes) (s : State), spdmServes s = false → exec (.getVersion m) s = .next s ∧ exec (.getCapabilities m) s = .next s ∧
    exec (.negotiateAlgorithms m) s = .next s ∧ exec (.getDigests m) s = .next s ∧ exec (.getCertificate m) s = .next s ∧
    exec (.challenge m) s = .next s ∧ exec (.getMeasurements m) s = .next s ∧ exec (.keyExchange m) s = .next s ∧ exec (.finish m) s = .next s ∧
    exec (.keyUpdate m) s = .next s ∧ exec (.endSession m) s = .next s ∧ exec (.vendorDefinedRequest m) s = .next s) ∧
  (∀ (m : Bytes) (s : State), spdmServes s = true → byteAt m 1 = 0x84 → 4 ≤ m.length → ∃ t, exec (.getVersion m) s = .next t ∧
    t.rt.spdm.version = none ∧ t.rt.spdm.session = none ∧ t.rt.spdm.caps = false ∧ t.nv = s.nv ∧
    t.rt.out = s.rt.out ++ [.spdm (bytesOf [0x10, 0x04, 0, 0, 0, 2, 0x00, 0x12, 0x00, 0x13])]) ∧
  (∀ (m : Bytes) (s : State), spdmServes s = true → byteAt m 1 = 0xE1 → 4 ≤ m.length →
    (byteAt m 0 = 0x12 ∨ byteAt m 0 = 0x13 → ∃ t, exec (.getCapabilities m) s = .next t ∧ t.rt.spdm.version = some (byteAt m 0) ∧
      t.rt.spdm.caps = true ∧ t.rt.spdm.algs = false ∧ t.rt.spdm.session = s.rt.spdm.session ∧ t.rt.out.length = s.rt.out.length + 1) ∧
    (byteAt m 0 ≠ 0x12 → byteAt m 0 ≠ 0x13 → ∃ b, exec (.getCapabilities m) s = .next { s with rt := { s.rt with out := s.rt.out ++ [.spdm b] } } ∧
      byteAt b 1 = 0x7F ∧ byteAt b 2 = 0x41)) ∧
  (∀ (m : Bytes) (s : State), spdmServes s = true → byteAt m 1 = 0xE3 → 32 ≤ m.length → s.rt.spdm.version.isSome = true → s.rt.spdm.caps = true →
    byteAt m 0 = spdmVer s.rt.spdm →
    ((leAt m 8 4).testBit 7 = true → (leAt m 12 4).testBit 1 = true → ∃ t, exec (.negotiateAlgorithms m) s = .next t ∧ t.rt.spdm.algs = true ∧
      t.rt.spdm.version = s.rt.spdm.version) ∧
    ((leAt m 12 4).testBit 1 = false → ∃ b, exec (.negotiateAlgorithms m) s = .next { s with rt := { s.rt with out := s.rt.out ++ [.spdm b] } } ∧
      byteAt b 1 = 0x7F ∧ byteAt b 2 = 0x01)) ∧
  (∀ (m : Bytes) (s : State), spdmServes s = true → 36 ≤ m.length → phaseOk s.rt.spdm .algs = false → ∃ b, byteAt b 1 = 0x7F ∧ byteAt b 2 = 0x04 ∧
    (byteAt m 1 = 0x81 → exec (.getDigests m) s = .next { s with rt := { s.rt with out := s.rt.out ++ [.spdm b] } }) ∧
    (byteAt m 1 = 0x82 → exec (.getCertificate m) s = .next { s with rt := { s.rt with out := s.rt.out ++ [.spdm b] } }) ∧
    (byteAt m 1 = 0x83 → exec (.challenge m) s = .next { s with rt := { s.rt with out := s.rt.out ++ [.spdm b] } }) ∧
    (byteAt m 1 = 0xE0 → exec (.getMeasurements m) s = .next { s with rt := { s.rt with out := s.rt.out ++ [.spdm b] } })) ∧
  (∀ (m : Bytes) (s : State), spdmServes s = true → phaseOk s.rt.spdm .algs = true → byteAt m 0 = spdmVer s.rt.spdm →
    (byteAt m 1 = 0x81 → 4 ≤ m.length → ∃ t b, exec (.getDigests m) s = .next t ∧ t.rt.out = s.rt.out ++ [.spdm b] ∧
      b.drop 4 = sha384 (slotChain s) ∧ byteAt b 3 = 1 ∧ t.rt.spdm.transcript = s.rt.spdm.transcript ++ m ++ b) ∧
    (byteAt m 1 = 0x82 → 8 ≤ m.length → byteAt m 2 = 0 → leAt m 4 2 < (slotChain s).length → ∃ t b, exec (.getCertificate m) s = .next t ∧
      t.rt.out = s.rt.out ++ [.spdm b] ∧ b.drop 8 = slice (slotChain s) (leAt m 4 2) (min (leAt m 6 2) ((slotChain s).length - leAt m 4 2))) ∧
    (∀ rnd rt, byteAt m 1 = 0x83 → 36 ≤ m.length → byteAt m 2 = 0 → byteAt m 3 = 0 → s.rt.spdm.version = some 0x12 → drawCd0 88 s.rt = .got rnd rt →
      ∃ t b, exec (.challenge m) s = .next t ∧ t.rt.out = rt.out ++ [.spdm (b ++ spdmSign s 0x83 (rnd.drop 32) (rt.spdm.transcript ++ m ++ b))] ∧
        b = spdmHead rt.spdm 0x03 0 1 ++ sha384 (slotChain s) ++ rnd.take 32 ++ le 2 0) ∧
    (∀ rnd rt, byteAt m 1 = 0xE0 → 4 ≤ m.length → (byteAt m 2).testBit 0 = false → byteAt m 3 = 0 → s.rt.spdm.version = some 0x12 →
      drawCd0 88 s.rt = .got rnd rt → ∃ t b, exec (.getMeasurements m) s = .next t ∧ t.rt.out = rt.out ++ [.spdm b] ∧ byteAt b 2 = 13 ∧
        (b.drop 8).take (rnd.take 32).length = rnd.take 32) ∧
    (byteAt m 1 = 0xE4 → 138 ≤ m.length →
      (s.rt.spdm.session.isSome = true → ∃ b, exec (.keyExchange m) s = .next { s with rt := { s.rt with out := s.rt.out ++ [.spdm b] } } ∧
        byteAt b 2 = 0x0A) ∧
      (∀ rnd rt, s.rt.spdm.session = none → byteAt m 3 = 0 → onCurve p384 (beAt m 40 48, beAt m 88 48) = true → drawCd0 144 s.rt = .got rnd rt →
        ∃ t, exec (.keyExchange m) s = .next t ∧ t.rt.spdm.session.isSome = true ∧ t.rt.spdm.finished = false ∧ t.rt.spdm.reqKeys = 0 ∧
          t.rt.spdm.rspKeys = 0 ∧ t.nv = s.nv)) ∧
    (byteAt m 1 = 0xE5 → 4 ≤ m.length → s.rt.spdm.session.isSome = true → s.rt.spdm.finished = false → byteAt m 2 = 0 →
      (m.drop 4 = Config.spdmMac 1 s.rt.spdm.secret (s.rt.spdm.transcript ++ m.take 4) → ∃ t, exec (.finish m) s = .next t ∧
        t.rt.spdm.finished = true ∧ t.rt.spdm.session = s.rt.spdm.session) ∧
      (m.drop 4 ≠ Config.spdmMac 1 s.rt.spdm.secret (s.rt.spdm.transcript ++ m.take 4) → ∃ t, exec (.finish m) s = .next t ∧
        t.rt.spdm.session = none ∧ t.rt.spdm.secret = []))) ∧
  (∀ (m : Bytes) (s : State), spdmServes s = true → s.rt.spdm.session.isSome = true → s.rt.spdm.finished = true → byteAt m 0 = spdmVer s.rt.spdm →
    (byteAt m 1 = 0xE9 → 4 ≤ m.length → 1 ≤ byteAt m 2 → byteAt m 2 ≤ 3 → ∃ t, exec (.keyUpdate m) s = .next t ∧
      t.rt.spdm.reqKeys = s.rt.spdm.reqKeys + (if byteAt m 2 ≤ 2 then 1 else 0) ∧
      t.rt.spdm.rspKeys = s.rt.spdm.rspKeys + (if byteAt m 2 = 2 then 1 else 0) ∧ t.rt.spdm.session = s.rt.spdm.session) ∧
    (byteAt m 1 = 0xEC → 4 ≤ m.length → ∃ t, exec (.endSession m) s = .next t ∧ t.rt.spdm.session = none ∧ t.rt.spdm.secret = [] ∧
      t.rt.link = s.rt.link) ∧
    (∀ l b, byteAt m 1 = 0xFE → 13 ≤ m.length → leAt m 4 2 = 3 → byteAt m 6 = 2 → leAt m 7 2 = 1 → ideKm (slice m 11 (leAt m 9 2)) s.rt.link = some (l, b) →
      exec (.vendorDefinedRequest m) s =
        .next { s with rt := { s.rt with link := l, out := s.rt.out ++ [.spdm (ideReply s.rt.spdm b)] } })) ∧
  (∀ (m : Bytes) (s : State), spdmServes s = true → s.rt.spdm.session = none → ∃ b, byteAt b 2 = 0x04 ∧
    (byteAt m 1 = 0xE9 → 4 ≤ m.length → exec (.keyUpdate m) s = .next { s with rt := { s.rt with out := s.rt.out ++ [.spdm b] } }) ∧
    (byteAt m 1 = 0xEC → 4 ≤ m.length → exec (.endSession m) s = .next { s with rt := { s.rt with out := s.rt.out ++ [.spdm b] } }) ∧
    (byteAt m 1 = 0xFE → 13 ≤ m.length → exec (.vendorDefinedRequest m) s = .next { s with rt := { s.rt with out := s.rt.out ++ [.spdm b] } }))

/-- A step with a command at the front of the queue is that command's effect on the state with the rest of the queue. With an empty queue
the model lets one microsecond pass, which is its own choice (log 4): the time advances, and flash, fuses and gondola stay. -/
def Obligations.StepRunsFrontCommand : Prop :=
  (∀ (c : Instr) (l : List Instr) (s : State), step { s with pending := c :: l } = exec c { s with pending := l }) ∧
  (∀ (s : State), s.pending = [] → ∃ t, step s = .next t ∧ t.rt.now = s.rt.now + 1000 ∧ t.pending = [] ∧ t.nv = s.nv ∧ t.otp = s.otp ∧
    t.gon = s.gon ∧ t.rt.cmds = s.rt.cmds ∧ t.rt.ballast.tokIod = min bucketFull (s.rt.ballast.tokIod + unitsNs 4))

/-- Whatever command runs, in whatever state: the commands that wait stay in their order, every fuse that is burned stays burned (state
codeword, progress marks, seed and its check word), the tamper count and the count of lost roots never decrease, and the serial number
stays. The same holds of every step. -/
def Obligations.FusesNeverClear : Prop :=
  (∀ (c : Instr) (s t : State), exec c s = .next t → t.pending = s.pending ∧ FusesKept s.otp t.otp) ∧
  (∀ (s t : State), step s = .next t → t.pending = s.pending.tail ∧ FusesKept s.otp t.otp)

/-- State.reset, the shipped module at the first instant of a cold reset (log 1): BOOT_STAGE 01h and LC_STATE FFh, the fuses decode as
SEALED, no user root and no slot, no tamper, fault, booth or command, the ballast buckets full, the head clerks in monitor mode, every
temperature word 8000h, the alert width 10 ms, the ledger empty, the queue empty, and every memory in canonical form. -/
def Obligations.ResetState : Prop :=
  let s := State.reset
  s.rt.boot.stage = 0x01 ∧ s.rt.boot.lcState = 0xFF ∧ lcDecode s.otp = 0x03 ∧ s.gon.root = 0 ∧ s.nv.slots = [] ∧ s.gon.tamperFlag = false ∧
  s.gon.active = [] ∧ s.rt.fault.nextSeq = 0 ∧ s.rt.fault.halted = false ∧ s.rt.fault.irqMask = 0 ∧ s.rt.booths = [] ∧ s.rt.cmds = [] ∧
  s.rt.ballast.tokCd0 = bucketFull ∧ s.rt.ballast.tokCd1 = bucketFull ∧ s.rt.ballast.tokIod = bucketFull ∧ s.rt.ballast.inlet = 0x8000 ∧ s.rt.alert.minWidth = 10 ∧
  (clerkOf s.rt 128).sw = 0x30000#20 ∧ s.rt.disp.pool = 17179869184 ∧ s.rt.clock.st = .unset ∧ s.rt.clock.uncertainty = 0xFFFFFFFF ∧
  s.nv.ledger.entries = [] ∧ s.rt.epoch = 0 ∧ s.pending = [] ∧ Memory.wf s.rt = true

/-- On a booth whose doorbell page is live: a SQ_TAIL or CQ_HEAD value of 2^k or more leaves the booth as it is and records one contained
DOORBELL_INVALID that names the booth; so does a CQ_HEAD that would move past the completion tail. Any SQ_TAIL in range is accepted, one
that skips back over waiting entries too, and the entries then waiting are the distance of R126. -/
def Obligations.InvalidDoorbells : Prop :=
  ∀ (b : Nat) (v : BitVec 32) (x : Booth) (s : State), boothOf s.rt b = some x → doorbellLive s.rt x = true →
    let w := v.toNat % 65536
    let n := 2 ^ x.cfg.cqLog2
    (2 ^ x.cfg.sqLog2 ≤ w → ∃ t r, exec (.sqTailWrite b v) s = .next t ∧ boothOf t.rt b = some x ∧
      kget t.rt.fault.ring (s.rt.fault.nextSeq % 40) = some r ∧ r.source = .doorbellInvalid ∧ r.cls = .contained ∧ r.booth = some b ∧
      t.rt.fault.nextSeq = (s.rt.fault.nextSeq + 1) % 2 ^ 32) ∧
    (n ≤ w ∨ x.cqUnread < (w + n - x.cqHead) % n → ∃ t r, exec (.cqHeadWrite b v) s = .next t ∧ boothOf t.rt b = some x ∧
      kget t.rt.fault.ring (s.rt.fault.nextSeq % 40) = some r ∧ r.source = .doorbellInvalid ∧ r.cls = .contained ∧ r.booth = some b ∧
      t.rt.fault.nextSeq = (s.rt.fault.nextSeq + 1) % 2 ^ 32) ∧
    (w < 2 ^ x.cfg.sqLog2 → ∃ t y, exec (.sqTailWrite b v) s = .next t ∧ boothOf t.rt b = some y ∧ y.sqTail = w ∧ y.cfg = x.cfg ∧
      sqWaiting y = (w + 2 ^ x.cfg.sqLog2 - x.fetchHead) % 2 ^ x.cfg.sqLog2 ∧ t.rt.fault = s.rt.fault)

/-- For every content of LC_T and LC_C: nibble 5 written gives SCRAPPED; the pairs of Table 5.3 give BLANK, TEST, PROVISIONED, SEALED,
SERVICE and RETURNED; every other content, with a partial nibble or a burned bit in nibbles 6 and 7 among them, gives LOCKED. -/
def Obligations.CodewordDecodes : Prop :=
  ∀ (o : Otp),
    (o.lcT.extractLsb' 20 4 = 0x9 ∧ o.lcC.extractLsb' 20 4 = 0x6 → lcDecode o = 0x06) ∧
    (¬(o.lcT.extractLsb' 20 4 = 0x9 ∧ o.lcC.extractLsb' 20 4 = 0x6) →
      lcDecode o = (if o.lcT = 0x00000000 ∧ o.lcC = 0x00000000 then 0x00
        else if o.lcT = 0x00000005 ∧ o.lcC = 0x0000000A then 0x01
        else if o.lcT = 0x000000A5 ∧ o.lcC = 0x0000005A then 0x02
        else if o.lcT = 0x000003A5 ∧ o.lcC = 0x00000C5A then 0x03
        else if o.lcT = 0x0000C3A5 ∧ o.lcC = 0x00003C5A then 0x04
        else if o.lcT = 0x000603A5 ∧ o.lcC = 0x00090C5A then 0x05
        else if o.lcT = 0x0006C3A5 ∧ o.lcC = 0x00093C5A then 0x05
        else 0x0F))
end

