-- ==== Sys2Proof/Laws/Map.lean ====
section
/-! SUPPORT. Reading a map after a write, and the canonical form that writes keep. -/

namespace Sys2Proof.Machine

variable {α : Type}

theorem kget_kset (m : KMap α) (k j : Nat) (v : α) : kget (kset m k v) j = if k = j then some v else kget m j := by
  induction m with
  | nil => rfl
  | cons x m ih =>
    obtain ⟨i, w⟩ := x
    simp only [kset]
    split
    · rfl
    · split
      · subst k; simp only [kget]; split <;> rfl
      · simp only [kget, ih]; split
        · split
          · omega
          · rfl
        · rfl

@[simp] theorem kget_kset_self (m : KMap α) (k : Nat) (v : α) : kget (kset m k v) k = some v := by simp [kget_kset]

theorem kget_kset_ne {k j : Nat} (m : KMap α) (v : α) (h : k ≠ j) : kget (kset m k v) j = kget m j := by simp [kget_kset, h]

theorem kget_kdel (m : KMap α) (k j : Nat) : kget (kdel m k) j = if k = j then none else kget m j := by
  induction m with
  | nil => simp [kdel, kget]
  | cons x m ih =>
    obtain ⟨i, w⟩ := x
    simp only [kdel]
    split
    · rw [ih]; simp only [kget]; split
      · rfl
      · split
        · omega
        · rfl
    · simp only [kget, ih]; split
      · split
        · omega
        · rfl
      · rfl

@[simp] theorem kget_kdel_self (m : KMap α) (k : Nat) : kget (kdel m k) k = none := by simp [kget_kdel]

theorem kgetD_kput [DecidableEq α] (d : α) (m : KMap α) (k j : Nat) (v : α) :
    kgetD (kput d m k v) j d = if k = j then v else kgetD m j d := by
  unfold kput kgetD
  by_cases h : v = d
  · simp only [h, if_true, kget_kdel]; by_cases hk : k = j <;> simp [hk]
  · simp only [h, if_false, kget_kset]; by_cases hk : k = j <;> simp [hk]

@[simp] theorem kgetD_kput_self [DecidableEq α] (d : α) (m : KMap α) (k : Nat) (v : α) : kgetD (kput d m k v) k d = v := by
  simp [kgetD_kput]

theorem kgetD_kput_ne [DecidableEq α] {k j : Nat} (d : α) (m : KMap α) (v : α) (h : k ≠ j) :
    kgetD (kput d m k v) j d = kgetD m j d := by simp [kgetD_kput, h]

theorem kget_map (f : α → α) (m : KMap α) (k : Nat) :
    kget (m.map fun kv => (kv.1, f kv.2)) k = (kget m k).map f := by
  induction m with
  | nil => rfl
  | cons x m ih => simp only [List.map_cons, kget]; split <;> simp [ih]

theorem kabove_mono {m : KMap α} {a b : Nat} (h : kabove b m = true) (hab : a < b) : kabove a m = true := by
  cases m with
  | nil => rfl
  | cons x m => simp only [kabove, Bool.and_eq_true, decide_eq_true_eq] at *; exact ⟨by omega, h.2⟩

theorem kabove_kset {m : KMap α} {lo k : Nat} (v : α) (h : kabove lo m = true) (hk : lo < k) : kabove lo (kset m k v) = true := by
  induction m generalizing lo with
  | nil => simp [kset, kabove, hk]
  | cons x m ih =>
    obtain ⟨i, w⟩ := x
    simp only [kabove, Bool.and_eq_true, decide_eq_true_eq] at h
    simp only [kset]
    split
    · next hlt => simp [kabove, hk, hlt, h.2]
    · split
      · next he => subst he; simp [kabove, hk, h.2]
      · simp only [kabove, h.1, decide_true, Bool.true_and]; exact ih h.2 (by omega)

/-- Listing a value keeps the keys rising. -/
theorem ksorted_kset {m : KMap α} (k : Nat) (v : α) (h : ksorted m = true) : ksorted (kset m k v) = true := by
  cases m with
  | nil => rfl
  | cons x m =>
    obtain ⟨i, w⟩ := x
    simp only [ksorted] at h
    simp only [kset]
    split
    · next hlt => simp [ksorted, kabove, hlt, h]
    · split
      · next he => subst he; exact h
      · simp only [ksorted]; exact kabove_kset v h (by omega)

theorem kabove_kdel {m : KMap α} {lo : Nat} (k : Nat) (h : kabove lo m = true) : kabove lo (kdel m k) = true := by
  induction m generalizing lo with
  | nil => rfl
  | cons x m ih =>
    obtain ⟨i, w⟩ := x
    simp only [kabove, Bool.and_eq_true, decide_eq_true_eq] at h
    simp only [kdel]
    split
    · exact ih (kabove_mono h.2 h.1)
    · simp only [kabove, h.1, decide_true, Bool.true_and]; exact ih h.2

/-- Unlisting a key keeps the keys rising. -/
theorem ksorted_kdel {m : KMap α} (k : Nat) (h : ksorted m = true) : ksorted (kdel m k) = true := by
  induction m with
  | nil => rfl
  | cons x m ih =>
    obtain ⟨i, w⟩ := x
    simp only [ksorted] at h
    simp only [kdel]
    split
    · apply ih
      cases m with
      | nil => rfl
      | cons y m => simp only [kabove, Bool.and_eq_true] at h; exact h.2
    · exact kabove_kdel k h

theorem all_kset {m : KMap α} {p : Nat × α → Bool} (k : Nat) (v : α) (h : m.all p = true) (hv : p (k, v) = true) :
    (kset m k v).all p = true := by
  induction m with
  | nil => simp [kset, hv]
  | cons x m ih =>
    obtain ⟨i, w⟩ := x
    simp only [List.all_cons, Bool.and_eq_true] at h
    simp only [kset]
    split
    · simp [hv, h.1, h.2]
    · split
      · simp [hv, h.2]
      · simp only [List.all_cons, h.1, Bool.true_and]; exact ih h.2

theorem all_kdel {m : KMap α} {p : Nat × α → Bool} (k : Nat) (h : m.all p = true) : (kdel m k).all p = true := by
  induction m with
  | nil => rfl
  | cons x m ih =>
    obtain ⟨i, w⟩ := x
    simp only [List.all_cons, Bool.and_eq_true] at h
    simp only [kdel]
    split
    · exact ih h.2
    · simp only [List.all_cons, h.1, Bool.true_and]; exact ih h.2

/-- A write keeps the canonical form. -/
theorem kcanon_kput [DecidableEq α] {d : α} {m : KMap α} (k : Nat) (v : α) (h : kcanon d m = true) :
    kcanon d (kput d m k v) = true := by
  simp only [kcanon, Bool.and_eq_true] at *
  unfold kput
  split
  · exact ⟨ksorted_kdel k h.1, all_kdel k h.2⟩
  · next hv => exact ⟨ksorted_kset k v h.1, all_kset k v h.2 (by simpa using hv)⟩

end Sys2Proof.Machine
end

