-- ==== Sys2Proof/Laws/State.lean ====
section
/-! SUPPORT. What each named update of the state leaves alone, one lemma a field, and what it writes. -/

namespace Sys2Proof.Machine

/-! ## A change of the run-time state -/
@[simp] theorem onRt_nv (f : Rt → Rt) (s : State) : (onRt f s).nv = s.nv := rfl
@[simp] theorem onRt_gon (f : Rt → Rt) (s : State) : (onRt f s).gon = s.gon := rfl
@[simp] theorem onRt_otp (f : Rt → Rt) (s : State) : (onRt f s).otp = s.otp := rfl
@[simp] theorem onRt_pending (f : Rt → Rt) (s : State) : (onRt f s).pending = s.pending := rfl
@[simp] theorem onRt_rt (f : Rt → Rt) (s : State) : (onRt f s).rt = f s.rt := rfl

/-! ## `setClerk` -/

@[simp] theorem setClerk_now (c : ClerkId) (k : Clerk) (rt : Rt) : (setClerk c k rt).now = rt.now := rfl
@[simp] theorem setClerk_freeCtr (c : ClerkId) (k : Clerk) (rt : Rt) : (setClerk c k rt).freeCtr = rt.freeCtr := rfl
@[simp] theorem setClerk_out (c : ClerkId) (k : Clerk) (rt : Rt) : (setClerk c k rt).out = rt.out := rfl
@[simp] theorem setClerk_power (c : ClerkId) (k : Clerk) (rt : Rt) : (setClerk c k rt).power = rt.power := rfl
@[simp] theorem setClerk_boot (c : ClerkId) (k : Clerk) (rt : Rt) : (setClerk c k rt).boot = rt.boot := rfl
@[simp] theorem setClerk_link (c : ClerkId) (k : Clerk) (rt : Rt) : (setClerk c k rt).link = rt.link := rfl
@[simp] theorem setClerk_rlatch (c : ClerkId) (k : Clerk) (rt : Rt) : (setClerk c k rt).rlatch = rt.rlatch := rfl
@[simp] theorem setClerk_cageA (c : ClerkId) (k : Clerk) (rt : Rt) : (setClerk c k rt).cageA = rt.cageA := rfl
@[simp] theorem setClerk_cageB (c : ClerkId) (k : Clerk) (rt : Rt) : (setClerk c k rt).cageB = rt.cageB := rfl
@[simp] theorem setClerk_lc (c : ClerkId) (k : Clerk) (rt : Rt) : (setClerk c k rt).lc = rt.lc := rfl
@[simp] theorem setClerk_fault (c : ClerkId) (k : Clerk) (rt : Rt) : (setClerk c k rt).fault = rt.fault := rfl
@[simp] theorem setClerk_alert (c : ClerkId) (k : Clerk) (rt : Rt) : (setClerk c k rt).alert = rt.alert := rfl
@[simp] theorem setClerk_ballast (c : ClerkId) (k : Clerk) (rt : Rt) : (setClerk c k rt).ballast = rt.ballast := rfl
@[simp] theorem setClerk_clock (c : ClerkId) (k : Clerk) (rt : Rt) : (setClerk c k rt).clock = rt.clock := rfl
@[simp] theorem setClerk_mint0 (c : ClerkId) (k : Clerk) (rt : Rt) : (setClerk c k rt).mint0 = rt.mint0 := rfl
@[simp] theorem setClerk_mint1 (c : ClerkId) (k : Clerk) (rt : Rt) : (setClerk c k rt).mint1 = rt.mint1 := rfl
@[simp] theorem setClerk_msix (c : ClerkId) (k : Clerk) (rt : Rt) : (setClerk c k rt).msix = rt.msix := rfl
@[simp] theorem setClerk_mbx (c : ClerkId) (k : Clerk) (rt : Rt) : (setClerk c k rt).mbx = rt.mbx := rfl
@[simp] theorem setClerk_mgrWindow (c : ClerkId) (k : Clerk) (rt : Rt) : (setClerk c k rt).mgrWindow = rt.mgrWindow := rfl
@[simp] theorem setClerk_booths (c : ClerkId) (k : Clerk) (rt : Rt) : (setClerk c k rt).booths = rt.booths := rfl
@[simp] theorem setClerk_cmds (c : ClerkId) (k : Clerk) (rt : Rt) : (setClerk c k rt).cmds = rt.cmds := rfl
@[simp] theorem setClerk_bundles (c : ClerkId) (k : Clerk) (rt : Rt) : (setClerk c k rt).bundles = rt.bundles := rfl
@[simp] theorem setClerk_epoch (c : ClerkId) (k : Clerk) (rt : Rt) : (setClerk c k rt).epoch = rt.epoch := rfl
@[simp] theorem setClerk_disp (c : ClerkId) (k : Clerk) (rt : Rt) : (setClerk c k rt).disp = rt.disp := rfl
@[simp] theorem setClerk_head (c : ClerkId) (k : Clerk) (rt : Rt) : (setClerk c k rt).head = rt.head := rfl
@[simp] theorem setClerk_rooms (c : ClerkId) (k : Clerk) (rt : Rt) : (setClerk c k rt).rooms = rt.rooms := rfl
@[simp] theorem setClerk_presses (c : ClerkId) (k : Clerk) (rt : Rt) : (setClerk c k rt).presses = rt.presses := rfl
@[simp] theorem setClerk_hashes (c : ClerkId) (k : Clerk) (rt : Rt) : (setClerk c k rt).hashes = rt.hashes := rfl
@[simp] theorem setClerk_looms (c : ClerkId) (k : Clerk) (rt : Rt) : (setClerk c k rt).looms = rt.looms := rfl
@[simp] theorem setClerk_reckoners (c : ClerkId) (k : Clerk) (rt : Rt) : (setClerk c k rt).reckoners = rt.reckoners := rfl
@[simp] theorem setClerk_strong (c : ClerkId) (k : Clerk) (rt : Rt) : (setClerk c k rt).strong = rt.strong := rfl
@[simp] theorem setClerk_cardA (c : ClerkId) (k : Clerk) (rt : Rt) : (setClerk c k rt).cardA = rt.cardA := rfl
@[simp] theorem setClerk_cardB (c : ClerkId) (k : Clerk) (rt : Rt) : (setClerk c k rt).cardB = rt.cardB := rfl
@[simp] theorem setClerk_cellA (c : ClerkId) (k : Clerk) (rt : Rt) : (setClerk c k rt).cellA = rt.cellA := rfl
@[simp] theorem setClerk_cellB (c : ClerkId) (k : Clerk) (rt : Rt) : (setClerk c k rt).cellB = rt.cellB := rfl
@[simp] theorem setClerk_window (c : ClerkId) (k : Clerk) (rt : Rt) : (setClerk c k rt).window = rt.window := rfl
@[simp] theorem setClerk_twoKey (c : ClerkId) (k : Clerk) (rt : Rt) : (setClerk c k rt).twoKey = rt.twoKey := rfl
@[simp] theorem setClerk_ceremony (c : ClerkId) (k : Clerk) (rt : Rt) : (setClerk c k rt).ceremony = rt.ceremony := rfl
@[simp] theorem setClerk_waiting (c : ClerkId) (k : Clerk) (rt : Rt) : (setClerk c k rt).waiting = rt.waiting := rfl
@[simp] theorem setClerk_net (c : ClerkId) (k : Clerk) (rt : Rt) : (setClerk c k rt).net = rt.net := rfl
@[simp] theorem setClerk_peer (c : ClerkId) (k : Clerk) (rt : Rt) : (setClerk c k rt).peer = rt.peer := rfl
@[simp] theorem setClerk_tally (c : ClerkId) (k : Clerk) (rt : Rt) : (setClerk c k rt).tally = rt.tally := rfl
@[simp] theorem setClerk_bridles (c : ClerkId) (k : Clerk) (rt : Rt) : (setClerk c k rt).bridles = rt.bridles := rfl
@[simp] theorem setClerk_fabricPerm (c : ClerkId) (k : Clerk) (rt : Rt) : (setClerk c k rt).fabricPerm = rt.fabricPerm := rfl
@[simp] theorem setClerk_held (c : ClerkId) (k : Clerk) (rt : Rt) : (setClerk c k rt).held = rt.held := rfl
@[simp] theorem setClerk_spdm (c : ClerkId) (k : Clerk) (rt : Rt) : (setClerk c k rt).spdm = rt.spdm := rfl
@[simp] theorem setClerk_patterns (c : ClerkId) (k : Clerk) (rt : Rt) : (setClerk c k rt).patterns = rt.patterns := rfl
@[simp] theorem setClerk_kdbRoot (c : ClerkId) (k : Clerk) (rt : Rt) : (setClerk c k rt).kdbRoot = rt.kdbRoot := rfl

/-! ## `setPress` -/

@[simp] theorem setPress_now (k : Nat) (p : Press) (rt : Rt) : (setPress k p rt).now = rt.now := rfl
@[simp] theorem setPress_freeCtr (k : Nat) (p : Press) (rt : Rt) : (setPress k p rt).freeCtr = rt.freeCtr := rfl
@[simp] theorem setPress_out (k : Nat) (p : Press) (rt : Rt) : (setPress k p rt).out = rt.out := rfl
@[simp] theorem setPress_power (k : Nat) (p : Press) (rt : Rt) : (setPress k p rt).power = rt.power := rfl
@[simp] theorem setPress_boot (k : Nat) (p : Press) (rt : Rt) : (setPress k p rt).boot = rt.boot := rfl
@[simp] theorem setPress_link (k : Nat) (p : Press) (rt : Rt) : (setPress k p rt).link = rt.link := rfl
@[simp] theorem setPress_rlatch (k : Nat) (p : Press) (rt : Rt) : (setPress k p rt).rlatch = rt.rlatch := rfl
@[simp] theorem setPress_cageA (k : Nat) (p : Press) (rt : Rt) : (setPress k p rt).cageA = rt.cageA := rfl
@[simp] theorem setPress_cageB (k : Nat) (p : Press) (rt : Rt) : (setPress k p rt).cageB = rt.cageB := rfl
@[simp] theorem setPress_lc (k : Nat) (p : Press) (rt : Rt) : (setPress k p rt).lc = rt.lc := rfl
@[simp] theorem setPress_fault (k : Nat) (p : Press) (rt : Rt) : (setPress k p rt).fault = rt.fault := rfl
@[simp] theorem setPress_alert (k : Nat) (p : Press) (rt : Rt) : (setPress k p rt).alert = rt.alert := rfl
@[simp] theorem setPress_ballast (k : Nat) (p : Press) (rt : Rt) : (setPress k p rt).ballast = rt.ballast := rfl
@[simp] theorem setPress_clock (k : Nat) (p : Press) (rt : Rt) : (setPress k p rt).clock = rt.clock := rfl
@[simp] theorem setPress_mint0 (k : Nat) (p : Press) (rt : Rt) : (setPress k p rt).mint0 = rt.mint0 := rfl
@[simp] theorem setPress_mint1 (k : Nat) (p : Press) (rt : Rt) : (setPress k p rt).mint1 = rt.mint1 := rfl
@[simp] theorem setPress_msix (k : Nat) (p : Press) (rt : Rt) : (setPress k p rt).msix = rt.msix := rfl
@[simp] theorem setPress_mbx (k : Nat) (p : Press) (rt : Rt) : (setPress k p rt).mbx = rt.mbx := rfl
@[simp] theorem setPress_mgrWindow (k : Nat) (p : Press) (rt : Rt) : (setPress k p rt).mgrWindow = rt.mgrWindow := rfl
@[simp] theorem setPress_booths (k : Nat) (p : Press) (rt : Rt) : (setPress k p rt).booths = rt.booths := rfl
@[simp] theorem setPress_cmds (k : Nat) (p : Press) (rt : Rt) : (setPress k p rt).cmds = rt.cmds := rfl
@[simp] theorem setPress_bundles (k : Nat) (p : Press) (rt : Rt) : (setPress k p rt).bundles = rt.bundles := rfl
@[simp] theorem setPress_epoch (k : Nat) (p : Press) (rt : Rt) : (setPress k p rt).epoch = rt.epoch := rfl
@[simp] theorem setPress_disp (k : Nat) (p : Press) (rt : Rt) : (setPress k p rt).disp = rt.disp := rfl
@[simp] theorem setPress_clerks (k : Nat) (p : Press) (rt : Rt) : (setPress k p rt).clerks = rt.clerks := rfl
@[simp] theorem setPress_head (k : Nat) (p : Press) (rt : Rt) : (setPress k p rt).head = rt.head := rfl
@[simp] theorem setPress_rooms (k : Nat) (p : Press) (rt : Rt) : (setPress k p rt).rooms = rt.rooms := rfl
@[simp] theorem setPress_hashes (k : Nat) (p : Press) (rt : Rt) : (setPress k p rt).hashes = rt.hashes := rfl
@[simp] theorem setPress_looms (k : Nat) (p : Press) (rt : Rt) : (setPress k p rt).looms = rt.looms := rfl
@[simp] theorem setPress_reckoners (k : Nat) (p : Press) (rt : Rt) : (setPress k p rt).reckoners = rt.reckoners := rfl
@[simp] theorem setPress_strong (k : Nat) (p : Press) (rt : Rt) : (setPress k p rt).strong = rt.strong := rfl
@[simp] theorem setPress_cardA (k : Nat) (p : Press) (rt : Rt) : (setPress k p rt).cardA = rt.cardA := rfl
@[simp] theorem setPress_cardB (k : Nat) (p : Press) (rt : Rt) : (setPress k p rt).cardB = rt.cardB := rfl
@[simp] theorem setPress_cellA (k : Nat) (p : Press) (rt : Rt) : (setPress k p rt).cellA = rt.cellA := rfl
@[simp] theorem setPress_cellB (k : Nat) (p : Press) (rt : Rt) : (setPress k p rt).cellB = rt.cellB := rfl
@[simp] theorem setPress_window (k : Nat) (p : Press) (rt : Rt) : (setPress k p rt).window = rt.window := rfl
@[simp] theorem setPress_twoKey (k : Nat) (p : Press) (rt : Rt) : (setPress k p rt).twoKey = rt.twoKey := rfl
@[simp] theorem setPress_ceremony (k : Nat) (p : Press) (rt : Rt) : (setPress k p rt).ceremony = rt.ceremony := rfl
@[simp] theorem setPress_waiting (k : Nat) (p : Press) (rt : Rt) : (setPress k p rt).waiting = rt.waiting := rfl
@[simp] theorem setPress_net (k : Nat) (p : Press) (rt : Rt) : (setPress k p rt).net = rt.net := rfl
@[simp] theorem setPress_peer (k : Nat) (p : Press) (rt : Rt) : (setPress k p rt).peer = rt.peer := rfl
@[simp] theorem setPress_tally (k : Nat) (p : Press) (rt : Rt) : (setPress k p rt).tally = rt.tally := rfl
@[simp] theorem setPress_bridles (k : Nat) (p : Press) (rt : Rt) : (setPress k p rt).bridles = rt.bridles := rfl
@[simp] theorem setPress_fabricPerm (k : Nat) (p : Press) (rt : Rt) : (setPress k p rt).fabricPerm = rt.fabricPerm := rfl
@[simp] theorem setPress_held (k : Nat) (p : Press) (rt : Rt) : (setPress k p rt).held = rt.held := rfl
@[simp] theorem setPress_spdm (k : Nat) (p : Press) (rt : Rt) : (setPress k p rt).spdm = rt.spdm := rfl
@[simp] theorem setPress_patterns (k : Nat) (p : Press) (rt : Rt) : (setPress k p rt).patterns = rt.patterns := rfl
@[simp] theorem setPress_kdbRoot (k : Nat) (p : Press) (rt : Rt) : (setPress k p rt).kdbRoot = rt.kdbRoot := rfl

/-! ## `setHash` -/

@[simp] theorem setHash_now (k : Nat) (h : HashUnit) (rt : Rt) : (setHash k h rt).now = rt.now := rfl
@[simp] theorem setHash_freeCtr (k : Nat) (h : HashUnit) (rt : Rt) : (setHash k h rt).freeCtr = rt.freeCtr := rfl
@[simp] theorem setHash_out (k : Nat) (h : HashUnit) (rt : Rt) : (setHash k h rt).out = rt.out := rfl
@[simp] theorem setHash_power (k : Nat) (h : HashUnit) (rt : Rt) : (setHash k h rt).power = rt.power := rfl
@[simp] theorem setHash_boot (k : Nat) (h : HashUnit) (rt : Rt) : (setHash k h rt).boot = rt.boot := rfl
@[simp] theorem setHash_link (k : Nat) (h : HashUnit) (rt : Rt) : (setHash k h rt).link = rt.link := rfl
@[simp] theorem setHash_rlatch (k : Nat) (h : HashUnit) (rt : Rt) : (setHash k h rt).rlatch = rt.rlatch := rfl
@[simp] theorem setHash_cageA (k : Nat) (h : HashUnit) (rt : Rt) : (setHash k h rt).cageA = rt.cageA := rfl
@[simp] theorem setHash_cageB (k : Nat) (h : HashUnit) (rt : Rt) : (setHash k h rt).cageB = rt.cageB := rfl
@[simp] theorem setHash_lc (k : Nat) (h : HashUnit) (rt : Rt) : (setHash k h rt).lc = rt.lc := rfl
@[simp] theorem setHash_fault (k : Nat) (h : HashUnit) (rt : Rt) : (setHash k h rt).fault = rt.fault := rfl
@[simp] theorem setHash_alert (k : Nat) (h : HashUnit) (rt : Rt) : (setHash k h rt).alert = rt.alert := rfl
@[simp] theorem setHash_ballast (k : Nat) (h : HashUnit) (rt : Rt) : (setHash k h rt).ballast = rt.ballast := rfl
@[simp] theorem setHash_clock (k : Nat) (h : HashUnit) (rt : Rt) : (setHash k h rt).clock = rt.clock := rfl
@[simp] theorem setHash_mint0 (k : Nat) (h : HashUnit) (rt : Rt) : (setHash k h rt).mint0 = rt.mint0 := rfl
@[simp] theorem setHash_mint1 (k : Nat) (h : HashUnit) (rt : Rt) : (setHash k h rt).mint1 = rt.mint1 := rfl
@[simp] theorem setHash_msix (k : Nat) (h : HashUnit) (rt : Rt) : (setHash k h rt).msix = rt.msix := rfl
@[simp] theorem setHash_mbx (k : Nat) (h : HashUnit) (rt : Rt) : (setHash k h rt).mbx = rt.mbx := rfl
@[simp] theorem setHash_mgrWindow (k : Nat) (h : HashUnit) (rt : Rt) : (setHash k h rt).mgrWindow = rt.mgrWindow := rfl
@[simp] theorem setHash_booths (k : Nat) (h : HashUnit) (rt : Rt) : (setHash k h rt).booths = rt.booths := rfl
@[simp] theorem setHash_cmds (k : Nat) (h : HashUnit) (rt : Rt) : (setHash k h rt).cmds = rt.cmds := rfl
@[simp] theorem setHash_bundles (k : Nat) (h : HashUnit) (rt : Rt) : (setHash k h rt).bundles = rt.bundles := rfl
@[simp] theorem setHash_epoch (k : Nat) (h : HashUnit) (rt : Rt) : (setHash k h rt).epoch = rt.epoch := rfl
@[simp] theorem setHash_disp (k : Nat) (h : HashUnit) (rt : Rt) : (setHash k h rt).disp = rt.disp := rfl
@[simp] theorem setHash_clerks (k : Nat) (h : HashUnit) (rt : Rt) : (setHash k h rt).clerks = rt.clerks := rfl
@[simp] theorem setHash_head (k : Nat) (h : HashUnit) (rt : Rt) : (setHash k h rt).head = rt.head := rfl
@[simp] theorem setHash_rooms (k : Nat) (h : HashUnit) (rt : Rt) : (setHash k h rt).rooms = rt.rooms := rfl
@[simp] theorem setHash_presses (k : Nat) (h : HashUnit) (rt : Rt) : (setHash k h rt).presses = rt.presses := rfl
@[simp] theorem setHash_looms (k : Nat) (h : HashUnit) (rt : Rt) : (setHash k h rt).looms = rt.looms := rfl
@[simp] theorem setHash_reckoners (k : Nat) (h : HashUnit) (rt : Rt) : (setHash k h rt).reckoners = rt.reckoners := rfl
@[simp] theorem setHash_strong (k : Nat) (h : HashUnit) (rt : Rt) : (setHash k h rt).strong = rt.strong := rfl
@[simp] theorem setHash_cardA (k : Nat) (h : HashUnit) (rt : Rt) : (setHash k h rt).cardA = rt.cardA := rfl
@[simp] theorem setHash_cardB (k : Nat) (h : HashUnit) (rt : Rt) : (setHash k h rt).cardB = rt.cardB := rfl
@[simp] theorem setHash_cellA (k : Nat) (h : HashUnit) (rt : Rt) : (setHash k h rt).cellA = rt.cellA := rfl
@[simp] theorem setHash_cellB (k : Nat) (h : HashUnit) (rt : Rt) : (setHash k h rt).cellB = rt.cellB := rfl
@[simp] theorem setHash_window (k : Nat) (h : HashUnit) (rt : Rt) : (setHash k h rt).window = rt.window := rfl
@[simp] theorem setHash_twoKey (k : Nat) (h : HashUnit) (rt : Rt) : (setHash k h rt).twoKey = rt.twoKey := rfl
@[simp] theorem setHash_ceremony (k : Nat) (h : HashUnit) (rt : Rt) : (setHash k h rt).ceremony = rt.ceremony := rfl
@[simp] theorem setHash_waiting (k : Nat) (h : HashUnit) (rt : Rt) : (setHash k h rt).waiting = rt.waiting := rfl
@[simp] theorem setHash_net (k : Nat) (h : HashUnit) (rt : Rt) : (setHash k h rt).net = rt.net := rfl
@[simp] theorem setHash_peer (k : Nat) (h : HashUnit) (rt : Rt) : (setHash k h rt).peer = rt.peer := rfl
@[simp] theorem setHash_tally (k : Nat) (h : HashUnit) (rt : Rt) : (setHash k h rt).tally = rt.tally := rfl
@[simp] theorem setHash_bridles (k : Nat) (h : HashUnit) (rt : Rt) : (setHash k h rt).bridles = rt.bridles := rfl
@[simp] theorem setHash_fabricPerm (k : Nat) (h : HashUnit) (rt : Rt) : (setHash k h rt).fabricPerm = rt.fabricPerm := rfl
@[simp] theorem setHash_held (k : Nat) (h : HashUnit) (rt : Rt) : (setHash k h rt).held = rt.held := rfl
@[simp] theorem setHash_spdm (k : Nat) (h : HashUnit) (rt : Rt) : (setHash k h rt).spdm = rt.spdm := rfl
@[simp] theorem setHash_patterns (k : Nat) (h : HashUnit) (rt : Rt) : (setHash k h rt).patterns = rt.patterns := rfl
@[simp] theorem setHash_kdbRoot (k : Nat) (h : HashUnit) (rt : Rt) : (setHash k h rt).kdbRoot = rt.kdbRoot := rfl

/-! ## `setLoom` -/

@[simp] theorem setLoom_now (k : Nat) (l : Loom) (rt : Rt) : (setLoom k l rt).now = rt.now := rfl
@[simp] theorem setLoom_freeCtr (k : Nat) (l : Loom) (rt : Rt) : (setLoom k l rt).freeCtr = rt.freeCtr := rfl
@[simp] theorem setLoom_out (k : Nat) (l : Loom) (rt : Rt) : (setLoom k l rt).out = rt.out := rfl
@[simp] theorem setLoom_power (k : Nat) (l : Loom) (rt : Rt) : (setLoom k l rt).power = rt.power := rfl
@[simp] theorem setLoom_boot (k : Nat) (l : Loom) (rt : Rt) : (setLoom k l rt).boot = rt.boot := rfl
@[simp] theorem setLoom_link (k : Nat) (l : Loom) (rt : Rt) : (setLoom k l rt).link = rt.link := rfl
@[simp] theorem setLoom_rlatch (k : Nat) (l : Loom) (rt : Rt) : (setLoom k l rt).rlatch = rt.rlatch := rfl
@[simp] theorem setLoom_cageA (k : Nat) (l : Loom) (rt : Rt) : (setLoom k l rt).cageA = rt.cageA := rfl
@[simp] theorem setLoom_cageB (k : Nat) (l : Loom) (rt : Rt) : (setLoom k l rt).cageB = rt.cageB := rfl
@[simp] theorem setLoom_lc (k : Nat) (l : Loom) (rt : Rt) : (setLoom k l rt).lc = rt.lc := rfl
@[simp] theorem setLoom_fault (k : Nat) (l : Loom) (rt : Rt) : (setLoom k l rt).fault = rt.fault := rfl
@[simp] theorem setLoom_alert (k : Nat) (l : Loom) (rt : Rt) : (setLoom k l rt).alert = rt.alert := rfl
@[simp] theorem setLoom_ballast (k : Nat) (l : Loom) (rt : Rt) : (setLoom k l rt).ballast = rt.ballast := rfl
@[simp] theorem setLoom_clock (k : Nat) (l : Loom) (rt : Rt) : (setLoom k l rt).clock = rt.clock := rfl
@[simp] theorem setLoom_mint0 (k : Nat) (l : Loom) (rt : Rt) : (setLoom k l rt).mint0 = rt.mint0 := rfl
@[simp] theorem setLoom_mint1 (k : Nat) (l : Loom) (rt : Rt) : (setLoom k l rt).mint1 = rt.mint1 := rfl
@[simp] theorem setLoom_msix (k : Nat) (l : Loom) (rt : Rt) : (setLoom k l rt).msix = rt.msix := rfl
@[simp] theorem setLoom_mbx (k : Nat) (l : Loom) (rt : Rt) : (setLoom k l rt).mbx = rt.mbx := rfl
@[simp] theorem setLoom_mgrWindow (k : Nat) (l : Loom) (rt : Rt) : (setLoom k l rt).mgrWindow = rt.mgrWindow := rfl
@[simp] theorem setLoom_booths (k : Nat) (l : Loom) (rt : Rt) : (setLoom k l rt).booths = rt.booths := rfl
@[simp] theorem setLoom_cmds (k : Nat) (l : Loom) (rt : Rt) : (setLoom k l rt).cmds = rt.cmds := rfl
@[simp] theorem setLoom_bundles (k : Nat) (l : Loom) (rt : Rt) : (setLoom k l rt).bundles = rt.bundles := rfl
@[simp] theorem setLoom_epoch (k : Nat) (l : Loom) (rt : Rt) : (setLoom k l rt).epoch = rt.epoch := rfl
@[simp] theorem setLoom_disp (k : Nat) (l : Loom) (rt : Rt) : (setLoom k l rt).disp = rt.disp := rfl
@[simp] theorem setLoom_clerks (k : Nat) (l : Loom) (rt : Rt) : (setLoom k l rt).clerks = rt.clerks := rfl
@[simp] theorem setLoom_head (k : Nat) (l : Loom) (rt : Rt) : (setLoom k l rt).head = rt.head := rfl
@[simp] theorem setLoom_rooms (k : Nat) (l : Loom) (rt : Rt) : (setLoom k l rt).rooms = rt.rooms := rfl
@[simp] theorem setLoom_presses (k : Nat) (l : Loom) (rt : Rt) : (setLoom k l rt).presses = rt.presses := rfl
@[simp] theorem setLoom_hashes (k : Nat) (l : Loom) (rt : Rt) : (setLoom k l rt).hashes = rt.hashes := rfl
@[simp] theorem setLoom_reckoners (k : Nat) (l : Loom) (rt : Rt) : (setLoom k l rt).reckoners = rt.reckoners := rfl
@[simp] theorem setLoom_strong (k : Nat) (l : Loom) (rt : Rt) : (setLoom k l rt).strong = rt.strong := rfl
@[simp] theorem setLoom_cardA (k : Nat) (l : Loom) (rt : Rt) : (setLoom k l rt).cardA = rt.cardA := rfl
@[simp] theorem setLoom_cardB (k : Nat) (l : Loom) (rt : Rt) : (setLoom k l rt).cardB = rt.cardB := rfl
@[simp] theorem setLoom_cellA (k : Nat) (l : Loom) (rt : Rt) : (setLoom k l rt).cellA = rt.cellA := rfl
@[simp] theorem setLoom_cellB (k : Nat) (l : Loom) (rt : Rt) : (setLoom k l rt).cellB = rt.cellB := rfl
@[simp] theorem setLoom_window (k : Nat) (l : Loom) (rt : Rt) : (setLoom k l rt).window = rt.window := rfl
@[simp] theorem setLoom_twoKey (k : Nat) (l : Loom) (rt : Rt) : (setLoom k l rt).twoKey = rt.twoKey := rfl
@[simp] theorem setLoom_ceremony (k : Nat) (l : Loom) (rt : Rt) : (setLoom k l rt).ceremony = rt.ceremony := rfl
@[simp] theorem setLoom_waiting (k : Nat) (l : Loom) (rt : Rt) : (setLoom k l rt).waiting = rt.waiting := rfl
@[simp] theorem setLoom_net (k : Nat) (l : Loom) (rt : Rt) : (setLoom k l rt).net = rt.net := rfl
@[simp] theorem setLoom_peer (k : Nat) (l : Loom) (rt : Rt) : (setLoom k l rt).peer = rt.peer := rfl
@[simp] theorem setLoom_tally (k : Nat) (l : Loom) (rt : Rt) : (setLoom k l rt).tally = rt.tally := rfl
@[simp] theorem setLoom_bridles (k : Nat) (l : Loom) (rt : Rt) : (setLoom k l rt).bridles = rt.bridles := rfl
@[simp] theorem setLoom_fabricPerm (k : Nat) (l : Loom) (rt : Rt) : (setLoom k l rt).fabricPerm = rt.fabricPerm := rfl
@[simp] theorem setLoom_held (k : Nat) (l : Loom) (rt : Rt) : (setLoom k l rt).held = rt.held := rfl
@[simp] theorem setLoom_spdm (k : Nat) (l : Loom) (rt : Rt) : (setLoom k l rt).spdm = rt.spdm := rfl
@[simp] theorem setLoom_patterns (k : Nat) (l : Loom) (rt : Rt) : (setLoom k l rt).patterns = rt.patterns := rfl
@[simp] theorem setLoom_kdbRoot (k : Nat) (l : Loom) (rt : Rt) : (setLoom k l rt).kdbRoot = rt.kdbRoot := rfl

/-! ## `setReckoner` -/

@[simp] theorem setReckoner_now (k : Nat) (r : Reckoner) (rt : Rt) : (setReckoner k r rt).now = rt.now := rfl
@[simp] theorem setReckoner_freeCtr (k : Nat) (r : Reckoner) (rt : Rt) : (setReckoner k r rt).freeCtr = rt.freeCtr := rfl
@[simp] theorem setReckoner_out (k : Nat) (r : Reckoner) (rt : Rt) : (setReckoner k r rt).out = rt.out := rfl
@[simp] theorem setReckoner_power (k : Nat) (r : Reckoner) (rt : Rt) : (setReckoner k r rt).power = rt.power := rfl
@[simp] theorem setReckoner_boot (k : Nat) (r : Reckoner) (rt : Rt) : (setReckoner k r rt).boot = rt.boot := rfl
@[simp] theorem setReckoner_link (k : Nat) (r : Reckoner) (rt : Rt) : (setReckoner k r rt).link = rt.link := rfl
@[simp] theorem setReckoner_rlatch (k : Nat) (r : Reckoner) (rt : Rt) : (setReckoner k r rt).rlatch = rt.rlatch := rfl
@[simp] theorem setReckoner_cageA (k : Nat) (r : Reckoner) (rt : Rt) : (setReckoner k r rt).cageA = rt.cageA := rfl
@[simp] theorem setReckoner_cageB (k : Nat) (r : Reckoner) (rt : Rt) : (setReckoner k r rt).cageB = rt.cageB := rfl
@[simp] theorem setReckoner_lc (k : Nat) (r : Reckoner) (rt : Rt) : (setReckoner k r rt).lc = rt.lc := rfl
@[simp] theorem setReckoner_fault (k : Nat) (r : Reckoner) (rt : Rt) : (setReckoner k r rt).fault = rt.fault := rfl
@[simp] theorem setReckoner_alert (k : Nat) (r : Reckoner) (rt : Rt) : (setReckoner k r rt).alert = rt.alert := rfl
@[simp] theorem setReckoner_ballast (k : Nat) (r : Reckoner) (rt : Rt) : (setReckoner k r rt).ballast = rt.ballast := rfl
@[simp] theorem setReckoner_clock (k : Nat) (r : Reckoner) (rt : Rt) : (setReckoner k r rt).clock = rt.clock := rfl
@[simp] theorem setReckoner_mint0 (k : Nat) (r : Reckoner) (rt : Rt) : (setReckoner k r rt).mint0 = rt.mint0 := rfl
@[simp] theorem setReckoner_mint1 (k : Nat) (r : Reckoner) (rt : Rt) : (setReckoner k r rt).mint1 = rt.mint1 := rfl
@[simp] theorem setReckoner_msix (k : Nat) (r : Reckoner) (rt : Rt) : (setReckoner k r rt).msix = rt.msix := rfl
@[simp] theorem setReckoner_mbx (k : Nat) (r : Reckoner) (rt : Rt) : (setReckoner k r rt).mbx = rt.mbx := rfl
@[simp] theorem setReckoner_mgrWindow (k : Nat) (r : Reckoner) (rt : Rt) : (setReckoner k r rt).mgrWindow = rt.mgrWindow := rfl
@[simp] theorem setReckoner_booths (k : Nat) (r : Reckoner) (rt : Rt) : (setReckoner k r rt).booths = rt.booths := rfl
@[simp] theorem setReckoner_cmds (k : Nat) (r : Reckoner) (rt : Rt) : (setReckoner k r rt).cmds = rt.cmds := rfl
@[simp] theorem setReckoner_bundles (k : Nat) (r : Reckoner) (rt : Rt) : (setReckoner k r rt).bundles = rt.bundles := rfl
@[simp] theorem setReckoner_epoch (k : Nat) (r : Reckoner) (rt : Rt) : (setReckoner k r rt).epoch = rt.epoch := rfl
@[simp] theorem setReckoner_disp (k : Nat) (r : Reckoner) (rt : Rt) : (setReckoner k r rt).disp = rt.disp := rfl
@[simp] theorem setReckoner_clerks (k : Nat) (r : Reckoner) (rt : Rt) : (setReckoner k r rt).clerks = rt.clerks := rfl
@[simp] theorem setReckoner_head (k : Nat) (r : Reckoner) (rt : Rt) : (setReckoner k r rt).head = rt.head := rfl
@[simp] theorem setReckoner_rooms (k : Nat) (r : Reckoner) (rt : Rt) : (setReckoner k r rt).rooms = rt.rooms := rfl
@[simp] theorem setReckoner_presses (k : Nat) (r : Reckoner) (rt : Rt) : (setReckoner k r rt).presses = rt.presses := rfl
@[simp] theorem setReckoner_hashes (k : Nat) (r : Reckoner) (rt : Rt) : (setReckoner k r rt).hashes = rt.hashes := rfl
@[simp] theorem setReckoner_looms (k : Nat) (r : Reckoner) (rt : Rt) : (setReckoner k r rt).looms = rt.looms := rfl
@[simp] theorem setReckoner_strong (k : Nat) (r : Reckoner) (rt : Rt) : (setReckoner k r rt).strong = rt.strong := rfl
@[simp] theorem setReckoner_cardA (k : Nat) (r : Reckoner) (rt : Rt) : (setReckoner k r rt).cardA = rt.cardA := rfl
@[simp] theorem setReckoner_cardB (k : Nat) (r : Reckoner) (rt : Rt) : (setReckoner k r rt).cardB = rt.cardB := rfl
@[simp] theorem setReckoner_cellA (k : Nat) (r : Reckoner) (rt : Rt) : (setReckoner k r rt).cellA = rt.cellA := rfl
@[simp] theorem setReckoner_cellB (k : Nat) (r : Reckoner) (rt : Rt) : (setReckoner k r rt).cellB = rt.cellB := rfl
@[simp] theorem setReckoner_window (k : Nat) (r : Reckoner) (rt : Rt) : (setReckoner k r rt).window = rt.window := rfl
@[simp] theorem setReckoner_twoKey (k : Nat) (r : Reckoner) (rt : Rt) : (setReckoner k r rt).twoKey = rt.twoKey := rfl
@[simp] theorem setReckoner_ceremony (k : Nat) (r : Reckoner) (rt : Rt) : (setReckoner k r rt).ceremony = rt.ceremony := rfl
@[simp] theorem setReckoner_waiting (k : Nat) (r : Reckoner) (rt : Rt) : (setReckoner k r rt).waiting = rt.waiting := rfl
@[simp] theorem setReckoner_net (k : Nat) (r : Reckoner) (rt : Rt) : (setReckoner k r rt).net = rt.net := rfl
@[simp] theorem setReckoner_peer (k : Nat) (r : Reckoner) (rt : Rt) : (setReckoner k r rt).peer = rt.peer := rfl
@[simp] theorem setReckoner_tally (k : Nat) (r : Reckoner) (rt : Rt) : (setReckoner k r rt).tally = rt.tally := rfl
@[simp] theorem setReckoner_bridles (k : Nat) (r : Reckoner) (rt : Rt) : (setReckoner k r rt).bridles = rt.bridles := rfl
@[simp] theorem setReckoner_fabricPerm (k : Nat) (r : Reckoner) (rt : Rt) : (setReckoner k r rt).fabricPerm = rt.fabricPerm := rfl
@[simp] theorem setReckoner_held (k : Nat) (r : Reckoner) (rt : Rt) : (setReckoner k r rt).held = rt.held := rfl
@[simp] theorem setReckoner_spdm (k : Nat) (r : Reckoner) (rt : Rt) : (setReckoner k r rt).spdm = rt.spdm := rfl
@[simp] theorem setReckoner_patterns (k : Nat) (r : Reckoner) (rt : Rt) : (setReckoner k r rt).patterns = rt.patterns := rfl
@[simp] theorem setReckoner_kdbRoot (k : Nat) (r : Reckoner) (rt : Rt) : (setReckoner k r rt).kdbRoot = rt.kdbRoot := rfl

/-! ## `setRoom` -/

@[simp] theorem setRoom_now (k : Nat) (r : Room) (rt : Rt) : (setRoom k r rt).now = rt.now := rfl
@[simp] theorem setRoom_freeCtr (k : Nat) (r : Room) (rt : Rt) : (setRoom k r rt).freeCtr = rt.freeCtr := rfl
@[simp] theorem setRoom_out (k : Nat) (r : Room) (rt : Rt) : (setRoom k r rt).out = rt.out := rfl
@[simp] theorem setRoom_power (k : Nat) (r : Room) (rt : Rt) : (setRoom k r rt).power = rt.power := rfl
@[simp] theorem setRoom_boot (k : Nat) (r : Room) (rt : Rt) : (setRoom k r rt).boot = rt.boot := rfl
@[simp] theorem setRoom_link (k : Nat) (r : Room) (rt : Rt) : (setRoom k r rt).link = rt.link := rfl
@[simp] theorem setRoom_rlatch (k : Nat) (r : Room) (rt : Rt) : (setRoom k r rt).rlatch = rt.rlatch := rfl
@[simp] theorem setRoom_cageA (k : Nat) (r : Room) (rt : Rt) : (setRoom k r rt).cageA = rt.cageA := rfl
@[simp] theorem setRoom_cageB (k : Nat) (r : Room) (rt : Rt) : (setRoom k r rt).cageB = rt.cageB := rfl
@[simp] theorem setRoom_lc (k : Nat) (r : Room) (rt : Rt) : (setRoom k r rt).lc = rt.lc := rfl
@[simp] theorem setRoom_fault (k : Nat) (r : Room) (rt : Rt) : (setRoom k r rt).fault = rt.fault := rfl
@[simp] theorem setRoom_alert (k : Nat) (r : Room) (rt : Rt) : (setRoom k r rt).alert = rt.alert := rfl
@[simp] theorem setRoom_ballast (k : Nat) (r : Room) (rt : Rt) : (setRoom k r rt).ballast = rt.ballast := rfl
@[simp] theorem setRoom_clock (k : Nat) (r : Room) (rt : Rt) : (setRoom k r rt).clock = rt.clock := rfl
@[simp] theorem setRoom_mint0 (k : Nat) (r : Room) (rt : Rt) : (setRoom k r rt).mint0 = rt.mint0 := rfl
@[simp] theorem setRoom_mint1 (k : Nat) (r : Room) (rt : Rt) : (setRoom k r rt).mint1 = rt.mint1 := rfl
@[simp] theorem setRoom_msix (k : Nat) (r : Room) (rt : Rt) : (setRoom k r rt).msix = rt.msix := rfl
@[simp] theorem setRoom_mbx (k : Nat) (r : Room) (rt : Rt) : (setRoom k r rt).mbx = rt.mbx := rfl
@[simp] theorem setRoom_mgrWindow (k : Nat) (r : Room) (rt : Rt) : (setRoom k r rt).mgrWindow = rt.mgrWindow := rfl
@[simp] theorem setRoom_booths (k : Nat) (r : Room) (rt : Rt) : (setRoom k r rt).booths = rt.booths := rfl
@[simp] theorem setRoom_cmds (k : Nat) (r : Room) (rt : Rt) : (setRoom k r rt).cmds = rt.cmds := rfl
@[simp] theorem setRoom_bundles (k : Nat) (r : Room) (rt : Rt) : (setRoom k r rt).bundles = rt.bundles := rfl
@[simp] theorem setRoom_epoch (k : Nat) (r : Room) (rt : Rt) : (setRoom k r rt).epoch = rt.epoch := rfl
@[simp] theorem setRoom_disp (k : Nat) (r : Room) (rt : Rt) : (setRoom k r rt).disp = rt.disp := rfl
@[simp] theorem setRoom_clerks (k : Nat) (r : Room) (rt : Rt) : (setRoom k r rt).clerks = rt.clerks := rfl
@[simp] theorem setRoom_head (k : Nat) (r : Room) (rt : Rt) : (setRoom k r rt).head = rt.head := rfl
@[simp] theorem setRoom_presses (k : Nat) (r : Room) (rt : Rt) : (setRoom k r rt).presses = rt.presses := rfl
@[simp] theorem setRoom_hashes (k : Nat) (r : Room) (rt : Rt) : (setRoom k r rt).hashes = rt.hashes := rfl
@[simp] theorem setRoom_looms (k : Nat) (r : Room) (rt : Rt) : (setRoom k r rt).looms = rt.looms := rfl
@[simp] theorem setRoom_reckoners (k : Nat) (r : Room) (rt : Rt) : (setRoom k r rt).reckoners = rt.reckoners := rfl
@[simp] theorem setRoom_strong (k : Nat) (r : Room) (rt : Rt) : (setRoom k r rt).strong = rt.strong := rfl
@[simp] theorem setRoom_cardA (k : Nat) (r : Room) (rt : Rt) : (setRoom k r rt).cardA = rt.cardA := rfl
@[simp] theorem setRoom_cardB (k : Nat) (r : Room) (rt : Rt) : (setRoom k r rt).cardB = rt.cardB := rfl
@[simp] theorem setRoom_cellA (k : Nat) (r : Room) (rt : Rt) : (setRoom k r rt).cellA = rt.cellA := rfl
@[simp] theorem setRoom_cellB (k : Nat) (r : Room) (rt : Rt) : (setRoom k r rt).cellB = rt.cellB := rfl
@[simp] theorem setRoom_window (k : Nat) (r : Room) (rt : Rt) : (setRoom k r rt).window = rt.window := rfl
@[simp] theorem setRoom_twoKey (k : Nat) (r : Room) (rt : Rt) : (setRoom k r rt).twoKey = rt.twoKey := rfl
@[simp] theorem setRoom_ceremony (k : Nat) (r : Room) (rt : Rt) : (setRoom k r rt).ceremony = rt.ceremony := rfl
@[simp] theorem setRoom_waiting (k : Nat) (r : Room) (rt : Rt) : (setRoom k r rt).waiting = rt.waiting := rfl
@[simp] theorem setRoom_net (k : Nat) (r : Room) (rt : Rt) : (setRoom k r rt).net = rt.net := rfl
@[simp] theorem setRoom_peer (k : Nat) (r : Room) (rt : Rt) : (setRoom k r rt).peer = rt.peer := rfl
@[simp] theorem setRoom_tally (k : Nat) (r : Room) (rt : Rt) : (setRoom k r rt).tally = rt.tally := rfl
@[simp] theorem setRoom_bridles (k : Nat) (r : Room) (rt : Rt) : (setRoom k r rt).bridles = rt.bridles := rfl
@[simp] theorem setRoom_fabricPerm (k : Nat) (r : Room) (rt : Rt) : (setRoom k r rt).fabricPerm = rt.fabricPerm := rfl
@[simp] theorem setRoom_held (k : Nat) (r : Room) (rt : Rt) : (setRoom k r rt).held = rt.held := rfl
@[simp] theorem setRoom_spdm (k : Nat) (r : Room) (rt : Rt) : (setRoom k r rt).spdm = rt.spdm := rfl
@[simp] theorem setRoom_patterns (k : Nat) (r : Room) (rt : Rt) : (setRoom k r rt).patterns = rt.patterns := rfl
@[simp] theorem setRoom_kdbRoot (k : Nat) (r : Room) (rt : Rt) : (setRoom k r rt).kdbRoot = rt.kdbRoot := rfl

/-! ## `emit` -/

@[simp] theorem emit_now (o : Out) (rt : Rt) : (emit o rt).now = rt.now := rfl
@[simp] theorem emit_freeCtr (o : Out) (rt : Rt) : (emit o rt).freeCtr = rt.freeCtr := rfl
@[simp] theorem emit_power (o : Out) (rt : Rt) : (emit o rt).power = rt.power := rfl
@[simp] theorem emit_boot (o : Out) (rt : Rt) : (emit o rt).boot = rt.boot := rfl
@[simp] theorem emit_link (o : Out) (rt : Rt) : (emit o rt).link = rt.link := rfl
@[simp] theorem emit_rlatch (o : Out) (rt : Rt) : (emit o rt).rlatch = rt.rlatch := rfl
@[simp] theorem emit_cageA (o : Out) (rt : Rt) : (emit o rt).cageA = rt.cageA := rfl
@[simp] theorem emit_cageB (o : Out) (rt : Rt) : (emit o rt).cageB = rt.cageB := rfl
@[simp] theorem emit_lc (o : Out) (rt : Rt) : (emit o rt).lc = rt.lc := rfl
@[simp] theorem emit_fault (o : Out) (rt : Rt) : (emit o rt).fault = rt.fault := rfl
@[simp] theorem emit_alert (o : Out) (rt : Rt) : (emit o rt).alert = rt.alert := rfl
@[simp] theorem emit_ballast (o : Out) (rt : Rt) : (emit o rt).ballast = rt.ballast := rfl
@[simp] theorem emit_clock (o : Out) (rt : Rt) : (emit o rt).clock = rt.clock := rfl
@[simp] theorem emit_mint0 (o : Out) (rt : Rt) : (emit o rt).mint0 = rt.mint0 := rfl
@[simp] theorem emit_mint1 (o : Out) (rt : Rt) : (emit o rt).mint1 = rt.mint1 := rfl
@[simp] theorem emit_msix (o : Out) (rt : Rt) : (emit o rt).msix = rt.msix := rfl
@[simp] theorem emit_mbx (o : Out) (rt : Rt) : (emit o rt).mbx = rt.mbx := rfl
@[simp] theorem emit_mgrWindow (o : Out) (rt : Rt) : (emit o rt).mgrWindow = rt.mgrWindow := rfl
@[simp] theorem emit_booths (o : Out) (rt : Rt) : (emit o rt).booths = rt.booths := rfl
@[simp] theorem emit_cmds (o : Out) (rt : Rt) : (emit o rt).cmds = rt.cmds := rfl
@[simp] theorem emit_bundles (o : Out) (rt : Rt) : (emit o rt).bundles = rt.bundles := rfl
@[simp] theorem emit_epoch (o : Out) (rt : Rt) : (emit o rt).epoch = rt.epoch := rfl
@[simp] theorem emit_disp (o : Out) (rt : Rt) : (emit o rt).disp = rt.disp := rfl
@[simp] theorem emit_clerks (o : Out) (rt : Rt) : (emit o rt).clerks = rt.clerks := rfl
@[simp] theorem emit_head (o : Out) (rt : Rt) : (emit o rt).head = rt.head := rfl
@[simp] theorem emit_rooms (o : Out) (rt : Rt) : (emit o rt).rooms = rt.rooms := rfl
@[simp] theorem emit_presses (o : Out) (rt : Rt) : (emit o rt).presses = rt.presses := rfl
@[simp] theorem emit_hashes (o : Out) (rt : Rt) : (emit o rt).hashes = rt.hashes := rfl
@[simp] theorem emit_looms (o : Out) (rt : Rt) : (emit o rt).looms = rt.looms := rfl
@[simp] theorem emit_reckoners (o : Out) (rt : Rt) : (emit o rt).reckoners = rt.reckoners := rfl
@[simp] theorem emit_strong (o : Out) (rt : Rt) : (emit o rt).strong = rt.strong := rfl
@[simp] theorem emit_cardA (o : Out) (rt : Rt) : (emit o rt).cardA = rt.cardA := rfl
@[simp] theorem emit_cardB (o : Out) (rt : Rt) : (emit o rt).cardB = rt.cardB := rfl
@[simp] theorem emit_cellA (o : Out) (rt : Rt) : (emit o rt).cellA = rt.cellA := rfl
@[simp] theorem emit_cellB (o : Out) (rt : Rt) : (emit o rt).cellB = rt.cellB := rfl
@[simp] theorem emit_window (o : Out) (rt : Rt) : (emit o rt).window = rt.window := rfl
@[simp] theorem emit_twoKey (o : Out) (rt : Rt) : (emit o rt).twoKey = rt.twoKey := rfl
@[simp] theorem emit_ceremony (o : Out) (rt : Rt) : (emit o rt).ceremony = rt.ceremony := rfl
@[simp] theorem emit_waiting (o : Out) (rt : Rt) : (emit o rt).waiting = rt.waiting := rfl
@[simp] theorem emit_net (o : Out) (rt : Rt) : (emit o rt).net = rt.net := rfl
@[simp] theorem emit_peer (o : Out) (rt : Rt) : (emit o rt).peer = rt.peer := rfl
@[simp] theorem emit_tally (o : Out) (rt : Rt) : (emit o rt).tally = rt.tally := rfl
@[simp] theorem emit_bridles (o : Out) (rt : Rt) : (emit o rt).bridles = rt.bridles := rfl
@[simp] theorem emit_fabricPerm (o : Out) (rt : Rt) : (emit o rt).fabricPerm = rt.fabricPerm := rfl
@[simp] theorem emit_held (o : Out) (rt : Rt) : (emit o rt).held = rt.held := rfl
@[simp] theorem emit_spdm (o : Out) (rt : Rt) : (emit o rt).spdm = rt.spdm := rfl
@[simp] theorem emit_patterns (o : Out) (rt : Rt) : (emit o rt).patterns = rt.patterns := rfl
@[simp] theorem emit_kdbRoot (o : Out) (rt : Rt) : (emit o rt).kdbRoot = rt.kdbRoot := rfl

/-! ## `modCmd` -/

@[simp] theorem modCmd_now (id : CmdId) (f : Cmd → Cmd) (rt : Rt) : (modCmd id f rt).now = rt.now := rfl
@[simp] theorem modCmd_freeCtr (id : CmdId) (f : Cmd → Cmd) (rt : Rt) : (modCmd id f rt).freeCtr = rt.freeCtr := rfl
@[simp] theorem modCmd_out (id : CmdId) (f : Cmd → Cmd) (rt : Rt) : (modCmd id f rt).out = rt.out := rfl
@[simp] theorem modCmd_power (id : CmdId) (f : Cmd → Cmd) (rt : Rt) : (modCmd id f rt).power = rt.power := rfl
@[simp] theorem modCmd_boot (id : CmdId) (f : Cmd → Cmd) (rt : Rt) : (modCmd id f rt).boot = rt.boot := rfl
@[simp] theorem modCmd_link (id : CmdId) (f : Cmd → Cmd) (rt : Rt) : (modCmd id f rt).link = rt.link := rfl
@[simp] theorem modCmd_rlatch (id : CmdId) (f : Cmd → Cmd) (rt : Rt) : (modCmd id f rt).rlatch = rt.rlatch := rfl
@[simp] theorem modCmd_cageA (id : CmdId) (f : Cmd → Cmd) (rt : Rt) : (modCmd id f rt).cageA = rt.cageA := rfl
@[simp] theorem modCmd_cageB (id : CmdId) (f : Cmd → Cmd) (rt : Rt) : (modCmd id f rt).cageB = rt.cageB := rfl
@[simp] theorem modCmd_lc (id : CmdId) (f : Cmd → Cmd) (rt : Rt) : (modCmd id f rt).lc = rt.lc := rfl
@[simp] theorem modCmd_fault (id : CmdId) (f : Cmd → Cmd) (rt : Rt) : (modCmd id f rt).fault = rt.fault := rfl
@[simp] theorem modCmd_alert (id : CmdId) (f : Cmd → Cmd) (rt : Rt) : (modCmd id f rt).alert = rt.alert := rfl
@[simp] theorem modCmd_ballast (id : CmdId) (f : Cmd → Cmd) (rt : Rt) : (modCmd id f rt).ballast = rt.ballast := rfl
@[simp] theorem modCmd_clock (id : CmdId) (f : Cmd → Cmd) (rt : Rt) : (modCmd id f rt).clock = rt.clock := rfl
@[simp] theorem modCmd_mint0 (id : CmdId) (f : Cmd → Cmd) (rt : Rt) : (modCmd id f rt).mint0 = rt.mint0 := rfl
@[simp] theorem modCmd_mint1 (id : CmdId) (f : Cmd → Cmd) (rt : Rt) : (modCmd id f rt).mint1 = rt.mint1 := rfl
@[simp] theorem modCmd_msix (id : CmdId) (f : Cmd → Cmd) (rt : Rt) : (modCmd id f rt).msix = rt.msix := rfl
@[simp] theorem modCmd_mbx (id : CmdId) (f : Cmd → Cmd) (rt : Rt) : (modCmd id f rt).mbx = rt.mbx := rfl
@[simp] theorem modCmd_mgrWindow (id : CmdId) (f : Cmd → Cmd) (rt : Rt) : (modCmd id f rt).mgrWindow = rt.mgrWindow := rfl
@[simp] theorem modCmd_booths (id : CmdId) (f : Cmd → Cmd) (rt : Rt) : (modCmd id f rt).booths = rt.booths := rfl
@[simp] theorem modCmd_bundles (id : CmdId) (f : Cmd → Cmd) (rt : Rt) : (modCmd id f rt).bundles = rt.bundles := rfl
@[simp] theorem modCmd_epoch (id : CmdId) (f : Cmd → Cmd) (rt : Rt) : (modCmd id f rt).epoch = rt.epoch := rfl
@[simp] theorem modCmd_disp (id : CmdId) (f : Cmd → Cmd) (rt : Rt) : (modCmd id f rt).disp = rt.disp := rfl
@[simp] theorem modCmd_clerks (id : CmdId) (f : Cmd → Cmd) (rt : Rt) : (modCmd id f rt).clerks = rt.clerks := rfl
@[simp] theorem modCmd_head (id : CmdId) (f : Cmd → Cmd) (rt : Rt) : (modCmd id f rt).head = rt.head := rfl
@[simp] theorem modCmd_rooms (id : CmdId) (f : Cmd → Cmd) (rt : Rt) : (modCmd id f rt).rooms = rt.rooms := rfl
@[simp] theorem modCmd_presses (id : CmdId) (f : Cmd → Cmd) (rt : Rt) : (modCmd id f rt).presses = rt.presses := rfl
@[simp] theorem modCmd_hashes (id : CmdId) (f : Cmd → Cmd) (rt : Rt) : (modCmd id f rt).hashes = rt.hashes := rfl
@[simp] theorem modCmd_looms (id : CmdId) (f : Cmd → Cmd) (rt : Rt) : (modCmd id f rt).looms = rt.looms := rfl
@[simp] theorem modCmd_reckoners (id : CmdId) (f : Cmd → Cmd) (rt : Rt) : (modCmd id f rt).reckoners = rt.reckoners := rfl
@[simp] theorem modCmd_strong (id : CmdId) (f : Cmd → Cmd) (rt : Rt) : (modCmd id f rt).strong = rt.strong := rfl
@[simp] theorem modCmd_cardA (id : CmdId) (f : Cmd → Cmd) (rt : Rt) : (modCmd id f rt).cardA = rt.cardA := rfl
@[simp] theorem modCmd_cardB (id : CmdId) (f : Cmd → Cmd) (rt : Rt) : (modCmd id f rt).cardB = rt.cardB := rfl
@[simp] theorem modCmd_cellA (id : CmdId) (f : Cmd → Cmd) (rt : Rt) : (modCmd id f rt).cellA = rt.cellA := rfl
@[simp] theorem modCmd_cellB (id : CmdId) (f : Cmd → Cmd) (rt : Rt) : (modCmd id f rt).cellB = rt.cellB := rfl
@[simp] theorem modCmd_window (id : CmdId) (f : Cmd → Cmd) (rt : Rt) : (modCmd id f rt).window = rt.window := rfl
@[simp] theorem modCmd_twoKey (id : CmdId) (f : Cmd → Cmd) (rt : Rt) : (modCmd id f rt).twoKey = rt.twoKey := rfl
@[simp] theorem modCmd_ceremony (id : CmdId) (f : Cmd → Cmd) (rt : Rt) : (modCmd id f rt).ceremony = rt.ceremony := rfl
@[simp] theorem modCmd_waiting (id : CmdId) (f : Cmd → Cmd) (rt : Rt) : (modCmd id f rt).waiting = rt.waiting := rfl
@[simp] theorem modCmd_net (id : CmdId) (f : Cmd → Cmd) (rt : Rt) : (modCmd id f rt).net = rt.net := rfl
@[simp] theorem modCmd_peer (id : CmdId) (f : Cmd → Cmd) (rt : Rt) : (modCmd id f rt).peer = rt.peer := rfl
@[simp] theorem modCmd_tally (id : CmdId) (f : Cmd → Cmd) (rt : Rt) : (modCmd id f rt).tally = rt.tally := rfl
@[simp] theorem modCmd_bridles (id : CmdId) (f : Cmd → Cmd) (rt : Rt) : (modCmd id f rt).bridles = rt.bridles := rfl
@[simp] theorem modCmd_fabricPerm (id : CmdId) (f : Cmd → Cmd) (rt : Rt) : (modCmd id f rt).fabricPerm = rt.fabricPerm := rfl
@[simp] theorem modCmd_held (id : CmdId) (f : Cmd → Cmd) (rt : Rt) : (modCmd id f rt).held = rt.held := rfl
@[simp] theorem modCmd_spdm (id : CmdId) (f : Cmd → Cmd) (rt : Rt) : (modCmd id f rt).spdm = rt.spdm := rfl
@[simp] theorem modCmd_patterns (id : CmdId) (f : Cmd → Cmd) (rt : Rt) : (modCmd id f rt).patterns = rt.patterns := rfl
@[simp] theorem modCmd_kdbRoot (id : CmdId) (f : Cmd → Cmd) (rt : Rt) : (modCmd id f rt).kdbRoot = rt.kdbRoot := rfl

/-! ## `modBooth` -/

@[simp] theorem modBooth_now (b : Nat) (f : Booth → Booth) (rt : Rt) : (modBooth b f rt).now = rt.now := rfl
@[simp] theorem modBooth_freeCtr (b : Nat) (f : Booth → Booth) (rt : Rt) : (modBooth b f rt).freeCtr = rt.freeCtr := rfl
@[simp] theorem modBooth_out (b : Nat) (f : Booth → Booth) (rt : Rt) : (modBooth b f rt).out = rt.out := rfl
@[simp] theorem modBooth_power (b : Nat) (f : Booth → Booth) (rt : Rt) : (modBooth b f rt).power = rt.power := rfl
@[simp] theorem modBooth_boot (b : Nat) (f : Booth → Booth) (rt : Rt) : (modBooth b f rt).boot = rt.boot := rfl
@[simp] theorem modBooth_link (b : Nat) (f : Booth → Booth) (rt : Rt) : (modBooth b f rt).link = rt.link := rfl
@[simp] theorem modBooth_rlatch (b : Nat) (f : Booth → Booth) (rt : Rt) : (modBooth b f rt).rlatch = rt.rlatch := rfl
@[simp] theorem modBooth_cageA (b : Nat) (f : Booth → Booth) (rt : Rt) : (modBooth b f rt).cageA = rt.cageA := rfl
@[simp] theorem modBooth_cageB (b : Nat) (f : Booth → Booth) (rt : Rt) : (modBooth b f rt).cageB = rt.cageB := rfl
@[simp] theorem modBooth_lc (b : Nat) (f : Booth → Booth) (rt : Rt) : (modBooth b f rt).lc = rt.lc := rfl
@[simp] theorem modBooth_fault (b : Nat) (f : Booth → Booth) (rt : Rt) : (modBooth b f rt).fault = rt.fault := rfl
@[simp] theorem modBooth_alert (b : Nat) (f : Booth → Booth) (rt : Rt) : (modBooth b f rt).alert = rt.alert := rfl
@[simp] theorem modBooth_ballast (b : Nat) (f : Booth → Booth) (rt : Rt) : (modBooth b f rt).ballast = rt.ballast := rfl
@[simp] theorem modBooth_clock (b : Nat) (f : Booth → Booth) (rt : Rt) : (modBooth b f rt).clock = rt.clock := rfl
@[simp] theorem modBooth_mint0 (b : Nat) (f : Booth → Booth) (rt : Rt) : (modBooth b f rt).mint0 = rt.mint0 := rfl
@[simp] theorem modBooth_mint1 (b : Nat) (f : Booth → Booth) (rt : Rt) : (modBooth b f rt).mint1 = rt.mint1 := rfl
@[simp] theorem modBooth_msix (b : Nat) (f : Booth → Booth) (rt : Rt) : (modBooth b f rt).msix = rt.msix := rfl
@[simp] theorem modBooth_mbx (b : Nat) (f : Booth → Booth) (rt : Rt) : (modBooth b f rt).mbx = rt.mbx := rfl
@[simp] theorem modBooth_mgrWindow (b : Nat) (f : Booth → Booth) (rt : Rt) : (modBooth b f rt).mgrWindow = rt.mgrWindow := rfl
@[simp] theorem modBooth_cmds (b : Nat) (f : Booth → Booth) (rt : Rt) : (modBooth b f rt).cmds = rt.cmds := rfl
@[simp] theorem modBooth_bundles (b : Nat) (f : Booth → Booth) (rt : Rt) : (modBooth b f rt).bundles = rt.bundles := rfl
@[simp] theorem modBooth_epoch (b : Nat) (f : Booth → Booth) (rt : Rt) : (modBooth b f rt).epoch = rt.epoch := rfl
@[simp] theorem modBooth_disp (b : Nat) (f : Booth → Booth) (rt : Rt) : (modBooth b f rt).disp = rt.disp := rfl
@[simp] theorem modBooth_clerks (b : Nat) (f : Booth → Booth) (rt : Rt) : (modBooth b f rt).clerks = rt.clerks := rfl
@[simp] theorem modBooth_head (b : Nat) (f : Booth → Booth) (rt : Rt) : (modBooth b f rt).head = rt.head := rfl
@[simp] theorem modBooth_rooms (b : Nat) (f : Booth → Booth) (rt : Rt) : (modBooth b f rt).rooms = rt.rooms := rfl
@[simp] theorem modBooth_presses (b : Nat) (f : Booth → Booth) (rt : Rt) : (modBooth b f rt).presses = rt.presses := rfl
@[simp] theorem modBooth_hashes (b : Nat) (f : Booth → Booth) (rt : Rt) : (modBooth b f rt).hashes = rt.hashes := rfl
@[simp] theorem modBooth_looms (b : Nat) (f : Booth → Booth) (rt : Rt) : (modBooth b f rt).looms = rt.looms := rfl
@[simp] theorem modBooth_reckoners (b : Nat) (f : Booth → Booth) (rt : Rt) : (modBooth b f rt).reckoners = rt.reckoners := rfl
@[simp] theorem modBooth_strong (b : Nat) (f : Booth → Booth) (rt : Rt) : (modBooth b f rt).strong = rt.strong := rfl
@[simp] theorem modBooth_cardA (b : Nat) (f : Booth → Booth) (rt : Rt) : (modBooth b f rt).cardA = rt.cardA := rfl
@[simp] theorem modBooth_cardB (b : Nat) (f : Booth → Booth) (rt : Rt) : (modBooth b f rt).cardB = rt.cardB := rfl
@[simp] theorem modBooth_cellA (b : Nat) (f : Booth → Booth) (rt : Rt) : (modBooth b f rt).cellA = rt.cellA := rfl
@[simp] theorem modBooth_cellB (b : Nat) (f : Booth → Booth) (rt : Rt) : (modBooth b f rt).cellB = rt.cellB := rfl
@[simp] theorem modBooth_window (b : Nat) (f : Booth → Booth) (rt : Rt) : (modBooth b f rt).window = rt.window := rfl
@[simp] theorem modBooth_twoKey (b : Nat) (f : Booth → Booth) (rt : Rt) : (modBooth b f rt).twoKey = rt.twoKey := rfl
@[simp] theorem modBooth_ceremony (b : Nat) (f : Booth → Booth) (rt : Rt) : (modBooth b f rt).ceremony = rt.ceremony := rfl
@[simp] theorem modBooth_waiting (b : Nat) (f : Booth → Booth) (rt : Rt) : (modBooth b f rt).waiting = rt.waiting := rfl
@[simp] theorem modBooth_net (b : Nat) (f : Booth → Booth) (rt : Rt) : (modBooth b f rt).net = rt.net := rfl
@[simp] theorem modBooth_peer (b : Nat) (f : Booth → Booth) (rt : Rt) : (modBooth b f rt).peer = rt.peer := rfl
@[simp] theorem modBooth_tally (b : Nat) (f : Booth → Booth) (rt : Rt) : (modBooth b f rt).tally = rt.tally := rfl
@[simp] theorem modBooth_bridles (b : Nat) (f : Booth → Booth) (rt : Rt) : (modBooth b f rt).bridles = rt.bridles := rfl
@[simp] theorem modBooth_fabricPerm (b : Nat) (f : Booth → Booth) (rt : Rt) : (modBooth b f rt).fabricPerm = rt.fabricPerm := rfl
@[simp] theorem modBooth_held (b : Nat) (f : Booth → Booth) (rt : Rt) : (modBooth b f rt).held = rt.held := rfl
@[simp] theorem modBooth_spdm (b : Nat) (f : Booth → Booth) (rt : Rt) : (modBooth b f rt).spdm = rt.spdm := rfl
@[simp] theorem modBooth_patterns (b : Nat) (f : Booth → Booth) (rt : Rt) : (modBooth b f rt).patterns = rt.patterns := rfl
@[simp] theorem modBooth_kdbRoot (b : Nat) (f : Booth → Booth) (rt : Rt) : (modBooth b f rt).kdbRoot = rt.kdbRoot := rfl

/-! ## `setCom` -/

@[simp] theorem setCom_now (e : EngineRef) (x : EngCom) (rt : Rt) : (setCom e x rt).now = rt.now := by
  unfold setCom; split <;> rfl
@[simp] theorem setCom_freeCtr (e : EngineRef) (x : EngCom) (rt : Rt) : (setCom e x rt).freeCtr = rt.freeCtr := by
  unfold setCom; split <;> rfl
@[simp] theorem setCom_out (e : EngineRef) (x : EngCom) (rt : Rt) : (setCom e x rt).out = rt.out := by
  unfold setCom; split <;> rfl
@[simp] theorem setCom_power (e : EngineRef) (x : EngCom) (rt : Rt) : (setCom e x rt).power = rt.power := by
  unfold setCom; split <;> rfl
@[simp] theorem setCom_boot (e : EngineRef) (x : EngCom) (rt : Rt) : (setCom e x rt).boot = rt.boot := by
  unfold setCom; split <;> rfl
@[simp] theorem setCom_link (e : EngineRef) (x : EngCom) (rt : Rt) : (setCom e x rt).link = rt.link := by
  unfold setCom; split <;> rfl
@[simp] theorem setCom_rlatch (e : EngineRef) (x : EngCom) (rt : Rt) : (setCom e x rt).rlatch = rt.rlatch := by
  unfold setCom; split <;> rfl
@[simp] theorem setCom_cageA (e : EngineRef) (x : EngCom) (rt : Rt) : (setCom e x rt).cageA = rt.cageA := by
  unfold setCom; split <;> rfl
@[simp] theorem setCom_cageB (e : EngineRef) (x : EngCom) (rt : Rt) : (setCom e x rt).cageB = rt.cageB := by
  unfold setCom; split <;> rfl
@[simp] theorem setCom_lc (e : EngineRef) (x : EngCom) (rt : Rt) : (setCom e x rt).lc = rt.lc := by
  unfold setCom; split <;> rfl
@[simp] theorem setCom_fault (e : EngineRef) (x : EngCom) (rt : Rt) : (setCom e x rt).fault = rt.fault := by
  unfold setCom; split <;> rfl
@[simp] theorem setCom_alert (e : EngineRef) (x : EngCom) (rt : Rt) : (setCom e x rt).alert = rt.alert := by
  unfold setCom; split <;> rfl
@[simp] theorem setCom_ballast (e : EngineRef) (x : EngCom) (rt : Rt) : (setCom e x rt).ballast = rt.ballast := by
  unfold setCom; split <;> rfl
@[simp] theorem setCom_clock (e : EngineRef) (x : EngCom) (rt : Rt) : (setCom e x rt).clock = rt.clock := by
  unfold setCom; split <;> rfl
@[simp] theorem setCom_mint0 (e : EngineRef) (x : EngCom) (rt : Rt) : (setCom e x rt).mint0 = rt.mint0 := by
  unfold setCom; split <;> rfl
@[simp] theorem setCom_mint1 (e : EngineRef) (x : EngCom) (rt : Rt) : (setCom e x rt).mint1 = rt.mint1 := by
  unfold setCom; split <;> rfl
@[simp] theorem setCom_msix (e : EngineRef) (x : EngCom) (rt : Rt) : (setCom e x rt).msix = rt.msix := by
  unfold setCom; split <;> rfl
@[simp] theorem setCom_mbx (e : EngineRef) (x : EngCom) (rt : Rt) : (setCom e x rt).mbx = rt.mbx := by
  unfold setCom; split <;> rfl
@[simp] theorem setCom_mgrWindow (e : EngineRef) (x : EngCom) (rt : Rt) : (setCom e x rt).mgrWindow = rt.mgrWindow := by
  unfold setCom; split <;> rfl
@[simp] theorem setCom_booths (e : EngineRef) (x : EngCom) (rt : Rt) : (setCom e x rt).booths = rt.booths := by
  unfold setCom; split <;> rfl
@[simp] theorem setCom_cmds (e : EngineRef) (x : EngCom) (rt : Rt) : (setCom e x rt).cmds = rt.cmds := by
  unfold setCom; split <;> rfl
@[simp] theorem setCom_bundles (e : EngineRef) (x : EngCom) (rt : Rt) : (setCom e x rt).bundles = rt.bundles := by
  unfold setCom; split <;> rfl
@[simp] theorem setCom_epoch (e : EngineRef) (x : EngCom) (rt : Rt) : (setCom e x rt).epoch = rt.epoch := by
  unfold setCom; split <;> rfl
@[simp] theorem setCom_disp (e : EngineRef) (x : EngCom) (rt : Rt) : (setCom e x rt).disp = rt.disp := by
  unfold setCom; split <;> rfl
@[simp] theorem setCom_clerks (e : EngineRef) (x : EngCom) (rt : Rt) : (setCom e x rt).clerks = rt.clerks := by
  unfold setCom; split <;> rfl
@[simp] theorem setCom_head (e : EngineRef) (x : EngCom) (rt : Rt) : (setCom e x rt).head = rt.head := by
  unfold setCom; split <;> rfl
@[simp] theorem setCom_rooms (e : EngineRef) (x : EngCom) (rt : Rt) : (setCom e x rt).rooms = rt.rooms := by
  unfold setCom; split <;> rfl
@[simp] theorem setCom_strong (e : EngineRef) (x : EngCom) (rt : Rt) : (setCom e x rt).strong = rt.strong := by
  unfold setCom; split <;> rfl
@[simp] theorem setCom_cardA (e : EngineRef) (x : EngCom) (rt : Rt) : (setCom e x rt).cardA = rt.cardA := by
  unfold setCom; split <;> rfl
@[simp] theorem setCom_cardB (e : EngineRef) (x : EngCom) (rt : Rt) : (setCom e x rt).cardB = rt.cardB := by
  unfold setCom; split <;> rfl
@[simp] theorem setCom_cellA (e : EngineRef) (x : EngCom) (rt : Rt) : (setCom e x rt).cellA = rt.cellA := by
  unfold setCom; split <;> rfl
@[simp] theorem setCom_cellB (e : EngineRef) (x : EngCom) (rt : Rt) : (setCom e x rt).cellB = rt.cellB := by
  unfold setCom; split <;> rfl
@[simp] theorem setCom_window (e : EngineRef) (x : EngCom) (rt : Rt) : (setCom e x rt).window = rt.window := by
  unfold setCom; split <;> rfl
@[simp] theorem setCom_twoKey (e : EngineRef) (x : EngCom) (rt : Rt) : (setCom e x rt).twoKey = rt.twoKey := by
  unfold setCom; split <;> rfl
@[simp] theorem setCom_ceremony (e : EngineRef) (x : EngCom) (rt : Rt) : (setCom e x rt).ceremony = rt.ceremony := by
  unfold setCom; split <;> rfl
@[simp] theorem setCom_waiting (e : EngineRef) (x : EngCom) (rt : Rt) : (setCom e x rt).waiting = rt.waiting := by
  unfold setCom; split <;> rfl
@[simp] theorem setCom_net (e : EngineRef) (x : EngCom) (rt : Rt) : (setCom e x rt).net = rt.net := by
  unfold setCom; split <;> rfl
@[simp] theorem setCom_peer (e : EngineRef) (x : EngCom) (rt : Rt) : (setCom e x rt).peer = rt.peer := by
  unfold setCom; split <;> rfl
@[simp] theorem setCom_tally (e : EngineRef) (x : EngCom) (rt : Rt) : (setCom e x rt).tally = rt.tally := by
  unfold setCom; split <;> rfl
@[simp] theorem setCom_bridles (e : EngineRef) (x : EngCom) (rt : Rt) : (setCom e x rt).bridles = rt.bridles := by
  unfold setCom; split <;> rfl
@[simp] theorem setCom_fabricPerm (e : EngineRef) (x : EngCom) (rt : Rt) : (setCom e x rt).fabricPerm = rt.fabricPerm := by
  unfold setCom; split <;> rfl
@[simp] theorem setCom_held (e : EngineRef) (x : EngCom) (rt : Rt) : (setCom e x rt).held = rt.held := by
  unfold setCom; split <;> rfl
@[simp] theorem setCom_spdm (e : EngineRef) (x : EngCom) (rt : Rt) : (setCom e x rt).spdm = rt.spdm := by
  unfold setCom; split <;> rfl
@[simp] theorem setCom_patterns (e : EngineRef) (x : EngCom) (rt : Rt) : (setCom e x rt).patterns = rt.patterns := by
  unfold setCom; split <;> rfl
@[simp] theorem setCom_kdbRoot (e : EngineRef) (x : EngCom) (rt : Rt) : (setCom e x rt).kdbRoot = rt.kdbRoot := by
  unfold setCom; split <;> rfl

/-! ## What is written is read back -/

@[simp] theorem emit_out (o : Out) (rt : Rt) : (emit o rt).out = rt.out ++ [o] := rfl
theorem clerkOf_setClerk (c j : ClerkId) (k : Clerk) (rt : Rt) : clerkOf (setClerk c k rt) j = if c = j then k else clerkOf rt j :=
  kgetD_kput _ _ _ _ _
@[simp] theorem clerkOf_setClerk_self (c : ClerkId) (k : Clerk) (rt : Rt) : clerkOf (setClerk c k rt) c = k := by simp [clerkOf_setClerk]
theorem pressOf_setPress (k j : Nat) (p : Press) (rt : Rt) : pressOf (setPress k p rt) j = if k = j then p else pressOf rt j :=
  kgetD_kput _ _ _ _ _
@[simp] theorem pressOf_setPress_self (k : Nat) (p : Press) (rt : Rt) : pressOf (setPress k p rt) k = p := by simp [pressOf_setPress]
theorem hashOf_setHash (k j : Nat) (h : HashUnit) (rt : Rt) : hashOf (setHash k h rt) j = if k = j then h else hashOf rt j :=
  kgetD_kput _ _ _ _ _
@[simp] theorem hashOf_setHash_self (k : Nat) (h : HashUnit) (rt : Rt) : hashOf (setHash k h rt) k = h := by simp [hashOf_setHash]
theorem loomOf_setLoom (k j : Nat) (l : Loom) (rt : Rt) : loomOf (setLoom k l rt) j = if k = j then l else loomOf rt j :=
  kgetD_kput _ _ _ _ _
@[simp] theorem loomOf_setLoom_self (k : Nat) (l : Loom) (rt : Rt) : loomOf (setLoom k l rt) k = l := by simp [loomOf_setLoom]
theorem reckonerOf_setReckoner (k j : Nat) (r : Reckoner) (rt : Rt) :
    reckonerOf (setReckoner k r rt) j = if k = j then r else reckonerOf rt j := kgetD_kput _ _ _ _ _
@[simp] theorem reckonerOf_setReckoner_self (k : Nat) (r : Reckoner) (rt : Rt) : reckonerOf (setReckoner k r rt) k = r := by
  simp [reckonerOf_setReckoner]
theorem roomOf_setRoom (k j : Nat) (r : Room) (rt : Rt) : roomOf (setRoom k r rt) j = if k = j then r else roomOf rt j :=
  kgetD_kput _ _ _ _ _
@[simp] theorem roomOf_setRoom_self (k : Nat) (r : Room) (rt : Rt) : roomOf (setRoom k r rt) k = r := by simp [roomOf_setRoom]

/-- An engine's common part is what was written to it. -/
@[simp] theorem comOf_setCom_self (e : EngineRef) (x : EngCom) (rt : Rt) : comOf (setCom e x rt) e = x := by
  unfold comOf setCom; cases e.kind <;> simp

/-- A clerk is not changed by an engine's common part. -/
@[simp] theorem clerkOf_setCom (e : EngineRef) (x : EngCom) (rt : Rt) (c : ClerkId) : clerkOf (setCom e x rt) c = clerkOf rt c := by
  simp [clerkOf]

end Sys2Proof.Machine
end

