-- ==== Sys2Proof/Laws/Engines.lean ====
section
/-! SUPPORT. What running the front command of an engine comes to. -/

namespace Sys2Proof.Machine

/-- An engine runs its front command: the blocks are counted, the body runs, and the command leaves the queue. -/
theorem runFront_done {rt : Rt} {e : EngineRef} {op : Nat} {c : ClerkId} {b : Block} (h : AtFront rt e op c b)
    (blocks : Block → Nat) (body : ClerkId → Block → Rt → Rt) :
    runFront e op blocks body rt =
      afterCommand e (popQueue e (body c b (setCom e { comOf rt e with blocks := (comOf rt e).blocks + blocks b } rt))) := by
  obtain ⟨⟨q, hq⟩, hh, hc, hr, hf⟩ := h
  simp only [Bool.or_eq_false_iff] at hr
  simp only [runFront, hq, hh, hc, hr.1, hr.2, Nat.not_le.mpr hf, ne_eq, not_true, false_or, Bool.false_eq_true, if_false]

/-- The holder of an engine is that of its latch word. -/
theorem holderOf_setCom (e : EngineRef) (x : EngCom) (rt : Rt) (h : x.latch = (comOf rt e).latch) :
    holderOf (setCom e x rt) e = holderOf rt e := by simp [holderOf, h]

/-- Counting blocks changes no engine's latch, queue or run state. -/
theorem comOf_charge (e e' : EngineRef) (n : Nat) (rt : Rt) :
    ∃ m, comOf (setCom e { comOf rt e with blocks := n } rt) e' = { comOf rt e' with blocks := m } := by
  by_cases hk : e.kind = e'.kind
  · by_cases hx : ekey e = ekey e'
    · refine ⟨n, ?_⟩
      unfold comOf setCom
      rw [← hk, ← hx]
      cases e.kind <;> simp
    · refine ⟨(comOf rt e').blocks, ?_⟩
      unfold comOf setCom
      rw [← hk]
      cases e.kind <;> simp [pressOf_setPress, hashOf_setHash, loomOf_setLoom, reckonerOf_setReckoner, hx]
  · refine ⟨(comOf rt e').blocks, ?_⟩
    unfold comOf setCom
    cases h1 : e.kind <;> cases h2 : e'.kind <;> simp_all [pressOf, hashOf, loomOf, reckonerOf]

/-- The house that an engine serves, and the loom of the peer link, do not see an engine's common part. -/
@[simp] theorem otherHouse_setCom (e e' : EngineRef) (x : EngCom) (rt : Rt) (c : ClerkId) :
    otherHouse (setCom e x rt) c e' = otherHouse rt c e' := by cases h : e.kind <;> simp only [setCom, h] <;> rfl

@[simp] theorem peerLoom_setCom (e e' : EngineRef) (x : EngCom) (rt : Rt) : peerLoom (setCom e x rt) e' = peerLoom rt e' := by
  cases h : e.kind <;> simp only [setCom, h] <;> rfl

/-- Reading a word does not see the count of blocks. -/
@[simp] theorem readWord_charge (e : EngineRef) (n : Nat) (rt : Rt) (c : ClerkId) (a : Nat) :
    readWord (setCom e { comOf rt e with blocks := n } rt) c a = readWord rt c a := by
  have hp : readPort (setCom e { comOf rt e with blocks := n } rt) c a = readPort rt c a := by
    unfold readPort
    cases portOf c a <;> simp only
    next e' off =>
      obtain ⟨m, hm⟩ := comOf_charge e e' n rt
      simp [hm, latchWord, statusWord, holds]
  simp [readWord, roomOf, hp]

/-- Reading nibbles, bytes and pointers does not see the count of blocks. -/
@[simp] theorem readNibbles_charge (e : EngineRef) (n : Nat) (rt : Rt) (c : ClerkId) (k p : Nat) :
    readNibbles (setCom e { comOf rt e with blocks := n } rt) c k p = readNibbles rt c k p := by
  induction k generalizing p with
  | zero => rfl
  | succ k ih => simp [readNibbles, readNibble, ih]

@[simp] theorem getPtr_charge (e : EngineRef) (n : Nat) (rt : Rt) (c : ClerkId) (b : Block) (i k : Nat) :
    getPtr (setCom e { comOf rt e with blocks := n } rt) c b i k = getPtr rt c b i k := by
  unfold getPtr readBytes; split <;> simp

/-- A press's registers are not its common part. -/
theorem pressOf_setCom (d : Die) (p : Nat) (x : EngCom) (rt : Rt) :
    pressOf (setCom (pressRef d p) x rt) (ekey (pressRef d p)) = { pressOf rt (ekey (pressRef d p)) with com := x } := by
  simp [setCom, pressRef]

theorem hashOf_setCom (d : Die) (p : Nat) (x : EngCom) (rt : Rt) :
    hashOf (setCom (hashRef d p) x rt) (ekey (hashRef d p)) = { hashOf rt (ekey (hashRef d p)) with com := x } := by
  simp [setCom, hashRef]

theorem loomOf_setCom (d : Die) (p : Nat) (x : EngCom) (rt : Rt) :
    loomOf (setCom (loomRef d p) x rt) (ekey (loomRef d p)) = { loomOf rt (ekey (loomRef d p)) with com := x } := by
  simp [setCom, loomRef]

theorem reckonerOf_setCom (d : Die) (p : Nat) (x : EngCom) (rt : Rt) :
    reckonerOf (setCom (recRef d p) x rt) (ekey (recRef d p)) = { reckonerOf rt (ekey (recRef d p)) with com := x } := by
  simp [setCom, recRef]

end Sys2Proof.Machine
end

