-- ==== Sys2Proof/Laws/Karua.lean ====
section
/-! SUPPORT. What running a Karua-20 instruction comes to once its operands are located. -/

namespace Sys2Proof.Machine

/-- The operands that `prepare` locates belong to the clerk. -/
theorem prepare_ck {rt : Rt} {c : ClerkId} {ic next : Nat} {f : Fmt} {ls : LenSpec} {o : Opnds} {x : Args} {rt2 : Rt}
    (h : prepare rt c ic next f ls o = .ok (x, rt2)) : x.ck = c ∧ x.ic = ic ∧ x.next = next := by
  unfold prepare at h
  simp only at h
  split at h
  · cases h
  · split at h
    · cases h
    · split at h
      · cases h
      · split at h
        · cases h
        · cases h
          exact ⟨rfl, rfl, rfl⟩

/-- What an issued instruction passed. -/
theorem issue_spec {f : Fmt} {ls : LenSpec} {c : ClerkId} {o : Opnds} {s : State} {x : Args} {rt2 : Rt}
    (h : issue f ls c o s = some (x, rt2)) :
    clerkReady s.rt c = true ∧ ∃ rt1,
      begun s.nv.progs f ls c o s.rt = .go x rt1 rt2 := by
  unfold issue at h
  split at h
  · cases h
  next hr =>
  split at h
  next y rt1 rt3 hb =>
    cases h
    exact ⟨by simpa using hr, rt1, hb⟩
  next => cases h

/-- What an instruction passed that begins: the words at IC are its own, the fetch, the checks, the operands and their cache fills. -/
theorem begun_spec {progs : List ProgEntry} {f : Fmt} {ls : LenSpec} {c : ClerkId} {o : Opnds} {rt rt1 rt3 : Rt} {x : Args}
    (h : begun progs f ls c o rt = .go x rt1 rt3) :
    insnFits rt c (clerkOf rt c).ic.toNat f.op o = true ∧
    fetchWords progs c o.fill (insnWords o) (clerkOf rt c).ic.toNat rt = .ok rt1 ∧
    (opPrivileged f.op && c != 128) = false ∧
    (opndOk f.a o.a && opndOk f.b o.b && opndOk f.c o.c) = true ∧
    ∃ rt2, prepare rt1 c (clerkOf rt c).ic.toNat (((clerkOf rt c).ic.toNat + insnWords o) % 2 ^ 20) f ls o = .ok (x, rt2) ∧
      fillTiles (clerkRoom c) o.fill (if c = 128 then [] else readTilesOf rt2 f ls o x) rt2 = .ok rt3 := by
  unfold begun at h
  split at h
  next hi =>
    refine ⟨hi, ?_⟩
    unfold beginInsn at h
    simp only at h
    split at h
    · cases h
    · cases h
    next r1 hf =>
      split at h
      · cases h
      next hp =>
      split at h
      · cases h
      next ho =>
      split at h
      · cases h
      next y r2 hq =>
      split at h
      · cases h
      next r3 hz =>
      cases h
      exact ⟨hf, by simpa using hp, by simpa using ho, r2, hq, hz⟩
  next =>
    unfold beginOther at h
    simp only at h
    split at h
    · cases h
    · cases h
    · split at h
      · cases h
      · split at h <;> cases h

/-- An issued instruction belongs to its clerk. -/
theorem issue_ck {f : Fmt} {ls : LenSpec} {c : ClerkId} {o : Opnds} {s : State} {x : Args} {rt2 : Rt}
    (h : issue f ls c o s = some (x, rt2)) : x.ck = c := by
  obtain ⟨_, _, hb⟩ := issue_spec h
  obtain ⟨_, _, _, _, _, hp, _⟩ := begun_spec hb
  exact (prepare_ck hp).1

/-- An issued instruction changes the run-time state alone, by what its operation comes to. -/
theorem karua_issue {f : Fmt} {ls : LenSpec} {c : ClerkId} {o : Opnds} {s : State} {x : Args} {rt2 : Rt}
    (body : Args → Rt → KOut) (h : issue f ls c o s = some (x, rt2)) :
    ∃ rt1, karua f ls body c o s = .next { s with rt := settle f x rt1 (body x rt2) } := by
  obtain ⟨hr, rt1, hb⟩ := issue_spec h
  refine ⟨rt1, ?_⟩
  unfold karua onRt runInsn
  simp only [hr, hb, Bool.not_true, Bool.false_eq_true, if_false]

/-- An operation that ends with flags takes the clerk to the next instruction. -/
theorem karua_go {f : Fmt} {ls : LenSpec} {c : ClerkId} {o : Opnds} {s : State} {x : Args} {rt2 rt3 : Rt} {fl : FlagSet}
    {body : Args → Rt → KOut} (h : issue f ls c o s = some (x, rt2)) (hb : body x rt2 = .go fl rt3) :
    karua f ls body c o s = .next (ended f x fl rt3 s) := by
  obtain ⟨rt1, e⟩ := karua_issue body h
  rw [e, hb]; rfl

/-- An operation that jumps takes the clerk to its target. -/
theorem karua_jump {f : Fmt} {ls : LenSpec} {c : ClerkId} {o : Opnds} {s : State} {x : Args} {rt2 rt3 : Rt} {ic : Nat}
    {body : Args → Rt → KOut} (h : issue f ls c o s = some (x, rt2)) (hb : body x rt2 = .jump ic rt3) :
    karua f ls body c o s = .next (jumped f x ic rt3 s) := by
  obtain ⟨rt1, e⟩ := karua_issue body h
  rw [e, hb]; rfl

end Sys2Proof.Machine
end

