-- ==== Sys2Proof/WellFormed.lean ====
section
/-! DEFINITION. Well-formed commands: the numbers that a command names exist on the module, and the data that comes with it has
the length that the spec gives it. What software may send wrong (an operand mode, a parameter, a frame header) is no matter of
this file: the meanings answer it as the spec says. -/

namespace Sys2Proof

/-- The extension words of an operand mode (10 Table 10.6). -/
def modeExt (m : BitVec 4) : Nat := if m = 0 then 0 else if m = 8 ∨ m = 15 then 2 else 1

/-- An operand brings the extension words that its mode takes (R206). -/
def Opnd.wf (o : Opnd) : Bool := decide (o.ext.length = modeExt o.mode)

/-- All three operands are well formed. -/
def opndsWf (o : Opnds) : Bool := o.a.wf && o.b.wf && o.c.wf

/-- Engines of a kind on one die (01 Table 1.1). -/
def enginesPerDie : EngineKind → Nat
  | .press => 32
  | .hash => 16
  | .loom => 4
  | .reckoner => 16

/-- The engine exists. -/
def engineWf (e : EngineRef) : Bool := decide (e.idx < enginesPerDie e.kind)

/-- One fetch brings one to eight entries of 64 bytes (R129). -/
def entriesWf (l : List Bytes) : Bool := decide (1 ≤ l.length ∧ l.length ≤ 8) && l.all fun e => decide (e.length = 64)

/-- An access size of a host access to a BAR. -/
def sizeWf (n : Nat) : Bool := decide (n ∈ [1, 2, 4, 8])

/-- A trip names its source in 8 bits and its site in 8 bits, and a detector tripped (21 Table 21.6). -/
def tripWf (t : Trip) : Bool := decide (t.code < 256 ∧ t.site < 256) && (t.detA || t.detB)

/-- A console request is at least a header of 16 bytes (17 Table 17.7). -/
def srcWf : ReqSrc → Bool
  | .mailbox => true
  | .console req => decide (16 ≤ req.length)

/-- A peer record changes slots by whole images of 128 bytes (R173). -/
def recordWf (r : PeerRecord) : Bool := r.changes.all fun c => decide (c.slot < 2 ^ 25 ∧ c.image.length = 128)

/-- A command is well formed. -/
def Instr.wf : Instr → Bool
  | .mainPowerApplied _ _ _ _ => true
  | .auxInputMissing => true
  | .perstAssert => true
  | .perstRelease _ => true
  | .startUp n _ => decide (1 ≤ n ∧ n ≤ 14)
  | .mintStartUpTests _ _ => true
  | .mintStartTimeout _ => true
  | .maskExpanderSeeding _ => true
  | .serviceReady => true
  | .backgroundTileLoad _ _ => true
  | .demandLoad _ _ _ => true
  | .powerFail => true
  | .smbusRead _ => true
  | .cageInsert _ _ => true
  | .cageRemove _ => true
  | .officerCardInsert _ card => decide (card.pubKey.length = 49)
  | .officerCardWithdraw _ => true
  | .officerCardOvercurrent _ => true
  | .sqTailWrite b _ => decide (b < 4096)
  | .cqHeadWrite b _ => decide (b < 4096)
  | .descriptorFetch b entries => decide (b < 4096) && entriesWf entries
  | .descriptorReadFail b => decide (b < 4096)
  | .inputFetch _ _ => true
  | .admission _ => true
  | .stagingReservationGrant => true
  | .dispatch c => decide (c.clerk < 128)
  | .completionPost _ _ => true
  | .coalesceTimer b => decide (b < 4096)
  | .msixMaskClear _ => true
  | .registerWrite _ size _ => sizeWf size
  | .faultAck _ => true
  | .tallyPresetValidate p => decide (p < 8)
  | .mbxGoWhileBusy => true
  | .hostLinkLoss _ => true
  | .hostLinkReturn => true
  | .bundleCommit _ => true
  | .journalRecordWritten _ _ => true
  | .commitMarkWritten _ => true
  | .persistentTileWrite _ => true
  | .ledgerSeal => true
  | .policyChangeComplete _ => true
  | .drainTimeout _ => true
  | .drainTwinTimeout _ => true
  | .nop c o => decide (c ≤ 128) && opndsWf o
  | .mov c o => decide (c ≤ 128) && opndsWf o
  | .movd c o => decide (c ≤ 128) && opndsWf o
  | .clr c o => decide (c ≤ 128) && opndsWf o
  | .mfsw c o => decide (c ≤ 128) && opndsWf o
  | .mtsw c o => decide (c ≤ 128) && opndsWf o
  | .dtob c o => decide (c ≤ 128) && opndsWf o
  | .btod c o => decide (c ≤ 128) && opndsWf o
  | .trn c o => decide (c ≤ 128) && opndsWf o
  | .movp c o => decide (c ≤ 128) && opndsWf o
  | .add c o => decide (c ≤ 128) && opndsWf o
  | .sub c o => decide (c ≤ 128) && opndsWf o
  | .adc c o => decide (c ≤ 128) && opndsWf o
  | .sbc c o => decide (c ≤ 128) && opndsWf o
  | .addd c o => decide (c ≤ 128) && opndsWf o
  | .subd c o => decide (c ≤ 128) && opndsWf o
  | .mul c o => decide (c ≤ 128) && opndsWf o
  | .mulu c o => decide (c ≤ 128) && opndsWf o
  | .divu c o => decide (c ≤ 128) && opndsWf o
  | .cmp c o => decide (c ≤ 128) && opndsWf o
  | .cmpd c o => decide (c ≤ 128) && opndsWf o
  | .inc c o => decide (c ≤ 128) && opndsWf o
  | .dec c o => decide (c ≤ 128) && opndsWf o
  | .neg c o => decide (c ≤ 128) && opndsWf o
  | .addp c o => decide (c ≤ 128) && opndsWf o
  | .subp c o => decide (c ≤ 128) && opndsWf o
  | .mulp c o => decide (c ≤ 128) && opndsWf o
  | .cmpp c o => decide (c ≤ 128) && opndsWf o
  | .daj c o => decide (c ≤ 128) && opndsWf o
  | .shp c o => decide (c ≤ 128) && opndsWf o
  | .edp c o => decide (c ≤ 128) && opndsWf o
  | .luhn c o => decide (c ≤ 128) && opndsWf o
  | .decz c o => decide (c ≤ 128) && opndsWf o
  | .and c o => decide (c ≤ 128) && opndsWf o
  | .or c o => decide (c ≤ 128) && opndsWf o
  | .xor c o => decide (c ≤ 128) && opndsWf o
  | .not c o => decide (c ≤ 128) && opndsWf o
  | .shl c o => decide (c ≤ 128) && opndsWf o
  | .shr c o => decide (c ≤ 128) && opndsWf o
  | .sar c o => decide (c ≤ 128) && opndsWf o
  | .rol c o => decide (c ≤ 128) && opndsWf o
  | .tst c o => decide (c ≤ 128) && opndsWf o
  | .br c o => decide (c ≤ 128) && opndsWf o
  | .bz c o => decide (c ≤ 128) && opndsWf o
  | .bnz c o => decide (c ≤ 128) && opndsWf o
  | .bn c o => decide (c ≤ 128) && opndsWf o
  | .bnn c o => decide (c ≤ 128) && opndsWf o
  | .bc c o => decide (c ≤ 128) && opndsWf o
  | .bnc c o => decide (c ≤ 128) && opndsWf o
  | .bv c o => decide (c ≤ 128) && opndsWf o
  | .bnv c o => decide (c ≤ 128) && opndsWf o
  | .bdc c o => decide (c ≤ 128) && opndsWf o
  | .bndc c o => decide (c ≤ 128) && opndsWf o
  | .bid c o => decide (c ≤ 128) && opndsWf o
  | .bnid c o => decide (c ≤ 128) && opndsWf o
  | .blt c o => decide (c ≤ 128) && opndsWf o
  | .bge c o => decide (c ≤ 128) && opndsWf o
  | .bgt c o => decide (c ≤ 128) && opndsWf o
  | .call c o => decide (c ≤ 128) && opndsWf o
  | .ret c o => decide (c ≤ 128) && opndsWf o
  | .loop c o => decide (c ≤ 128) && opndsWf o
  | .movs c o => decide (c ≤ 128) && opndsWf o
  | .cmps c o => decide (c ≤ 128) && opndsWf o
  | .srch c o => decide (c ≤ 128) && opndsWf o
  | .xors c o => decide (c ≤ 128) && opndsWf o
  | .fills c o => decide (c ≤ 128) && opndsWf o
  | .latch c o => decide (c ≤ 128) && opndsWf o
  | .waitl c o => decide (c ≤ 128) && opndsWf o
  | .unlatch c o => decide (c ≤ 128) && opndsWf o
  | .submit c o => decide (c ≤ 128) && opndsWf o
  | .waite c o => decide (c ≤ 128) && opndsWf o
  | .kload c o => decide (c ≤ 128) && opndsWf o
  | .kloadx c o => decide (c ≤ 128) && opndsWf o
  | .rand c o => decide (c ≤ 128) && opndsWf o
  | .jend c o => decide (c ≤ 128) && opndsWf o
  | .jfail c o => decide (c ≤ 128) && opndsWf o
  | .mcall c o => decide (c ≤ 128) && opndsWf o
  | .mret c o => decide (c ≤ 128) && opndsWf o
  | .ior c o => decide (c ≤ 128) && opndsWf o
  | .iow c o => decide (c ≤ 128) && opndsWf o
  | .waiti c o => decide (c ≤ 128) && opndsWf o
  | .clerkWipe c => decide (c < 128)
  | .timeLimit c => decide (c < 128)
  | .locksmithDelivery c _ => decide (c < 128)
  | .latchBreak e => engineWf e
  | .engineZeroingEnd e => engineWf e
  | .maskReseedRequest e => engineWf e
  | .maskReseedTimeout e => engineWf e
  | .maskReseedArrival e => engineWf e
  | .ecbEnc _ p => decide (p < 32)
  | .ecbDec _ p => decide (p < 32)
  | .cbcEnc _ p => decide (p < 32)
  | .cbcDec _ p => decide (p < 32)
  | .ctr _ p => decide (p < 32)
  | .cmacGen _ p => decide (p < 32)
  | .cmacVer _ p => decide (p < 32)
  | .mac1Gen _ p => decide (p < 32)
  | .mac1Ver _ p => decide (p < 32)
  | .mac3Gen _ p => decide (p < 32)
  | .mac3Ver _ p => decide (p < 32)
  | .kwWrap _ p => decide (p < 32)
  | .hash _ h _ => decide (h < 16)
  | .hmacGen _ h _ => decide (h < 16)
  | .hmacVer _ h _ => decide (h < 16)
  | .gcmEnc _ l _ => decide (l < 4)
  | .gcmDec _ l _ => decide (l < 4)
  | .ccmEnc _ l _ => decide (l < 4)
  | .ccmDec _ l _ => decide (l < 4)
  | .outputScrub _ => true
  | .inputStreamRead c _ => decide (c < 128)
  | .outputStreamWrite c => decide (c < 128)
  | .loadl _ r => decide (r < 16)
  | .storel _ r => decide (r < 16)
  | .movl _ r => decide (r < 16)
  | .setmod _ r => decide (r < 16)
  | .macp _ r => decide (r < 16)
  | .redc _ r => decide (r < 16)
  | .madd _ r => decide (r < 16)
  | .msub _ r => decide (r < 16)
  | .cswapBit _ r => decide (r < 16)
  | .bset _ r => decide (r < 16)
  | .rndl _ r => decide (r < 16)
  | .runl _ r => decide (r < 16)
  | .chk _ r => decide (r < 16)
  | .setq _ r => decide (r < 16)
  | .lbfly _ r => decide (r < 16)
  | .lpmul _ r => decide (r < 16)
  | .lbasem _ r => decide (r < 16)
  | .lpadd _ r => decide (r < 16)
  | .lpsub _ r => decide (r < 16)
  | .lround _ r => decide (r < 16)
  | .lnorm _ r => decide (r < 16)
  | .reckonerWipe _ r => decide (r < 16)
  | .noiseSampleTestFail _ _ _ => true
  | .forerunnerSourceFail _ _ _ _ => true
  | .mintBlockComplete _ _ => true
  | .drbgReseed _ => true
  | .drbgGenerate _ => true
  | .keyGradeRequest _ => true
  | .sourceRestart _ _ _ => true
  | .mintExhausted _ => true
  | .ballastRequest i _ => decide (i < 60)
  | .ballastGrant _ => true
  | .islandReady isl => decide (isl.island < 60)
  | .idleGatingTimer isl => decide (isl.island < 60)
  | .thermalThrottleStep _ _ => true
  | .thermalFatal _ _ => true
  | .railWarn _ => true
  | .fabricCe _ _ _ _ => true
  | .fabricUe _ _ _ _ => true
  | .tamperSourceTrip t => tripWf t
  | .gondolaCellTamper t => tripWf t
  | .tamperCountBurn _ => true
  | .gondolaLogRead _ => true
  | .cellMeasure _ _ => true
  | .cellDecay => true
  | .cellServiceWindowExpiry => true
  | .cellDoorClose => true
  | .faultEvent _ => true
  | .alertWidthExpiry => true
  | .alertHoldClear => true
  | .ethernetFrameReceive _ _ => true
  | .portDown _ => true
  | .tcpSyn _ _ tcpPort _ => decide (tcpPort < 65536)
  | .tlsHandshake _ _ => true
  | .handshakeTimeout _ => true
  | .sessionEstablished _ => true
  | .requestFrame _ frame => decide (16 ≤ frame.length)
  | .responseFrame _ => true
  | .sendQueueDrain _ _ => true
  | .sessionClose _ => true
  | .sessionIdleTimeout _ => true
  | .keyUpdateSend _ => true
  | .keyUpdateReceive _ => true
  | .peerLinkUp _ _ _ => true
  | .peerRekey _ => true
  | .peerRecordReceive r => recordWf r
  | .peerAckReceive _ _ => true
  | .peerAckTimeout _ => true
  | .peerCommitNotice _ => true
  | .peerLost => true
  | .peerRepairResend _ records => records.all recordWf
  | .ppsInEdge _ => true
  | .todDatagram _ _ _ => true
  | .secondBoundary _ => true
  | .clockLock => true
  | .sourceLoss => true
  | .ocxoWarmupEnd => true
  | .alignmentRecordWrite => true
  | .ptpDelayReq _ _ => true
  | .ptpSyncSend _ => true
  | .ptpAnnounceSend _ => true
  | .ppsOutEdge => true
  | .lcNonceExpiry => true
  | .latchExpiry => true
  | .latchAttemptTimeout => true
  | .officerPinTimeout => true
  | .deliberateErase => true
  | .roomCodeReload room => decide (room < 8)
  | .bridleUpdate _ => true
  | .bridleRefusal _ _ => true
  | .openCmd _ => true
  | .attest _ => true
  | .timeToken _ => true
  | .keyGenerate _ => true
  | .keyRevoke _ => true
  | .keyReplace _ => true
  | .keyDelete _ => true
  | .keyReparent _ => true
  | .keyInfo _ => true
  | .publicImport _ => true
  | .pinTranslate _ => true
  | .pinVerify _ => true
  | .pinOffsetGen _ => true
  | .cvcGenerate _ => true
  | .cvcVerify _ => true
  | .arqcVerify _ => true
  | .smMac _ => true
  | .smEncMac _ => true
  | .dukptDecrypt _ => true
  | .dukptPinTranslate _ => true
  | .macGenerate _ => true
  | .macVerify _ => true
  | .tokenise _ => true
  | .detokenise _ => true
  | .keyblockImport _ => true
  | .keyblockExport _ => true
  | .keyCheckValue _ => true
  | .aeadEncrypt _ => true
  | .aeadDecrypt _ => true
  | .sign _ => true
  | .verify _ => true
  | .keyAgree _ => true
  | .kemDecapsulate _ => true
  | .houseProgramCommand _ => true
  | .statusQuery src => srcWf src
  | .epochStatus src => srcWf src
  | .strongroomStatus src => srcWf src
  | .mgrWindow src => srcWf src
  | .boothCreate src => srcWf src
  | .boothModify src => srcWf src
  | .boothClose src => srcWf src
  | .boothCloseDrainTimeout => true
  | .resetBooth src => srcWf src
  | .abort src => srcWf src
  | .partitionSet src => srcWf src
  | .resetModule src => srcWf src
  | .mailboxAttest src => srcWf src
  | .clockSource src => srcWf src
  | .clockPtp src => srcWf src
  | .clockPps src => srcWf src
  | .setTime src => srcWf src
  | .houseRegister src => srcWf src
  | .houseRemove src => srcWf src
  | .officerAdd src => srcWf src
  | .officerRemove src => srcWf src
  | .latchOpen src => srcWf src
  | .latchSign src => srcWf src
  | .latchClose src => srcWf src
  | .keyEnter src => srcWf src
  | .commission src => srcWf src
  | .lcStatus src => srcWf src
  | .lcNonce src => srcWf src
  | .lcTransition x => srcWf x.src
  | .debugUnlock src => srcWf src
  | .imageInstall src _ => srcWf src
  | .liveUpdate src _ => srcWf src
  | .progLoad src _ => srcWf src
  | .progRemove src => srcWf src
  | .ledgerExport src => srcWf src
  | .ledgerConfirm src => srcWf src
  | .netAddr src => srcWf src
  | .netListen src _ => srcWf src
  | .peerConfig src => srcWf src
  | .peerPair src => srcWf src
  | .peerUnpair src => srcWf src
  | .peerResync src => srcWf src
  | .mintMode src => srcWf src
  | .cellService src => srcWf src
  | .classify src => srcWf src
  | .clearBridle src => srcWf src
  | .alertWidth src => srcWf src
  | .defaults src => srcWf src
  | .getVersion _ => true
  | .getCapabilities _ => true
  | .negotiateAlgorithms _ => true
  | .getDigests _ => true
  | .getCertificate _ => true
  | .challenge _ => true
  | .getMeasurements _ => true
  | .keyExchange _ => true
  | .finish _ => true
  | .keyUpdate _ => true
  | .endSession _ => true
  | .vendorDefinedRequest _ => true
  | .cellDoorOpen => true
  | .tcpRetransmissionTimeout _ => true
  | .tcpKeepaliveProbe _ => true
  | .peerCopyEnd _ => true
  | .policyRecordWritten => true
  | .portLinkUp _ => true
  | .throttleRelease _ _ => true
  | .ceremonyConsoleEntry _ => true
  | .latchingRegisterRead _ size => sizeWf size
  | .linkTrainingComplete _ _ _ => true
  | .mgmtLinkChange _ => true
  | .testAccessRequest _ => true
  | .identityInjection seed _ => decide (seed.length = 32)

end Sys2Proof
end

