-- ==== Sys2Proof/Tests/Slice0.lean ====
section
/-! SUPPORT. Tests: a term that each check of WellFormed refuses, the spec's worked examples, and for the hypotheses of the
statements a small state that meets them. -/

namespace Sys2Proof.Machine.Tests

set_option Elab.async false

/-! ## Well-formed commands: one term that each check refuses -/

/-- An operand in mode 1 with a word address. -/
def at1 (a : Nat) : Opnd := { mode := 1, ext := [BitVec.ofNat 20 a] }

/-- No operand. -/
def nil : Opnd := { mode := 0, ext := [] }

/-- Three operands. -/
def ops (a b c : Opnd) : Opnds := { a := a, b := b, c := c, fill := [] }

/-- An immediate operand. -/
def imm (v : Nat) : Opnd := { mode := 7, ext := [BitVec.ofNat 20 v] }

theorem test_wf_add : Instr.wf (.add 0 (ops (at1 0x100) (at1 0x101) (imm 3))) = true := by decide
theorem test_wf_clerk : Instr.wf (.nop 129 (ops nil nil nil)) = false := by decide
theorem test_wf_ext : Instr.wf (.clr 0 (ops { mode := 8, ext := [0] } nil nil)) = false := by decide
theorem test_wf_step (e : StartEnv) : Instr.wf (.startUp 15 e) = false := rfl
theorem test_wf_booth : Instr.wf (.sqTailWrite 4096 0) = false := by decide
theorem test_wf_entries : Instr.wf (.descriptorFetch 0 []) = false := by decide
theorem test_wf_entry_length : Instr.wf (.descriptorFetch 0 [List.replicate 63 0]) = false := by decide
theorem test_wf_size : Instr.wf (.registerWrite 0 3 0) = false := by decide
theorem test_wf_preset : Instr.wf (.tallyPresetValidate 8) = false := by decide
theorem test_wf_engine : Instr.wf (.latchBreak { die := 0, kind := .loom, idx := 4 }) = false := by decide
theorem test_wf_press : Instr.wf (.ecbEnc 0 32) = false := by decide
theorem test_wf_island : Instr.wf (.islandReady ⟨60, []⟩) = false := by decide
theorem test_wf_source : Instr.wf (.statusQuery (.console [0])) = false := by decide
theorem test_wf_seed : Instr.wf (.identityInjection [] []) = false := by decide
theorem test_wf_trip : Instr.wf (.tamperSourceTrip { code := 1, site := 0, detA := false, detB := false }) = false := by decide
/-- A card whose public key is empty. -/
def badCard : Card :=
  { serial := [], answersB := true, answersA := true, blocked := false, pubKey := [], components := [] }

theorem test_wf_card : Instr.wf (.officerCardInsert 0 badCard) = false := by decide
theorem test_wf_record : Instr.wf (.peerRecordReceive { seq := 0, changes := [{ slot := 2 ^ 25, genBefore := 0, image := [] }] }) = false := by decide
theorem test_wf_port : Instr.wf (.tcpSyn 0 0 65536 ⟨0, { scale := none, sack := false, stamps := false }⟩) = false := by decide
theorem test_wf_frame : Instr.wf (.requestFrame 0 []) = false := by decide
theorem test_wf_room : Instr.wf (.roomCodeReload 8) = false := by decide

/-! ## Instructions of the Karua-20: the hypotheses of the statements are met -/

/-- A descriptor with an opcode and flags. -/
def aDesc (opc : BitVec 16) (flags : Byte) (k1 k2 : BitVec 64) (inl : Bytes) (inLen outLim : BitVec 32) : Desc :=
  { fmt := 2, flags := flags, opcode := opc, tag := 7, key1 := k1, key2 := k2, inIova := 0x10000, inLen := inLen, outLim := outLim,
    outIova := 0x20000, inl := inl, prio := 0, rsv := 0 }

/-- A command of booth 0 in a stage. -/
def aCmd (id : Nat) (d : Desc) (st : CmdStage) : Cmd := { newCmd id 0 none 0 d 0 0 with stage := st, admitted := decide (st ≠ .fetched) }

/-- Clerk 0 runs command 0 in library code at 80000h, with words on its desk. -/
def jobState (m : KMap Word) : State :=
  { State.reset with rt := { Rt.reset with
      clerks := [(0, { Clerk.reset with st := .running, ic := 0x80000, mem := m, job := some 0 }), (128, headClerk)]
      cmds := [(0, aCmd 0 (aDesc 0x0101 0 0 0 [] 0 16) .dispatched)] } }

/-- An instruction of a format is issued by clerk 0. -/
def issued (f : Fmt) (ls : LenSpec) (o : Opnds) (s : State) : Bool := (issue f ls 0 o s).isSome

/-- Words 100h: 5, 101h: 7, 102h: 20, the length word 103h: two strings of 4 digits. -/
def deskWords : KMap Word := [(0x100, 5), (0x101, 7), (0x102, 20), (0x103, 0x00804), (0x110, 0x00012), (0x111, 0x34000)]

def o3 : Opnds := ops (at1 0x400) (at1 0x100) (at1 0x101)
def o2 : Opnds := ops (at1 0x400) (at1 0x100) nil
def o1 : Opnds := ops (at1 0x400) nil nil
def b1 : Opnds := ops (at1 0x80010) nil nil
def oS : Opnds := ops (at1 0x400) (at1 0x110) (at1 0x103)

theorem wit_moves : (issued fmtNop noLen (ops nil nil nil) (jobState []) && issued fmtMov noLen o2 (jobState []) &&
    issued fmtMovd noLen o2 (jobState []) && issued fmtClr noLen o1 (jobState []) && issued fmtMfsw noLen o1 (jobState []) &&
    issued fmtMtsw noLen o1 (jobState []) && issued fmtNeg noLen o2 (jobState []) && issued fmtMul noLen o3 (jobState []) &&
    issued fmtMulu noLen o3 (jobState [])) = true := by decide +kernel

theorem wit_sums : ([fmtAdd, fmtAdc, fmtAddd, fmtSub, fmtSbc, fmtSubd].all fun f => issued f noLen o3 (jobState deskWords)) = true ∧
    issued fmtInc noLen o1 (jobState []) = true ∧ issued fmtDec noLen o1 (jobState []) = true ∧
    issued fmtCmp noLen (ops nil (at1 0x100) (at1 0x101)) (jobState []) = true ∧
    issued fmtCmpd noLen (ops nil (at1 0x100) (at1 0x101)) (jobState []) = true := by decide +kernel

/-- The count of a shift is what its third operand gives: 1, 19, 20, 21 and 0. -/
theorem wit_shifts : ([fmtShl, fmtShr, fmtSar].all fun f => [0, 1, 19, 20, 21].all fun k =>
    match issue f noLen 0 (ops (at1 0x400) (at1 0x100) (imm k)) (jobState deskWords) with
    | some (x, rt) => valW rt 0 x.lc == k && decide (valW rt 0 x.lb < 2 ^ 20)
    | none => false) = true := by decide +kernel

theorem wit_logic : ([fmtAnd, fmtOr, fmtXor, fmtRol].all fun f => issued f noLen o3 (jobState [])) = true ∧
    issued fmtNot noLen o2 (jobState []) = true ∧ issued fmtTst noLen (ops nil (at1 0x100) (at1 0x101)) (jobState []) = true := by
  decide +kernel

/-- A quotient that fits, one that does not, and a divisor of zero. -/
theorem wit_divu : ([(7, 5 * 2 ^ 20, false), (1, 2 ^ 20, true), (0, 0, false)].all fun k =>
    match issue fmtDivu noLen 0 (ops (at1 0x400) { mode := 15, ext := [BitVec.ofNat 20 (k.2.1 / 2 ^ 20), 0] } (imm k.1)) (jobState []) with
    | some (x, rt) => valW rt 0 x.lc == k.1 && (k.1 == 0 || decide (0xFFFFF < valD rt 0 x.lb / valW rt 0 x.lc) == k.2.2)
    | none => false) = true := by decide +kernel

/-- Strings of four digits, valid and not. -/
theorem wit_decimals : ([(fmtAddp, decLen), (fmtSubp, decLen), (fmtMulp, decLen), (fmtMovp, decLen), (fmtCmpp, decLen)].all fun f =>
    issued f.1 f.2 oS (jobState deskWords)) = true ∧
    issued fmtShp aLen (ops (at1 0x400) (imm 1) (at1 0x103)) (jobState deskWords) = true ∧
    issued fmtBtod aLen (ops (at1 0x400) (at1 0x100) (at1 0x103)) (jobState deskWords) = true ∧
    issued fmtDtob bLen oS (jobState deskWords) = true ∧ issued fmtDecz deczLen oS (jobState deskWords) = true ∧
    issued fmtDaj noLen o2 (jobState deskWords) = true ∧ issued fmtEdp edpLen oS (jobState deskWords) = true ∧
    issued fmtLuhn bLen oS (jobState deskWords) = true ∧
    decVal false [0, 0, 0, 1] = some 1 ∧ decVal false [0, 0xA, 0, 1] = none ∧ packedVal 0x12345 = some 12345 ∧ packedVal 0xA = none := by
  decide +kernel

theorem wit_strings : ([fmtMovs, fmtCmps, fmtXors].all fun f => issued f strLen (ops (at1 0x400) (at1 0x110) (imm 4)) (jobState deskWords)) = true ∧
    issued fmtFills strLenA (ops (at1 0x400) (imm 1) (imm 4)) (jobState []) = true ∧
    issued fmtTrn strLenA (ops (at1 0x400) (imm 0x300) (imm 4)) (jobState []) = true ∧
    trnTableOk (jobState []).rt 0 0x300 = true ∧
    issued fmtSrch srchLen (ops (at1 0x400) (at1 0x110) (at1 0x100)) (jobState deskWords) = true := by decide +kernel

theorem wit_branches : ([fmtBz, fmtBnz, fmtBn, fmtBnn, fmtBc, fmtBnc, fmtBv, fmtBnv, fmtBdc, fmtBndc, fmtBid, fmtBnid, fmtBlt, fmtBge, fmtBgt,
    fmtBr, fmtCall].all fun f => match issue f noLen 0 b1 (jobState [(14, 0x500)]) with
    | some (x, rt) => targetOk rt 0 x.ic (targetOf x.la) false && targetOk rt 0 x.ic (targetOf x.la) true && decide (0x400 < baseWord rt 0 14)
    | none => false) = true ∧ issued fmtRet noLen (ops nil nil nil) (jobState [(14, 0x500), (0x500, 0x80010)]) = true ∧
    issued fmtLoop noLen (ops (at1 0x100) (at1 0x80010) nil) (jobState deskWords) = true := by decide +kernel

/-- A word of a format's destination lies outside what it stores, and one of the mode 5 updates its base word. -/
theorem wit_frame : WordRow fmtAdd 1 [4, 5] .add ∧ issued fmtAdd noLen o3 (jobState deskWords) = true ∧
    issued fmtAdd noLen (ops { mode := 5, ext := [0x30000] } (at1 0x100) (at1 0x101)) (jobState deskWords) = true := by
  refine ⟨?_, ?_, ?_⟩
  · unfold WordRow; simp
  · decide +kernel
  · decide +kernel

/-! ## Engines held by a clerk -/

/-- Every island ready, its mask expanders seeded. -/
def awake (rt : Rt) : Rt :=
  { rt with ballast := { rt.ballast with islands := (List.range 60).map fun i => (i, { st := .ready, throttle := 0, seeded := true }) } }

/-- Clerk 0 with an engine of its die. -/
def engState (e : EngineRef) (held : Bool) (q : List Block) (m : KMap Word) : State :=
  let s := jobState m
  let com := { EngCom.reset with latch := { Latch.reset with held := held, holder := 0 }, queue := q }
  let k := { clerkOf s.rt 0 with latches := if held then [e] else [] }
  { s with rt := awake (setCom e com (setClerk 0 k s.rt)) }
/-- A block of 16 words with the words listed by place. -/
def blk (ws : List (Nat × Nat)) : Block :=
  { words := (List.range 16).map fun i => BitVec.ofNat 20 (((ws.find? fun x => x.1 == i).map (·.2)).getD 0), lib := true }

def frontB (rt : Rt) (e : EngineRef) (op : Nat) (c : ClerkId) (b : Block) : Bool :=
  (comOf rt e).queue.head? == some b && holderOf rt e == some c && blkW b 0 == op && !(inFatal rt || inTamperHalt rt) &&
    decide ((comOf rt e).blocks < maskLimit)

theorem front_of {rt : Rt} {e : EngineRef} {op : Nat} {c : ClerkId} {b : Block} (h : frontB rt e op c b = true) : AtFront rt e op c b := by
  simp only [frontB, Bool.and_eq_true, beq_iff_eq, decide_eq_true_eq, Bool.not_eq_true'] at h
  obtain ⟨⟨⟨⟨h1, h2⟩, h3⟩, h4⟩, h5⟩ := h
  refine ⟨?_, h2, h3, h4, h5⟩
  cases hq : (comOf rt e).queue with
  | nil => simp [hq] at h1
  | cons x q => simp [hq] at h1; exact ⟨q, by rw [h1]⟩

/-- Every permission group, or none. -/
def perms (v : Bool) : Perms := { enc := v, dec := v, macg := v, macv := v, hmacg := v, hmacv := v, wrap := v, ecbOnly := false }

def aesKey (v : Bool) : EngKey := { alg := .aes, key := List.replicate 16 1, perms := perms v, payload := true }
def desKey : EngKey := { alg := .tdea, key := (List.range 16).map (BitVec.ofNat 8), perms := perms true, payload := true }

/-! ### Presses -/

/-- Press 0 of CD0, held by clerk 0, with a key in both registers and a command at the front. -/
def pressState (k : EngKey) (b : Block) : State :=
  let s := engState (pressRef 0 0) true [b] []
  { s with rt := setPress 0 { pressOf s.rt 0 with k0 := some k, k1 := some k } s.rt }

def pressRunsB (q : PressCmd) (b : Block) (k : EngKey) (s : State) : Bool :=
  frontB s.rt (pressRef 0 0) q.op 0 b && blkW b 1 == 0 && blkZero b 14 2 && pressKey (pressOf s.rt 0) (blkW b 10) == some k &&
    pressLenOk q (k.alg == .tdea) (blkD b 6) && pressParOk q k b

theorem press_of {q : PressCmd} {b : Block} {k : EngKey} {s : State} (h : pressRunsB q b k s = true) : PressRuns q 0 0 0 b k s := by
  simp only [pressRunsB, Bool.and_eq_true, beq_iff_eq] at h
  obtain ⟨⟨⟨⟨⟨h1, h2⟩, h3⟩, h4⟩, h5⟩, h6⟩ := h
  exact ⟨front_of h1, ⟨h2, h3⟩, h4, h5, h6⟩

/-- A press command's block: source at word 400h, destination 500h, the place of word 8 at 700h, the result word 600h. -/
def pressBlk (op len iv mac meth res : Nat) : Block :=
  blk [(0, op), (3, 0x1400), (5, 0x1900), (7, len), (9, iv), (11, mac), (12, meth), (13, res)]

/-- Each press command with a least and a greatest length of its range. -/
theorem wit_press : ([(ecbEncCmd, 16, 0, 0, 0, 0), (ecbEncCmd, 2048, 0, 0, 0, 0), (ecbDecCmd, 16, 0, 0, 0, 0), (cbcEncCmd, 32, 0x2300, 0, 0, 0),
    (cbcDecCmd, 2048, 0x2300, 0, 0, 0), (ctrCmd, 1, 0x2300, 0, 0, 0), (ctrCmd, 2047, 0x2300, 0, 0, 0), (cmacGenCmd, 0, 0, 4, 0, 0),
    (cmacGenCmd, 2048, 0, 16, 0, 0), (cmacVerCmd, 5, 0x2300, 16, 0, 0x600), (mac1GenCmd, 9, 0, 8, 1, 0), (mac1GenCmd, 9, 0, 8, 3, 0),
    (mac1VerCmd, 9, 0x2300, 8, 2, 0x3FFFF)].all fun x =>
    pressRunsB x.1 (pressBlk x.1.op x.2.1 x.2.2.1 x.2.2.2.1 x.2.2.2.2.1 x.2.2.2.2.2) (aesKey true)
      (pressState (aesKey true) (pressBlk x.1.op x.2.1 x.2.2.1 x.2.2.2.1 x.2.2.2.2.1 x.2.2.2.2.2))) = true := by decide +kernel

theorem wit_press_tdea : ([(mac3GenCmd, 9, 0, 8, 1, 0), (mac3VerCmd, 9, 0x2300, 4, 3, 0x400)].all fun x =>
    pressRunsB x.1 (pressBlk x.1.op x.2.1 x.2.2.1 x.2.2.2.1 x.2.2.2.2.1 x.2.2.2.2.2) desKey
      (pressState desKey (pressBlk x.1.op x.2.1 x.2.2.1 x.2.2.2.1 x.2.2.2.2.1 x.2.2.2.2.2))) = true := by decide +kernel

theorem wit_kw_wrap : pressRunsB kwWrapCmd (pressBlk 0xC 0 0 0 0 0) (aesKey true) (pressState (aesKey true) (pressBlk 0xC 0 0 0 0 0)) = true ∧
    (pressOf (pressState (aesKey true) (pressBlk 0xC 0 0 0 0 0)).rt 0).k1 = some (aesKey true) := by decide +kernel

/-- A key without the group, and an ECB-only key, meet the same conditions. -/
theorem wit_press_refused : ([(ecbEncCmd, 16, 0, 0, 0), (cmacVerCmd, 5, 0x2300, 16, 0x600)].all fun x =>
    pressRunsB x.1 (pressBlk x.1.op x.2.1 x.2.2.1 x.2.2.2.1 0 x.2.2.2.2) (aesKey false)
      (pressState (aesKey false) (pressBlk x.1.op x.2.1 x.2.2.1 x.2.2.2.1 0 x.2.2.2.2))) = true ∧
    pressRunsB cbcEncCmd (pressBlk 3 16 0x2300 0 0 0) { aesKey true with perms := { perms true with ecbOnly := true } }
      (pressState { aesKey true with perms := { perms true with ecbOnly := true } } (pressBlk 3 16 0x2300 0 0 0)) = true := by decide +kernel

/-- CBC of one block of zeros from a zero starting value is AES of zeros: FIPS 197 with the key 80000000000000000000000000000000h gives
0EDD33D3C621E546455BD8BA1418BEC8h. -/
theorem test_cbc_enc : ((do
    let b := pressBlk 3 16 0x2300 0 0 0
    let k := { aesKey true with key := 0x80#8 :: List.replicate 15 0 }
    match exec (.cbcEnc 0 0) (pressState k b) with
    | .next t => some (readBytes t.rt 0 4 0x1900)
    | _ => none) : Option Bytes) = some [0x0E, 0xDD, 0x33, 0xD3] := by decide +kernel

/-! ### Hash units -/

/-- Hash unit 0 of CD0 with a key, a prefix and what an earlier command absorbed. -/
def hashState (k : EngKey) (st : Option (Nat × Nat × Bytes)) (b : Block) : State :=
  let s := engState (hashRef 0 0) true [b] []
  { s with rt := setHash 0 { hashOf s.rt 0 with k0 := some k, pre := some [1, 2], st := st } s.rt }

def macKey (v : Bool) : EngKey := { alg := .hmac, key := List.replicate 32 1, perms := perms v, payload := false }

def hashRunsB (op : Nat) (b : Block) (a : HashAlg) (before src : Bytes) (s : State) : Bool :=
  frontB s.rt (hashRef 0 0) op 0 b && decide (blkW b 1 < 32) && blkZero b 11 5 && decide (hashOfBlock b = some a) && hashParOk b a &&
    (!blkFlag b 3 || (prefixAllowed b && (hashOf s.rt 0).pre.isSome)) && decide (blkD b 6 ≤ 16777216) &&
    (blkFlag b 1 || blkD b 6 % hashBlock a == 0) &&
    (if blkFlag b 0 then (hashOf s.rt 0).st == some (blkW b 8, op, before) else before == []) &&
    decide (readSource s.rt 0 b (blkFlag b 2) true (blkD b 6) = .ok src)

theorem hash_of {op : Nat} {b : Block} {a : HashAlg} {before src : Bytes} {s : State} (h : hashRunsB op b a before src s = true) :
    HashRuns op 0 0 true 0 b a before src s := by
  simp only [hashRunsB, Bool.and_eq_true, Bool.or_eq_true, decide_eq_true_eq, Bool.not_eq_true', beq_iff_eq] at h
  obtain ⟨⟨⟨⟨⟨⟨⟨⟨⟨h1, h2⟩, h3⟩, h4⟩, h5⟩, h6⟩, h7⟩, h8⟩, h9⟩, h10⟩ := h
  refine ⟨front_of h1, ⟨h2, h3⟩, h4, h5, fun hp => ?_, ⟨h7, fun hf => ?_⟩, ?_, h10⟩
  · rcases h6 with h6 | h6
    · rw [h6] at hp; cases hp
    · exact h6
  · rcases h8 with h8 | h8
    · rw [h8] at hf; cases hf
    · exact h8
  · split at h9 <;> simp_all [hashRef, ekey]

/-- A hash command's block: flags, length, algorithm, output length and result word. -/
def hashBlk (op fl len alg n res : Nat) : Block :=
  blk [(0, op), (1, fl), (3, 0x1400), (5, 0x1900), (7, len), (8, alg), (9, n), (10, res)]

/-- HASH of SHA-256 not final and final, continued, and of SHAKE with the prefix first or last; HMAC_GEN and HMAC_VER. -/
theorem wit_hash : ([(1, 0, 64, 1, 0, 0, []), (1, 2, 3, 1, 0, 0, []), (1, 3, 0, 1, 0, 0, [5]), (1, 0xA, 3, 0x21, 512, 0, []),
    (1, 0x1A, 3, 0x22, 1, 0, []), (2, 0, 64, 1, 0, 0, []), (2, 2, 1, 1, 0, 0, []), (3, 0, 64, 1, 0, 0x600, []), (3, 2, 33, 1, 0, 0x600, []),
    (3, 3, 32, 1, 0, 0x600, [7])].all fun x =>
    let b := hashBlk x.1 x.2.1 x.2.2.1 x.2.2.2.1 x.2.2.2.2.1 x.2.2.2.2.2.1
    let before := x.2.2.2.2.2.2
    let s := hashState (macKey true) (if blkFlag b 0 then some (x.2.2.2.1, x.1, before) else none) b
    match hashAlg x.2.2.2.1 with
    | some a => hashRunsB x.1 b a before (zeros x.2.2.1) s
    | none => false) = true := by decide +kernel

/-- HASH of no byte with SHA-256 begins E3 B0 C4 42 (FIPS 180-4). -/
theorem test_hash_empty : ((do
    match exec (.hash 0 0 true) (hashState (macKey true) none (hashBlk 1 2 0 1 0 0)) with
    | .next t => some (readBytes t.rt 0 4 0x1900)
    | _ => none) : Option Bytes) = some [0xE3, 0xB0, 0xC4, 0x42] := by decide +kernel

/-! ### Looms -/

/-- Loom 0 of CD0 with a key and a command at the front. -/
def loomState (v : Bool) (b : Block) : State :=
  let s := engState (loomRef 0 0) true [b] []
  { s with rt := setLoom 0 { loomOf s.rt 0 with k0 := some (aesKey v) } s.rt }

def loomRunsB (op : Nat) (b : Block) (k : EngKey) (src : Bytes) (s : State) : Bool :=
  frontB s.rt (loomRef 0 0) op 0 b && decide (blkW b 1 < 8) && decide (loomDst b < 2) && (loomOf s.rt 0).k0 == some k && k.alg == .aes &&
    !k.perms.ecbOnly && loomParOk b && (loomLenOk b && loomFits (jobCmd s.rt 0) b) && decide (readSource s.rt 0 b (blkFlag b 0) true (blkD b 6) = .ok src)

theorem loom_of {op : Nat} {b : Block} {k : EngKey} {src : Bytes} {s : State} (h : loomRunsB op b k src s = true) :
    LoomRuns op 0 0 true 0 b k src s := by
  simp only [loomRunsB, Bool.and_eq_true, decide_eq_true_eq, Bool.not_eq_true', beq_iff_eq] at h
  obtain ⟨⟨⟨⟨⟨⟨⟨⟨h1, h2⟩, h3⟩, h4⟩, h5⟩, h6⟩, h7⟩, h8⟩, h9⟩ := h
  exact ⟨front_of h1, ⟨h2, h3⟩, h4, ⟨h5, h6⟩, h7, h8, h9⟩

/-- A loom command's block: flags, source length, nonce and tag lengths, header length, result word 600h. -/
def loomBlk (op fl len nonce tag hdr : Nat) : Block :=
  blk [(0, op), (1, fl), (3, 0x1400), (5, if fl = 0 then 0x1900 else 0), (7, len), (9, 0x2300), (10, nonce), (11, tag), (13, 0x2800), (14, hdr),
    (15, 0x600)]

/-- The desk holds zeros, whose tag is not zeros: `out` is then withheld. The first two are staged and to the desk. -/
theorem wit_loom : ([(1, 2, 0, 12, 16, 0), (1, 0, 33, 12, 16, 5), (3, 0, 16, 7, 4, 0), (3, 2, 16, 13, 16, 8), (2, 0, 16, 12, 16, 0),
    (2, 2, 40, 12, 16, 5), (4, 0, 4, 13, 4, 0), (4, 0, 20, 7, 16, 0)].all fun x =>
    let b := loomBlk x.1 x.2.1 x.2.2.1 x.2.2.2.1 x.2.2.2.2.1 x.2.2.2.2.2
    loomRunsB x.1 b (aesKey true) (zeros x.2.2.1) (loomState true b)) = true ∧
    loomRunsB 2 (loomBlk 2 0 20 12 16 0) (aesKey false) (zeros 20) (loomState false (loomBlk 2 0 20 12 16 0)) = true ∧
    (gcmDec (List.replicate 16 1) (zeros 12) [] [] (zeros 16)).2 = false ∧ (ccmDec (List.replicate 16 1) (zeros 13) [] [] (zeros 4)).2 = false := by
  decide +kernel

/-- With the tag that the encryption gives, a decryption verifies. -/
theorem wit_loom_opens : (let k := List.replicate 16 (1 : Byte); let e := gcmEnc k (zeros 12) [] [9]; let f := ccmEnc k (zeros 7) [] [9] 4
    gcmDec k (zeros 12) [] (e.take 1) (e.drop 1) = ([9], true) ∧ ccmDec k (zeros 7) [] (f.take 1) (f.drop 1) = ([9], true)) := by decide +kernel

/-! ### Reckoners -/

/-- Reckoner 0 of CD0 with limbs 0: 5, 1: 7, 2: 9, modulus register 0: 11, and q 3329. -/
def aReckoner : Reckoner :=
  { Reckoner.reset with mem := [(0, 5), (1, 7), (2, 9)], mod0 := { len := 1, m := 11, secret := false }, q := 3329, bc := 1 }

def recState (r : Reckoner) (b : Block) : State :=
  let s := engState (recRef 0 0) true [b] []
  { s with rt := setReckoner 0 { r with com := comOf s.rt (recRef 0 0) } s.rt }

/-- A reckoner command's block: code, flags, A, B, D, n, MODi, words 13, 14 and 15. -/
def recBlk (op fl a b d n m p x y : Nat) : Block :=
  blk [(0, op), (1, fl), (8, a), (9, b), (10, d), (11, n), (12, m), (13, p), (14, x), (15, y)]

/-- The unit of `recState`, with its queue and latch. -/
def recUnit (r : Reckoner) (b : Block) : Reckoner := reckonerOf (recState r b).rt 0

def recRunsB (op : Nat) (b : Block) (s : State) : Bool :=
  frontB s.rt (recRef 0 0) op 0 b && fieldsOk (recCmd b) && (recCmd b).y == 0 && noPtrs b

theorem rec_of {op : Nat} {b : Block} {s : State} (h : recRunsB op b s = true) :
    RecRuns op 0 0 0 b (recCmd b) (reckonerOf s.rt 0) s := by
  simp only [recRunsB, Bool.and_eq_true, beq_iff_eq] at h
  obtain ⟨⟨⟨h1, h2⟩, h3⟩, h4⟩ := h
  exact ⟨front_of h1, rfl, rfl, ⟨h2, h3⟩, h4⟩

/-- A range lies in operand memory, two ranges are apart, or equal or apart. -/
def fitsB (a n : Nat) : Bool := decide (a + n ≤ 4096)
def apartB (a n b m : Nat) : Bool := decide (a + n ≤ b ∨ b + m ≤ a)
def sameB (a b n : Nat) : Bool := decide (a = b) || apartB a n b n

theorem ranges_of (a b n m : Nat) : (fitsB a n = true ↔ fits a n) ∧ (apartB a n b m = true ↔ disjoint a n b m) ∧
    (sameB a b n = true ↔ sameOrApart a b n) := by
  simp [fitsB, apartB, sameB, fits, disjoint, sameOrApart]

/-- The limb commands: the checks of the command at the front and, per command, its ranges and values. -/
theorem wit_reckoner_limbs : ([(3, 0, 0, 0, 4095, 1, 0, 0), (3, 0, 0, 0, 2048, 2048, 0, 0), (4, 0, 1, 0, 0, 1, 3, 0), (4, 0, 1, 0, 0, 128, 0, 0),
    (4, 0, 4, 0, 0, 1, 0, 0), (5, 0, 0, 1, 3, 1, 0, 0), (5, 0, 0, 1, 256, 128, 0, 0), (5, 1, 0, 0, 3, 1, 0, 0), (6, 0, 0, 0, 3, 1, 0, 0),
    (7, 0, 0, 1, 0, 1, 0, 0), (7, 0, 2, 1, 3, 1, 0, 0), (8, 0, 0, 1, 1, 1, 0, 0), (9, 16, 0, 1, 0, 1, 0, 4095), (9, 32, 0, 256, 0, 256, 0, 0),
    (9, 8, 0, 1, 0, 1, 0, 0), (10, 0, 0, 0, 0, 0, 0, 0x3FFFF)].all fun t =>
    let b := recBlk t.1 t.2.1 t.2.2.1 t.2.2.2.1 t.2.2.2.2.1 t.2.2.2.2.2.1 t.2.2.2.2.2.2.1 t.2.2.2.2.2.2.2 0 0
    let x := recCmd b
    let r := recUnit aReckoner b
    let n := x.n
    let small := decide (1 ≤ n ∧ n ≤ 128)
    let a := numAt r n x.a
    recRunsB t.1 b (recState aReckoner b) && (match t.1 with
      | 3 => decide (1 ≤ n) && fitsB x.a n && fitsB x.d n && apartB x.a n x.d n && x.p == 0
      | 4 => small && fitsB x.a n && x.p == 0 && (decide (3 ≤ a ∧ a % 2 = 1) || decide (a % 2 = 0 ∨ a < 3))
      | 5 => small && fitsB x.a n && fitsB x.b n && fitsB x.d (2 * n) && apartB x.a n x.d (2 * n) && apartB x.b n x.d (2 * n) && x.p == 0 &&
        !fRsq x && (!fAcc x || decide (numAt r (2 * n) x.d + a * numAt r n x.b < 2 ^ (128 * n)))
      | 6 => small && fitsB x.a (2 * n) && fitsB x.d n && apartB x.a (2 * n) x.d n && x.p == 0 && !fRsq x && !fZx x &&
        decide ((modReg r x.m).len = n ∧ (modReg r x.m).m % 2 = 1)
      | 7 => small && fitsB x.a n && fitsB x.b n && fitsB x.d n && sameB x.a x.d n && sameB x.b x.d n && decide (0 < (modReg r x.m).len) &&
        x.p == 0 && decide (a < (modReg r x.m).m ∧ numAt r n x.b < (modReg r x.m).m)
      | 8 => small && fitsB x.a n && fitsB x.b n && fitsB x.d n && sameB x.a x.d n && sameB x.b x.d n && decide (0 < (modReg r x.m).len) &&
        x.p == 0 && decide (a < (modReg r x.m).m ∧ numAt r n x.b < (modReg r x.m).m)
      | 9 => decide (1 ≤ n ∧ n ≤ 256) && fitsB x.a n && fitsB x.b n && apartB x.a n x.b n && decide (x.p < 4096)
      | _ => decide (x.p < 2 ^ 18))) = true := by decide +kernel

/-- LOADL, STOREL, RNDL, RUNL and CHK at the front. -/
def moveBlk (op n p x y len : Nat) (src dst : Bool) (m : Nat) : Block :=
  blk [(0, op), (1, 0), (3, if src then 0x1400 else 0), (5, if dst then 0x1900 else 0), (7, len), (8, 0), (9, 1), (10, 2), (11, n), (12, m), (13, p),
    (14, x), (15, y)]

theorem wit_reckoner_moves :
    (let b := moveBlk 1 1 0 0 0 8 true false 0
     frontB (recState aReckoner b).rt (recRef 0 0) 1 0 b && fieldsOk (recCmd b) && blkZero b 4 2 &&
       decide ((getPtr (recState aReckoner b).rt 0 b 2 (blkD b 6)).length ≤ 8)) = true ∧
    (let b := moveBlk 1 256 0 1 0 1 true false 0
     frontB (recState aReckoner b).rt (recRef 0 0) 1 0 b && fieldsOk (recCmd b) && blkZero b 4 2 &&
       decide (ofBe (getPtr (recState aReckoner b).rt 0 b 2 (blkD b 6)) = 0 ∧ 0 < (modReg (recUnit aReckoner b) 0).len)) = true ∧
    (let b := moveBlk 2 3 0 0 0 24 false true 0
     frontB (recState aReckoner b).rt (recRef 0 0) 2 0 b && fieldsOk (recCmd b) && blkZero b 2 2 && !anySecret (recUnit aReckoner b) 0 3) = true ∧
    (let b := moveBlk 2 3 0 0 0 24 false true 0
     let r := { aReckoner with marks := [2] }
     frontB (recState r b).rt (recRef 0 0) 2 0 b && anySecret (recUnit r b) 0 3 && !anySecret (recUnit r b) 0 2) = true ∧
    (let b := moveBlk 0xB 4 0 0 0 0 false false 0
     let s := recState aReckoner b
     frontB s.rt (recRef 0 0) 0xB 0 b && noPtrs b && !(comOf s.rt (recRef 0 0)).running && !(mintOf s.rt 0).exhausted) = true := by
  decide +kernel

/-- A list of one BSET (10 0 0 0 0 0 0 5) at desk word 400h. -/
theorem wit_runl :
    (let b := moveBlk 0xC 1 0 0 8192 0 true false 0
     let s0 := recState aReckoner b
     let s := { s0 with rt := setClerk 0 { clerkOf s0.rt 0 with mem := [(0x400, 10), (0x407, 5)] } s0.rt }
     let l := readList s.rt 0 ((blkP b 2).getD 0 / 5) 1
     frontB s.rt (recRef 0 0) 0xC 0 b && fieldsOk (recCmd b) && blkZero b 4 4 && (blkP b 2).map (· % 5) == some 0 &&
       l.all (fun y => inList (blkW y 0)) &&
       (runEntries (l.map fun y => listCmd y b.lib) ({ aReckoner with list := l }, [])).2 == [] &&
       (runEntries (l.map fun y => listCmd y b.lib) ({ aReckoner with list := l }, [])).1.bc == 5) = true := by decide +kernel

/-- 5^9 mod 11 = 9, which is limb 2: the invariant of kind 1 holds for x = 5, y = 9 and e = 9. -/
theorem wit_chk : ([(true, false, true), (true, true, true), (false, false, false)].all fun t =>
    let b := { blk [(0, 0xD), (8, 0), (9, 2), (10, 2), (11, 1), (12, 0), (13, 0x11), (14, 100), (15, 1024)] with lib := t.1 }
    let r := { aReckoner with refused := t.2.1 }
    let u := recUnit r b
    frontB (recState r b).rt (recRef 0 0) 0xD 0 b && fieldsOk (recCmd b) && noPtrs b && !anySecret u 2 1 &&
      decide (powMod (numAt u 1 0) (limbAt u 2) 11 = numAt u 1 2 ∨ t.2.1 = true ∨ t.1 = false) && (recCmd b).lib == t.1 && u.keyPerms == none) = true := by
  decide +kernel

/-- CHK kind 3 on the zero polynomial in both forms, with the mint's indices. -/
theorem wit_chk3 :
    (let b := { blk [(0, 0xD), (8, 0), (9, 128), (10, 0), (11, 1), (12, 0), (13, 0x13), (14, 100), (15, 4)] with lib := true }
     let r := { Reckoner.reset with q := 3329 }
     let u := recUnit r b
     let s := onRt (setMint 0 { Mint.reset with seeded := true, key := zeros 48, v := zeros 48 }) (recState r b)
     frontB s.rt (recRef 0 0) 0xD 0 b && fieldsOk (recCmd b) && noPtrs b && !chkBad (recCmd b) u && (drawNow 0 16 s.rt).isSome &&
       nttAgrees (zeros 16) (recCmd b) u && !nttAgrees (zeros 16) (recCmd b) (putLimbs 128 [1] u) && u.keyPerms == none && !u.refused) = true := by
  decide +kernel

/-- A reckoner that zeroes itself. -/
theorem wit_wipe : (comOf (setCom (recRef 0 0) (comWiping EngCom.reset) Rt.reset) (recRef 0 0)).latch.wiping = true := by decide +kernel

/-- The lattice commands, at the least and the greatest count of polynomials. -/
theorem wit_reckoner_lattice : ([(0x10, 0, 0, 0, 0, 3329, 0), (0x10, 0, 0, 0, 0, 8380417 % 2 ^ 20, 7), (0x10, 0, 0, 0, 0, 4, 0),
    (0x11, 0, 0, 0, 1, 0, 0), (0x11, 0x80, 0, 0, 8, 6, 0), (0x12, 0, 0, 0, 1, 0, 0), (0x12, 0, 0, 2048, 8, 0, 0), (0x13, 0, 0, 2048, 8, 0, 0),
    (0x14, 0, 0, 0, 8, 0, 0), (0x15, 0, 0, 2048, 8, 0, 0)].all fun t =>
    let b := recBlk t.1 t.2.1 t.2.2.1 0 t.2.2.2.1 t.2.2.2.2.1 0 t.2.2.2.2.2.1 t.2.2.2.2.2.2 0
    let x := recCmd b
    let r := recUnit aReckoner b
    let w := 128 * x.n
    let polys := decide (1 ≤ x.n ∧ x.n ≤ 8 ∧ 0 < r.q) && fitsB x.a w && fitsB x.b w && fitsB x.d w && x.p == 0 && x.x == 0
    let q := x.p + 2 ^ 20 * (x.x % 16)
    recRunsB t.1 b (recState aReckoner b) && (match t.1 with
      | 0x10 => decide (x.x < 16) && (q == 3329 || q == 8380417 || decide (q % 2 = 0))
      | 0x11 => decide (1 ≤ x.n ∧ x.n ≤ 8) && fitsB x.a w && decide (x.p < layerCount r.q) && x.x == 0
      | 0x13 => polys && !fAcc x && apartB x.a w x.d w && apartB x.b w x.d w
      | _ => polys && !fAcc x && sameB x.a x.d w && sameB x.b x.d w)) = true := by decide +kernel

/-- LROUND with function 0 and LNORM with a bound of ML-DSA-65 for a signing job. -/
theorem wit_rounding : ([0, 1, 2, 4, 5].all fun p =>
    let r := { aReckoner with q := if p < 3 then 3329 else 8380417 }
    (List.range 40).any fun y => let b := recBlk 0x16 0 0 0 0 8 0 p y 0
      recRunsB 0x16 b (recState r b) && lroundOk r.q p y) = true ∧
    (let r := { aReckoner with q := 8380417, keyPerms := some [1], mlDsa := some 1 }
     (mlDsaBounds 1).all fun z => let b := recBlk 0x17 0 0 0 200 1 0 (z % 2 ^ 20) (z / 2 ^ 20) 0
       recRunsB 0x17 b (recState r b) && decide ((recCmd b).x < 16) && (mlDsaBounds 1).length != 0) = true := by decide +kernel

/-! ## Engine instructions, key loads, the end of a job -/

/-- The engine operand of press 0, and its latch state. -/
def aPress : EngineRef := pressRef 0 0
def oE : Opnds := ops (at1 0xF0000) nil nil
def oSub : Opnds := ops (at1 0xF0000) (at1 0x400) nil

def named (f : Fmt) (o : Opnds) (e : EngineRef) (s : State) (ok : Args → Rt → Bool) : Bool :=
  match issue f noLen 0 o s with
  | some (x, rt) => portOf 0 (targetWord x.la) == .engine e 0 && ok x rt
  | none => false

theorem wit_engines :
    (named fmtLatch oE aPress (engState aPress false [] []) fun _ rt => !otherHouse rt 0 aPress && !holds rt 0 aPress && canClaim rt aPress) = true ∧
    (let s := engState aPress false [] []
     let s := { s with rt := setCom aPress { EngCom.reset with latch := { Latch.reset with held := true, holder := 1, fifo := [2, 3, 4, 5, 6, 7, 8] } } s.rt }
     (named fmtLatch oE aPress s fun _ rt => !otherHouse rt 0 aPress && !holds rt 0 aPress && !canClaim rt aPress) &&
     (named fmtWaitl oE aPress s fun _ rt => !holds rt 0 aPress && !canClaim rt aPress && decide ((comOf rt aPress).latch.fifo.length < 8))) = true ∧
    (named fmtWaitl oE aPress (engState aPress false [] []) fun _ rt => !holds rt 0 aPress && canClaim rt aPress) = true ∧
    ([fmtLatch, fmtWaitl].all fun f => named f oE aPress (engState aPress true [] []) fun _ rt => holds rt 0 aPress) = true ∧
    (named fmtUnlatch oE aPress (engState aPress true [] []) fun _ rt => holds rt 0 aPress && (comOf rt aPress).queue.isEmpty) = true ∧
    (named fmtWaite oE aPress (engState aPress true [] []) fun _ rt => holds rt 0 aPress && (comOf rt aPress).queue.isEmpty) = true ∧
    (named fmtWaite oE aPress (engState aPress true [blk []] []) fun _ rt => holds rt 0 aPress && !(comOf rt aPress).queue.isEmpty) = true := by
  decide +kernel

/-- SUBMIT of ECB_ENC of 16 bytes with three commands in the queue. -/
theorem wit_submit :
    (named fmtSubmit (ops (at1 0xF0000) (imm 0x400) nil) aPress
      (engState aPress true [blk [], blk [], blk []] [(0x400, 1), (0x403, 0x1400), (0x405, 0x1900), (0x407, 16)]) fun x rt =>
      let b : Block := { words := (List.range 16).map (fun i => BitVec.ofNat 20 (readWord rt 0 (valW rt 0 x.lb + i))),
                         lib := decide (0x80000 ≤ x.ic ∧ x.ic < 0x8C000) }
      holds rt 0 aPress && decide (valW rt 0 x.lb + 16 ≤ 0x40000) && codeDefined .press (blkW b 0) && desksOk .press b &&
        decide ((comOf rt aPress).queue.length < 4)) = true := by decide +kernel

/-- A key operand: key1 of the descriptor, or the handle at B[n]. -/
def keyOp (sel n : Nat) : Opnd := { mode := 0xD, ext := [BitVec.ofNat 20 (sel * 2 ^ 18 + n * 2 ^ 14)] }

/-- KLOAD by a descriptor's handle and by one in memory; KLOADX with no data and with one byte of data. -/
theorem wit_key_loads :
    ([keyOp 0 0, keyOp 1 0, keyOp 2 3].all fun k => named fmtKload (ops (at1 0xF0000) k nil) aPress (engState aPress true [] [(3, 0x500)]) fun x rt =>
      holds rt 0 aPress && (keyHandle rt 0 x.lb).toOption.isSome) = true ∧
    ([0, 1].all fun n => [0, 1, 0x81].all fun w => named fmtKloadx (ops (at1 0xF0000) (keyOp 0 0) (imm 0x400)) aPress
      (engState aPress true [] [(0x400, BitVec.ofNat 20 w), (0x401, 0x101), (0x403, 0x1900), (0x405, BitVec.ofNat 20 n)]) fun x rt =>
        let a := valW rt 0 x.lc
        let k := readWord rt 0 (a + 4) * 2 ^ 20 + readWord rt 0 (a + 5)
        holds rt 0 aPress && (keyHandle rt 0 x.lb).toOption.isSome && decide (a + 8 ≤ 0x40000) &&
          (match longPtr (readWord rt 0 (a + 2)) (readWord rt 0 (a + 3)) with
           | some p => k == 0 || inDesk p (2 * k)
           | none => false) && targetDefined .press (readWord rt 0 a)) = true := by decide +kernel

theorem wit_rand : ([0, 1, 4096].all fun n =>
    match issue fmtRand randLen 0 (ops (at1 0x400) (imm n) nil) (jobState []) with
    | some (x, rt) => valW rt 0 x.lb == n && !(mintOf rt 0).exhausted
    | none => false) = true := by decide +kernel

/-- JEND with an inline result and with an output, JFAIL with each status that a program may give. -/
theorem wit_ends :
    (let s := jobState []
     let s := { s with rt := { s.rt with cmds := [(0, aCmd 0 (aDesc 0x0101 0x20 0 0 [] 0 16) .dispatched)] } }
     match issue fmtJend jendLen 0 (ops (at1 0x400) (imm 16) (at1 0x500)) s with
     | some (x, rt) => (clerkOf rt 0).job == some 0 && (clerkOf rt 0).outcome.1 == 0 && !workPending rt (clerkOf rt 0) && jobInline rt 0 &&
         valD rt 0 x.lb == 16
     | none => false) = true ∧
    ([0, 4096].all fun n => match issue fmtJend jendLen 0 (ops (at1 0x400) (imm n) (at1 0x500)) (jobState []) with
     | some (x, rt) => !workPending rt (clerkOf rt 0) && !jobInline rt 0 && valD rt 0 x.lb == n &&
         decide ((nibbleExtent (2 * n) (nibOf x.la)).1 + (nibbleExtent (2 * n) (nibOf x.la)).2 ≤ 0x40000)
     | none => false) = true ∧
    ([stMalformed, stUsageRefused, stDualControl, stInputRefused].all fun v =>
     match issue fmtJfail noLen 0 (ops (imm v) (imm 0x20) nil) (jobState []) with
     | some (x, rt) => valW rt 0 x.la % 2 ^ 16 == v && (kget rt.cmds 0).isSome
     | none => false) = true := by decide +kernel

/-- Head clerks in a mode, with an entry of the monitor and an internal register. -/
def headState (mode : Nat) : State :=
  let s := setMode 128 mode { Rt.reset with head := { Rt.reset.head with entries := [(3, 0x80020)], regs := [(7, 0x55)], monitorOnly := [8] } }
  { State.reset with rt := s }

theorem wit_privileged :
    (match issue fmtMcall noLen 128 (ops (imm 3) nil nil) (headState 2) with
     | some (x, rt) => (kget rt.head.entries (valW rt 128 x.la)).isSome && swMode (clerkOf rt 128).sw == 2
     | none => false) = true ∧
    (match issue fmtMret noLen 128 (ops nil nil nil) (headState 3) with
     | some (_, rt) => swMode (clerkOf rt 128).sw == 3
     | none => false) = true ∧
    (match issue fmtIor noLen 128 (ops (at1 0x400) (imm 7) nil) (headState 2) with
     | some (x, rt) => (kget rt.head.regs (valW rt 128 x.lb)).isSome && !monitorOnly rt 128 (valW rt 128 x.lb)
     | none => false) = true ∧
    ([2, 3].all fun m => match issue fmtIow noLen 128 (ops (imm (m + 5)) (imm 1) nil) (headState m) with
     | some (x, rt) => !monitorOnly rt 128 (valW rt 128 x.la)
     | none => false) = true ∧
    (issue fmtWaiti noLen 128 (ops nil nil nil) (headState 2)).isSome = true ∧
    clerkReady (jobState []).rt 0 = true ∧
    (match fetchWords [] 0 [] 1 (clerkOf (jobState []).rt 0).ic.toNat (jobState []).rt with
     | .ok _ => true
     | _ => false) = true ∧ insnFits (jobState []).rt 0 0x80000 0x90 (ops nil nil nil) = true := by decide +kernel

/-! ## Worked examples of the spec -/

/-- A state in which base words and the input pointer of 10 Table 10.7 stand; the job's booth number is at 21Eh. -/
def addrState : Rt := (jobState [(3, 0x01040), (5, 0x00006), (13, 0x50000), (15, 0x0FFE0)]).rt

/-- 10 Table 10.7: modes 3, 4, 9, Ah, Bh and Ch. -/
theorem test_addresses : ([(3, 0x3FFFC), (4, 0x35400), (9, 0xC0007), (10, 0xFFFF8), (11, 0x0001E), (12, 0x00040)].map fun t =>
    match effAddr addrState 0 0x80120 1 { mode := BitVec.ofNat 4 t.1, ext := [BitVec.ofNat 20 t.2] } with
    | .ok (.word a _, _) => a
    | .ok (.nib p _, _) => p
    | _ => 0) = [0x0103C, 0x0104C, 327687, 0x0FFD8, 0x0021E, 0x80160] := by decide +kernel

/-- The clerk of 11 Table 11.9 with the PAN 8917305528641077 as text at its input pointer. -/
def panState : State :=
  onRt (fun rt => writeBytes 0 (0x10000 * 5) [0x38, 0x39, 0x31, 0x37, 0x33, 0x30, 0x35, 0x35, 0x32, 0x38, 0x36, 0x34, 0x31, 0x30, 0x37, 0x37] rt)
    (jobState [(13, 0x50000)])

/-- An instruction's state after it. -/
def after (i : Instr) (s : State) : State :=
  match exec i s with
  | .next t => t
  | _ => s

/-- Words of clerk 0's memory. -/
def wordsAt (s : State) (a n : Nat) : List Nat := (List.range n).map fun i => readWord s.rt 0 (a + i)

/-- EDP 00400h, 0(B12:), =02001h of 11 Table 11.9. -/
def panDigitsState : State := after (.edp 0 (ops (at1 0x400) { mode := 9, ext := [0xC0000] } (imm 0x02001))) panState

/-- 11 Table 11.10, EDP with DIR 1. -/
theorem test_edp : wordsAt panDigitsState 0x400 3 = [0x89173, 0x05528, 0x64107] ∧ readWord panDigitsState.rt 0 0x403 / 65536 = 7 := by
  decide +kernel

/-- 11 Table 11.10, LUHN with VFY 1: 00410h is zero and Z is set. -/
theorem test_luhn : (let t := after (.luhn 0 (ops (at1 0x410) (at1 0x400) (imm 0x02001))) panDigitsState
    (readWord t.rt 0 0x410, (clerkOf t.rt 0).sw.getLsbD 0)) = (0, true) := by decide +kernel

/-- 11 Table 11.10, DECZ through the digits 0123456789012345, read here from the desk. -/
theorem test_decz : (let s := jobState [(0x300, 0x01234), (0x301, 0x56789), (0x302, 0x01234), (0x303, 0x50000), (0x420, 0x3F9A0), (0x421, 0x7C251),
      (0x422, 0xEE84B), (0x423, 0x60000)]
    let t := after (.decz 0 (ops (at1 0x420) (at1 0x300) (imm 0x10))) s
    (wordsAt t 0x420 3, readWord t.rt 0 0x423 / 65536)) = ([0x35900, 0x72251, 0x44841], 6) := by decide +kernel

/-- 12, the RSA-4096 signing key: handle 0909A80006012C40h, an extent of 16 slots. -/
theorem test_handle : echoOf 0x12C40 { SlotRec.free with fmt := 1, cls := 0x21, house := 212, gen := 3 } = 0x0909A80006012C40 ∧
    (handleOf 0x0909A80006012C40).slot = 76864 ∧ extentLen 1796 = 16 := by decide +kernel

/-- 18 Table 18.6: the account field, the clear block 04 39 12 FA AD 79 BE F8, and the PIN 3961 recovered from it. -/
theorem test_pin_block : accountOf [8, 9, 1, 7, 3, 0, 5, 5, 2, 8, 6, 4, 1, 0, 7, 7] = [7, 3, 0, 5, 5, 2, 8, 6, 4, 1, 0, 7] ∧
    (let card := cardOfAccount [7, 3, 0, 5, 5, 2, 8, 6, 4, 1, 0, 7]
     let key := desKey.key
     let v := recoverPin true key (tdeaEnc key [0x04, 0x39, 0x12, 0xFA, 0xAD, 0x79, 0xBE, 0xF8]) card
     v.bad = none ∧ v.fmt = 0 ∧ v.pin = [3, 9, 6, 1] ∧
     panField4 [7, 3, 0, 5, 5, 2, 8, 6, 4, 1, 0, 7] = [0x07, 0x30, 0x55, 0x28, 0x64, 0x10, 0x70, 0, 0, 0, 0, 0, 0, 0, 0, 0]) := by decide +kernel

/-- 18 R380: the intermediate value 4F 2D 81 C9 3A 07 E6 B5 with n = 3 gives the code 428, held as 42 8F. -/
theorem test_cvc : (twoPass (nibbles [0x4F, 0x2D, 0x81, 0xC9, 0x3A, 0x07, 0xE6, 0xB5])).take 10 = [4, 2, 8, 1, 9, 3, 0, 7, 6, 5] ∧
    packF 2 [4, 2, 8] = [0x42, 0x8F] := by decide +kernel

/-- 18 R386: the tweak of 8917305528641077 with 6 leading and 4 trailing digits kept. -/
theorem test_tweak : tokenTweak true [8, 9, 1, 7, 3, 0, 1, 0, 7, 7] = [0x89, 0x17, 0x30, 0x10, 0x77] := by decide +kernel

/-- 19, Worked example: presets 0 and 1 on the text 123456789. -/
theorem test_tally : tallyBytes (presetOf Rt.reset 0) [0x31, 0x32, 0x33, 0x34, 0x35, 0x36, 0x37, 0x38, 0x39] = [0x83, 0x92, 0x06, 0xE3] ∧
    tallyBytes (presetOf Rt.reset 1) [0x31, 0x32, 0x33, 0x34, 0x35, 0x36, 0x37, 0x38, 0x39] = [0x29, 0xB1] := by decide +kernel

/-- 18 R388: the header of a 112-byte version D block of an AES-128 PIN key. -/
theorem test_key_block_header : kbHeader false 112 [0x50, 0x30] 0x41 0x45 [0x30, 0x30] 0x45 =
    [0x44, 0x30, 0x31, 0x31, 0x32, 0x50, 0x30, 0x41, 0x45, 0x30, 0x30, 0x45, 0x30, 0x30, 0x30, 0x30] ∧ kbLen false 16 = 112 := by decide +kernel

/-! ## Library commands -/

/-- A key of house 3 at generation 5. -/
def keyRec (cls alg size : Nat) (usage : BitVec 16) (mode : Nat) (mat : Bytes) : SlotRec :=
  { SlotRec.free with kind := if mat.length ≤ 64 then 1 else 2, fmt := 1, cls := cls, house := 3, gen := 5, alg := alg, size := size, usage := usage,
                      mode := mode, exportab := 0x45, extLen := extentLen mat.length, matLen := mat.length, mat := mat }

/-- House 3's record: slots 1 000 to 1 999. -/
def houseRec : SlotRec := keyRec 2 0 0 u00 mN (le 4 1000 ++ le 4 1000)

def aesRec (cls : Nat) (usage : BitVec 16) (mode : Nat) : SlotRec := keyRec cls algA 16 usage mode (List.replicate 16 7)
def desRec (cls : Nat) (usage : BitVec 16) (mode : Nat) : SlotRec := keyRec cls algT 16 usage mode ((List.range 16).map (BitVec.ofNat 8))

/-- The handle of a key in a slot. -/
def handleAt (slot : Nat) (r : SlotRec) : BitVec 64 := BitVec.ofNat 64 (echoOf slot r)

def aCfg : BoothCfg :=
  { pasid := 1, house := 3, fmt := 2, ceiling := 5, share := 64, sqLog2 := 4, cqLog2 := 4, vector := 0, sqIova := 0x1000, cqIova := 0x2000,
    coalCount := 0, coalTime := 0, streaming := false, ringTally := false, preset := 0, epoch := 0,
    windows := [{ start := 0x10000, stop := 0x40000, rd := true, wr := true }] }

/-- An open booth. -/
def aBooth (v : Option Nat) : Booth :=
  { cfg := aCfg, oldWindows := [], sqTail := 0, cqHead := 0, fetchHead := 0, cqTail := 0, cqUnread := 0, phase := true, fetchStopped := false,
    version := v, heldOpen := none, openBundle := none, unsignalled := 0, coalRunning := false, counted := 0, closing := false, closeDone := 0,
    closeAborted := 0, closeDiscarded := 0 }

/-- A mint that serves requests. -/
def aMint : Mint := { Mint.reset with seeded := true, key := zeros 48, v := zeros 48 }

/-- The module in service with booth 0 of house 3, and command 0 of an opcode dispatched: key 1 in slot 1 000, key 2 in slot 1 001. -/
def svc (op flags : Nat) (r1 r2 : SlotRec) (inl input : Bytes) : State :=
  let h := fun (slot : Nat) (r : SlotRec) => if r.kind = 0 then 0#64 else handleAt slot r
  let d := aDesc (BitVec.ofNat 16 op) (BitVec.ofNat 8 flags) (h 1000 r1) (h 1001 r2) (padTo 14 inl) (BitVec.ofNat 32 input.length) 4096
  let c : Cmd := { aCmd 0 d .dispatched with input := input, inputDone := true }
  onRt (fun rt => { awake rt with
    boot := { rt.boot with isSealed := true, serviceReady := true, stage := 0x0C }, booths := [(0, aBooth (some 3))], cmds := [(0, c)], mint0 := aMint,
    strong := { rt.strong with indexLoaded := true, nextTile := 2 ^ 22, keys := some { storeEnc := zeros 32, storeSum := zeros 32, memory := zeros 32, hbm0 := zeros 32, hbm1 := zeros 32 },
                               tileKey := some (zeros 32),
                               slots := (25, houseRec) :: ([(1000, r1), (1001, r2)].filter fun z => z.2.kind != 0) } }) State.reset

/-- Command 0 runs with an opcode. -/
def runs (s : State) (op : Nat) : Bool := (jobOf s.rt 0 op).isSome

/-- Key 1 of the command passes the checks, and key 2 once key 1 has been looked up. -/
def fnd (s : State) (second : Bool) (ok : SlotRec → Bool) : Bool :=
  match jobOf s.rt 0 (((kget s.rt.cmds 0).map fun c => c.desc.opcode.toNat).getD 0) with
  | some x => (match lookKey s.rt x (if second then x.cmd.desc.key2 else x.cmd.desc.key1) ok with
    | .key _ _ => true
    | _ => false)
  | none => false

def fnd2 (s : State) (ok1 ok2 : SlotRec → Bool) : Bool :=
  match jobOf s.rt 0 (((kget s.rt.cmds 0).map fun c => c.desc.opcode.toNat).getD 0) with
  | some x => (match lookKey s.rt x x.cmd.desc.key1 ok1 with
    | .key k r => fnd s false ok1 && fnd (looked x k r s) true ok2
    | _ => false)
  | none => false

/-- The state with the latch open for house 3 and booth 0. -/
def latched (s : State) : State := onRt (fun rt => { rt with twoKey := .opened 3 0 (1, 2) none }) s

/-- KEY_REVOKE, KEY_DELETE, KEY_REPARENT and KEY_INFO on a plain key, a dual-control key, and a revoked one. -/
theorem wit_key_changes :
    ([0x11, 0x13, 0x15, 0x14].all fun op => [aesRec 0x12 uP0 mB, { aesRec 0x12 uP0 mB with flags := 1 }, { aesRec 0x12 u00 mB with usageBefore := uP0 }].all
      fun r =>
      let s := svc op 0 r (aesRec 0x10 uK0 mB) [] []
      (match jobOf s.rt 0 op with
       | some x => plainForm x && !latchOpenFor s.rt x && latchOpenFor (latched s).rt x &&
           (match lookSlot s.rt x x.cmd.desc.key1 with
            | .key slot r' => slot == 1000 && r' == r && (needsLatch r' == r.flags.testBit 0)
            | _ => false)
       | none => false)) = true ∧
    ([0x11, 0x13, 0x14, 0x15].all fun op => let s := svc op 0 (aesRec 0x12 uP0 mB) (aesRec 0x10 uK0 mB) [1] []
      (match jobOf s.rt 0 op with
       | some x => !plainForm x
       | none => false)) = true ∧
    ([0x11, 0x13, 0x15].all fun op =>
      let bad : TileImage := { data := zeros 1024, version := 1, sum := 1 }
      let s := onRt (modCmd 0 fun c => { c with reads := [(125, bad)] }) (svc op 0 (aesRec 0x12 uP0 mB) (aesRec 0x10 uK0 mB) [] [])
      (match jobOf s.rt 0 op with
       | some x => plainForm x && (match lookSlot s.rt x x.cmd.desc.key1 with
         | .bad p k => p == 1 && k == 125
         | _ => false)
       | none => false)) = true := by decide +kernel

/-- KEY_REPLACE with what unwraps to 16 zero bytes under the key of `aesRec`, for a slot that they fit and one that they do not, and with
what is no wrapped key; KEY_REPARENT under the latch. -/
theorem wit_key_replace :
    ([be 24 5973429405880045136271608634885097619198767672764414716009, zeros 23].all fun v =>
      let s := svc 0x12 0 (aesRec 0x12 uP0 mB) (aesRec 0x10 uK0 mB) [2] v
      runs s 0x12 && fnd s true (fun w => keyIs 0x10 [uK0] [mB, mD] w && w.alg == algA)) = true ∧
    kwUnwrap (List.replicate 16 7) (be 24 5973429405880045136271608634885097619198767672764414716009) = some (zeros 16) ∧
    replacement (aesRec 0x12 uP0 mB) (aesRec 0x10 uK0 mB) (List.replicate 16 7) (zeros 23) 2 = none ∧
    (let a : Attrs := { cls := 0x12, alg := algA, size := 16, usage := uP0, mode := mB, exportab := 0x45, dual := false }
     replaceFits (aesRec 0x12 uP0 mB) a (zeros 16) = true ∧ replaceFits (keyRec 0x12 algA 24 uP0 mB (zeros 24)) a (zeros 16) = false) ∧
    (let s := latched (svc 0x14 0 (aesRec 0x12 uP0 mB) (aesRec 0x10 uK0 mB) [] [])
     runs s 0x14 && fnd s true (fun _ => true) && mayParent 0x10 && decide (levelOf s.rt none 0 (aesRec 0x10 uK0 mB) + 1 ≤ 2) &&
       ((ancestors s.rt none 0 3 (aesRec 0x10 uK0 mB)).map Prod.fst).isEmpty) = true ∧
    (let r := aesRec 0x12 uP0 mB
     let s0 := svc 0x14 0 r (aesRec 0x10 uK0 mB) [] []
     let s := latched (onRt (modCmd 0 fun c => { c with desc := { c.desc with key2 := c.desc.key1 } }) s0)
     runs s 0x14 && fnd s true (fun _ => true)) = true := by decide +kernel

/-- The attributes of an AES PIN key, and of a public ECDSA key on P-256. -/
def pinAttrs : Bytes := [0x12, 0x41, 0x10, 0x50, 0x30, 0x42, 0x45, 0]
def pubAttrs : Bytes := [0x28, 0x45, 0x01, 0x53, 0x30, 0x56, 0x45, 0]

/-- The base point of P-256 as an uncompressed point. -/
def aPoint : Bytes := pointBytes p256 (some (p256.gx, p256.gy))

theorem wit_new_keys :
    ([zeros 16, []].all fun v => let s := svc 0x10 0 (aesRec 0x10 uK0 mB) SlotRec.free pinAttrs v
      runs s 0x10 && fnd s false (fun r => mayParent r.cls) && attrsOk (attrsOf pinAttrs) && !notGenerated 0x12 &&
        levelFits s.rt none 0 (aesRec 0x10 uK0 mB) && !(attrsOf pinAttrs).dual && (takeDelivered 0 (userCmd 0) s.rt).isNone &&
        (let t := onRt (setMint 0 { aMint with delivered := [(userCmd 0, zeros 16)] }) s
         (takeDelivered 0 (userCmd 0) t.rt).isSome)) = true ∧
    ([aPoint, aPoint.drop 1].all fun k => let s := svc 0x16 0 (aesRec 0x10 uK0 mB) SlotRec.free pubAttrs (zeros 16 ++ k)
      runs s 0x16 && fnd s false (fun r => mayParent r.cls) && attrsOk (attrsOf pubAttrs) && (attrsOf pubAttrs).cls == 0x28 &&
        (publicRefused algE 1 k).isNone == (k.length == 65)) = true ∧
    (let s := svc 0x10 0 (aesRec 0x10 uK0 mB) SlotRec.free pinAttrs []
     allocRun s 4 1 = none ∧ allocRun s 3 1 = some 1001 ∧ allocRun s 3 64 = some 1024) := by decide +kernel

/-- A change that finds its slot held for the twin, reserved, and free. -/
theorem wit_submit_job : (let s := svc 0x11 0x20 (aesRec 0x12 uP0 mB) SlotRec.free [] []
    let ch : SlotChange := { slot := 1000, genBefore := 5, after := SlotRec.free, policy := true, house := 3, member := 0 }
    let rec0 : JRec := { seq := 0, epoch := 0, bundle := none, pairSeq := none, changes := [ch], entries := [], complete := true, marked := false,
                         retired := false, held := true, acked := true }
    let b : Bundle := { newBundle 7 0 true with reads := [1000] }
    let t := { s with nv := { s.nv with journal := [rec0] } }
    let v := onRt (fun rt => { rt with bundles := [(7, b)] }) s
    (kget s.rt.cmds 0).map (fun c => isInline c.desc && c.bundle.isNone && !c.withheld) = some true ∧ heldByTwin t 1000 = true ∧
    heldByTwin s 1000 = false ∧ reservedByOther v.rt v.rt.disp.nextBundle 1000 = true ∧ reservedByOther s.rt s.rt.disp.nextBundle 1000 = false ∧
    (jobOf s.rt 0 0x11).map (fun x => isCurrent s.rt x 1000) = some true) := by decide +kernel

/-- OPEN at a booth without other commands, with each range of versions that the statement names. -/
def openState (lo hi : Nat) : State :=
  let s := svc 1 0x20 SlotRec.free SlotRec.free [BitVec.ofNat 8 lo, BitVec.ofNat 8 hi] []
  onRt (fun rt => { rt with booths := [(0, aBooth none)] }) (onRt (modCmd 0 fun c => { c with stage := .input, admitted := false, desc := { c.desc with outLim := 16 } }) s)

theorem wit_open : ([(1, 3), (3, 255), (1, 2), (2, 2), (4, 4), (4, 255), (2, 1), (3, 0)].all fun v =>
    match openReady (openState v.1 v.2).rt 0 with
    | some c => byteAt c.desc.inl 0 == v.1 && byteAt c.desc.inl 1 == v.2 && isInline c.desc && zeroAt c.desc.inl 2 12
    | none => false) = true ∧ openReady (svc 1 0x20 SlotRec.free SlotRec.free [] []).rt 0 = none := by decide +kernel

/-- 17 Table 17.4: the inline result of OPEN, for booth 0 of house 3 with share 64 and priority ceiling 5. -/
theorem test_open : openResult (openState 2 3) 3 37 { aCfg with house := 212, share := 2048 } =
    [0x03, 0x00, 0x25, 0x00, 0xD4, 0x00, 0x00, 0x08, 0x00, 0x00, 0x05, 0, 0, 0, 0, 0] := by decide +kernel

/-- ATTEST and TIME_TOKEN with nonces of 8 and 64 bytes, and outside them; the seed of the shipped module passes its check. -/
theorem wit_attest : seedOk Otp.shipped = true ∧ seedOk { Otp.shipped with seed := 0 } = false ∧
    ([7, 8, 64, 65].all fun n => (running (svc 2 0 SlotRec.free SlotRec.free [1] (zeros n)).rt 0 2).isSome &&
      (running (svc 3 0 SlotRec.free SlotRec.free [] (zeros n)).rt 0 3).isSome) = true ∧
    (drawNow 0 88 (svc 2 0 SlotRec.free SlotRec.free [1] (zeros 8)).rt).isSome = true ∧
    (drawNow 0 56 (svc 3 0 SlotRec.free SlotRec.free [] (zeros 8)).rt).isSome = true := by decide +kernel

/-! ## Payment commands -/

/-- The PAN 8917305528641077 in ten bytes. -/
def panBytes : Bytes := [0x89, 0x17, 0x30, 0x55, 0x28, 0x64, 0x10, 0x77, 0xFF, 0xFF]

/-- A format 0 block of the PIN 3961 for that PAN under the key of `desRec`, and one whose control nibble is wrong. -/
def pinBlock : Bytes := be 8 8218593942207930786
def badBlock : Bytes := be 8 4160122840580577761

def pinIn : SlotRec := desRec 0x12 uP0 mB

/-- PIN_TRANSLATE of a good and of a bad block, and of a pair of formats outside Table 18.4. -/
theorem wit_pin_translate : ([(pinBlock, 4, none), (badBlock, 4, some 0x02), (pinBlock, 1, none)].all fun v =>
    let s := svc 0x100 0 pinIn (aesRec 0x12 uP0 mB) ([BitVec.ofNat 8 v.2.1, 0] ++ panBytes) v.1
    match jobOf s.rt 0 0x100 with
    | some x => fnd s false (accepts 0x100 false) && fnd2 s (accepts 0x100 false) (accepts 0x100 true) &&
        !keyWaits x x.cmd.desc.key2 (accepts 0x100 true) s && (drawNow 0 8 s.rt).isSome && !(mintOf s.rt 0).exhausted &&
        (recoverPin true pinIn.mat v.1 (cardOfPan [8, 9, 1, 7, 3, 0, 5, 5, 2, 8, 6, 4, 1, 0, 7, 7])).bad == v.2.2 &&
        decide (versionOf s.rt x.cmd = some 3) && pairAllowed 0 v.2.1 == (v.2.1 == 4) && !isInline x.cmd.desc
    | none => false) = true ∧
    (let s := svc 0x100 0x20 pinIn pinIn (pinBlock ++ [0x7A, 0, 0, 0, 0, 0]) []
     runs s 0x100 && (nibbles (slice (pinBlock ++ [0x7A, 0, 0, 0, 0, 0]) 8 6)).any (fun d => decide (9 < d))) = true := by decide +kernel

/-- PIN_VERIFY and PIN_OFFSET_GEN in the two methods, with a good and a bad block. -/
theorem wit_pin_verify : ([(true, uV2, 9, [0, 0]), (false, uV2, 0, []), (true, uV1, 4, [1, 2, 3, 4, 5, 6, 7, 8] ++ [0x01, 0x23, 0x45, 0x67, 0x89, 0x01, 0x23, 0x45] ++ [0, 0]),
    (false, uV1, 4, [1, 2, 3, 4, 5, 6, 7, 8] ++ [0x01, 0x23, 0x45, 0x67, 0x89, 0x01, 0x23, 0x45])].all fun v => [pinBlock, badBlock].all fun b =>
    let op := if v.1 then 0x101 else 0x102
    let s := svc op 0 pinIn (desRec 0x13 v.2.1 mB) (panBytes ++ [BitVec.ofNat 8 v.2.2.1]) (b ++ v.2.2.2)
    runs s op && fnd2 s (accepts op false) (fun r => accepts op true r && r.usage == v.2.1) &&
      decide (pinForm v.1 v.2.2.1 (b ++ v.2.2.2).length = if v.2.1 = uV2 then .value 8 else .offset 8) &&
      ((recoverPin true pinIn.mat b (cardOfPan [8, 9, 1, 7, 3, 0, 5, 5, 2, 8, 6, 4, 1, 0, 7, 7])).bad.isNone == (b == pinBlock)) &&
      (v.2.1 == uV2 || tableOk (nibbles (slice v.2.2.2 8 8)))) = true ∧
    pinForm true 4 11 = .malformed ∧ pinForm true 10 10 = .refused 5 ∧ pinForm true 13 30 = .refused 3 := by decide +kernel

/-- ANSI X9.24-3: initial key ID 1234567890123456h under the base derivation key FEDCBA9876543210F1F1F1F1F1F1F1F1h, counter 1. -/
theorem test_dukpt : (dukptWorking [0xFE, 0xDC, 0xBA, 0x98, 0x76, 0x54, 0x32, 0x10, 0xF1, 0xF1, 0xF1, 0xF1, 0xF1, 0xF1, 0xF1, 0xF1]
    [0x12, 0x34, 0x56, 0x78, 0x90, 0x12, 0x34, 0x56, 0, 0, 0, 1] 0x1000 2).take 4 = [0xAF, 0x8C, 0xB1, 0x33] := by decide +kernel

def ksn : Bytes := [0x12, 0x34, 0x56, 0x78, 0x90, 0x12, 0x34, 0x56, 0, 0, 0, 1]

/-- DUKPT_DECRYPT and DUKPT_PIN_TRANSLATE: a refused counter, a key that is too short, and keys that suit. -/
theorem wit_dukpt : ksnRefused (ksn.take 11 ++ [0, 2]) = true ∧ ksnRefused (ksn ++ [2]) = false ∧
    ([(2, 1, 32), (2, 2, 2048), (4, 1, 32)].all fun v =>
      let s := svc 0x130 0 (aesRec 0x15 uB0 mX) SlotRec.free (ksn ++ [BitVec.ofNat 8 v.1, BitVec.ofNat 8 v.2.1]) (zeros v.2.2)
      runs s 0x130 && fnd s false (accepts 0x130 false) && decide (dukptKeyLen v.1 ≤ 16) == (v.1 == 2)) = true ∧
    (let card := cardOfPan [8, 9, 1, 7, 3, 0, 5, 5, 2, 8, 6, 4, 1, 0, 7, 7]
     let k := dukptWorking (List.replicate 16 7) ksn 0x1000 2
     [(be 16 59254276598579819368463978454500715353, true), (zeros 16, false)].all fun v =>
      let s := svc 0x131 0 (aesRec 0x15 uB0 mX) (aesRec 0x12 uP0 mB) (ksn ++ [2, 0]) (v.1 ++ panBytes)
      runs s 0x131 && fnd2 s (accepts 0x131 false) (accepts 0x131 true) && (drawNow 0 8 s.rt).isSome &&
        (recoverPin false k v.1 card).bad.isNone == v.2) = true := by decide +kernel

/-- CVC_GENERATE and CVC_VERIFY with 2 to 6 digits. -/
theorem wit_cvc : ([false, true].all fun v => [2, 3, 5, 6].all fun n =>
    let op := if v then 0x111 else 0x110
    let s := svc op 0x20 (desRec 0x14 uC0 mB) SlotRec.free (panBytes ++ [0x12, 0x34, 0x56, BitVec.ofNat 8 (0x70 + n)]) (zeros (cdiv n 2))
    runs s op && fnd s false (accepts op false) && (panDigits panBytes).isSome) = true ∧
    ([0x110, 0x120, 0x150].all fun op => runs (svc op 0x20 (desRec 0x14 uC0 mB) SlotRec.free [0xA1] []) op && (panDigits (padTo 14 [0xA1])).isNone) = true := by
  decide +kernel

/-- ARQC_VERIFY with each method and with a layout that is refused; SM_MAC and SM_ENC_MAC. -/
theorem wit_emv :
    ([(0, 0, true), (1, 2, true), (2, 4, true), (2, 13, false), (3, 0, false)].all fun v =>
      let s := svc 0x120 0 (desRec 0x16 uE0 mX) SlotRec.free (panBytes ++ [0, 0, 1, BitVec.ofNat 8 v.1]) (1 :: zeros (9 + v.2.1))
      runs s 0x120 && fnd s false (accepts 0x120 false) && arqcLayout v.1 (1 :: zeros (9 + v.2.1)) == v.2.2 &&
        (match emvCard (panBytes ++ [0, 0, 1, BitVec.ofNat 8 v.1]) with
         | .ok d => (match derive (desRec 0x16 uE0 mX) (desRec 0x16 uE0 mX).mat 4 d with
           | .key _ => true
           | .no _ _ => false)
         | .error _ => false)) = true ∧
    ([4, 5, 2048, 2049].all fun n => let s := svc 0x121 0 (desRec 0x17 uE2 mX) SlotRec.free (panBytes ++ [0, 0, 1, 0]) (zeros n)
      runs s 0x121 && fnd s false (accepts 0x121 false)) = true ∧
    (let s := svc 0x122 0 (desRec 0x17 uE2 mX) (desRec 0x18 uE1 mX) (panBytes ++ [0, 0, 1, 0]) (zeros 6)
     runs s 0x122 && fnd2 s (accepts 0x122 false) (accepts 0x122 true)) = true := by decide +kernel

/-- MAC_GENERATE and MAC_VERIFY: with parameters that the press refuses, and good. -/
theorem wit_mac : ([false, true].all fun v => [(desRec 0x19 uM1 mB, 4, 1, true, false), (desRec 0x19 uM3 mB, 8, 3, true, false), (aesRec 0x19 uM6 mB, 16, 0, true, false),
      (aesRec 0x19 uM3 mB, 8, 3, true, true), (desRec 0x19 uM1 mB, 9, 1, true, true)].all fun k =>
    let op := if v then 0x141 else 0x140
    let r := k.1
    let s := svc op 0 r SlotRec.free [BitVec.ofNat 8 k.2.1, BitVec.ofNat 8 k.2.2.1] (zeros 20)
    runs s op && fnd s false (accepts op false) && (if v then (storedPerms r).macv else (storedPerms r).macg) == k.2.2.2.1 &&
      macParBad r k.2.1 k.2.2.1 == k.2.2.2.2) = true := by decide +kernel

/-- TOKENISE and DETOKENISE of the PAN with 6 and 4 digits kept, and of a string with 5 digits between. -/
theorem wit_token : ([false, true].all fun v => [(6, 4), (6, 5)].all fun n =>
    let op := if v then 0x151 else 0x150
    let s := svc op 0x20 (aesRec 0x1B (uOwn 1) mB) SlotRec.free (panBytes ++ [BitVec.ofNat 8 (16 * n.1 + n.2), 1]) []
    runs s op && fnd s false (accepts op false) && decide (6 ≤ 16 - n.1 - n.2) == (n.2 == 4)) = true := by decide +kernel

/-- An RSA key of 512 bits: modulus, exponent, p, q, dp, dq and qinv. -/
def rsaMat : Bytes :=
  be 64 0xcd764394cc0b68bce12a2e9dec961135301c57dba6c6525b4c2e4c29f9bd45b894f949e6890a2245e5d1b7dc521eb9a4f4f98d8c7f604136e7a55d9386a4c061 ++
  be 4 65537 ++ be 32 0xe02fdaa1ad864c44e049548e8a0a8c9632ea6928f6236bf2504b74ba4a0fe75d ++ be 32 0xea9e2de890d90e5a53777fec1ba0895d61c12c05003e181aa962740fe4ba40d5 ++
  be 32 0xb06a77ed8a9388291b2619782180b3a8ee6030689f68b86572722e64fa2b11b1 ++
  be 32 0x857df4ef13a37cc8261fa3388b4b9f7cf386feede5826f22946801539db7dff5 ++
  be 32 0x21e1c6c787d3566bbfe4d9f8ef83a46c8b758513186cc80dd3e63fcdac67910a

/-- A key block of an AES PIN key under the key of `aesRec` as a hexadecimal number. -/
def goodBlock : Bytes := be 112 0x44303131325030414230304530303030384231303734333343464445444531384133383236444437323345354339343145383046434338414246373433364136453041323132384436454136463830303132384238394132304546454137383744373534463231453945443844313545

theorem wit_key_block :
    ([(zeros 48, none), (goodBlock, some true)].all fun v =>
      let s := svc 0x160 0 (aesRec 0x11 uK1 mB) SlotRec.free [0] v.1
      runs s 0x160 && fnd s false (accepts 0x160 false) && decide (48 ≤ v.1.length ∧ v.1.length ≤ 4096) &&
        levelFits s.rt none 0 (aesRec 0x11 uK1 mB) &&
        ((kbUnwrap false (List.replicate 16 7) v.1).map fun c => attrsOk { kbAttrs c with dual := false }) == v.2) = true ∧
    ([pinIn, { pinIn with exportab := 0x4E }, { pinIn with flags := 1 }].map fun r =>
      let s := svc 0x161 0 r (aesRec 0x11 uK1 mB) [] []
      match jobOf s.rt 0 0x161 with
      | some x => (match lockExport x x.cmd.desc.key1 x.cmd.desc.key2 s.rt with
        | .ok _ => 0
        | .error (.no st) => st
        | .error _ => 1)
      | none => 2) = [0, stUsageRefused, stDualControl] := by decide +kernel

/-- KEY_CHECK_VALUE, AEAD_ENCRYPT and AEAD_DECRYPT: parameters that are refused, a short source, and sources that are taken. -/
theorem wit_aead :
    ([[], [1]].all fun p => let s := svc 0x162 0x20 pinIn SlotRec.free p []
      runs s 0x162 && fnd s false (accepts 0x162 false)) = true ∧
    ([false, true].all fun d => [(1, 12, 16, 8, true), (2, 7, 4, 0, true), (2, 14, 4, 0, false), (1, 12, 15, 0, false)].all fun v =>
      [v.2.1 + v.2.2.2.1, v.2.1 + v.2.2.2.1 + 20].all fun n =>
      let op := if d then 0x171 else 0x170
      let s := svc op 0 (aesRec 0x1A uD0 mB) SlotRec.free ([BitVec.ofNat 8 v.1, BitVec.ofNat 8 v.2.1, BitVec.ofNat 8 v.2.2.1, 0] ++ le 4 v.2.2.2.1) (zeros n)
      runs s op && fnd s false (accepts op false) && aeadParOk (v.1 == 2) v.2.1 v.2.2.1 == v.2.2.2.2) = true := by decide +kernel

/-- SIGN: a scheme that is refused, a private key that is refused, a scheme that does not fit, RSA and ECDSA. -/
theorem wit_sign : schemeRefused false 5 1 true = true ∧ schemeRefused false 1 4 true = true ∧
    ([(1, keyRec 0x21 algR 2 uS0 mS rsaMat, none, true), (1, keyRec 0x22 algE 1 uS0 mS (be 96 (2 ^ 513)), none, false),
      (3, keyRec 0x22 algE 1 uS0 mS (be 96 (2 ^ 513)), none, true), (3, keyRec 0x22 algE 1 uS0 mS (zeros 96), some 0x30, true)].all fun v =>
      let s := svc 0x200 0 v.2.1 SlotRec.free [BitVec.ofNat 8 v.1, 1, 1] (zeros 32)
      match jobOf s.rt 0 0x200 with
      | some x => fnd s false (accepts 0x200 false) && decide (versionOf s.rt x.cmd = some 3) && !schemeRefused false v.1 1 true &&
          keyRefused v.2.1 (materialOf s.rt none 0 1000 v.2.1) == v.2.2.1 && schemeFits v.1 v.2.1.alg == v.2.2.2 && (drawNow 0 40 s.rt).isSome
      | none => false) = true ∧
    ([rsaMat, rsaMat.take 196 ++ be 32 1].all fun m => let r := keyRec 0x21 algR 2 uS0 mS m
      let v := rsaMessage 1 1 r m [] (zeros 32)
      (keyRefused r m).isNone && (baseRefused v (beAt m 0 64)).isNone &&
        ((signWith 1 1 r m [] (zeros 32)).map fun sig => rsaHolds 2 m v sig) == some (m == rsaMat)) = true := by decide +kernel

/-- An ECDSA signature exists for d = 2 and k = 2. -/
theorem wit_ecdsa : (signWith 3 1 (keyRec 0x22 algE 1 uS0 mS (be 96 (2 ^ 513))) (be 96 (2 ^ 513)) [1] (zeros 32)).isSome = true := by decide +kernel

/-- A signature by the RSA key verifies under its public half. -/
theorem test_rsa : (match signWith 1 1 (keyRec 0x21 algR 2 uS0 mS rsaMat) rsaMat [] (zeros 32) with
    | some sig => verifyWith 1 1 2 (rsaMat.take 68) (zeros 32) sig
    | none => .error 0).toOption = some true := by decide +kernel

/-- VERIFY: an input that is too short, a value that is refused, and one that is taken. -/
theorem wit_verify : ([(zeros 63, none), (zeros 96, some false), (zeros 95 ++ [2], some true)].all fun v =>
    let r := keyRec 0x28 algR 2 uS0 mV (rsaMat.take 68)
    let s := svc 0x201 0 r SlotRec.free [1, 1, 1] v.1
    runs s 0x201 && fnd s false (accepts 0x201 false) && schemeFits 1 r.alg &&
      (match v.2 with
       | none => decide (v.1.length < sigLen r.alg r.size)
       | some ok => v.1.length == sigLen r.alg r.size + 32 && (verifyWith 1 1 2 (rsaMat.take 68) (v.1.take 32) (v.1.drop 32)).toBool == ok)) = true := by
  decide +kernel

/-- KEY_AGREE on X25519 with a short input, a refused value and the base value; KEM_DECAPSULATE with a good and a bad length. -/
theorem wit_agree :
    ([(zeros 31, 1), (zeros 32, 1), (le 32 9, 2), (le 32 9 ++ zeros 256, 0)].all fun v =>
      let r := keyRec 0x22 algE 4 (uOwn 3) mX (zeros 64)
      let s := svc 0x202 0 r SlotRec.free [16, BitVec.ofNat 8 v.2] v.1
      runs s 0x202 && fnd s false (accepts 0x202 false) && (keyRefused r (materialOf s.rt none 0 1000 r)).isNone &&
        (decide (v.1.length < 32) || (sharedValue 4 (zeros 64) (v.1.take 32)).toBool == (v.1 != zeros 32))) = true := by decide +kernel

theorem wit_kem : ([1087, 1088].all fun n =>
      let r := keyRec 0x24 algL 0x12 (uOwn 5) mD (zeros 2400)
      let s := svc 0x203 0 r SlotRec.free [] (zeros n)
      runs s 0x203 && (keyRefused r (zeros 2400)).isNone && fnd s false (accepts 0x203 false)) = true := by decide +kernel

/-! ## The end of a command -/

/-- A command that stands in no bundle with each kind of output and limit, and a member of a bundle. -/
theorem wit_command_ends :
    ([(0x20, 16), (0x20, 8), (0, 4), (0x10, 8), (0, 3)].all fun v =>
      let c := aCmd 0 (aDesc 0x101 (BitVec.ofNat 8 v.1) 0 0 [] 0 (BitVec.ofNat 32 v.2)) .dispatched
      c.bundle.isNone && !c.withheld && (isInline c.desc == (v.1 == 0x20)) && (hasTallyOut c.desc == (v.1 == 0x10)) &&
        decide (([1, 2, 3, 4] ++ tallyBytes (presetOf Rt.reset c.preset) [1, 2, 3, 4]).length = 8)) = true ∧
    (let b : Bundle := { newBundle 1 0 false with members := [0] }
     b.single = false ∧ b.committed = false ∧ b.failed = none ∧ b.closed = false ∧ ({ b with closed := true } : Bundle).members = [0]) := by
  decide +kernel

/-! ## Rings, completions, registers, faults -/

/-- The module in service with a host, booth 0 of house 3, and keys in slots 1 000 and 1 001. -/
def up : State :=
  onRt (fun rt => { rt with link := { rt.link with up := true }, cmds := [] }) (svc 0x101 0 (aesRec 0x12 uP0 mB) (aesRec 0x10 uK0 mB) [] [])

/-- With a booth 0 in another state. -/
def upBooth (x : Booth) : State := onRt (fun rt => { rt with booths := [(0, x)] }) up

/-- With command 0. -/
def upCmd (c : Cmd) : State := onRt (fun rt => { rt with cmds := [(0, c)] }) up

/-- Doorbells at the ends of their ranges: ring of 16 entries, 3 completion entries not read, head at 15. -/
theorem wit_doorbells : (let x := { aBooth (some 3) with cqHead := 15, cqUnread := 3 }
    doorbellLive (upBooth x).rt x = true ∧ (boothOf (upBooth x).rt 0) = some x ∧ x.cfg.sqLog2 = 4 ∧ x.cfg.cqLog2 = 4 ∧
    (2 + 16 - x.cqHead) % 16 = x.cqUnread ∧ x.cqUnread < (3 + 16 - x.cqHead) % 16) := by decide +kernel

/-- A format 2 entry with an opcode, an input length, and the marks of a bundle clear. -/
def entryBytes (op flags : Nat) : Bytes := [2, BitVec.ofNat 8 flags] ++ le 2 op ++ le 4 9 ++ zeros 16 ++ le 8 0x10000 ++ le 4 0 ++ le 4 16 ++ le 8 0x20000 ++ zeros 16

/-- The same in tamper halt. -/
def halted (s : State) : State := onRt (fun rt => { rt with boot := { rt.boot with stage := 0x81 } }) s

/-- A good entry of TIME_TOKEN and one of an undefined opcode, in service and in tamper halt. -/
theorem wit_fetch : ([(3, none), (0x7777, some stMalformed)].all fun v => [id, halted].all fun at' =>
    let x := { aBooth (some 3) with sqTail := 1 }
    let s := at' (upBooth x)
    let d := descOf 2 (entryBytes v.1 0)
    ptFetches s.rt x && decide (1 ≤ sqWaiting x ∧ x.fetchHead + 1 ≤ 16 ∧ cqClaimed s.rt 0 x + 1 ≤ 16) && x.openBundle.isNone && !markFirst d &&
      !markMore d && d.opcode != 1 && checkDesc s.nv.progs (boothCtx s.rt x) false d == v.2 && (cmdRefusal s.rt d.opcode.toNat).isNone == !inTamperHalt s.rt) = true ∧
    inTamperHalt (halted up).rt = true ∧ inTamperHalt up.rt = false := by
  decide +kernel

/-- An input with a check value of preset 0, one without, and a format 1 prefix alone. -/
theorem wit_input : ([(0, false), (8, false), (0, true)].all fun v =>
    let c := { aCmd 0 (aDesc 3 (BitVec.ofNat 8 v.1) 0 0 [] 16 16) .fetched with admitted := false, prefixed := v.2 }
    let s := upCmd c
    (cmdRefusal s.rt 3).isNone && !isInline c.desc && hasTallyIn c.desc == (v.1 == 8) && c.prefixed == v.2 && inputRangeOk s.rt c s.rt.epoch &&
      outputRangeOk s.rt c s.rt.epoch && c.desc.inLen.toNat == 16 &&
      stripTally (presetOf s.rt c.preset) (zeros 12 ++ tallyBytes (presetOf s.rt c.preset) (zeros 12)) == some (zeros 12) &&
      (zeros 12 ++ tallyBytes (presetOf s.rt c.preset) (zeros 12)).length == 16 && zeroAt (zeros 16) 14 2) = true := by decide +kernel

/-- ADMISSION with credits, without, and at a closed booth. -/
theorem wit_admission : ([64, 1, 0].all fun share =>
    let c := { aCmd 0 (aDesc 3 0 0 0 [] 8 16) .input with admitted := false }
    let o := { aCmd 1 (aDesc 3 0 0 0 [] 8 16) .admitted with admitted := true }
    let x := { aBooth (some 3) with cfg := { aCfg with share := share } }
    let s := onRt (fun rt => { rt with booths := [(0, x)], cmds := [(0, c), (1, o)] }) up
    (cmdRefusal s.rt 3).isNone && !earlierWaits s.rt c 0 && inputRangeOk s.rt c s.rt.epoch && outputRangeOk s.rt c s.rt.epoch &&
      (placeDie s.rt 3).isSome && (decide (occupancy s.rt 0 + 1 ≤ share) == (share == 64)) && c.bundle.isNone) = true := by decide +kernel

/-- A command that has ended with an output, and one whose loom output is to be scrubbed; a booth that coalesces. -/
theorem wit_completion :
    ([id, halted].all fun at' =>
     let c := { aCmd 0 (aDesc 3 0 0 0 [] 0 16) .ended with output := [1], endSeq := 1 }
     let x := { aBooth (some 3) with cfg := { aCfg with coalTime := 10, coalCount := 2 } }
     let s := at' (onRt (fun rt => { rt with cmds := [(0, c)], booths := [(0, x)] }) up)
     decide (needsScrub c = false ∧ endedBefore s.rt c = false ∧ c.discard = false ∧ hostTakes s.rt = true ∧ s.rt.waiting = none ∧ x.closing = false ∧ x.unsignalled + 1 < x.cfg.coalCount ∧
     c.session = none ∧ c.bundle = none ∧ c.grouped = false)) = true ∧
    (let c := { aCmd 0 (aDesc 0x171 0 0 0 [] 0 16) .ended with direct := 70000, withheld := true }
     needsScrub c = true ∧ hostTakes (upCmd c).rt = true) ∧
    (let x := { aBooth (some 3) with coalRunning := true, unsignalled := 1 }
     (boothOf (upBooth x).rt 0).map (fun y => y.coalRunning && decide (0 < y.unsignalled)) = some true) ∧
    (let s := onRt (fun rt => { rt with msix := { table := [(4095, { MsixEntry.reset with mask := false })], pending := [4095], funcMask := false } }) up
     hostReaches s.rt = true ∧ s.rt.msix.pending = [4095] ∧ (msixEntry s.rt.msix 4095).mask = false) := by decide +kernel

theorem wit_registers : hostReaches up.rt = true ∧ up.rt.mbx.busy = false ∧
    (parseReq (reqBuffer { up.rt.mbx with req := [(0, 1)] })).code = 1 ∧ blockServed up.rt 0x9000 = true ∧
    ([3, 7].all fun k => !presetLocked up k && !(presetOf up.rt k).valid && !presetOk (presetOf up.rt k)) = true ∧
    presetOk { Preset.zero with width := 16, poly := 0x1021 } = true := by decide +kernel

/-- Events of a contained source with and without PEND_CONT. -/
def anEvent : FaultEvent := { source := .latchBreak, scope := 0, island := some 4, booth := none, detail := [], houseProg := false }

theorem wit_faults : mainPower up.rt = true ∧ up.rt.power.powerFail = false ∧ boothAttr anEvent = false ∧ classifOf up.rt anEvent = .cls .contained ∧
    up.rt.fault.halted = false ∧ up.rt.fault.pendCont = false ∧ up.rt.fault.inForce = [] ∧ up.rt.fault.wins = [] ∧
    (let s := onRt (fun rt => { rt with fault := { rt.fault with irqMask := 15, pendCont := true },
                                         alert := { rt.alert with widthActive := true, pin := true, hold := true } }) up
     s.rt.fault.irqMask.getLsbD 1 = true ∧ s.rt.fault.irqMask.getLsbD 2 = true ∧ s.rt.alert.hold = true) ∧
    (kget (upCmd (aCmd 0 (aDesc 3 0 0 0 [] 0 16) .dispatched)).rt.cmds 0).map Cmd.stage = some .dispatched := by decide +kernel

/-! ## Power, link, start -/

theorem wit_power :
    (let s := onRt (fun rt => { rt with power := { rt.power with slot12 := false } }) State.reset
     mainPower s.rt = false ∧ (s.rt.power.slot33 && s.rt.power.aux12) = true ∧ s.rt.power.perst = false) ∧
    mainPower up.rt = true ∧ up.rt.window.isOpen = false ∧ up.rt.link.lost = false ∧ up.rt.power.perst = false ∧
    (let s := onRt (fun rt => { rt with power := { rt.power with perst := true } }) State.reset
     mainPower s.rt = true ∧ s.rt.power.perst = true ∧ s.rt.power.powerFail = false) ∧
    State.reset.rt.link.up = false ∧
    (let s := onRt (fun rt => { rt with link := { rt.link with lost := true, up := false } }) up
     s.rt.link.lost = true ∧ s.rt.booths = [(0, aBooth (some 3))] ∧ s.rt.cmds = [] ∧ s.rt.waiting = none) := by decide +kernel

/-! ## Engine events and jobs -/

/-- The module in service with a clerk 0 that runs command 0. -/
def runsJob (k : Clerk) : State :=
  onRt (setClerk 0 { k with st := .running, job := some 0 }) (svc 0x101 0 (aesRec 0x12 uP0 mB) (aesRec 0x10 uK0 mB) [] [1, 2, 3])

/-- Engines with a latch, block counts and reseeds, streams of a session's command, a request at the locksmith. -/
theorem wit_engine_events :
    (let s := engState aPress true [] []
     holderOf s.rt aPress = some 0 ∧ (clerkOf s.rt 0).job = some 0 ∧ (kget s.rt.cmds 0).isSome ∧ aPress.kind = .press ∧ (comOf s.rt aPress).running = false ∧
     inFatal s.rt = false ∧ inTamperHalt s.rt = false ∧ engineExists aPress = true) ∧
    (let f := fun (x : EngCom) => onRt (setCom aPress x) (engState aPress true [] [])
     (comOf (f { EngCom.reset with latch := { Latch.reset with wiping := true } }).rt aPress).latch.wiping = true ∧
     2 ^ 20 - 2 ^ 16 ≤ (comOf (f { EngCom.reset with blocks := 2 ^ 20 - 2 ^ 16 }).rt aPress).blocks ∧
     (let s := onRt (setMint 0 aMint) (f { EngCom.reset with reseedAsked := true })
      (comOf s.rt aPress).reseedAsked = true ∧ (mintOf s.rt aPress.die.val).seeded = true ∧ (comOf s.rt aPress).latch.fifo = []) ∧
     (let s := f { EngCom.reset with running := true, latch := { Latch.reset with held := true, holder := 0 } }
      holderOf s.rt aPress = some 0 ∧ (comOf s.rt aPress).running = true)) ∧
    (let b := blk [(3, 0x1400), (5, 0x1900), (7, 2)]
     let s := onRt (modCmd 0 fun c => { c with session := some 9 }) (runsJob { Clerk.reset with inQ := [b], outQ := [b] })
     (clerkOf s.rt 0).inQ = [b] ∧ (clerkOf s.rt 0).outQ = [b] ∧ (blkP b 4).isSome ∧ (blkP b 2).isSome ∧ blkD b 6 = 2 ∧
     (kget s.rt.cmds 0).map (fun m => m.session.isSome) = some true ∧ inFatal s.rt = false ∧ inTamperHalt s.rt = false) ∧
    (let s0 := runsJob Clerk.reset
     let q : LockReq := { clerk := 0, eng := some aPress, handle := handleAt 1000 (aesRec 0x12 uP0 mB), target := 0, deriv := 0, data := [] }
     let s := onRt (fun rt => { rt with strong := { rt.strong with reqs := [q] } }) s0
     (s.rt.strong.reqs.find? fun y => y.clerk == 0) = some q ∧ (jobCtx s.rt 0).any (fun x => tileMiss s.rt x q.handle [] == none &&
       match findKey s.rt x.house x.cmd.bundle x.cmd.epoch q.handle (requestAccepts s.rt x q) with
       | .key slot r => slot == 1000 && keyAlgOf r.alg == some .aes
       | _ => false) = true ∧ (comOf s.rt aPress).queue = [] ∧ (comOf s.rt aPress).running = false) := by decide +kernel

/-- Command 0 of an opcode waits for a clerk, its input in the module or in host memory at an address. -/
def readyCmd (op : Nat) (done : Bool) (iova : BitVec 64) : State :=
  onRt (fun rt => { modCmd 0 (fun c => { c with stage := .admitted, inputDone := done, desc := { c.desc with inIova := iova, inLen := 3 } }) rt with
    disp := { rt.disp with ready := [0] } }) (svc op 0 (aesRec 0x12 uP0 mB) SlotRec.free [] [])

/-- A free clerk and commands that wait for one, one of a house program, with the input in the module, readable, and outside the windows;
a clerk that wipes; commands that wait for staging. -/
theorem wit_clerk_jobs :
    ([0x101, 0x8000].all fun op => [(true, 0x10000), (false, 0x10000), (false, 0x50000)].all fun v =>
      let s := readyCmd op v.1 v.2
      clerkTakes s.rt 0 && mayRun s.rt && clerkFor s.rt 0 == some 0 &&
        (match pick 0 (pickOrder s.rt) s.rt with
         | (some m, rt0) => m.id == 0 && m.inputDone == v.1 && (v.1 || rangeOk (cmdWindows rt0 m m.epoch) false (hostBase m) (min (hostInput m) 65536) == (v.2 == 0x10000)) &&
            hostInput m == 3 && (match readHost m (some [1, 2, 3]) rt0 with
              | some (_, m') => m'.isSome == (v.1 || v.2 == 0x10000)
              | none => false)
         | _ => false)) = true ∧
    (let s := onRt (setClerk 5 { Clerk.reset with st := .wiping, blocks := [0x10], mem := [(0x100, 1), (0x200, 2), (0x4001, 3)] }) State.reset
     (clerkOf s.rt 5).st = .wiping ∧ 0x4001 / 1024 ∈ (clerkOf s.rt 5).blocks ∧ 0x100 / 1024 ∉ (clerkOf s.rt 5).blocks) ∧
    (let s := runsJob Clerk.reset
     (clerkOf s.rt 0).job.isSome ∧ inFatal s.rt = false ∧ inTamperHalt s.rt = false) ∧
    ([4096, 4097].all fun n =>
      let s := onRt (fun rt => { modCmd 0 (fun c => { c with stage := .admitted, resvWait := true, desc := { c.desc with outLim := BitVec.ofNat 32 n } }) rt with
        disp := { rt.disp with resvQueue := [0] } }) (svc 0x101 0 (aesRec 0x12 uP0 mB) SlotRec.free [] [])
      s.rt.disp.resvQueue == [0] && decide (s.rt.disp.drain = []) &&
        (match kget s.rt.cmds 0 with
         | some m => decide (resvNeed s.rt m ≤ s.rt.disp.pool) && resvNeed s.rt m == (if n == 4097 then 4097 else 0)
         | none => false)) = true := by decide +kernel

/-! ## Start-up, the board, the mint -/

/-- The shipped module with the steps before step n done, and the mints seeded from step 11 on. -/
def atStep (n : Nat) : State :=
  let m := { aMint with maskSeeded := true }
  onRt (fun rt => { (if 11 ≤ n then setMint 1 m (setMint 0 m rt) else rt) with boot := { rt.boot with stepsDone := (List.range n).drop 1 } }) State.reset

def runsStep (n : Nat) (s : State) : Bool := starting s.rt n && stepReady s.rt n && !stepDone s.rt n

/-- Samples that pass the start-up tests, and a mint whose sources have passed them. -/
def someSamples : Bytes := (List.range 4096).map fun i => BitVec.ofNat 8 (i * 167 + i / 256)
def readyMint : Mint := { aMint with ro0 := { NoiseSrc.reset with st := .inService }, ml0 := { NoiseSrc.reset with st := .inService },
                                     ro1 := { NoiseSrc.reset with st := .standby }, ml1 := { NoiseSrc.reset with st := .standby } }

def samplesPass (st : SrcState) : Bool := someSamples.length == 4096 && (assay (freshSrc { NoiseSrc.reset with st := st }) someSamples).2.isNone

theorem wit_samples_off : samplesPass .off = true := by decide +kernel

theorem wit_start_up :
    (let s := { atStep 2 with gon := { State.reset.gon with tamperFlag := true } }
     runsStep 2 s = true ∧ inTamperHalt s.rt = false) ∧
    (let s := atStep 4
     runsStep 4 s = true ∧ openSlot s.otp = none ∧ s.gon.uncounted = false ∧ s.rt.lc.pendingTarget = none ∧ lcDecode s.otp = 3 ∧ inFatal s.rt = false) ∧
    ([5, 10, 11, 12, 13].all fun n => runsStep n (atStep n)) = true ∧
    (let s := atStep 11
     canServe s.rt s.rt.mint0 = true ∧ s.rt.mint0.waiting = [] ∧ s.nv.journal = []) ∧
    (let s := onRt (setMint 0 { aMint with maskSeeded := true, delivered := [(userTileKey, zeros 16)] }) (atStep 12)
     runsStep 12 s = true ∧ kget s.rt.mint0.delivered userTileKey = some (zeros 16)) ∧
    (let s := atStep 14
     runsStep 14 s = true ∧ s.rt.boot.serviceReady = false ∧ inFatal s.rt = false) ∧
    (let s := onRt (setIsland (mintIsland 0) { st := .ready, throttle := 0, seeded := false }) (atStep 7)
     islandReady s.rt (mintIsland 0) = true ∧ (stepDone s.rt 6 || cd0Alone s.rt 0) = true ∧ (mintOf s.rt 0).seeded = false ∧ (mintOf s.rt 0).forerunner = false ∧
     ([0, 1, 2, 3].all fun i => (srcOf (mintOf s.rt 0) i).st != .retired) = true) ∧
    (let s := atStep 7
     stepDone s.rt 6 = true ∧ (mintOf s.rt 0).seeded = false ∧ inServiceList (mintOf s.rt 0) = [] ∧ s.rt.boot.stage ∉ [0x81#8, 0x82#8, 0x86#8, 0x87#8] ∧
     (let t := onRt (setMint 0 aMint) s
      (mintOf t.rt 0).seeded = true ∧ (mintOf t.rt 0).maskSeeded = false)) ∧
    ([0, 5, 4194303].all fun k => let s := onRt (fun rt => { rt with strong := { rt.strong with indexLoaded := true, nextTile := k } }) State.reset
      loading s.rt && !demanded s.rt && decide (s.rt.strong.nextTile ∉ s.rt.strong.extra) && !tileResident s.rt k && !flashBad s.rt k none) = true := by
  decide +kernel

/-- A tile whose first copy, or whose both copies, fail the check; a command that waits for a tile. -/
theorem wit_tiles :
    (let bad : TileImage := { data := zeros 1024, version := 1, sum := 1 }
     let s := onRt (fun rt => { rt with strong := { up.rt.strong with nextTile := 1024, vers := [(5000, 1)] } }) State.reset
     loading s.rt = true ∧ tileResident s.rt 5000 = false ∧ flashBad s.rt 5000 (some bad) = true ∧ flashBad s.rt 5000 none = false) ∧
    (let s := onRt (fun rt => { rt with strong := { rt.strong with nextTile := 60, reqs :=
       [{ clerk := 0, eng := none, handle := handleAt 1000 (aesRec 0x12 uP0 mB), target := 0, deriv := 0, data := [] }] } }) up
     loading s.rt = true ∧ demanded s.rt = true) := by decide +kernel

/-- Main power on and off; an empty cage and one with a module; card slots and a ceremony that waits for a PIN. -/
def aCard (b a : Bool) : Card := { serial := zeros 8, answersB := b, answersA := a, blocked := false, pubKey := zeros 64, components := [] }
def aCeremony : Ceremony := { code := 3, params := [], console := false, seq := 0, pins := [0], cards := [aCard true false], got := [], officers := (0, 0) }

theorem wit_board :
    (mainPower up.rt = true ∧ up.rt.power.powerFail = false ∧ powered up.rt = true ∧ (cageOf up.rt 0).present = false) ∧
    mainPower (onRt (fun rt => { rt with power := { rt.power with slot12 := false } }) State.reset).rt = false ∧
    ([true, false].all fun l => let s := onRt (fun rt => setPort 0 { portOfNet rt 0 with link := l } (setCage 0 { present := true, watts := 9, lowPower := false } rt)) up
      (cageOf s.rt 0).present && (portOfNet s.rt 0).link == l) = true ∧
    cardOf up.rt 1 = none ∧ ((aCard true false).answersB || (aCard true false).answersA) = true ∧ ((aCard false true).answersB || (aCard false true).answersA) = true ∧
    up.rt.ceremony = none ∧ usesSlot { aCeremony with code := 0x38 } 0 = true ∧
    usesSlot { aCeremony with code := 0x37, params := zeros 18 ++ [1] ++ zeros 8 } 0 = true ∧ usesSlot { aCeremony with code := 0x37, params := zeros 18 ++ [1] ++ zeros 8 } 1 = false ∧
    rawCard up.rt 1 = none ∧ (.cagePower, 0) ∉ up.rt.fault.entered ∧ inFatal up.rt = false := by decide +kernel

/-- A seeded mint at each of the moments that the statement names. -/
theorem wit_mint :
    ([0, 6].all fun n => let m := { readyMint with ml0 := { NoiseSrc.reset with st := .standby, fails := n } }
      m.seeded && !m.forerunner && (srcOf m 2).st == .standby && decide ((srcOf m 2).fails < 7)) = true ∧
    (readyMint.seeded = true ∧ readyMint.forerunner = false ∧ readyMint.ro0.st = .inService ∧ readyMint.ml0.st = .inService ∧ readyMint.ro1.st = .standby ∧
     readyMint.ml1.st = .standby) ∧
    ([SrcState.inService, .test].all fun st => let m := { readyMint with forerunner := true, ro0 := { NoiseSrc.reset with st := st } }
      m.forerunner && m.seeded && m.ro0.st == st) = true ∧
    (let m := { readyMint with ro1 := { NoiseSrc.reset with st := .out } }
     m.forerunner = false ∧ (srcOf m 1).st = .out) ∧
    (!(inServiceList readyMint).isEmpty && (someSamples.take 256).length == 256 && (assayBlock (blockOrder readyMint) (someSamples.take 256) readyMint).2) = true ∧
    (let s := onRt (setMint 0 { readyMint with ready := [zeros 32], keyGrade := [.firmware 1 16], waiting := [.firmware 2 16] }) up
     let m := mintOf s.rt 0
     m.ready = [zeros 32] ∧ m.seeded = true ∧ m.keyGrade = [.firmware 1 16] ∧ m.waiting = [.firmware 2 16] ∧ m.served < 4096 ∧ s.rt.now < m.seededAt + 1000000) ∧
    (let s := onRt (setMint 0 { readyMint with served := 4096 }) up
     (mintOf s.rt 0).served = 4096 ∧ (mintOf s.rt 0).keyGrade = []) ∧
    (let none4 := { aMint with keyGrade := [] }
     let s := onRt (setMint 0 none4) up
     (mintOf s.rt 0).seeded = true ∧ inServiceList (mintOf s.rt 0) = [] ∧ (mintOf s.rt 0).exhausted = false ∧ (mintOf s.rt 0).waiting = [] ∧ s.rt.fault.halted = false) ∧
    (let s := onRt (fun rt => setMint 0 { aMint with keyGrade := [.firmware 1000 16] } { rt with fault := { rt.fault with halted := true } }) (svc 0x10 0 SlotRec.free SlotRec.free [] [])
     (mintOf s.rt 0).keyGrade = [.firmware (1000 + 0) 16] ∧ (kget s.rt.cmds 0).map (fun c => (c.admitted, c.bundle, c.stage, c.booth)) = some (true, none, .dispatched, 0) ∧
     s.rt.fault.halted = true) := by decide +kernel

/-! ## Ballast, tamper, journal, policy -/

/-- With an island in a state. -/
def withIsland (i : Nat) (st : IslandState) (s : State) : State := onRt (setIsland i { st := st, throttle := 0, seeded := false }) s

theorem wit_ballast :
    ([0, 17, 35, 56].all fun i => decide (i < 60) && islandCost i != 0 && (islandOf (withIsland i .gated up).rt i).st == .gated && !islandWaiting up.rt i) = true ∧
    (mainPower up.rt = true ∧ up.rt.power.powerFail = false ∧ up.rt.fault.halted = false ∧ islandsRun up.rt = true ∧ up.rt.boot.auxLow = false) ∧
    inService up.rt = true ∧ (onRt (fun rt => { rt with power := { rt.power with perst := true } }) up).rt.power.perst = true ∧
    ([BallastKind.start, .stop, .freq].all fun k => [0, 1, 2].all fun r =>
      let e := entryFor up.rt (18 * r) k 3 1
      (fifoOf (onRt (setFifo r [e]) up).rt r) == [e] && e.kind == k) = true ∧
    (let s := withIsland 0 .starting up
     (islandOf s.rt 0).st = .starting ∧ islandWaiting s.rt 0 = false ∧ (islandOf (withIsland 0 .ready up).rt 0).st ≠ .starting) ∧
    (let s := onRt (fun rt => { rt with ballast := { rt.ballast with idleGating := true } }) (withIsland 4 .ready up)
     s.rt.ballast.idleGating = true ∧ islandGating 4 = 0 ∧ islandReady s.rt 4 = true ∧ islandIdle s.rt 4 = true ∧ islandsRun s.rt = true ∧ up.rt.ballast.idleGating = false) ∧
    ([(0, 761), (3, 736), (3, 760), (9, 761)].all fun v =>
      let s := onRt (fun rt => (List.range 8).foldl (fun r i => setIsland i { st := .ready, throttle := v.1, seeded := true } r) rt) up
      isHottest (readTemp 0 v.2 s.rt) 0 && stepDue (readTemp 0 v.2 s.rt) 0 v.2 && decide (0 ∈ throttled 0) && islandReady s.rt 0 &&
        (throttled 0).any (canSlow s.rt) == decide (v.1 < 9) && (islandOf s.rt 0).throttle == v.1) = true ∧
    stepDue (readTemp 0 760 up.rt) 0 760 = false ∧
    ([BallastKind.start, .stop, .freq].all fun k => let s := onRt (setFifo 0 [entryFor up.rt 0 k 3 1]) up
      (k != .stop || islandIdle s.rt 0) && islandsRun s.rt) = true := by decide +kernel

theorem wit_tamper :
    ([(0x03, 0), (0x0A, 0), (0x14, 0), (0x12, 6)].all fun v => let x : Trip := { code := v.1, site := v.2, detA := true, detB := false }
      (cellsSource x.code || mainArmed up.rt x) && x.code != 0x08) = true ∧
    (let x : Trip := { code := 0x13, site := 17, detA := true, detB := true }
     cellsSource x.code = false ∧ mainArmed up.rt x = false) ∧
    (let s := onRt (fun rt => { rt with power := { rt.power with slot12 := false } }) State.reset
     mainPower s.rt = false ∧ cellsSource 0x03 = true ∧ s.gon.tamperFlag = false) ∧
    (let s := onRt (fun rt => { rt with boot := { rt.boot with stage := 0x81 } }) { up with gon := { up.gon with uncounted := true, tamperFlag := true } }
     mainPower s.rt = true ∧ inTamperHalt s.rt = true ∧ s.gon.uncounted = true ∧ s.otp.tamperCnt < 256 ∧ s.rt.fault.halted = false) ∧
    (up.rt.fault.entered = [] ∧ up.gon.uncounted = false) ∧
    ([true, false].all fun o => let s := onRt (fun rt => { rt with window := { rt.window with isOpen := true, opened := o } }) up
      s.rt.window.isOpen && s.rt.window.opened == o && !s.gon.doorOpen) = true ∧ up.rt.window.isOpen = false ∧
    ([10, 20].all fun t => let s := onRt (fun rt => { rt with now := t, window := { rt.window with isOpen := true, endsAt := 20 } }) up
      decide (s.rt.now < s.rt.window.endsAt) == (t == 10) && mainPower s.rt && !s.rt.power.powerFail) = true := by decide +kernel

/-- Bundle 7 of command 0 with changes and entries, and a journal record in each stage. -/
def aChange : SlotChange := { slot := 1000, genBefore := 5, after := { aesRec 0x12 uP0 mB with gen := 6 }, policy := true, house := 3, member := 0 }
def anEntry : LedgerEntry := moduleEvent 0x0001 []
def aRec (complete marked acked : Bool) (u : Option Nat) : JRec :=
  { seq := 0, epoch := 0, bundle := u, pairSeq := none, changes := [aChange], entries := [anEntry], complete := complete, marked := marked, retired := false,
    held := false, acked := acked }

/-- The module with bundle 7, of command 0 that waits for its commit. -/
def bundled (cs : List SlotChange) (es : List LedgerEntry) : State :=
  onRt (fun rt => { modCmd 0 (fun c => { c with stage := .committing }) rt with
    bundles := [(7, { newBundle 7 0 true with members := [0], closed := true, changes := cs, entries := es })] }) (svc 0x13 0x20 (aesRec 0x12 uP0 mB) SlotRec.free [] [])

def withRec (r : JRec) (s : State) : State := { s with nv := { s.nv with journal := [r] } }

theorem wit_journal :
    ([([], []), ([aChange], []), ([aChange], [anEntry])].all fun v => let s := bundled v.1 v.2
      match kget s.rt.bundles 7 with
      | some x => mayRun s.rt && x.closed && x.failed.isNone && !x.committed && x.record.isNone && membersDone s.rt x && x.changes == v.1 && x.entries == v.2 &&
          x.single && x.members == [0] && !ledgerFull s.nv && !heldByTwin s 1000 && (failedChange s.rt x).isNone && !commitWaits s x && !s.nv.pairing.mode
      | none => false) = true ∧
    (let s := bundled [] [anEntry]
     ledgerFull { s.nv with ledger := { s.nv.ledger with nextSeq := ledgerSize } } = true) ∧
    (let s := bundled [aChange] []
     let t := { s with nv := { s.nv with pairing := { s.nv.pairing with mode := true, twin := some (zeros 8) } }, rt := { s.rt with peer := { s.rt.peer with paired := true } } }
     t.nv.pairing.mode = true ∧ t.nv.pairing.twin.isSome = true ∧ t.rt.peer.paired = true ∧ ledgerFull t.nv = false ∧ heldByTwin t 1000 = false ∧
     (kget t.rt.bundles 7).map (fun x => (failedChange t.rt x, commitWaits t x)) = some (none, false) ∧
     readBad t.rt [(125, { data := zeros 1024, version := 1, sum := 1 })] (tileOf 1000) = true ∧ readBad t.rt [] (tileOf 1000) = false) ∧
    ([(false, false, true), (true, false, true), (true, true, true), (true, false, false)].all fun v =>
      let r := aRec v.1 v.2.1 v.2.2 none
      let s := withRec r (bundled [] [])
      recordOf s.nv 0 == some r && r.complete == v.1 && r.marked == v.2.1 && r.acked == v.2.2 && flashWorks s.rt && mayRun s.rt) = true ∧
    (let s := withRec { aRec false false false none with held := true, pairSeq := some 4 } up
     (recordOf s.nv 0).map (fun r => (r.held, r.complete)) = some (true, false)) ∧
    (let s := { up with nv := { up.nv with ledger := { up.nv.ledger with nextSeq := 10000, entries := [{ anEntry with seq := 9999, chain := zeros 48 }] } } }
     sealDue s.nv.ledger = some (9999, zeros 48) ∧ flashWorks s.rt = true ∧ seedOk s.otp = true ∧ canServe s.rt s.rt.mint0 = true ∧ s.rt.mint0.waiting = [] ∧
     sealDue up.nv.ledger = none) := by decide +kernel

/-- Requests that wait with a staged change: a booth, a booth's fields, a map, a program, a listener, a room. -/
def staged (x : Staged) : State := onRt (fun rt => { rt with waiting := some { code := 1, seq := 0, console := false, staged := some x, booth := none, bundle := none, result := [], due := none }, cmds := [] }) up

def aMap : PartMap := { rooms := [(0, 3)], groups := [(0, 3)], looms := [(0, 3)], reckoners := [(0, 3)], epoch := 0 }
def aListener : Listener :=
  { port := 0, addrIdx := 0, tcpPort := 443, booth := 0, key := 0, idle := 60, masks := 0xFFFFFF, tallies := false, anchors := [], chain := [], allow := [],
    removing := false, epoch := 0 }

theorem wit_policy :
    ([Staged.boothCreate 7 aCfg, .boothModify 0 { aCfg with share := 9 } false, .partition (some aMap), .progLoad 3 0x8000 0x8C000 [] [1, 2] [],
      .listener 1 aListener [], .liveRoom [2] [] 3].all fun x => let s := staged x
      (s.rt.waiting.bind Waiting.staged) == some x && mainPower s.rt && !s.rt.power.powerFail && s.rt.disp.changes.isEmpty && s.rt.cmds.isEmpty && s.nv.progs.isEmpty &&
        !anyUpdating s.rt && (boothOf s.rt 0).isSome) = true ∧
    (let s := onRt (fun rt => { rt with cmds := [(0, aCmd 0 (aDesc 3 0 0 0 [] 8 16) .admitted)] }) (staged (.partition (some aMap)))
     s.rt.cmds = [(0, aCmd 0 (aDesc 3 0 0 0 [] 8 16) .admitted)] ∧ (aCmd 0 (aDesc 3 0 0 0 [] 8 16) .admitted).admitted = true ∧
     (aCmd 0 (aDesc 3 0 0 0 [] 8 16) .admitted).retired = false ∧ (aCmd 0 (aDesc 3 0 0 0 [] 8 16) .admitted).epoch ≤ s.rt.epoch ∧ s.nv.ledger.nextSeq = 0) ∧
    up.rt.waiting = none ∧
    ([2000000, 2000001].all fun t => let s := onRt (fun rt => { rt with now := t, waiting := rt.waiting.map fun w => { w with due := some 2000000 } }) (staged (.boothCreate 7 aCfg))
     (s.rt.waiting.map fun w => isPast w.due s.rt) == some (t == 2000001)) = true ∧ isPast none up.rt = false ∧ up.rt.net.conns = [] ∧
    (let s := onRt (fun rt => setRoom 2 { roomOf rt 2 with updating := true } rt) up
     (roomOf s.rt 2).updating = true ∧ roomFree s.rt 2 = true ∧ roomFree (runsJob Clerk.reset).rt 0 = false) ∧
    ([ChangeKind.keys 3, .partition, .boothFields 0].all fun k => [true, false].all fun r =>
      let ch : Change := { kind := k, epoch := 5, commitAt := 0, respond := r }
      let s := onRt (fun rt => { rt with disp := { rt.disp with changes := [ch] } }) up
      (s.rt.disp.changes.find? fun x => x.epoch == 5) == some ch && untouched s.rt ch) = true ∧
    (let ch : Change := { kind := .keys 3, epoch := 5, commitAt := 0, respond := false }
     let s := onRt (fun rt => { rt with disp := { rt.disp with changes := [ch] } }) (upCmd (aCmd 0 (aDesc 3 0 0 0 [] 8 16) .admitted))
     untouched s.rt ch = false ∧ (kget s.rt.cmds 0).map Cmd.stage = some .admitted ∧
     ((kget s.rt.cmds 0).map fun c => s.rt.disp.changes.any fun ch => touchesCmd s.rt ch c) = some true ∧
     (let c := { aCmd 0 (aDesc 3 0 0 0 [] 8 16) .admitted with epoch := 5 }
      touchesCmd s.rt ch c = false)) ∧
    (let ch : Change := { kind := .keys 3, epoch := 5, commitAt := 0, respond := false }
     let s := onRt (fun rt => { modCmd 0 (fun c => { c with bundle := some 7 }) rt with peer := { rt.peer with paired := true }, disp := { rt.disp with changes := [ch] } })
       (withRec (aRec true false false (some 7)) (bundled [aChange] []))
     s.rt.peer.paired = true ∧ awaitsTwin s.nv 7 = true ∧ flashWorks s.rt = true ∧ (bundleChange s.rt 7).isSome = true) := by decide +kernel

/-! ## Ports, TCP, TLS, sessions -/

/-- A trust anchor with a P-256 key, and a leaf that it signed. -/
def anAnchor : Cert :=
  { tbs := [], scheme := 0, sig := [], spki := [], notBefore := 0, notAfter := 0, digSig := false, clientAuth := none,
    key := .ec 256 0xc05164555a15276e7e9f761ed5236bc8d8992c2cdd3ded75bbe70df7719a4c4d 0xd0e8a4e5a1ee6856a058e7d3083da03bfbf365111f5ba0121a0d84f8366c1ec4 }
def aLeaf : Cert :=
  { tbs := [0], scheme := 0x0403, spki := [1], notBefore := 0, notAfter := 2 ^ 40, digSig := true, clientAuth := none,
    sig := be 71 0x3045022100b8d02e74fecdea617295139aede028b225597a5125c54355208cc155625b5b2302206e340b9cffb37a989ca544e6bb780a2c78901d3fb33738768511a30617afa01d,
    key := .ec 256 0x596253564fa1891a346a7a7c7ad3f256ba91da9c9c7d36249a8495d03ccbe87c 0x1b642fc04c161dee0c483e5dd9d26e5f9c748669693128bd1b9a825f72c3b79a }

def serverRec : SlotRec := keyRec 0x22 algE 1 (uOwn 4) mS (be 32 7)

/-- The listener with the server key and the anchor. -/
def tlsListener : Listener := { aListener with key := handleAt 1000 serverRec, anchors := [anAnchor], allow := [] }

/-- An address of port 0, and the port up with a listener of booth 0 and a server key in slot 1 000. -/
def anAddr : NetAddr := { family := 4, prefixLen := 24, vlan := 5, mtu := 1500, addr := padTo 16 [10, 0, 0, 1], gateway := [] }
def netState (cs : KMap Conn) : State :=
  let s := svc 3 0 serverRec SlotRec.free [] []
  onRt (fun rt => setPort 0 { link := true, badFcs := 0, discarded := 0 }
    { rt with net := { rt.net with listening := true, conns := cs }, cageA := { present := true, watts := 9, lowPower := false },
              booths := [(0, aBooth (some 3))], cmds := [] })
    { s with nv := { s.nv with addrs := [(0, anAddr)], listeners := [(1, tlsListener)] } }

def aFrame (k : EthKind) : EthFrame := { kind := k, len := 64, vlan := some 5, fcsOk := true, fragment := false }
def aConn (st : ConnSt) : Conn := { newConn 0 1 0 1500 { scale := none, sack := false, stamps := false } with st := st, suite := 0x1302 }

theorem wit_ports :
    (let s := netState [(4, aConn .accepted)]
     portServes s.rt 0 = true ∧ portServes s.rt 1 = false ∧ vlanTaken s.nv 0 (some 5) = true ∧ vlanTaken s.nv 0 none = true ∧ onVlan anAddr (some 5) = true ∧ onVlan anAddr (some 6) = false ∧ vlanTaken s.nv 0 (some 6) = false ∧
     addrAt s.nv 0 0 = some anAddr ∧ anAddr.family = 4 ∧ addrAt s.nv 0 15 = none ∧ (kget s.rt.net.conns 4).map Conn.port = some 0 ∧
     (aFrame (.arp 0)).fcsOk = true ∧ (aFrame (.arp 0)).len ≤ 9216 ∧ (portOfNet s.rt 0).link = true ∧ (portOfNet s.rt 1).link = false) ∧
    ([true, false].all fun lp => let s := onRt (setCage 0 { present := true, watts := 9, lowPower := lp }) up
      powered s.rt && (cageOf s.rt 0).present && (cageOf s.rt 0).lowPower == lp && !s.rt.peer.mode) = true ∧
    (let s := netState []
     kget s.rt.net.conns 9 = none ∧ s.rt.net.listening = true ∧ (listenerAt s 0 0 443).isSome = true ∧ allConns s.rt < 16384 ∧ listenerAt s 0 0 80 = none) ∧
    ([0, 100].all fun n => (kget (netState [(4, { aConn .accepted with unacked := n })]).rt.net.conns 4).map Conn.unacked == some n) = true := by decide +kernel

/-- A hello that the listener takes. -/
def aHello : ClientHello :=
  { version13 := true, suites := [0x1302], groups := [0x0017], shares := [(0x0017, aPoint)], schemes := [0x0403], chain := [aLeaf], transcript := [1],
    scheme := 0x0403, sig := be 71 0x3045022011c7428973235a64052bb3f535593b91ae57121df93b6f9b2af9662a2dc9e186022100b097c0d7d10bc8ccac63e6a711c8693062b7027dc278e437062453e562300eb8, reads := [] }

/-- Hellos for each row of 08 Table 8.4, and one that passes. -/
theorem wit_client_auth : ([(aHello, none), ({ aHello with chain := [] }, some "certificate_required"), ({ aHello with chain := [anAnchor] }, some "unknown_ca"),
      ({ aHello with chain := [{ aLeaf with notBefore := 2 ^ 39 }] }, some "certificate_expired"),
      ({ aHello with chain := [{ aLeaf with digSig := false }] }, some "bad_certificate"), ({ aHello with transcript := [2] }, some "decrypt_error")].all
        fun v => clientAlert up.rt tlsListener v.1 == v.2) = true ∧
    clientAlert up.rt { tlsListener with allow := [zeros 48] } aHello = some "access_denied" := by decide +kernel

/-- A frame of a request: header, and an entry of an inline command. -/
def aRequest (seq : Nat) : Bytes := [3, 1, 0, 0] ++ le 4 64 ++ le 4 seq ++ zeros 4 ++ ([2, 0x20] ++ le 2 3 ++ le 4 9 ++ zeros 16 ++ zeros 8 ++ zeros 4 ++ le 4 16 ++ zeros 8 ++ zeros 16)

theorem wit_sessions :
    (let s := netState [(4, aConn .accepted)]
     let l := tlsListener
     inService s.rt = true ∧ kget s.nv.listeners 1 = some l ∧ (boothOf s.rt 0).isSome ∧ occupancy s.rt 0 < aCfg.share ∧ (placeDie s.rt 3).isSome ∧
     (match serverKey s.rt s.rt.epoch 3 l.key with
      | .key slot r => slot == 1000 && (tlsChoose l r aHello).any (fun (x : TlsChoice) => !x.retry && shareHolds x.group (shareOf aHello x.group)) &&
          (tlsChoose l r { aHello with suites := [] }).isNone &&
          (tlsChoose l r { aHello with shares := [] }).any (fun (x : TlsChoice) => x.retry) &&
          (let h := { aHello with shares := [(0x0017, zeros 65)] }
           (tlsChoose l r h).any fun (x : TlsChoice) => !x.retry && !shareHolds x.group (shareOf h x.group)) &&
          (tlsChoose l r aHello).any (fun (x : TlsChoice) => x.group != 0x001D)
      | _ => false) = true ∧
     takenBefore s.rt 0 5 s.rt.disp.nextAdmit = false ∧
     takenBefore (onRt (fun rt => { rt with cmds := [(0, { aCmd 0 (aDesc 3 0 0 0 [] 8 16) .admitted with level := 5 })], disp := { rt.disp with ready := [0] } }) s).rt 0 4 9 = true ∧
     (kget (netState [(4, { aConn (.retry 0 0x001D) with epoch := 0 })]).rt.net.conns 4).map Conn.st = some (.retry 0 0x001D)) ∧
    (let s := onRt (fun rt => { rt with booths := [(0, { aBooth (some 3) with cfg := { aCfg with share := 0 } })] }) (netState [(4, aConn .accepted)])
     (boothOf s.rt 0).map (fun b => decide (b.cfg.share ≤ occupancy s.rt 0)) = some true) ∧
    (isEstablished (aConn (.handshake 0)) = false ∧ sessionDie up.rt 3 = some 0 ∧ isEstablished (aConn (.established 1)) = true) ∧
    (let c := { aConn (.established 0) with version := some 3 }
     let s := netState [(4, c)]
     openOutstanding s.rt 4 = false ∧ stagedInput s.rt 4 + ((aRequest 0).length - 80) ≤ 4194304 ∧ c.sendQ ≤ 4194304 ∧ frameError c (aRequest 0) = none ∧
     (aRequest 0).length = 16 + leAt (aRequest 0) 4 4 ∧ frameError c (aRequest 1) = some "unexpected_message" ∧ frameError c (4 :: (aRequest 0).drop 1) = some "decode_error" ∧ recordLoom s.rt c = true) ∧
    ([true, false].all fun g => let c := { aCmd 0 (aDesc 3 0x20 0 0 [] 0 16) .ended with session := some 4, grouped := g }
      let s := onRt (fun rt => { rt with cmds := [(0, c)] }) (netState [(4, { aConn (.established 0) with version := some 3 })])
      (kget s.rt.cmds 0) == some c && c.id == 0 && !needsScrub c && !endedBefore s.rt c && !c.discard && recordLoom s.rt { aConn (.established 0) with version := some 3 } && c.bundle.isNone && (kget s.rt.net.conns 4).isSome) = true := by decide +kernel

/-! ## The peer link, the clock, ceremonies, bridles -/

def pairRec : SlotRec := keyRec 0x30 algA 32 u00 mN (zeros 32)

/-- The module in peer mode with a twin and a pairing key in slot 1 of the module's own slots. -/
def peerState (journal : List JRec) : State :=
  onRt (fun rt => { rt with peer := { rt.peer with mode := true, linkUp := true, paired := true }, mint1 := aMint, cageB := { present := true, watts := 9, lowPower := false },
                            boot := { rt.boot with resident := true, serviceReady := true } })
    { up with nv := { up.nv with journal := journal, pairing := { up.nv.pairing with mode := true, twin := some (zeros 8), copying := true } } }

def aPeerRec : PeerRecord := { seq := 4, changes := [{ slot := 1000, genBefore := 5, image := slotBytes 1000 { aesRec 0x12 uP0 mB with gen := 6 } }] }

theorem wit_peer :
    (let s := onRt (fun rt => { rt with peer := { rt.peer with linkUp := false } }) (peerState [])
     s.nv.pairing.twin = some (zeros 8) ∧ peerPort s.rt = true ∧ s.rt.peer.linkUp = false ∧ s.rt.boot.serviceReady = true ∧ canServe s.rt s.rt.mint1 = true ∧
     s.rt.mint1.waiting = []) ∧
    up.nv.pairing.twin = none ∧ up.nv.pairing.copying = false ∧
    ([2 ^ 32 - 1, 2 ^ 32].all fun n => (onRt (fun rt => { rt with peer := { rt.peer with txFrames := n } }) (peerState [])).rt.peer.txFrames == n) = true ∧
    (let s := peerState []
     linkServes s = true ∧ unretired s.nv < 32 ∧ conflictOf s aPeerRec = none ∧
     conflictOf s { aPeerRec with changes := aPeerRec.changes.map fun c => { c with genBefore := 4 } } = some 1000 ∧ s.nv.pairing.copying = true ∧
     s.nv.pairing.appliedTwin < aPeerRec.seq ∧ s.nv.pairing.retained.length ≤ 16777216) ∧
    (let s := { peerState [] with nv := { (peerState []).nv with pairing := { (peerState []).nv.pairing with copying := false } } }
     linkServes s = true ∧ pairNow s = true) ∧
    ([none, some 7].all fun u => let r := { aRec true false false u with pairSeq := some 4 }
      let s := peerState [r]
      pairRecord s.nv false 4 == some r && linkServes s && s.rt.peer.paired && !r.acked && !r.marked) = true ∧
    ([true, false].all fun c => let r := { aRec c false false none with pairSeq := some 4, held := true }
      pairRecord (peerState [r]).nv true 4 == some r && r.complete == c) = true := by decide +kernel

/-- The clock with a source and in a state. -/
def clockState (src : Nat) (st : ClockState) (step : Option Int) : State :=
  let s := netState []
  onRt (onClock fun k => { k with st := st, warmup := false, pendingStep := step, goodRun := 10 })
    (onRt (fun rt => { rt with net := { rt.net with mgmtLink := true }, boot := { rt.boot with stepsDone := [1, 2] } })
      { s with nv := { s.nv with clockCfg := { s.nv.clockCfg with source := src, maxStepMs := 10, todAddr := [1] } } })

theorem wit_clock :
    ([0, 1, 2].all fun src => [none, some (5, 37, false)].all fun l =>
      let s := onRt (onClock fun k => { k with label := l }) (clockState src .set none)
      powered s.rt && s.nv.clockCfg.source == src && s.rt.clock.label == l) = true ∧
    (let d := le 6 1000 ++ zeros 2 ++ le 2 37 ++ zeros 2 ++ le 4 9 ++ zeros 32
     let s := clockState 1 .set none
     s.rt.net.mgmtLink = true ∧ d.length = 48 ∧ zeroAt d 6 2 = true ∧ s.rt.clock.todSeq ≤ leAt d 12 4 ∧ todMacOk s d = false) ∧
    ([(1, some 900, none), (1, some (-100001), none), (2, none, some (-900)), (3, none, some 10000001)].all fun (src, m, o) =>
      let s := onRt (onClock fun k => { k with measured := m, missed := 3 }) (clockState src .locked none)
      s.rt.clock.st == .locked && s.rt.clock.pendingStep.isNone && decide (3 ≤ s.rt.clock.missed) &&
        (offsetOf s.nv.clockCfg o s.rt.clock == m || offsetOf s.nv.clockCfg o s.rt.clock == o)) = true ∧
    ([(0, some 9), (1, some 9), (2, none)].all fun (src, o) => let s := clockState src .locked none
      s.rt.clock.measured.isNone && offsetOf s.nv.clockCfg o s.rt.clock == none && decide (s.rt.clock.missed < 3)) = true ∧
    ([ClockState.set, .locked].all fun st => let s := clockState 1 st none
      s.rt.clock.pendingStep.isNone && s.rt.clock.st == st && decide (10 ≤ s.rt.clock.goodRun) && s.nv.clockCfg.source != 0 && stepDone s.rt 2) = true ∧
    ((clockState 0 .set none).nv.clockCfg.source = 0 ∧ (clockState 0 .set none).rt.clock.warmup = false ∧ (clockState 0 .set (some 5)).rt.clock.pendingStep = some 5) ∧
    ([(100001 : Int), 10000000].all fun d => decide (100000 < d.natAbs) && decide (d.natAbs ≤ (clockState 2 .set none).nv.clockCfg.maxStepMs * 1000000)) = true ∧
    ((clockState 2 .set none).nv.clockCfg.maxStepMs ≠ 0 ∧ (clockState 2 .set none).nv.clockCfg.maxStepMs * 1000000 < (10000001 : Int).natAbs) ∧
    (let s := clockState 1 .locked none
     ptpMaster s 0 = true ∧ kgetD s.rt.clock.ptpDelay 0 0 < 4096 ∧ ptpMaster s 1 = false ∧
     4096 ≤ kgetD (onRt (onClock fun k => { k with ptpDelay := [(0, 4096)] }) s).rt.clock.ptpDelay 0 0) ∧
    ([true, false].all fun q => let s := clockState 0 .set none
      let t := { s with nv := { s.nv with clockCfg := { s.nv.clockCfg with squelch := q } } }
      squelched t.nv.clockCfg t.rt.clock == q) = true := by decide +kernel

/-- The latch opened, claimed, and under an attempt; a ceremony that waits for a PIN; a card; the module before an erase. -/
theorem wit_ceremony :
    (let s := latched up
     s.rt.twoKey = .opened 3 0 (1, 2) none ∧ ledgerFull s.nv = false ∧ up.rt.twoKey = .closed) ∧
    ([[], [0]].all fun p => let c := { aCeremony with pins := p }
      c.pins == p && !c.console) = true ∧
    ([0, 2].all fun n => let x : CardState := { card := aCard true false, classA := false, wrong := n, active := true }
      let s := onRt (setCard 0 (some x)) up
      powered s.rt && cardOf s.rt 0 == some x && !x.card.blocked && s.rt.ceremony.isNone) = true ∧
    (powered up.rt = true ∧ [0, 1, 2, 3].all fun k => (cardOf up.rt k).isNone) ∧
    (let s := onRt (fun rt => { rt with lc := { rt.lc with eraseDue := true } }) up
     s.rt.lc.eraseDue = true ∧ flashWorks s.rt = true) ∧
    ([0x01#8, 0x03, 0x04, 0x05].all fun v => let s := onRt (fun rt => { rt with boot := { rt.boot with lcState := v, stage := 0x83 } }) up
      powered s.rt && s.rt.boot.lcState == v && s.rt.boot.stage == 0x83) = true ∧
    (let s := { up with otp := { up.otp with seed := 0, seedCheck := 0 } }
     s.otp.seed = 0 ∧ s.otp.seedCheck = 0 ∧ up.rt.boot.stage ≠ 0x83) := by decide +kernel

/-- A region that every check passes whatever the open address ranges are, and one that names another house. -/
def aRegion (house : Nat) : Region := { start := 0, stop := 0x1000, perm := 0, initiators := 0, house := house, pasid := none, ring := false, mailbox := false }

theorem wit_bridle_edit (b : Nat) (h : b < 38) : entryOk up.rt (some 3) b (aRegion 3) = true ∧ entryOk up.rt (some 3) b (aRegion 4) = false := by
  have : b ≠ 38 ∧ b ≠ 39 := by omega
  constructor <;> simp [entryOk, aRegion, this]

theorem wit_bridles :
    (up.rt.boot.isSealed = true ∧ mainPower up.rt = true ∧ inFatal up.rt = false ∧ inTamperHalt up.rt = false ∧ State.reset.rt.boot.isSealed = false) ∧
    (refusedEdit up.rt { house := none, edits := [{ bridle := 3, add := [], remove := [aRegion 3] }] } = none ∧
     refusedEdit up.rt { house := none, edits := [{ bridle := 40, add := [], remove := [] }] } = some (some 40)) ∧
    ([0, 38, 39].all fun b => let a : Access := { addr := 0x10000, len := 64, kind := .write, initiator := 0, house := 3, booth := some 0, pasid := none, ring := false, mailbox := false, cmd := some 0 }
      !(refusedBeats up.rt b a).isEmpty && (kget up.rt.bridles.recs b).isNone && (refusedBeats up.rt b { a with len := 0 }).isEmpty) = true := by decide +kernel

/-! ## General -/

/-- Doorbell values and codewords at the ends of their ranges. -/
theorem wit_codewords : lcDecode { Otp.shipped with lcT := 0x900000, lcC := 0x600000 } = 0x06 ∧ lcDecode { Otp.shipped with lcT := 0x900000, lcC := 0 } = 0x0F ∧
    lcDecode { Otp.shipped with lcT := 0x6C3A5, lcC := 0x93C5A } = 0x05 ∧ State.reset.pending = [] := by decide +kernel

/-! ## Keys of the module's own services, and officers -/

/-- With a key record in a slot of the operator house. -/
def ownKey (slot : Nat) (r : SlotRec) (s : State) : State :=
  onRt (fun rt => { rt with strong := { rt.strong with slots := (slot, { r with house := 0 }) :: rt.strong.slots } }) s

/-- A dual-control pairing key, and a MAC key of the clock's datagrams. -/
def ownPairing : SlotRec := { keyRec 0x30 algA 0x20 (uOwn 7) mN (zeros 32) with house := 0, flags := 1 }
def todRec : SlotRec := { keyRec 0x1C algH 32 (uOwn 2) mN (zeros 32) with house := 0 }

theorem wit_own_keys :
    (match pairingKey (ownKey 1 ownPairing (peerState [])).rt (handleAt 1 ownPairing) with
     | .key slot _ => slot == 1
     | _ => false) = true ∧
    (match todKeyOf (ownKey 1 todRec up).rt (handleAt 1 todRec) with
     | .key slot _ => slot == 1
     | _ => false) = true := by decide +kernel

/-- An active officer of house 3 whose card is in slot A. -/
def officerRec (n : Nat) : SlotRec := keyRec 2 0 0 u00 mN (officerBytes n (aCard true false))
def withOfficers (s : State) : State := onRt (fun rt => { rt with strong := { rt.strong with slots := (26, officerRec 1) :: (27, officerRec 2) :: rt.strong.slots } }) s

theorem wit_officers : ((houseOfficers (withOfficers up).rt 3).find? fun o => o.active && o.serial == cardSerial (aCard true false) &&
    o.key == padTo 49 ((aCard true false).pubKey.take 49)).map (fun o => o.ident) = some 1 := by decide +kernel

/-! ## Management requests -/

/-- The bytes of a request, a request from the console, and one in the mailbox. -/
def reqBytes (code : Nat) (p : Bytes) : Bytes := le 2 code ++ le 2 0 ++ le 4 9 ++ le 4 p.length ++ zeros 4 ++ p
def inMailbox (b : Bytes) (s : State) : State :=
  onRt (fun rt => { rt with mbx := { rt.mbx with busy := true, req := (List.range ((b.length + 3) / 4)).map fun i => (i, BitVec.ofNat 32 (leAt b (4 * i) 4)) } }) s

/-- A request with these parameters is there from either source, and served. -/
def servesB (code : Nat) (p : Bytes) (s : State) : Bool :=
  let ok := fun (o : Option Req) => match o with
    | some q => q.code == code && (stateRefuses s.rt code).isNone && q.headOk && q.params == p
    | none => false
  ok (reqOf (.console (reqBytes code p)) s.rt)

theorem wit_mailbox : (let s := inMailbox (reqBytes 0x04 (le 8 0x100000 ++ le 8 0x2000)) up
    (reqOf .mailbox s.rt).map (fun q => (q.code, q.headOk, q.params)) = some (0x04, true, le 8 0x100000 ++ le 8 0x2000)) ∧ reqOf .mailbox up.rt = none := by
  decide +kernel

/-- Every state of Table 17.14 that the statement names. -/
theorem wit_access :
    (let s := onRt (fun rt => { rt with boot := { rt.boot with stage := 0x81 } }) up
     inTamperHalt s.rt = true) ∧
    (let s := onRt (fun rt => { rt with fault := { rt.fault with halted := true, pendFatal := true } }) up
     inFatal s.rt = true ∧ inTamperHalt s.rt = false) ∧
    ([0x80#8, 0x84, 0x83, 0x0B, 0x01, 0x0C].all fun g => let s := onRt (fun rt => { rt with boot := { rt.boot with stage := g, lcState := 0x03 } }) up
      !inTamperHalt s.rt && !inFatal s.rt && !s.rt.boot.erasing && s.rt.boot.serviceReady) = true ∧
    servesB 0x13 [1, 0] up = true ∧ stateRefuses up.rt 0x38 = some stStateRefused := by decide +kernel

/-- A row of every code of the statement on status, windows and the ledger. -/
theorem wit_status :
    ([0x01, 0x02, 0x03, 0x40].all fun n => servesB n [] up) = true ∧
    ([(0x1000, 0x2000), (0, 0), (1, 0)].all fun v => servesB 0x04 (le 8 v.1 ++ le 8 v.2) up) = true ∧
    (let s := onRt (fun rt => { rt with mgrWindow := some (0x1000, 0x2000) }) up
     servesB 0x60 (le 8 0x100 ++ le 4 5) s = true ∧ s.rt.mgrWindow = some (0x1000, 0x2000) ∧ s.nv.ledger.seals = [] ∧ up.rt.mgrWindow = none) ∧
    ([4, 5].all fun n => let s := { up with nv := { up.nv with ledger := { up.nv.ledger with exported := 5 } } }
      servesB 0x61 (le 8 n) s && s.nv.ledger.exported == 5) = true ∧
    ([0, 10, 11].all fun o => let s := onRt (fun rt => { rt with held := some (zeros 11) }) up
      servesB 0x20 ([0, 1, 0, 0] ++ le 4 o) s && s.rt.held == some (zeros 11)) = true ∧
    ([8, 64].all fun n => servesB 0x20 ([BitVec.ofNat 8 n, 1] ++ zeros 6 ++ zeros n) up) = true ∧
    (match drawCd0 88 up.rt with
     | .got _ rt => !cd0Sleeps rt
     | _ => false) = true ∧
    ([3, 4].all fun n => servesB 0x80 [BitVec.ofNat 8 n] up) = true ∧
    (let s := onRt (fun rt => { rt with twoKey := .opened 0 0xFFFF (1, 2) none }) up
     servesB 0x81 [] s = true ∧ s.rt.twoKey = .opened 0 0xFFFF (1, 2) none ∧ ledgerFull s.nv = false ∧ latchFor s.rt 0 0xFFFF none = true) := by decide +kernel

/-- The parameters of a booth. -/
def boothParams (pasid house share : Nat) : Bytes :=
  le 4 pasid ++ le 2 house ++ [2, 5] ++ le 4 share ++ [6, 16] ++ le 2 1 ++ le 8 0x100000 ++ le 8 0x800000 ++ le 2 1 ++ le 2 0 ++ [0, 0, 0, 0]

theorem wit_booths :
    (let p := boothParams 9 3 64
     servesB 0x10 p up = true ∧ freeBooth up.rt = some 1 ∧ createCheck up.rt p = none ∧ p.length = 40 + 24 * byteAt p 38) ∧
    ([(9, 4, 64), (1, 3, 64), (9, 3, 65536)].all fun v => let p := boothParams v.1 v.2.1 v.2.2
      let s := onRt (fun rt => { rt with booths := [(0, { aBooth (some 3) with counted := 70000 })] }) up
      servesB 0x10 p s && (List.range 15).all (fieldOk s.rt p 0) && ringsApart (boothFields p 0) && shareFits (boothFields p 0) &&
        (houseRegistered s.rt v.2.1 == (v.2.1 == 3)) && ((boothOf s.rt 0).map fun x => x.cfg.pasid == v.1) == some (v.1 == 1) &&
        (decide (131072 < shareSum s.rt + v.2.2) == (v.2.2 == 65536))) = true ∧
    ([(0x10, true), (0x8001, false)].all fun m => let p := le 2 0 ++ le 2 m.1 ++ boothParams 1 3 16
      servesB 0x11 p up && decide (44 ≤ p.length) && (modifyCheck up.rt (aBooth (some 3)) m.1 p).isNone == m.2) = true ∧ boothOf up.rt 5 = none ∧
    ([1, 10000, 0, 10001].all fun n => servesB 0x12 (le 2 0 ++ [0, 0] ++ le 4 n) up) = true ∧
    (ledgerFull up.nv = false ∧ (boothOf up.rt 0).isSome ∧ up.rt.net.conns = [] ∧ up.rt.bundles = [] ∧ up.rt.cmds = []) ∧
    (let c := aCmd 0 (aDesc 3 0 0 0 [] 8 16) .admitted
     let s := onRt (fun rt => { rt with waiting := some { code := 0x12, seq := 0, console := false, staged := none, booth := some 0, bundle := none, result := [], due := some 5 } }) (upCmd c)
     (s.rt.cmds.any fun kv => kv.2.booth == 0) = true ∧ s.rt.waiting.bind Waiting.booth = some 0 ∧ c.id = 0 ∧ c.stage = .admitted ∧ c.bundle = none) ∧
    (servesB 0x13 (le 2 0) up = true ∧ servesB 0x13 (le 2 5) up = true) ∧
    ([7, 8].all fun tag => servesB 0x15 ([0, 0, 0, 0] ++ le 4 tag) (upCmd (aCmd 0 (aDesc 3 0 0 0 [] 8 16) .admitted))) = true ∧
    servesB 0x16 [] up = true := by decide +kernel

/-- A partition map with every unit bound to house 3, and one with a unit bound to another house. -/
def boundTo (h : Nat) : Bytes := [(0, 8), (1, 8), (2, 8), (3, 32)].flatMap fun k => (List.range k.2).flatMap fun u =>
  [BitVec.ofNat 8 k.1, BitVec.ofNat 8 u] ++ le 2 (if k.1 = 0 ∧ u = 7 then h else 3)

theorem wit_partition : unitsOk up.rt (bindings ((boundTo 3).take 8)) = false ∧
    unitsOk up.rt (bindings (boundTo 3)) = true ∧ mapOk up.rt (bindings (boundTo 3)) = true ∧ mapOk up.rt (bindings (boundTo 4)) = false := by
  decide +kernel

theorem wit_room : RoomLeft up.nv := by
  show 10 * (unconfirmed up.nv.ledger + 8) < 9 * ledgerSize
  decide +kernel

/-! ### Module, officer, network and peer requests -/

def aBulk : Bulk :=
  { data := [1, 2, 3], version := 7, signed := [], words := [], anchors := [anAnchor], chain := zeros 100, allow := [zeros 48], window := [], dmaOk := true }

/-- The module with a manager window, and a firmware key of house 3. -/
def progKey : SlotRec := keyRec 0x29 algE 1 (uOwn 6) mV aPoint
def managed : State :=
  onRt (fun rt => { rt with mgrWindow := some (0x100000, 0x10000), strong := { rt.strong with slots := rt.strong.slots ++ [(1002, progKey)] } }) up

theorem wit_module_requests :
    servesB 0x18 [] managed = true ∧ (readBulk managed.rt 0 3 aBulk).isSome = true ∧
    ([1, 3, 0, 4].all fun n => servesB 0x50 ([BitVec.ofNat 8 n, 0, 0, 0] ++ le 4 0 ++ le 4 3) managed) = true ∧ up.rt.mgrWindow = none ∧
    ([7, 0xFF].all fun n => servesB 0x51 ([BitVec.ofNat 8 n, 0, 0, 0] ++ le 4 0 ++ le 4 3) managed) = true ∧
    (servesB 0x52 (le 2 3 ++ le 2 0x8000 ++ le 4 0 ++ le 4 3 ++ le 8 (handleAt 1002 progKey).toNat) managed = true ∧ isHouseOp 0x8000 = true ∧
     houseRegistered managed.rt 3 = true ∧ resolve managed.rt 3 none managed.rt.epoch true (handleAt 1002 progKey) = .key 1002 progKey ∧
     usable managed.rt none managed.rt.epoch 1002 progKey (keyIs 0x29 [uOwn 6] [mV, mN]) = .key 1002 progKey ∧ windowWordsOk [] = true ∧
     regionsFit managed.rt 0 = true) ∧
    (let p : ProgEntry := { house := 3, opcode := 0x8000, digest := [], base := 0x8C000, code := [1], window := [], since := 0, upto := none }
     let s := { up with nv := { up.nv with progs := [p] } }
     servesB 0x53 (le 2 3 ++ le 2 0x8000) s = true ∧ (s.nv.progs.any fun x => x.house == 3 && x.opcode == 0x8000 && x.upto.isNone) = true ∧ up.nv.progs = []) ∧
    ([0, 2, 3, 4].all fun n => servesB 0x22 ([1, BitVec.ofNat 8 n, 0, 0] ++ le 4 50 ++ le 4 9 ++ le 4 65535 ++ zeros 24) up) = true ∧
    servesB 0x22 [2, 127, 0xFF, 3, 1, 1] up = true ∧ ([1, 2].all fun n => servesB 0x22 [3, n] up) = true ∧
    servesB 0x22 (padTo 8 [4] ++ le 8 (2 ^ 48 - 1) ++ le 4 999999999 ++ le 4 5 ++ le 2 37) up = true ∧
    up.rt.clock.st ≠ .locked ∧ (clockState 1 .locked none).rt.clock.st = .locked ∧
    ([FaultSource.drainAbort, .thermalFatal].all fun f => let p := [1, 0] ++ le 2 (faultCode f) ++ [0, 2, 0, 0] ++ le 4 0 ++ [0]
      servesB 0x82 p up && decide (f ∈ allSources) && (classifOfBytes p).isSome && leAt p 2 2 == faultCode f && isFixed false f == (f == .thermalFatal)) = true ∧
    servesB 0x82 ([2, 0, 0, 0] ++ le 5 (2 ^ 39)) up = true ∧ ([1, 100, 0, 101].all fun n => servesB 0x82 [3, 0, n] up) = true ∧
    servesB 0x82 [4, 0, 0, 0] up = true := by decide +kernel

/-- Two cards, and the latch open for the operator house or house 3. -/
def carded (s : State) : State :=
  let x : CardState := { card := aCard true false, classA := false, wrong := 0, active := true }
  onRt (fun rt => setCard 0 (some x) (setCard 1 (some x) rt)) s
def latchedFor (h : Nat) (s : State) : State := onRt (fun rt => { rt with twoKey := .opened h 0xFFFF (1, 2) none }) s

/-- A state of the life cycle with a nonce held or not; the die that checks signatures is up. -/
def inLc (v : BitVec 8) (n : Option Bytes) (s : State) : State :=
  onRt (fun rt => { rt with boot := { rt.boot with lcState := v }, lc := { rt.lc with nonce := n } }) s
theorem wit_cd0 (v : BitVec 8) (n : Option Bytes) : needCd0 (inLc v n (latchedFor 0 up)).rt = .got [] (inLc v n (latchedFor 0 up)).rt ∧
    needCd0 (inLc v n up).rt = .got [] (inLc v n up).rt := ⟨rfl, rfl⟩

theorem wit_lifecycle :
    (servesB 0x41 [] up = true ∧ (match drawCd0 32 up.rt with
     | .got _ _ => true
     | _ => false) = true ∧ (onRt (setMint 0 { aMint with exhausted := true }) up).rt.mint0.exhausted = true) ∧
    ([(0x03#8, 5, some 2), (0x04, 5, some 3), (0x04, 6, some 0), (0x03, 6, some 1), (0x02, 6, some 1), (0x03, 3, none)].all fun v =>
      let s := inLc v.1 (some (zeros 32)) (latchedFor 0 up)
      servesB 0x42 ([BitVec.ofNat 8 v.2.1, BitVec.ofNat 8 (v.2.2.getD 9), 0, 0] ++ zeros 320) s && ((transRow s.rt.boot.lcState v.2.1).map fun r => r.mode) == v.2.2 &&
        !transPending s && transCond s v.2.1 && !ledgerFull s.nv && latchFor s.rt 0 0xFFFF none && unusedZero (v.2.2.getD 9) (zeros 324) && (unusedSlot s.otp).isSome &&
        s.rt.boot.stage != 0x84 && powered s.rt) = true ∧
    transSigners up.otp 0 6 (zeros 324) = some [0, 0, 0] ∧ transSigners up.otp 3 5 (zeros 324) = none ∧
    ([none, some (0, none)].all fun cut => let p : Pulses := { weak := [], cut := cut }
      p.cut == cut && (markFuses 0 6).head?.isSome) = true ∧
    (markFuses 0 6).head?.any (fun x => decide (x ∈ (Pulses.mk [x] none).weak)) = true ∧
    ([0x02#8, 0x03].all fun v => [none, some (zeros 32)].all fun n =>
      let s := inLc v n up
      servesB 0x43 (zeros 128) s && s.rt.boot.lcState == v && s.rt.lc.nonce == n) = true := by decide +kernel

/-- A signature by the debug key, an open value of mask ROM, unlocks JTAG in PROVISIONED. -/
theorem wit_debug (sig : Bytes) (h : romSigned Config.debugKey (signedBytes up.otp 2 (zeros 32)) sig = true) (l : sig.length = 96) :
    romSigned Config.debugKey (signedBytes up.otp 2 (slice (zeros 32 ++ sig) 0 32)) (slice (zeros 32 ++ sig) 32 96) = true ∧
      (zeros 32 ++ sig).length = 128 := by
  have a : slice (zeros 32 ++ sig) 0 32 = zeros 32 := by simp [slice, zeros]
  have b : slice (zeros 32 ++ sig) 32 96 = sig := by simp [slice, zeros, ← l]
  rw [a, b]
  exact ⟨h, by simp [zeros, l]⟩

theorem wit_houses :
    (let s := latchedFor 0 (carded up)
     let p := le 2 9 ++ [0, 0] ++ le 4 64 ++ le 2 11 ++ le 2 12
     servesB 0x30 p s = true ∧ identOk 11 = true ∧ identUsed s.rt 11 = false ∧ identUsed s.rt 12 = false ∧ houseRegistered s.rt 9 = false ∧
     s.rt.cardA.isSome = true ∧ s.rt.cardB.isSome = true ∧ latchFor s.rt 0 0xFFFF none = true ∧ lowestRange [(8192, 8256)] 64 = some 8256 ∧
     ((List.range 4).all fun i => (slotIn s.rt none (8 * 9 + i)).kind == 0) = true ∧ s.rt.bundles = [] ∧ s.nv.journal = [] ∧
     takeDelivered 0 userMasterKey s.rt = none ∧
     (takeDelivered 0 userMasterKey (onRt (setMint 0 { aMint with delivered := [(userMasterKey, zeros 32)] }) s).rt).isSome = true) ∧
    ([(9, 65, 12), (3, 64, 12), (9, 64, 11)].all fun v => servesB 0x30 (le 2 v.1 ++ [0, 0] ++ le 4 v.2.1 ++ le 2 11 ++ le 2 v.2.2) up) = true ∧
    ([0, 3].all fun h => servesB 0x31 (le 2 h) up) = true ∧ houseRegistered up.rt 3 = true ∧
    (let s := onRt (fun rt => { rt with booths := [], strong := { rt.strong with slots := [(25, houseRec), (1, { houseRec with house := 0 })] } }) up
     houseRegistered s.rt 0 = true ∧ (s.rt.booths.any fun kv => kv.2.cfg.house == 3) = false ∧
     (s.rt.strong.slots.any fun kv => decide (8192 ≤ kv.1) && isOccupied kv.2 && kv.2.house == 3) = false) := by decide +kernel

theorem wit_officer_requests :
    (let s := carded (withOfficers up)
     servesB 0x32 (le 2 3 ++ le 2 7 ++ [1]) s = true ∧ identUsed s.rt 7 = false ∧ identUsed s.rt 1 = true ∧
     ([2, 3].all fun k => (slotIn s.rt none (24 + k)).kind != 0) = true ∧ (slotIn s.rt none (24 + 4)).kind = 0 ∧ latchFor (latchedFor 3 s).rt 3 0xFFFF none = true ∧
     (houseOfficers s.rt 3).length = 2 ∧ ((houseOfficers s.rt 3).find? fun o => o.ident == 9) = none) ∧
    (let s := onRt (fun rt => { rt with strong := { rt.strong with slots := (28, officerRec 3) :: rt.strong.slots } }) (withOfficers up)
     servesB 0x33 (le 2 3 ++ le 2 2) s = true ∧ ((houseOfficers s.rt 3).filter Officer.active).length = 3 ∧
     ((houseOfficers s.rt 3).find? fun o => o.ident == 2).map Officer.active = some true) ∧
    (let s := onRt (fun rt => { rt with strong := { rt.strong with slots := (28, officerRec 3) :: (29, officerRec 4) :: (30, officerRec 5) :: (31, officerRec 6) :: rt.strong.slots } })
       (withOfficers up)
     ((List.range 8).drop 2).all (fun k => (slotIn s.rt none (24 + k)).kind != 0) = true) ∧
    ([3, 9].all fun h => servesB 0x34 (le 2 h ++ le 2 0xFFFF) up && houseRegistered up.rt h == (h == 3)) = true ∧ up.rt.twoKey = .closed ∧
    servesB 0x36 [] (latchedFor 3 up) = true := by decide +kernel

/-- An officer of house 3 whose public key is the base point of P-384. -/
def signerOfficer : Officer := { slot := 26, ident := 1, active := true, serial := zeros 8, key := [BitVec.ofNat 8 (2 + p384.gy % 2)] ++ be 48 p384.gx }

/-- The signing officer as the house's only one; its signature (r and s for the nonce 1) verifies by evaluation, too long for the kernel. -/
theorem wit_signer : (let r := keyRec 2 0 0 u00 mN (le 2 1 ++ [1, 0] ++ zeros 8 ++ signerOfficer.key ++ zeros 3)
    houseOfficers (onRt (fun rt => { rt with strong := { rt.strong with slots := (26, r) :: rt.strong.slots } }) up).rt 3) = [signerOfficer] := by decide +kernel

/-- KEY_ENTER of a PIN key in two components on the cards of officers 1 and 2, and one typed at the console. -/
def enterParams (src2 : Nat) : Bytes :=
  le 2 3 ++ le 8 (handleAt 1001 (aesRec 0x10 uK0 mB)).toNat ++ pinAttrs ++ [2] ++ (le 2 1 ++ [0, 0] ++ zeros 4) ++ (le 2 2 ++ [BitVec.ofNat 8 src2, 1] ++ zeros 4)

theorem wit_key_enter : ([1, 2].all fun src2 => let p := enterParams src2
    let s := latchedFor 3 (carded (withOfficers up))
    servesB 0x37 p s && keyEnterForm true p && (keyEnterForm false p == (src2 == 1)) && clearKind (attrsOf (slice p 10 8)) && attrsOk (attrsOf (slice p 10 8)) &&
      latchFor s.rt 3 0xFFFF none && (match findParent s.rt 3 (handleAt 1001 (aesRec 0x10 uK0 mB)) with
        | .key ps pr => ps == 1001 && levelFits s.rt none s.rt.epoch pr
        | _ => false) && decide ((components p).map Component.officer).Nodup &&
      ((components p).all fun x => match (houseOfficers s.rt 3).find? fun o => o.active && o.ident == x.officer with
        | some o => x.source == 2 || ((cardOf s.rt x.source).any fun k => cardSerial k.card == o.serial)
        | none => false)) = true ∧ latchFor up.rt 3 0xFFFF none = false := by decide +kernel

theorem wit_commission :
    ([(1, 1), (1, 2)].all fun v => [0x03#8, 0x04].all fun lc =>
      let s := onRt (fun rt => { rt with boot := { rt.boot with lcState := lc, stage := if lc = 3 then 0x83 else 0x81 } }) (carded up)
      servesB 0x38 (le 2 v.1 ++ le 2 v.2) s && identOk v.1 && !transPending s && !ledgerFull s.nv && inTamperHalt s.rt == (lc == 4)) = true ∧
    (unusedSlot up.otp).isSome = true ∧ kget up.rt.mint0.delivered userRoot = none ∧
    (let m := { aMint with delivered := [(userRoot, zeros 32), (userMasterKey, zeros 32)] }
     (kget m.delivered userRoot).isSome ∧ (kget m.delivered userMasterKey).isSome ∧ m.seeded = true ∧ m.exhausted = false) ∧
    ([2700, 2699].all fun v => let s := onRt (fun rt => { rt with cellA := v, cellB := 3000, boot := { rt.boot with lcState := 0x04, stage := 0x81 } }) up
      recommissionOk s == (v == 2700)) = true := by decide +kernel

theorem wit_net_requests :
    ([(1, 15, 4, 32, 4094, 1280), (0, 0, 6, 128, 0xFFFF, 9000), (2, 0, 4, 24, 0, 1500)].all fun v =>
      servesB 0x70 ([BitVec.ofNat 8 v.1, BitVec.ofNat 8 v.2.1, BitVec.ofNat 8 v.2.2.1, BitVec.ofNat 8 v.2.2.2.1] ++ le 2 v.2.2.2.2.1 ++ le 2 v.2.2.2.2.2 ++ zeros 32) up) = true ∧
    ([(0, 0), (0, 9), (1, 0)].all fun v => let p := le 2 1 ++ [1, 15] ++ le 2 443 ++ le 2 v.2 ++ le 8 (handleAt 1000 serverRec).toNat ++ le 4 3600 ++ [3, 15, 31, 0] ++ [1, v.1, 0, 0] ++ le 4 0
      let s := onRt (fun rt => { rt with mgrWindow := some (0x100000, 0x10000) }) (netState [])
      servesB 0x71 p s && p.length == 32 && (boothOf s.rt v.2).isSome == (v.2 == 0) && (readBulk s.rt 0 0 aBulk).isSome && (kget s.nv.listeners 1).isSome &&
        (match serverKey s.rt s.rt.epoch 3 (handleAt 1000 serverRec) with
         | .key _ _ => true
         | _ => false)) = true ∧ kget up.nv.listeners 1 = none ∧
    ([0, 1, 2].all fun v => servesB 0x72 [v] (latchedFor 0 up)) = true ∧ latchFor up.rt 0 0xFFFF none = false := by decide +kernel

theorem wit_peer_requests :
    (let s := ownKey 1 ownPairing (latchedFor 0 (peerState []))
     ([0, 1].all fun v => servesB 0x73 (zeros 16 ++ le 8 (handleAt 1 ownPairing).toNat ++ [v]) s && servesB 0x75 [v] s) = true ∧ s.rt.peer.mode = true ∧ up.rt.peer.mode = false ∧
     (match pairingKey s.rt (handleAt 1 ownPairing) with
      | .key _ _ => true
      | _ => false) = true ∧ latchFor s.rt 0 0xFFFF none = true ∧ latchFor (peerState []).rt 0 0xFFFF none = false ∧
     servesB 0x74 [] s = true ∧ s.nv.pairing.twin.isSome = true ∧ up.nv.pairing.twin = none) := by decide +kernel

/-! ## SPDM -/

/-- The responder in a phase, with a session or without. -/
def spdmState (v : Option Nat) (algs : Bool) (ses : Option Nat) (fin : Bool) : State :=
  onRt (modSpdm fun x => { x with version := v, caps := v.isSome, algs := algs, session := ses, finished := fin, secret := [1] }) up

theorem wit_spdm :
    spdmServes up = true ∧ spdmServes State.reset = false ∧ phaseOk up.rt.spdm .algs = false ∧
    (let s := spdmState (some 0x12) false none false
     s.rt.spdm.version.isSome = true ∧ s.rt.spdm.caps = true ∧ spdmVer s.rt.spdm = 0x12) ∧
    ([(0x80, 2), (0x80, 1)].all fun v => let m := padTo 8 [0x12, 0xE3] ++ le 4 v.1 ++ le 4 v.2 ++ zeros 16
      byteAt m 1 == 0xE3 && m.length == 32 && (leAt m 8 4).testBit 7 && (leAt m 12 4).testBit 1 == (v.2 == 2)) = true ∧
    (let s := spdmState (some 0x12) true none false
     phaseOk s.rt.spdm .algs = true ∧ s.rt.spdm.session = none ∧ (match drawCd0 144 s.rt with
      | .got _ _ => true
      | _ => false) = true) ∧
    onCurve p384 (p384.gx, p384.gy) = true ∧
    (let m := padTo 40 [0x12, 0xE4] ++ be 48 p384.gx ++ be 48 p384.gy ++ zeros 2
     m.length = 138 ∧ beAt m 40 48 = p384.gx ∧ beAt m 88 48 = p384.gy) ∧
    (let s := spdmState (some 0x13) true (some 5) true
     s.rt.spdm.session.isSome = true ∧ s.rt.spdm.finished = true ∧ byteAt [0x13, 0xE9, 2, 0] 0 = spdmVer s.rt.spdm) := by decide +kernel

/-- A FINISH whose MAC is the open value itself, and one with a byte more. -/
theorem wit_finish (sec tr : Bytes) : let h : Bytes := [0x12, 0xE5, 0, 0]; let c := Config.spdmMac 1 sec (tr ++ h)
    (h ++ c).drop 4 = Config.spdmMac 1 sec (tr ++ (h ++ c).take 4) ∧ (h ++ c ++ [0]).drop 4 ≠ Config.spdmMac 1 sec (tr ++ (h ++ c ++ [0]).take 4) := by
  simp

/-- IDE_KM QUERY in a VENDOR_DEFINED_REQUEST. -/
theorem wit_ide : let m : Bytes := [0x13, 0xFE, 0, 0, 3, 0, 2, 1, 0, 4, 0, 0, 0, 0, 0]
    byteAt m 1 = 0xFE ∧ 13 ≤ m.length ∧ leAt m 4 2 = 3 ∧ byteAt m 6 = 2 ∧ leAt m 7 2 = 1 ∧
      ideKm (slice m 11 (leAt m 9 2)) up.rt.link = some (up.rt.link, bytesOf [0, 1, 0] ++ (slice m 11 4).drop 2 |>.take 4) := by
  simp only [ideKm]
  decide +kernel

/-! ## Inputs read after dispatch, entries in tamper halt -/

/-- Inputs with and without TALLY_IN, and a format 1 prefix: what stage 4 reads of each. -/
theorem wit_stage4 :
    (let c := { aCmd 0 (aDesc 3 8 0 0 [] 8 16) .fetched with admitted := false }
     let s := upCmd c
     let data := [1, 2, 3, 4] ++ tallyBytes (presetOf s.rt 0) [1, 2, 3, 4]
     hasTallyIn c.desc = true ∧ data.length = 8 ∧ stripTally (presetOf s.rt c.preset) data = some [1, 2, 3, 4] ∧ c.prefixed = false ∧
     inputRangeOk s.rt c 0 = true ∧ stage4Bytes c = 8) ∧
    (let c := { aCmd 0 (aDesc 3 0 0 0 [] 24 16) .fetched with admitted := false, prefixed := true }
     let s := upCmd c
     cmdRefusal s.rt 3 = none ∧ inputRangeOk s.rt c 0 = true ∧ outputRangeOk s.rt c 0 = true ∧ stage4Bytes c = 16 ∧ hostInput c = 8 ∧
     hostBase c = 0x10010) := by decide +kernel

/-- A picked command whose input is in host memory, read at dispatch. -/
theorem wit_dispatch_input :
    (let c := aCmd 0 (aDesc 0x101 0 0 0 [] 8 16) .admitted
     let s := onRt (fun rt => { rt with disp := { rt.disp with ready := [0] } }) (upCmd c)
     (clerkOf s.rt 0).st = .free ∨ (clerkOf s.rt 1).st = .free) ∧
    (let c := aCmd 0 (aDesc 0x101 0 0 0 [] 8 16) .admitted
     let s := onRt (fun rt => { rt with disp := { rt.disp with ready := [0] } }) (upCmd c)
     ((pick 1 (pickOrder s.rt) s.rt).1.map Cmd.id) = some 0 ∧ (readHost c (some (zeros 8)) s.rt).isSome = true ∧
     (readHost c (some (zeros 7)) s.rt).isNone = true ∧ ((readHost c none s.rt).bind Prod.snd).isNone = true ∧
     mayRun s.rt = true ∧ (clerkOf s.rt 1).st = .free) := by decide +kernel

/-- A bundle refused at stage 6: every member carries the epoch at the refusal and names member 0 (07 R148, R10). -/
theorem test_refused_bundle :
    (let c0 := { aCmd 0 (aDesc 3 3 0 0 [] 0 16) .input with admitted := false, bundle := some 5, grouped := true }
     let c1 := { aCmd 1 (aDesc 3 0 0 0 [] 0 16) .input with admitted := false, bundle := some 5, grouped := true, member := 1 }
     let b := { newBundle 5 0 false with members := [0, 1], closed := true }
     let x := { aBooth (some 3) with cfg := { aCfg with share := 1 } }
     let s := onRt (fun rt => { rt with epoch := 9, booths := [(0, x)], cmds := [(0, c0), (1, c1)], bundles := [(5, b)] }) up
     let rt := doAdmission 1 s.rt
     (kkeys rt.cmds).map (fun i => (kget rt.cmds i).map fun c => (c.status, c.epoch, c.result.take 2, memberByte rt c))
       = [some (stBundleAborted, 9, [0, 1], 0), some (stBundleAborted, 9, [0, 1], 0)]) := by decide +kernel

/-- A withheld member ends DONE and the next member runs (07 R146). -/
theorem test_withheld_member :
    (let c0 := { aCmd 0 (aDesc 0x171 3 0 0 [] 0 64) .dispatched with bundle := some 5, grouped := true, withheld := true, output := [1] }
     let c1 := { aCmd 1 (aDesc 3 0 0 0 [] 0 16) .admitted with bundle := some 5, grouped := true, member := 1 }
     let b := { newBundle 5 0 false with members := [0, 1], closed := true }
     let s := onRt (fun rt => { rt with cmds := [(0, c0), (1, c1)], bundles := [(5, b)] }) up
     let rt := doneCmd 0 [1] [9, 9] 0 s.rt
     bundleTurn rt c1 = true ∧ (kget rt.cmds 0).map (fun c => (c.output, c.outLen, c.retired)) = some ([], 0, false)) := by decide +kernel

/-- After the rip line an entry carries TAMPER_HALT whatever the command came to (21 R418). -/
theorem test_halted_entry :
    (let c := { aCmd 0 (aDesc 3 0 0 0 [] 0 16) .ended with status := stDeviceFault, output := [1], outLen := 1 }
     let s := onRt (fun rt => { rt with boot := { rt.boot with stage := 0x81 } }) (upCmd c)
     ((doCompletionPost 0 true s).rt.out.drop s.rt.out.length).map (fun o => match o with
       | .hostWrite _ _ d _ => (d.length, slice d 4 2)
       | _ => (0, [])) = [(32, [0, 9])]) := by decide +kernel

/-! ## Further witnesses: looms that complete, flits, links, late requests, refusals -/

/-- A loom's block with the result word and zero key bytes, and the state whose desk holds a source at nibbles 1400h and 1900h. -/
def loomAt (b : Block) (src : Bytes) : State := let s := loomState true b; { s with rt := writeBytes 0 0x1900 src (writeBytes 0 0x1400 src s.rt) }

def loomCompletesB (b : Block) (src : Bytes) (s : State) : Bool :=
  frontB s.rt (loomRef 0 0) (blkW b 0) 0 b && decide (blkW b 1 < 8) && decide (loomDst b < 3) && (loomOf s.rt 0).k0 == some (aesKey true) &&
    loomParOk b && loomLenOk b && loomFits (jobCmd s.rt 0) b && decide (readSource s.rt 0 b (blkFlag b 0) true (blkD b 6) = .ok src) &&
    (loomOut (aesKey true).key b (getPtr s.rt 0 b 8 (blkW b 10)) (loomHdr s 0 b) src).2 &&
    (match jobCmd s.rt 0 with
     | some m => kget s.rt.cmds m.id == some m
     | none => false)

/-- GCM and CCM, to the desk and to staging; a decryption's source is what the encryption gives. -/
theorem wit_loom_completes : ([(1, 0), (1, 2), (3, 0), (3, 2)].all fun v =>
    let b := loomBlk v.1 v.2 3 (if v.1 = 1 then 12 else 7) (if v.1 = 1 then 16 else 4) 0
    loomCompletesB b (zeros 3) (loomState true b)) = true ∧
    ([(2, 0), (2, 2), (4, 0), (4, 2)].all fun v =>
    let k := (aesKey true).key
    let src := if v.1 = 2 then gcmEnc k (zeros 12) [] [9] else ccmEnc k (zeros 7) [] [9] 4
    let b := loomBlk v.1 v.2 src.length (if v.1 = 2 then 12 else 7) (if v.1 = 2 then 16 else 4) 0
    loomCompletesB b src (loomAt b src)) = true := by decide +kernel
theorem bxor_length (a b : Bytes) : (bxor a b).length = min a.length b.length := by
  induction a generalizing b with
  | nil => simp [bxor]
  | cons x a ih => cases b with
    | nil => simp [bxor]
    | cons y b => simp [bxor, ih]

/-- A direct decryption of GCM: flags SRC and direct destination, 65 553 bytes of source at input offset 0. -/
def directBlk : Block := blk [(0, 2), (1, 5), (6, 0), (7, 65553), (9, 0x2300), (10, 12), (11, 16), (15, 0x600)]
def directCmd (src : Bytes) : Cmd := { aCmd 0 (aDesc 0x171 0 0 0 [] 65553 65553) .dispatched with streaming := true, input := src }
def directState (src : Bytes) : State :=
  let s := loomState true directBlk
  { s with rt := { s.rt with cmds := [(0, directCmd src)], booths := [(0, aBooth (some 3))] } }

/-- A ciphertext and its tag. -/
def directSrc (ct : Bytes) : Bytes := ct ++ gcmTag (aesKey true).key (zeros 12) [] ct

/-- Nibbles of an empty desk. -/
theorem readNibbles_empty (rt : Rt) (h : (clerkOf rt 0).mem = []) (n : Nat) : ∀ p, p + n ≤ 5 * 0x40000 → readNibbles rt 0 n p = List.replicate n 0 := by
  induction n with
  | zero => intro p _; rfl
  | succ n ih =>
    intro p hp
    have a : p / 5 < 0x40000 := by omega
    have b : (p + 1) % nibbleSpace ≤ p + 1 := Nat.mod_le _ _
    rw [readNibbles, ih _ (by omega)]
    simp [readNibble, readWord, h, a, kgetD, kget, bitsAt, List.replicate_succ]

theorem directSrc_length (ct : Bytes) (h : ct.length = 65537) : (directSrc ct).length = 65553 := by
  have h2 : (aesEnc (aesKey true).key (zeros 12 ++ be 4 1)).length = 16 := by decide +kernel
  have h3 (k v : Nat) : (le k v).length = k := by
    induction k generalizing v with
    | zero => rfl
    | succ k ih => simp [le, ih]
  have h4 (k v : Nat) : (be k v).length = k := by simp [be, h3]
  simp only [directSrc, gcmTag, List.length_append, bxor_length, h, h2, h4, Nat.min_self]

set_option maxRecDepth 20000 in
theorem wit_direct (ct : Bytes) (h : ct.length = 65537) : let src := directSrc ct
    let s := directState src
    AtFront s.rt (loomRef 0 0) 2 0 directBlk ∧ loomDst directBlk = 2 ∧ loomPayload directBlk = 65537 ∧
    loomParOk directBlk = true ∧ (loomLenOk directBlk = true ∧ loomFits (some (directCmd src)) directBlk = true) ∧ (loomOf s.rt 0).k0 = some (aesKey true) ∧
    jobCmd s.rt 0 = some (directCmd src) ∧ directOk s.rt (clerkOf s.rt 0) (directCmd src) = true ∧
    readSource s.rt 0 directBlk (blkFlag directBlk 0) true (blkD directBlk 6) = .ok src ∧
    (loomOut (aesKey true).key directBlk (getPtr s.rt 0 directBlk 8 12) (loomHdr s 0 directBlk) src).2 = true := by
  intro src s
  have hl : src.length = 65553 := directSrc_length ct h
  refine ⟨front_of ?_, ?_, ?_, ?_, ?_, ?_, rfl, ?_, ?_, ?_⟩
  · show frontB (loomState true directBlk).rt (loomRef 0 0) 2 0 directBlk = true
    decide +kernel
  · decide +kernel
  · decide +kernel
  · decide +kernel
  · exact ⟨by decide +kernel, rfl⟩
  · show (loomOf (loomState true directBlk).rt 0).k0 = some (aesKey true)
    decide +kernel
  · show directOk (loomState true directBlk).rt (clerkOf (loomState true directBlk).rt 0) (directCmd []) = true
    decide +kernel
  · have hb : blkFlag directBlk 0 = true ∧ blkD directBlk 2 = 0 ∧ blkD directBlk 6 = 65553 := by decide +kernel
    have hj : jobCmd s.rt 0 = some (directCmd src) := rfl
    have hr : rangeOk (cmdWindows s.rt (directCmd src) (directCmd src).epoch) false (hostBase (directCmd src) + 0) 65553 = true := by
      show rangeOk (cmdWindows (directState []).rt (directCmd []) (directCmd []).epoch) false (hostBase (directCmd []) + 0) 65553 = true
      decide +kernel
    have hi : (directCmd src).input = src := rfl
    have hs : (directCmd src).session = none := rfl
    have ha : inputAt (directCmd src) 0 65553 = src := by simp [inputAt, hi, slice, padTo, ← hl, zeros]
    simp only [readSource, hb, hj, hi, hs, hl, if_true, Nat.sub_zero, Nat.min_self, hr, ha]
    rfl
  · have hn : getPtr s.rt 0 directBlk 8 12 = zeros 12 := by
      have hp : blkP directBlk 8 = some 0x2300 := by decide +kernel
      have hm : (clerkOf s.rt 0).mem = [] := rfl
      simp only [getPtr, hp, readBytes, readNibbles_empty s.rt hm (2 * 12) 0x2300 (by omega)]
      rfl
    have hh : loomHdr s 0 directBlk = [] := by
      have hz : blkW directBlk 14 = 0 := by decide +kernel
      simp [loomHdr, hz]
    have ho : blkW directBlk 0 = 2 ∧ blkW directBlk 11 = 16 := by decide +kernel
    have ht : src.take 65537 = ct := by simp [src, directSrc, ← h]
    have hd : src.drop 65537 = gcmTag (aesKey true).key (zeros 12) [] ct := by simp [src, directSrc, ← h]
    have hc : loomDec 2 = true ∧ loomCcm 2 = false := by decide
    simp only [loomOut, hn, hh, ho, hc, hl, gcmDec, if_true]
    simp [ht, hd]

/-- Flits without an error, with one bit wrong, with two bits wrong. -/
def aFlit (e : BitVec 256) : Flit := { data := 5#256 ^^^ e, header := 9, code := flitCode none 5 9, poison := false }

theorem wit_flits : checkFlit none (aFlit 0) = .clean ∧ isCorrected (checkFlit none (aFlit 1)) = true ∧ checkFlit none (aFlit 3) = .uncorrectable ∧
    up.rt.fabricPerm = none ∧ inFatal up.rt = false := by decide +kernel

/-- A stream in the Secure state, a link lost by it and by DL_Down. -/
theorem wit_streams :
    (let s := onRt (fun rt => { rt with link := { rt.link with ideGo := [0, 2, 16, 18, 32, 34].map fun x => (3, x) } }) up
     hostReaches s.rt = true ∧ ideSecure s.rt.link.ideGo 3 = true) ∧
    (let lost := onRt (fun rt => { rt with link := { rt.link with lost := true, up := false } }) up
     let back := onRt (doLinkTrainingComplete 8 5 true) lost
     canReturn lost.rt = false ∧ canReturn back.rt = true ∧ back.rt.link.width = 8 ∧ (doHostLinkReturn back.rt).link.lost = false) ∧
    mainPower up.rt = true ∧ up.rt.power.powerFail = false ∧ up.rt.power.perst = false := by decide +kernel

/-- Configuration space before its 100 ms, the fatal stages of fuses, a hot module in the hold. -/
theorem wit_stages :
    (let s := onRt (fun rt => { rt with boot := { rt.boot with serviceReady := false, isSealed := false, stage := 0x05, lastReset := 0 } }) up
     hostReaches s.rt = true ∧ configServed s.rt = false ∧ mustRetry s.rt 0x1400000 = true ∧ mustRetry up.rt 0 = false) ∧
    ([0x86#8, 0x87].all fun g => let s := onRt (fun rt => { rt with boot := { rt.boot with stage := g, lcState := 0x0F } }) up
      !inTamperHalt s.rt && stateRefuses s.rt 0x04 == some stStateRefused && stateRefuses s.rt 0x40 == none) = true ∧
    (let s := onRt (fun rt => { rt with boot := { rt.boot with auxLow := true } }) up
     s.rt.boot.auxLow = true ∧ up.rt.boot.auxLow = false) := by decide +kernel

/-- Booth requests that are served past their bound and before it; a preset that is not valid. -/
theorem wit_late :
    ([(0x10, boothParams 9 3 64, 10000000000), (0x11, le 2 0 ++ le 2 0x10 ++ boothParams 1 3 16, 10000000000), (0x12, le 2 0 ++ [0, 0] ++ le 4 10000, 20000000000),
      (0x13, le 2 0, 10000000000)].all fun v =>
      let late := onRt (fun rt => { rt with now := 100 * v.2.2, mbx := { rt.mbx with goAt := 0 } }) (inMailbox (reqBytes v.1 v.2.1) up)
      let soon := inMailbox (reqBytes v.1 v.2.1) up
      (match reqOf .mailbox late.rt with
       | some q => q.code == v.1 && q.headOk && isPast (dueOf .mailbox q late.rt) late.rt && q.params == v.2.1 && (stateRefuses late.rt v.1).isNone
       | none => false) &&
      (match reqOf .mailbox soon.rt with
       | some q => !isPast (dueOf .mailbox q soon.rt) soon.rt
       | none => false)) = true ∧
    fieldOk up.rt (boothParams 9 3 64) 0 13 = true ∧
    (let p := (boothParams 9 3 64).take 37 ++ [7] ++ (boothParams 9 3 64).drop 38
     (boothFields p 0).preset = 7 ∧ fieldOk up.rt p 0 13 = false) := by decide +kernel

/-- Images whose signature covers them and one that it does not; programs with a defined opcode, an undefined one, and a privileged one. -/
theorem wit_images : (let w := { aBulk with signed := sha384 [1, 2, 3] }
     (readBulk managed.rt 0 3 w) = some [1, 2, 3] ∧ signatureOk [1, 2, 3] w = true ∧ signatureOk [1, 2, 3] aBulk = false) ∧
    opcodesOk [] 0 = true ∧ opcodesOk [0#20] 1 = false ∧ opcodesOk [0x90000#20] 1 = false ∧ (codeSpace [] 4).isSome = true ∧
    (codeSpace [{ house := 3, opcode := 0x8000, digest := [], base := 64 * 0x2300, code := List.replicate 16384 0, window := [], since := 0, upto := none }] 1) = none := by
  decide +kernel

/-- A server key that NET_LISTEN refuses: an absent one, and one of another use. -/
theorem wit_listen_refused : ([0#64, handleAt 1001 (aesRec 0x10 uK0 mB)].all fun h =>
    match serverKey (netState []).rt (netState []).rt.epoch 3 h with
    | .no _ => true
    | _ => false) = true := by decide +kernel

/-- The link comes up with a pairing key, for a TARGET and for a SOURCE that owes its copy. -/
theorem wit_link_up : ([true, false].all fun snd =>
    let p := peerState []
    let s := ownKey 1 ownPairing (onRt (fun rt => { rt with peer := { rt.peer with linkUp := false } })
      { p with nv := { p.nv with pairing := { p.nv.pairing with keyHandle := handleAt 1 ownPairing, sending := snd } } })
    s.nv.pairing.twin == some (zeros 8) && peerPort s.rt && !s.rt.peer.linkUp && s.rt.boot.serviceReady && canServe s.rt s.rt.mint1 && s.rt.mint1.waiting.isEmpty &&
      s.nv.pairing.sending == snd && (match pairingKey s.rt s.nv.pairing.keyHandle with
       | .key slot _ => slot == 1
       | _ => false)) = true := by decide +kernel

/-- The end of both keys' frames with the link up. -/
theorem wit_rekey : ([2 ^ 32 - 1, 2 ^ 32].all fun n =>
    let p := peerState []
    let s := ownKey 1 ownPairing (onRt (fun rt => { rt with peer := { rt.peer with txFrames := n, rxFrames := n } })
      { p with nv := { p.nv with pairing := { p.nv.pairing with keyHandle := handleAt 1 ownPairing } } })
    s.rt.peer.linkUp && s.nv.pairing.twin.isSome && s.rt.peer.txFrames == n && (match pairingKey s.rt s.nv.pairing.keyHandle with
       | .key slot _ => slot == 1
       | _ => false)) = true := by decide +kernel

/-- A datagram whose MAC verifies. -/
theorem wit_tod : (let d := le 6 1000 ++ zeros 2 ++ le 2 37 ++ [0, 0] ++ le 4 9
    let m := d ++ hmac .sha256 (zeros 32) d
    let c := clockState 1 .set none
    let s := ownKey 1 todRec { c with nv := { c.nv with clockCfg := { c.nv.clockCfg with todKey := handleAt 1 todRec } } }
    powered s.rt && s.rt.net.mgmtLink && s.nv.clockCfg.source == 1 && m.length == 48 && zeroAt m 6 2 && decide (s.rt.clock.todSeq ≤ leAt m 12 4) &&
      todMacOk s m && !todMacOk s (d ++ zeros 32) && s.nv.clockCfg.todAddr == [1]) = true := by decide +kernel

/-- An attempt at the latch that the officer of card A serves at the console. -/
theorem wit_console_sign : (let x : CardState := { card := aCard true false, classA := false, wrong := 2, active := true }
    let s := onRt (setCard 0 (some x)) (onRt (fun rt => { rt with twoKey := .attempt (zeros 32) 3 0xFFFF none }) (withOfficers up))
    powered s.rt && cardOf s.rt 0 == some x && !x.card.blocked && s.rt.ceremony.isNone && !ledgerFull s.nv && s.rt.twoKey == .attempt (zeros 32) 3 0xFFFF none &&
      (((houseOfficers s.rt 3).find? fun o => o.active && o.serial == cardSerial x.card && o.key == padTo 49 (x.card.pubKey.take 49)).map Officer.ident) == some 1) = true := by
  decide +kernel

/-- Entries of step 13 that check, and one that does not. -/
theorem wit_step13 : (let s := atStep 13
    let s := { s with nv := { s.nv with boothTable := [(4, aCfg)] } }
    runsStep 13 s = true ∧ kget s.nv.boothTable 4 = some aCfg) ∧ islandReady (onRt (setIsland (mintIsland 0) { st := .ready, throttle := 0, seeded := false }) (atStep 7)).rt (mintIsland 0) = true := by
  decide +kernel

end Sys2Proof.Machine.Tests
end

section
/-! One step of the queue, and the cold reset. -/

namespace Sys2Proof.Machine

/-! ## What the answer to a waiting request writes -/

/-- Signalling a vector writes its pending bit or sends its message. -/
theorem signal_eq (v : Nat) (rt : Rt) : ∃ x o, signal v rt = { rt with msix := x, out := o } := by
  unfold signal
  dsimp only
  split
  · exact ⟨_, rt.out, rfl⟩
  · exact ⟨rt.msix, _, rfl⟩

/-- Restarting a mailbox bound writes the mailbox alone. -/
theorem restartBound_eq (rt : Rt) : ∃ m, restartBound rt = { rt with mbx := m } := by
  unfold restartBound
  split
  · exact ⟨_, rfl⟩
  · exact ⟨rt.mbx, rfl⟩

/-- A response goes to the console or to the mailbox with its vector. -/
theorem respond_eq (console : Bool) (seq : BitVec 32) (st : Nat) (res : Bytes) (rt : Rt) :
    ∃ m x o, respond console seq st res rt = { rt with mbx := m, msix := x, out := o } := by
  unfold respond
  split
  · obtain ⟨m, h⟩ := restartBound_eq (emit (.console (respBytes rt seq st res)) rt)
    exact ⟨m, rt.msix, _, h⟩
  · obtain ⟨x, o, h⟩ :=
      signal_eq 0 { rt with mbx := { rt.mbx with resp := respBytes rt seq st res, done := true, busy := false, seq := seq } }
    exact ⟨_, x, o, h⟩

/-- Answering the request that waits takes it away and responds. -/
theorem answerWaiting_eq (st : Nat) (res : Bytes) (rt : Rt) :
    ∃ w m x o, answerWaiting st res rt = { rt with waiting := w, mbx := m, msix := x, out := o } := by
  unfold answerWaiting
  split
  · exact ⟨rt.waiting, rt.mbx, rt.msix, rt.out, rfl⟩
  · next w _ =>
    obtain ⟨m, x, o, h⟩ := respond_eq w.console w.seq st res { rt with waiting := none }
    exact ⟨none, m, x, o, h⟩

/-- The failure of a request whose bound has passed answers it and may leave its booth open (R118); the time, the commands, the ballast
and all else stay. -/
theorem expireRequest_eq (rt : Rt) :
    ∃ b w m x o, expireRequest rt = { rt with booths := b, waiting := w, mbx := m, msix := x, out := o } := by
  have stays : ∃ b w m x o, rt = { rt with booths := b, waiting := w, mbx := m, msix := x, out := o } :=
    ⟨rt.booths, rt.waiting, rt.mbx, rt.msix, rt.out, rfl⟩
  unfold expireRequest
  split
  · exact stays
  · next w _ =>
    split
    · split
      · next b _ =>
        obtain ⟨w, m, x, o, h⟩ := answerWaiting_eq stDeviceFault [] (modBooth b (fun x => { x with closing := false }) rt)
        exact ⟨_, w, m, x, o, h⟩
      · obtain ⟨w, m, x, o, h⟩ := answerWaiting_eq stDeviceFault [] rt
        exact ⟨rt.booths, w, m, x, o, h⟩
    · exact stays

/-! ## The step -/

theorem step_cons (c : Instr) (l : List Instr) (s : State) :
    step { s with pending := c :: l } = exec c { s with pending := l } := rfl

theorem step_of_pending_nil {s : State} (h : s.pending = []) : step s = .next (idle s) := by
  simp only [step, h]

/-- The idle step changes the run-time state alone: one microsecond passes (log 4), and nothing but the fields that the answer to an
overdue request writes changes beside. -/
theorem idle_eq (s : State) : ∃ b w m x o,
    idle s = { s with rt := { advance 1 s.rt with booths := b, waiting := w, mbx := m, msix := x, out := o } } := by
  obtain ⟨b, w, m, x, o, h⟩ := expireRequest_eq (advance 1 s.rt)
  exact ⟨b, w, m, x, o, by rw [idle, onRt, h]⟩

/-- Settles O56: the front command by the step's equation, the idle step by what the passing of a microsecond and the answer to an overdue
request write. -/
theorem stepRunsFrontCommand : Obligations.StepRunsFrontCommand := by
  refine ⟨step_cons, fun s hs => ?_⟩
  obtain ⟨b, w, m, x, o, hidle⟩ := idle_eq s
  exact ⟨_, (step_of_pending_nil hs).trans (congrArg _ hidle), rfl, hs, rfl, rfl, rfl, rfl, rfl⟩

/-! ## The cold reset -/

/-- The fuses of the shipped module spell SEALED (R1, Table 5.3). -/
theorem lcDecode_shipped : lcDecode Otp.shipped = 0x03 := by decide

/-- The head clerks begin in monitor mode (Table 10.4). -/
theorem clerkOf_reset_head : clerkOf Rt.reset 128 = headClerk := rfl

/-- The head clerks are the one clerk listed, with an empty memory; no room and no reckoner is. -/
theorem memory_wf_reset : Memory.wf Rt.reset = true := by
  simp [Memory.wf, Rt.reset, headClerk, Clerk.reset, kcanon, ksorted]

/-- Settles O58: the fuses, the head clerks and the memories by their lemmas, every other field as the reset state lists it. -/
theorem resetState : Obligations.ResetState :=
  ⟨rfl, rfl, lcDecode_shipped, rfl, rfl, rfl, rfl, rfl, rfl, rfl, rfl, rfl, rfl, rfl, rfl, rfl, rfl,
    congrArg Clerk.sw clerkOf_reset_head, rfl, rfl, rfl, rfl, rfl, rfl, memory_wf_reset⟩

end Sys2Proof.Machine
end

section
/-! What the end of jobs and commands, a fault event and a closing connection leave alone. -/

namespace Sys2Proof.Machine

/-! ## The end of jobs and commands -/

/-- The run-time state without what the end of a job, a command or a bundle writes. Two states with the same rest differ there alone. -/
def sansWork (rt : Rt) : Rt :=
  { rt with
    clerks := [], presses := [], hashes := [], looms := [], reckoners := [], mint0 := Mint.reset, mint1 := Mint.reset
    strong := Strong.reset, cmds := [], bundles := [], disp := Disp.reset, booths := [], twoKey := .closed }

/-- What every step of a fold keeps, the fold keeps. -/
theorem foldl_keeps {α β γ : Type} (g : β → γ) {f : β → α → β} {l : List α} {r : β} (h : ∀ r a, g (f r a) = g r) :
    g (l.foldl f r) = g r := by
  induction l generalizing r with
  | nil => rfl
  | cons a l ih => exact ih.trans (h r a)

theorem sansWork_setCom (e : EngineRef) (x : EngCom) (rt : Rt) : sansWork (setCom e x rt) = sansWork rt := by
  unfold setCom; split <;> rfl

theorem sansWork_zeroEngine (e : EngineRef) (rt : Rt) : sansWork (zeroEngine e rt) = sansWork rt := by
  unfold zeroEngine
  split
  · rfl
  · rfl
  · rfl
  · exact sansWork_setCom e _ _

/-- Beside the release of its engines, the end of a job writes clerks, engines, mints and the strongroom's requests. -/
theorem sansWork_endJob (c : ClerkId) (blocks : List Nat) (rt : Rt) : sansWork (endJob c blocks rt) = sansWork rt := by
  unfold endJob
  extract_lets k released left strong withdrawn wiping
  calc sansWork wiping
    _ = sansWork withdrawn := rfl
    _ = sansWork left := rfl
    _ = sansWork released := rfl
    _ = sansWork rt := foldl_keeps sansWork fun r e => sansWork_zeroEngine e r

theorem sansWork_endJobOf (id : CmdId) (rt : Rt) : sansWork (endJobOf id rt) = sansWork rt := by
  unfold endJobOf
  refine foldl_keeps sansWork fun r kv => ?_
  exact sansWork_endJob kv.1 kv.2.blocks r

theorem sansWork_stopAll (st : Nat) (rt : Rt) : sansWork (stopAll st rt) = sansWork rt := by
  unfold stopAll
  extract_lets ended
  calc _ = sansWork ended := rfl
    _ = sansWork rt := foldl_keeps sansWork (fun r kv => sansWork_endJob kv.1 kv.2.blocks r) 

theorem sansWork_returnResv (id : CmdId) (rt : Rt) : sansWork (returnResv id rt) = sansWork rt := by
  unfold returnResv; split <;> rfl

theorem sansWork_closeClaimed (u : Nat) (rt : Rt) : sansWork (closeClaimed u rt) = sansWork rt := by
  unfold closeClaimed
  split
  · split <;> rfl
  · rfl

theorem sansWork_dropCmd (id : CmdId) (rt : Rt) : sansWork (dropCmd id rt) = sansWork rt := by
  have dropped : sansWork (returnResv id (unready id (endJobOf id rt))) = sansWork rt :=
    (sansWork_returnResv id _).trans (sansWork_endJobOf id rt)
  unfold dropCmd
  split
  · rfl
  · next c _ =>
    dsimp only
    split
    · exact dropped
    · next u _ => exact (sansWork_closeClaimed u _).trans dropped

/-! ## Fault events -/

/-- The run-time state without what signalling an event and stopping for it write; the collector stays. -/
def sansSignal (rt : Rt) : Rt :=
  { sansWork rt with boot := Rt.reset.boot, alert := Alert.reset, msix := Rt.reset.msix, out := [] }

/-- The run-time state without what a fault event may write, the collector and the state of the pairing among it. -/
def sansFault (rt : Rt) : Rt := { sansSignal rt with fault := Collector.reset, peer := Rt.reset.peer }

/-- The rest that a state shares with another before `sansWork`, it shares before `sansSignal`. -/
theorem sansSignal_of_sansWork {a b : Rt} (h : sansWork a = sansWork b) : sansSignal a = sansSignal b :=
  congrArg (fun r => { r with boot := Rt.reset.boot, alert := Alert.reset, msix := Rt.reset.msix, out := [] }) h

theorem sansFault_of_sansSignal {a b : Rt} (h : sansSignal a = sansSignal b) : sansFault a = sansFault b :=
  congrArg (fun r => { r with fault := Collector.reset, peer := Rt.reset.peer }) h

theorem sansSignal_signal (v : Nat) (rt : Rt) : sansSignal (signal v rt) = sansSignal rt := by
  obtain ⟨x, o, h⟩ := signal_eq v rt
  rw [h]; rfl

theorem sansSignal_fatalStage (rt : Rt) : sansSignal (fatalStage rt) = sansSignal rt := by
  unfold fatalStage; split <;> rfl

/-- What a fatal event stops, the collector aside (R17, R87). -/
theorem sansSignal_fatalStop (rt : Rt) :
    sansSignal (fatalStage (if inTamperHalt rt then rt else stopAll stDeviceFault rt)) = sansSignal rt := by
  refine (sansSignal_fatalStage _).trans ?_
  split
  · rfl
  · exact sansSignal_of_sansWork (sansWork_stopAll stDeviceFault rt)

theorem setPending_ring (r : FaultRec) (f : Collector) : (setPending r f).ring = f.ring := by
  unfold setPending; split <;> rfl

theorem setPending_nextSeq (r : FaultRec) (f : Collector) : (setPending r f).nextSeq = f.nextSeq := by
  unfold setPending; split <;> rfl

/-- An event has reached the collector: a record of its source stands in the ring at the sequence number (R436), and nothing has changed
but what a fault event may write. -/
structure Recorded (src : FaultSource) (rt rt' : Rt) : Prop where
  frame : sansFault rt' = sansFault rt
  nextSeq : rt'.fault.nextSeq = (rt.fault.nextSeq + 1) % 2 ^ 32
  ring : ∃ r, r.source = src ∧ rt'.fault.ring = kset rt.fault.ring (rt.fault.nextSeq % 40) r

/-- What is signalled after a record leaves it in place. -/
theorem Recorded.signalled {src : FaultSource} {rt a b : Rt} (h : Recorded src rt a) (hb : sansSignal b = sansSignal a) :
    Recorded src rt b := by
  have hf : b.fault = a.fault := show (sansSignal b).fault = (sansSignal a).fault from congrArg Rt.fault hb
  exact ⟨(sansFault_of_sansSignal hb).trans h.frame, hf ▸ h.nextSeq, hf ▸ h.ring⟩

theorem sansSignal_alertAssert (rt : Rt) : sansSignal (alertAssert rt) = sansSignal rt := rfl

/-- Every reported event is recorded, whatever its class. -/
theorem report_recorded (e : FaultEvent) (rt : Rt) : Recorded e.source rt (report e rt) := by
  unfold report
  generalize (if boothAttr e then (FClass.contained, false, false, rt.fault.wins) else classify rt e) = v
  obtain ⟨c, sev, quiet, wins⟩ := v
  dsimp -zeta only
  extract_lets _ classified _ boothRt escalates c' r pending pin asserted sent
  have hboothRt : Recorded e.source rt boothRt := ⟨rfl, rfl, _, rfl, rfl⟩
  have hpending : Recorded e.source rt pending := ⟨rfl, setPending_nextSeq r _, r, rfl, setPending_ring r _⟩
  have hasserted : sansSignal asserted = sansSignal pending := by
    unfold asserted
    split
    · rfl
    · exact sansSignal_alertAssert pending
  have hsent : sansSignal sent = sansSignal asserted := by
    unfold sent
    split
    · rfl
    · exact sansSignal_signal 0 asserted
  have hdone : Recorded e.source rt sent := hpending.signalled (hsent.trans hasserted)
  have hstopped := hdone.signalled (sansSignal_fatalStop sent)
  generalize fatalStage (if inTamperHalt sent then sent else stopAll stDeviceFault sent) = stopped at hstopped ⊢
  have hmasked : Recorded e.source rt (if boothRt.fault.irqMask.getLsbD 3 then boothRt else signal 0 boothRt) := by
    split
    · exact hboothRt
    · exact hboothRt.signalled (sansSignal_signal 0 boothRt)
  by_cases hquiet : quiet = true
  · rw [if_pos hquiet]
    exact ⟨rfl, rfl, _, rfl, rfl⟩
  rw [if_neg hquiet]
  by_cases hhalted : classified.fault.halted = true
  · rw [if_pos hhalted]
    exact ⟨rfl, rfl, _, rfl, rfl⟩
  rw [if_neg hhalted]
  by_cases hbooth : boothAttr e = true
  · rw [if_pos hbooth]
    exact hmasked
  rw [if_neg hbooth]
  by_cases hfatal : c' = .fatal
  · rw [if_pos hfatal]
    exact hstopped
  · rw [if_neg hfatal]
    exact hdone

/-- Ending the pairing with the twin writes what a fault event writes, and at most the record after the last. -/
theorem unpair_cases (rt : Rt) :
    unpair rt = rt ∨ ∃ p, Recorded .peerLink { rt with peer := p } (unpair rt) := by
  unfold unpair
  split
  · exact .inr ⟨{ rt.peer with paired := false, lost := true }, report_recorded (plainEvent .peerLink []) _⟩
  · exact .inl rfl

theorem sansFault_unpair (rt : Rt) : sansFault (unpair rt) = sansFault rt := by
  obtain h | ⟨p, h⟩ := unpair_cases rt
  · rw [h]
  · exact h.frame

/-- The record at the last sequence number stays while the pairing ends: the next has another place in the ring, since the sequence number's
wrap at 2^32 keeps its parity. -/
theorem unpair_ring (rt : Rt) (n : Nat) (h : rt.fault.nextSeq = (n + 1) % 2 ^ 32) :
    kget (unpair rt).fault.ring (n % 40) = kget rt.fault.ring (n % 40) := by
  obtain heq | ⟨p, hrec⟩ := unpair_cases rt
  · rw [heq]
  · obtain ⟨r, _, hring⟩ := hrec.ring
    rw [hring]
    exact kget_kset_ne _ _ (by simp only [h]; omega)

/-- A fault event, the end of the pairing among what follows it, writes nothing outside `sansFault`. -/
theorem sansFault_raise (e : FaultEvent) (rt : Rt) : sansFault (raise e rt) = sansFault rt := by
  unfold raise
  extract_lets reported
  have hreported : sansFault reported = sansFault rt := (report_recorded e rt).frame
  split
  · exact (sansFault_unpair reported).trans hreported
  · exact hreported

/-- The record of a fault event stands in the ring at the sequence number (R436). -/
theorem raise_record (e : FaultEvent) (rt : Rt) :
    ∃ r, kget (raise e rt).fault.ring (rt.fault.nextSeq % 40) = some r ∧ r.source = e.source := by
  have hrec := report_recorded e rt
  obtain ⟨r, hsource, hring⟩ := hrec.ring
  have hget : kget (report e rt).fault.ring (rt.fault.nextSeq % 40) = some r := by rw [hring, kget_kset_self]
  refine ⟨r, ?_, hsource⟩
  unfold raise
  extract_lets reported
  split
  · exact (unpair_ring reported _ hrec.nextSeq).trans hget
  · exact hget

/-- The host link, the network and the cages are outside what a fault event writes. -/
theorem board_of_sansFault {a b : Rt} (h : sansFault a = sansFault b) :
    a.link = b.link ∧ a.net = b.net ∧ a.cageA = b.cageA ∧ a.cageB = b.cageB := by
  have link := congrArg Rt.link h
  have net := congrArg Rt.net h
  have cageA := congrArg Rt.cageA h
  have cageB := congrArg Rt.cageB h
  exact ⟨link, net, cageA, cageB⟩

@[simp] theorem raise_link (e : FaultEvent) (rt : Rt) : (raise e rt).link = rt.link := by
  obtain ⟨h, _, _, _⟩ := board_of_sansFault (sansFault_raise e rt)
  exact h

@[simp] theorem raise_net (e : FaultEvent) (rt : Rt) : (raise e rt).net = rt.net := by
  obtain ⟨_, h, _, _⟩ := board_of_sansFault (sansFault_raise e rt)
  exact h

@[simp] theorem raise_cageA (e : FaultEvent) (rt : Rt) : (raise e rt).cageA = rt.cageA := by
  obtain ⟨_, _, h, _⟩ := board_of_sansFault (sansFault_raise e rt)
  exact h

@[simp] theorem raise_cageB (e : FaultEvent) (rt : Rt) : (raise e rt).cageB = rt.cageB := by
  obtain ⟨_, _, _, h⟩ := board_of_sansFault (sansFault_raise e rt)
  exact h

/-- An event that is only reported is written to the ring, quiet, and nothing else happens (R431). -/
theorem report_of_classifOf_report {e : FaultEvent} {rt : Rt} (hbooth : boothAttr e = false) (hclass : classifOf rt e = .report) :
    report e rt = { rt with fault := writeRecord (mkRecord rt e .corrected false false true) rt.fault } := by
  simp only [report, classify, hbooth, hclass, Bool.false_eq_true, if_false, if_true]

/-- Outside a fatal fault a reported event does not touch the pairing. -/
theorem raise_of_classifOf_report {e : FaultEvent} {rt : Rt} (hbooth : boothAttr e = false) (hclass : classifOf rt e = .report)
    (hfatal : inFatal rt = false) :
    raise e rt = { rt with fault := writeRecord (mkRecord rt e .corrected false false true) rt.fault } := by
  have hstill : inFatal { rt with fault := writeRecord (mkRecord rt e .corrected false false true) rt.fault } = false := hfatal
  unfold raise
  simp only [report_of_classifOf_report hbooth hclass, hstill, Bool.false_eq_true, if_false]

/-! ## Level conditions (R430) -/

/-- A level condition that does not hold is no longer entered. -/
theorem raiseLevel_false (src : FaultSource) (k : Nat) (rt : Rt) :
    raiseLevel src k false rt = { rt with fault := { rt.fault with entered := rt.fault.entered.filter (· ≠ (src, k)) } } := by
  by_cases h : (src, k) ∈ rt.fault.entered
  · simp [raiseLevel, h]
  · have hall : rt.fault.entered.filter (· ≠ (src, k)) = rt.fault.entered :=
      List.filter_eq_self.mpr fun x hx => decide_eq_true fun he => h (he ▸ hx)
    rw [hall]
    simp [raiseLevel, h]

theorem raiseLevel_false_of_notMem {src : FaultSource} {k : Nat} {rt : Rt} (h : (src, k) ∉ rt.fault.entered) :
    raiseLevel src k false rt = rt := by
  simp [raiseLevel, h]

/-- A level condition that begins to hold is entered and raised. -/
theorem raiseLevel_true_of_notMem {src : FaultSource} {k : Nat} {rt : Rt} (h : (src, k) ∉ rt.fault.entered) :
    raiseLevel src k true rt = raise (plainEvent src [BitVec.ofNat 8 k])
      { rt with fault := { rt.fault with entered := rt.fault.entered ++ [(src, k)] } } := by
  simp [raiseLevel, h]

/-! ## Connections that close -/

theorem kdel_of_kget_none {α : Type} {m : KMap α} {k : Nat} (h : kget m k = none) : kdel m k = m := by
  induction m with
  | nil => rfl
  | cons x m ih =>
    obtain ⟨i, v⟩ := x
    simp only [kget] at h
    split at h
    · cases h
    · next hne => simp only [kdel, hne, if_false, ih h]

theorem kget_foldl_kdel {α : Type} (l : List Nat) (m : KMap α) (j : Nat) :
    kget (l.foldl kdel m) j = if j ∈ l then none else kget m j := by
  induction l generalizing m with
  | nil => rfl
  | cons k l ih =>
    rw [List.foldl_cons, ih, kget_kdel]
    by_cases hl : j ∈ l
    · simp [hl]
    · simp [hl, eq_comm]

theorem mem_of_kget {α : Type} {m : KMap α} {k : Nat} {v : α} (h : kget m k = some v) : (k, v) ∈ m := by
  induction m with
  | nil => cases h
  | cons x m ih =>
    obtain ⟨i, w⟩ := x
    simp only [kget] at h
    split at h
    · next he => cases h; subst he; exact List.mem_cons_self
    · exact List.mem_cons_of_mem _ (ih h)

/-- The state without the connections of a list. -/
def dropConns (l : List Nat) (rt : Rt) : Rt := { rt with net := { rt.net with conns := l.foldl kdel rt.net.conns } }

/-- A session that closes without an alert leaves the table of connections; its commands end or go, and nothing else changes (08 R163). -/
theorem sansWork_closeConn (k : Nat) (rt : Rt) : sansWork (closeConn k none rt) = sansWork (dropConns [k] rt) := by
  unfold closeConn
  split
  · next h =>
    have hsame : dropConns [k] rt = rt := by simp only [dropConns, List.foldl_cons, List.foldl_nil, kdel_of_kget_none h]
    rw [hsame]
  · next c _ =>
    extract_lets _ drop rt'
    have hdrop : ∀ r id, sansWork (drop r id) = sansWork r := fun r id => by
      unfold drop
      split
      · rfl
      · split
        · rfl
        · exact sansWork_dropCmd id r
    have hdropped : sansWork rt' = sansWork rt := foldl_keeps sansWork hdrop
    exact congrArg (dropConns [k]) hdropped

/-- Closing every session that satisfies a test without an alert takes them from the table of connections. -/
theorem sansWork_closeConns (p : Conn → Bool) (rt : Rt) :
    sansWork (closeConns p none rt) = sansWork (dropConns (connsWhere rt p) rt) := by
  unfold closeConns
  generalize connsWhere rt p = l
  induction l generalizing rt with
  | nil => rfl
  | cons k l ih =>
    calc sansWork ((k :: l).foldl (fun r k => closeConn k none r) rt)
      _ = sansWork (dropConns l (closeConn k none rt)) := ih (closeConn k none rt)
      _ = dropConns l (sansWork (closeConn k none rt)) := rfl
      _ = dropConns l (sansWork (dropConns [k] rt)) := congrArg (dropConns l) (sansWork_closeConn k rt)

/-- The network and the cages are outside what the end of commands writes. -/
theorem board_of_sansWork {a b : Rt} (h : sansWork a = sansWork b) : a.net = b.net ∧ a.cageA = b.cageA ∧ a.cageB = b.cageB := by
  have net := congrArg Rt.net h
  have cageA := congrArg Rt.cageA h
  have cageB := congrArg Rt.cageB h
  exact ⟨net, cageA, cageB⟩

theorem closeConns_net (p : Conn → Bool) (rt : Rt) :
    (closeConns p none rt).net = { rt.net with conns := (connsWhere rt p).foldl kdel rt.net.conns } := by
  obtain ⟨h, _, _⟩ := board_of_sansWork (sansWork_closeConns p rt)
  exact h

theorem closeConns_cages (p : Conn → Bool) (rt : Rt) :
    (closeConns p none rt).cageA = rt.cageA ∧ (closeConns p none rt).cageB = rt.cageB := by
  obtain ⟨_, hA, hB⟩ := board_of_sansWork (sansWork_closeConns p rt)
  exact ⟨hA, hB⟩

/-- No session that satisfies the test is left. -/
theorem not_of_kget_closeConns {p : Conn → Bool} {rt : Rt} {k : Nat} {c : Conn}
    (h : kget (closeConns p none rt).net.conns k = some c) : p c = false := by
  rw [closeConns_net, kget_foldl_kdel] at h
  split at h
  · cases h
  · next hk =>
    exact eq_false_of_ne_true fun hp => hk (List.mem_map.mpr ⟨(k, c), List.mem_filter.mpr ⟨mem_of_kget h, hp⟩, rfl⟩)

end Sys2Proof.Machine
end

section
/-! The SMBus target, the cages and the officer card slots. -/

namespace Sys2Proof.Machine

/-! ## The cages and their ports -/

/-- There are two ports, and two officer slots. -/
theorem zero_or_one (p : Fin 2) : p = 0 ∨ p = 1 := by revert p; decide

/-- The two ports differ. -/
theorem one_sub_ne (p : Port) : 1 - p ≠ p := by revert p; decide

theorem cageOf_setCage (p q : Port) (c : Cage) (rt : Rt) : cageOf (setCage p c rt) q = if q = p then c else cageOf rt q := by
  unfold cageOf setCage
  obtain rfl | rfl := zero_or_one p <;> obtain rfl | rfl := zero_or_one q <;> rfl

theorem portOfNet_setPort (p q : Port) (x : NetPort) (rt : Rt) :
    portOfNet (setPort p x rt) q = if q = p then x else portOfNet rt q := by
  unfold portOfNet setPort
  obtain rfl | rfl := zero_or_one p <;> obtain rfl | rfl := zero_or_one q <;> rfl

@[simp] theorem setCage_fault (p : Port) (c : Cage) (rt : Rt) : (setCage p c rt).fault = rt.fault := by
  unfold setCage; split <;> rfl
@[simp] theorem setCage_net (p : Port) (c : Cage) (rt : Rt) : (setCage p c rt).net = rt.net := by
  unfold setCage; split <;> rfl
@[simp] theorem setCage_alert (p : Port) (c : Cage) (rt : Rt) : (setCage p c rt).alert = rt.alert := by
  unfold setCage; split <;> rfl
@[simp] theorem powered_setCage (p : Port) (c : Cage) (rt : Rt) : powered (setCage p c rt) = powered rt := by
  unfold setCage; split <;> rfl
@[simp] theorem inFatal_setCage (p : Port) (c : Cage) (rt : Rt) : inFatal (setCage p c rt) = inFatal rt := by
  unfold setCage; split <;> rfl
@[simp] theorem portOfNet_setCage (p q : Port) (c : Cage) (rt : Rt) : portOfNet (setCage p c rt) q = portOfNet rt q := by
  unfold setCage; split <;> rfl

/-- The cage condition of a port that is not entered stays so, whatever is in the cage. -/
theorem raiseLevel_false_setCage {p : Port} {rt : Rt} (h : (.cagePower, p.val) ∉ rt.fault.entered) (c : Cage) :
    raiseLevel .cagePower p.val false (setCage p c rt) = setCage p c rt :=
  raiseLevel_false_of_notMem (by rwa [setCage_fault])

/-! ## CAGE_INSERT -/

/-- A module of at most 12 W is in its cage, and nothing else happens. -/
theorem doCageInsert_cool {p : Port} {w : Nat} {rt : Rt} (hempty : (cageOf rt p).present = false) (hw : w ≤ 12)
    (hlevel : (.cagePower, p.val) ∉ rt.fault.entered) :
    doCageInsert p w rt = setCage p { present := true, watts := w, lowPower := false } rt := by
  have hcool : decide (12 < w) = false := decide_eq_false (Nat.not_lt.mpr hw)
  simp [doCageInsert, hempty, hcool, raiseLevel_false_setCage hlevel]

/-- CAGE_POWER is only reported, whatever classifications are in force (R433). -/
theorem classifOf_cagePower (d : Bytes) (rt : Rt) : classifOf rt (plainEvent .cagePower d) = .report := rfl

/-- The record of a port's cage condition. -/
def cageRecord (p : Port) (rt : Rt) : FaultRec :=
  mkRecord rt (plainEvent .cagePower [BitVec.ofNat 8 p.val]) .corrected false false true

/-- The cage condition of a port entered and recorded. -/
def enterCagePower (p : Port) (rt : Rt) : Rt :=
  { rt with fault := writeRecord (cageRecord p rt) { rt.fault with entered := rt.fault.entered ++ [(.cagePower, p.val)] } }

theorem enterCagePower_record (p : Port) (rt : Rt) :
    kget (enterCagePower p rt).fault.ring (rt.fault.nextSeq % 40) = some (cageRecord p rt) :=
  kget_kset_self _ _ _

theorem raiseLevel_cagePower {p : Port} {rt : Rt} (hlevel : (.cagePower, p.val) ∉ rt.fault.entered) (hfatal : inFatal rt = false) :
    raiseLevel .cagePower p.val true rt = enterCagePower p rt :=
  (raiseLevel_true_of_notMem hlevel).trans (raise_of_classifOf_report rfl (classifOf_cagePower _ _) hfatal)

/-- A module above 12 W is in its cage in low-power mode, and CAGE_POWER stands in the ring. -/
theorem doCageInsert_hot {p : Port} {w : Nat} {rt : Rt} (hempty : (cageOf rt p).present = false) (hw : 12 < w)
    (hpower : powered rt = true) (hlevel : (.cagePower, p.val) ∉ rt.fault.entered) (hfatal : inFatal rt = false) :
    doCageInsert p w rt = enterCagePower p (setCage p { present := true, watts := w, lowPower := true } rt) := by
  have hraise (c : Cage) : raiseLevel .cagePower p.val true (setCage p c rt) = enterCagePower p (setCage p c rt) :=
    raiseLevel_cagePower (by rwa [setCage_fault]) (by rwa [inFatal_setCage])
  simp [doCageInsert, hempty, hw, hpower, hraise]

/-! ## CAGE_REMOVE -/

/-- Beside the loss of the port's link, taking a module out empties the cage and clears its level condition. -/
theorem doCageRemove_eq {p : Port} {rt : Rt} (hfull : (cageOf rt p).present = true) :
    ∃ f, doCageRemove p rt =
      { portLost p (setCage p { present := false, watts := 0, lowPower := false } rt) with fault := f } := by
  simp only [doCageRemove, hfull, if_true]
  split
  · exact ⟨_, raiseLevel_false _ _ _⟩
  · exact ⟨_, rfl⟩

/-- A port without a link stays as it is. -/
theorem portLost_of_down {p : Port} {rt : Rt} (h : (portOfNet rt p).link = false) : portLost p rt = rt := by
  simp [portLost, h]

/-- Without a link, taking a module out empties the cage and changes nothing else. -/
theorem doCageRemove_down {p : Port} {rt : Rt} (hfull : (cageOf rt p).present = true) (hdown : (portOfNet rt p).link = false)
    (hlevel : (.cagePower, p.val) ∉ rt.fault.entered) :
    doCageRemove p rt = setCage p { present := false, watts := 0, lowPower := false } rt := by
  have hlost (c : Cage) : portLost p (setCage p c rt) = setCage p c rt := portLost_of_down (by rwa [portOfNet_setCage])
  simp [doCageRemove, hfull, hlost, raiseLevel_false_setCage hlevel]

/-- The state in which the sessions of a port with a link have closed. -/
def portClosed (p : Port) (rt : Rt) : Rt :=
  closeConns (fun c => c.port == p.val) none (setPort p { portOfNet rt p with link := false } rt)

theorem portLost_of_up {p : Port} {rt : Rt} (h : (portOfNet rt p).link = true) :
    portLost p rt = raise (plainEvent .portDown [BitVec.ofNat 8 p.val]) (portClosed p rt) := by
  simp [portLost, portClosed, h]

theorem cageOf_portLost (p q : Port) (rt : Rt) : cageOf (portLost p rt) q = cageOf rt q := by
  cases h : (portOfNet rt p).link
  case false => rw [portLost_of_down h]
  case true =>
    obtain ⟨hA, hB⟩ : (portClosed p rt).cageA = rt.cageA ∧ (portClosed p rt).cageB = rt.cageB := closeConns_cages _ _
    simp only [portLost_of_up h, cageOf, raise_cageA, raise_cageB, hA, hB]

/-- The port has lost its link, the other keeps its own. -/
theorem portOfNet_portLost {p : Port} {rt : Rt} (h : (portOfNet rt p).link = true) (q : Port) :
    portOfNet (portLost p rt) q = if q = p then { portOfNet rt p with link := false } else portOfNet rt q := by
  rw [← portOfNet_setPort]
  simp only [portLost_of_up h, portOfNet, raise_net, portClosed, closeConns_net]

/-- No session of the port is left. -/
theorem port_ne_of_kget_portLost {p : Port} {rt : Rt} (h : (portOfNet rt p).link = true) {k : Nat} {c : Conn}
    (hk : kget (portLost p rt).net.conns k = some c) : c.port ≠ p.val := by
  rw [portLost_of_up h, raise_net] at hk
  exact beq_eq_false_iff_ne.mp (not_of_kget_closeConns hk)

/-! ## The officer card slots -/

theorem rawCard_setCard (k : CardSlot) (x : Option CardState) (rt : Rt) : rawCard (setCard k x rt) k.val = x := by
  unfold rawCard setCard
  obtain rfl | rfl := zero_or_one k <;> rfl

@[simp] theorem setCard_ceremony (k : CardSlot) (x : Option CardState) (rt : Rt) : (setCard k x rt).ceremony = rt.ceremony := by
  unfold setCard; split <;> rfl

/-- A ceremony that fails is over; its answer and the random bytes kept for it are all that changes beside. -/
theorem failCeremony_eq (why : Nat) {c : Ceremony} {s : State} (h : s.rt.ceremony = some c) :
    ∃ d m x o, failCeremony why s =
      { s with rt := { s.rt with ceremony := none, mint0 := d, mbx := m, msix := x, out := o } } := by
  simp only [failCeremony, h, onRt, refuseReason, answer]
  obtain ⟨m, x, o, hresp⟩ := respond_eq (fromConsole (ceremonySrc c)) (ceremonyReq c).seq stInputRefused [BitVec.ofNat 8 why]
    { s.rt with
      ceremony := none
      mint0 := { s.rt.mint0 with delivered := kdel (kdel s.rt.mint0.delivered userRoot) userMasterKey } }
  exact ⟨_, m, x, o, congrArg (fun rt => { s with rt := rt }) hresp⟩

/-- A card that no ceremony in progress uses is just gone. -/
theorem cardGone_of_unused {k : CardSlot} {s : State} (h : ∀ c, s.rt.ceremony = some c → usesSlot c k = false) :
    cardGone k s = onRt (setCard k none) s := by
  unfold cardGone
  extract_lets t
  cases hc : t.rt.ceremony
  case none => rfl
  case some c =>
    have hunused : usesSlot c k = false := h c ((setCard_ceremony k none s.rt).symm.trans hc)
    simp only [hunused, Bool.false_eq_true, if_false]
    rfl

/-- A card that a ceremony in progress uses takes the ceremony with it (R40). -/
theorem cardGone_of_used {k : CardSlot} {c : Ceremony} {s : State} (hc : s.rt.ceremony = some c) (hk : usesSlot c k = true) :
    cardOf (cardGone k s).rt k.val = none ∧ (cardGone k s).rt.ceremony = none ∧ (cardGone k s).nv = s.nv := by
  have hc' : (onRt (setCard k none) s).rt.ceremony = some c := (setCard_ceremony k none s.rt).trans hc
  obtain ⟨d, m, x, o, hfail⟩ := failCeremony_eq 0x4A hc'
  have hgone : cardGone k s = failCeremony 0x4A (onRt (setCard k none) s) := by
    simp only [cardGone, hc', hk, if_true]
  rw [hgone, hfail]
  refine ⟨?_, rfl, rfl⟩
  have hempty : rawCard (setCard k none s.rt) k.val = none := rawCard_setCard k none s.rt
  exact congrArg (Option.filter CardState.active) hempty

/-! ## The statement -/

theorem exec_smbusRead (x : SmbusRead) (s : State) :
    exec (.smbusRead x) s = .next (onRt (doSmbusRead x.item x.inlet x.tenths) s) := rfl
theorem exec_cageInsert (p : Port) (w : Nat) (s : State) : exec (.cageInsert p w) s = .next (onRt (doCageInsert p w) s) := rfl
theorem exec_cageRemove (p : Port) (s : State) : exec (.cageRemove p) s = .next (onRt (doCageRemove p) s) := rfl
theorem exec_officerCardInsert (k : CardSlot) (card : Card) (s : State) :
    exec (.officerCardInsert k card) s = .next (onRt (doCardInsert k card) s) := rfl
theorem exec_officerCardWithdraw (k : CardSlot) (s : State) : exec (.officerCardWithdraw k) s = .next (cardGone k s) := rfl
theorem exec_officerCardOvercurrent (k : CardSlot) (s : State) : exec (.officerCardOvercurrent k) s = .next (cardGone k s) := rfl

/-- Settles O30, row by row: each by its equation, a module taken from a live port by what closing its sessions and the event PORT_DOWN
leave alone. -/
theorem boardCommands : Obligations.BoardCommands := by
  refine ⟨?smbus, ?smbusOff, ?cool, ?hot, ?removeUp, ?removeDown, ?insert, ?noAnswer, ?gone, ?used, ?unused⟩
  case smbus =>
    intro x inlet tenths s hmain hfail
    refine ⟨_, exec_smbusRead _ s, ?_⟩
    simp only [onRt_rt, doSmbusRead, powered, hmain, hfail]
    exact ⟨rfl, rfl, rfl, rfl, rfl, fun hx => hx ▸ rfl, fun hx => hx ▸ rfl⟩
  case smbusOff =>
    intro x inlet tenths s hmain
    simp [exec_smbusRead, onRt, doSmbusRead, powered, hmain]
  case cool =>
    intro p w s hempty hw hlevel
    refine ⟨_, exec_cageInsert p w s, ?_⟩
    simp [doCageInsert_cool hempty hw hlevel, cageOf_setCage, one_sub_ne]
  case hot =>
    intro p w s hempty hw hpower hlevel hfatal
    let inCage := setCage p { present := true, watts := w, lowPower := true } s.rt
    have hfault : inCage.fault = s.rt.fault := setCage_fault p _ s.rt
    have hcage : cageOf inCage p = { present := true, watts := w, lowPower := true } := by simp [inCage, cageOf_setCage]
    have hrecord := enterCagePower_record p inCage
    rw [hfault] at hrecord
    have hpend := congrArg Collector.pendCorr hfault
    refine ⟨_, cageRecord p inCage, exec_cageInsert p w s, ?_⟩
    rw [onRt_rt, doCageInsert_hot hempty hw hpower hlevel hfatal]
    exact ⟨hcage, hrecord, rfl, rfl, rfl, hpend, setCage_alert p _ s.rt, setCage_net p _ s.rt⟩
  case removeUp =>
    intro p s hfull hup
    let taken := setCage p { present := false, watts := 0, lowPower := false } s.rt
    have hlink : (portOfNet taken p).link = true := by rwa [portOfNet_setCage]
    obtain ⟨f, hrow⟩ := doCageRemove_eq hfull
    refine ⟨_, exec_cageRemove p s, ?_⟩
    rw [onRt_rt, hrow]
    refine ⟨?_, ?_, ?_, fun k c hc => port_ne_of_kget_portLost hlink hc, rfl⟩
    · show (cageOf (portLost p taken) p).present = false
      simp [cageOf_portLost, taken, cageOf_setCage]
    · show (portOfNet (portLost p taken) p).link = false
      simp [portOfNet_portLost hlink]
    · show (portOfNet (portLost p taken) (1 - p)).link = (portOfNet s.rt (1 - p)).link
      simp [portOfNet_portLost hlink, one_sub_ne, taken]
  case removeDown =>
    intro p s hfull hdown hlevel
    refine ⟨_, exec_cageRemove p s, ?_⟩
    rw [onRt_rt, doCageRemove_down hfull hdown hlevel]
    simp [cageOf_setCage]
  case insert =>
    intro k card s hempty hanswers
    rw [Bool.or_comm] at hanswers
    simp [exec_officerCardInsert, onRt, doCardInsert, hempty, hanswers]
  case noAnswer =>
    intro k card s hA hB
    simp [exec_officerCardInsert, onRt, doCardInsert, hA, hB]
  case gone =>
    intro k s hc
    have hrow := cardGone_of_unused (k := k) (s := s) fun c h => absurd (hc.symm.trans h) nofun
    rw [exec_officerCardWithdraw, exec_officerCardOvercurrent, hrow]
    exact ⟨rfl, rfl⟩
  case used =>
    intro k c s hc hk
    have hrow := cardGone_of_used hc hk
    exact ⟨⟨_, exec_officerCardWithdraw k s, hrow⟩, ⟨_, exec_officerCardOvercurrent k s, hrow⟩⟩
  case unused =>
    intro k c s hc hk
    have hrow := cardGone_of_unused (k := k) (s := s) fun c' h => by rw [← Option.some.inj (hc.symm.trans h), hk]
    rw [exec_officerCardWithdraw, exec_officerCardOvercurrent, hrow]
    exact ⟨rfl, rfl⟩

end Sys2Proof.Machine
end

section
/-! Power, PERST#, the host link and the management link. -/

namespace Sys2Proof.Machine

/-! ## What a start finds in the slots -/

/-- A start begins: SENSE0 and SENSE1 are sampled and the officers' cards are activated; the level conditions entered are those of a list. -/
def beginStart (sense : Cable) (entered : List (FaultSource × Nat)) (rt : Rt) : Rt :=
  { rt with
    power := { rt.power with sensePins := sense, cable := sense }
    boot := { rt.boot with startAt := rt.now }
    cardA := rt.cardA.map activateCard
    cardB := rt.cardB.map activateCard
    fault := { rt.fault with entered := entered } }

/-- The auxiliary-power hold (R30). -/
def auxHold (rt : Rt) : Rt := stopAt 0x80 { rt with boot := { rt.boot with auxLow := true } }

/-- With no module in low-power mode a start reports none; 150 W enters the hold. -/
theorem sampleSense_eq (sense : Cable) {s : State} (hA : (s.rt.cageA.present && s.rt.cageA.lowPower) = false)
    (hB : (s.rt.cageB.present && s.rt.cageB.lowPower) = false) :
    ∃ l, sampleSense sense s =
      onRt (fun rt => if sense = .w150 then auxHold (beginStart sense l rt) else beginStart sense l rt) s := by
  simp only [sampleSense, startSlots, hA, hB, raiseLevel_false]
  exact ⟨_, rfl⟩

/-! ## Main power -/

/-- Main power with the last input: a cold reset, and the start samples the cable (R32, R66). -/
theorem doMainPowerApplied_last {a b c : Bool} {s : State} (sense : Cable) (hoff : mainPower s.rt = false)
    (h12 : (s.rt.power.slot12 || a) = true) (h33 : (s.rt.power.slot33 || b) = true) (haux : (s.rt.power.aux12 || c) = true)
    (hperst : s.rt.power.perst = false) :
    doMainPowerApplied a b c sense s = sampleSense sense (coldReset
      { s.rt.power with
        slot12 := true, slot33 := true, aux12 := true, sensePins := sense, waitExpired := false, powerFail := false } s) := by
  simp [doMainPowerApplied, hoff, h12, h33, haux, hperst]

/-- An input short of the last: the module notes what has come, and waits (R32). -/
theorem doMainPowerApplied_waits {a b c : Bool} {s : State} (sense : Cable) (hoff : mainPower s.rt = false)
    (hshort : ((s.rt.power.slot12 || a) && (s.rt.power.slot33 || b) && (s.rt.power.aux12 || c)) = false) :
    doMainPowerApplied a b c sense s = { s with rt := { s.rt with power := { s.rt.power with
      slot12 := s.rt.power.slot12 || a, slot33 := s.rt.power.slot33 || b, aux12 := s.rt.power.aux12 || c, sensePins := sense } } } := by
  simp only [doMainPowerApplied, hoff, hshort, Bool.false_and, Bool.false_eq_true, if_false]

/-! ## PERST# -/

theorem doPerstAssert_eq {s : State} (hmain : mainPower s.rt = true) (hfail : s.rt.power.powerFail = false) :
    doPerstAssert s = onRt (fun rt => { rt with power := { rt.power with perst := true } }) (warmReset s) := by
  simp only [doPerstAssert, hmain, hfail]
  rfl

/-- PERST# released, before the start begins. -/
def perstReleased (sense : Cable) (rt : Rt) : Rt := { rt with power := { rt.power with perst := false, sensePins := sense } }

/-- With main power the release begins the start (R66). -/
theorem doPerstRelease_eq (sense : Cable) {s : State} (hperst : s.rt.power.perst = true) (hmain : mainPower s.rt = true)
    (hfail : s.rt.power.powerFail = false) : doPerstRelease sense s = sampleSense sense (onRt (perstReleased sense) s) := by
  have hgo : (mainPower s.rt && !s.rt.power.powerFail) = true := by rw [hmain, hfail]; rfl
  unfold doPerstRelease
  rw [hperst]
  exact if_pos hgo

/-! ## POWER_FAIL -/

/-- With the cell window closed no door trips as main power goes. -/
theorem powerLost_of_closed {s : State} (h : s.rt.window.isOpen = false) : powerLost s = doPowerFail s := by
  simp only [powerLost, h]
  rfl

/-! ## The host link -/

/-- The event of a loss of the host link. -/
def hostLinkEvent (d : Bytes) : FaultEvent :=
  { source := .hostLink, scope := 0, island := some 36, booth := none, detail := d, houseProg := false }

/-- The link after DL_Down. -/
def linkDown (l : Link) : Link := { l with up := false, lost := true, linkIde := false, selIde := 0, ideKeys := [], ideGo := [] }

/-- The link after the loss of a Secure stream. -/
def streamLost (k : Nat) (l : Link) : Link := { countIde { l with ideGo := l.ideGo.filter fun x => x.1 != k } with lost := true }

theorem doHostLinkLoss_down {rt : Rt} (h : hostReaches rt = true) :
    doHostLinkLoss none rt = raise (hostLinkEvent [0, 0]) { rt with link := linkDown rt.link } := by
  simp only [doHostLinkLoss, h]
  rfl

theorem doHostLinkLoss_stream {k : Nat} {rt : Rt} (h : hostReaches rt = true) (hk : ideSecure rt.link.ideGo k = true) :
    doHostLinkLoss (some k) rt = raise (hostLinkEvent [1, BitVec.ofNat 8 k]) { rt with link := streamLost k rt.link } := by
  simp only [doHostLinkLoss, h, hk]
  rfl

/-- PT fetches for no booth while the link is lost (R125). -/
theorem ptFetches_of_lost {rt : Rt} (h : rt.link.lost = true) (x : Booth) : ptFetches rt x = false := by
  simp [ptFetches, h]

theorem notMem_streamLost (k x : Nat) (l : Link) : (k, x) ∉ (streamLost k l).ideGo := by
  simp [streamLost, countIde]

theorem hostReaches_up {rt : Rt} (h : hostReaches rt = true) : rt.link.up = true := by
  simp only [hostReaches, Bool.and_eq_true] at h
  exact h.2

/-! ## HOST_LINK_RETURN -/

theorem kget_kmod_self {α : Type} {m : KMap α} {k : Nat} {v : α} (f : α → α) (h : kget m k = some v) :
    kget (kmod m k f) k = some (f v) := by
  simp only [kmod, h, kget_kset_self]

theorem boothOf_modBooth_self {b : Nat} {x : Booth} {rt : Rt} (f : Booth → Booth) (h : boothOf rt b = some x) :
    boothOf (modBooth b f rt) b = some (f x) :=
  kget_kmod_self f h

/-- The ring of a booth as new: indices zero, nothing held, the phase of a new booth (R124). -/
def freshRing (x : Booth) : Booth :=
  { x with sqTail := 0, cqHead := 0, fetchHead := 0, cqTail := 0, cqUnread := 0, phase := true, fetchStopped := false, heldOpen := none,
           openBundle := none, unsignalled := 0, coalRunning := false }

/-- Counting a booth's occupancy anew changes nothing but the limit that counts for it. -/
theorem boothOf_recount {b : Nat} {y : Booth} {rt : Rt} (h : boothOf rt b = some y) :
    ∃ n, boothOf (recount b rt) b = some { y with counted := n } := by
  unfold boothOf recount modBooth
  rw [kget_kmod_self _ h]
  split
  · exact ⟨_, rfl⟩
  · exact ⟨y.counted, rfl⟩

/-- Without commands, resetting a booth makes its ring new and counts its occupancy anew. -/
theorem resetBoothState_of_idle (b : Nat) (ringOnly : Bool) {rt : Rt} (h : rt.cmds = []) :
    resetBoothState b ringOnly rt = recount b (modBooth b freshRing rt) := by
  simp only [resetBoothState, h]
  rfl

/-- With no request waiting no booth is about to close. -/
theorem closeReady_of_idle {s : State} (h : s.rt.waiting = none) : closeReady s = s := by
  have hexpire : expireRequest s.rt = s.rt := by simp only [expireRequest, h]
  simp only [closeReady, onRt, hexpire, h]
  rfl

/-- The link is there again. -/
def linkBack (rt : Rt) : Rt := { rt with link := { rt.link with lost := false } }

/-- With one booth and no command in the module, the return of the link clears the loss and makes that booth's ring new (R125). -/
theorem doHostLinkReturn_one {b : Nat} {x : Booth} {rt : Rt} (hreturn : canReturn rt = true) (hbooths : rt.booths = [(b, x)])
    (hcmds : rt.cmds = []) : doHostLinkReturn rt = recount b (modBooth b freshRing (linkBack rt)) := by
  unfold doHostLinkReturn
  rw [if_pos hreturn]
  show (kkeys rt.booths).foldl (fun r b => resetBoothState b true r) (linkBack rt) = _
  rw [hbooths]
  exact resetBoothState_of_idle b true hcmds

/-- What the return of the link does to flash aside, it is the return of the rings. -/
theorem doLinkBack_rt {s : State} (h : (doHostLinkReturn s.rt).waiting = none) : (doLinkBack s).rt = doHostLinkReturn s.rt := by
  unfold doLinkBack
  rw [closeReady_of_idle h]
  rfl

/-! ## The statement -/

theorem exec_mainPowerApplied (a b c : Bool) (sense : Cable) (s : State) :
    exec (.mainPowerApplied a b c sense) s = .next (doMainPowerApplied a b c sense s) := rfl
theorem exec_auxInputMissing (s : State) : exec .auxInputMissing s = .next (onRt doAuxInputMissing s) := rfl
theorem exec_perstAssert (s : State) : exec .perstAssert s = .next (doPerstAssert s) := rfl
theorem exec_perstRelease (sense : Cable) (s : State) : exec (.perstRelease sense) s = .next (doPerstRelease sense s) := rfl
theorem exec_powerFail (s : State) : exec .powerFail s = .next (powerLost s) := rfl
theorem exec_linkTrainingComplete (w r : Nat) (f : Bool) (s : State) :
    exec (.linkTrainingComplete w r f) s = .next (onRt (doLinkTrainingComplete w r f) s) := rfl
theorem exec_hostLinkLoss (ide : Option Nat) (s : State) : exec (.hostLinkLoss ide) s = .next (onRt (doHostLinkLoss ide) s) := rfl
theorem exec_hostLinkReturn (s : State) : exec .hostLinkReturn s = .next (doLinkBack s) := rfl
theorem exec_mgmtLinkChange (x : MgmtLink) (s : State) :
    exec (.mgmtLinkChange x) s = .next (onRt (doMgmtLinkChange x.up x.gigabit) s) := rfl

/-- Settles O28, row by row: each by its equation, the loss of the host link by what its event leaves alone, its return by the ring that a
reset booth is left with. -/
theorem powerAndLink : Obligations.PowerAndLink := by
  refine ⟨?lastInput, ?waits, ?missing, ?perstAssert, ?perstRelease, ?powerFail, ?training, ?down, ?stream, ?back, ?mgmt⟩
  case lastInput =>
    intro a b c sense s hoff h12 h33 haux hperst hsense hA hB
    obtain ⟨l, hstart⟩ := sampleSense_eq sense (s := coldReset _ s) hA hB
    refine ⟨_, exec_mainPowerApplied a b c sense s, ?_⟩
    rw [doMainPowerApplied_last sense hoff h12 h33 haux hperst, hstart, onRt_rt, if_neg hsense]
    exact ⟨rfl, rfl, rfl, rfl, rfl, rfl, rfl, rfl, rfl, rfl, rfl⟩
  case waits =>
    intro a b c sense s hoff hshort
    refine ⟨_, exec_mainPowerApplied a b c sense s, ?_⟩
    rw [doMainPowerApplied_waits sense hoff hshort]
    exact ⟨hshort, rfl, rfl, rfl⟩
  case missing =>
    intro s hoff
    simp [exec_auxInputMissing, onRt, doAuxInputMissing, hoff]
  case perstAssert =>
    intro s hmain hfail
    refine ⟨_, exec_perstAssert s, ?_⟩
    rw [doPerstAssert_eq hmain hfail]
    exact ⟨rfl, rfl, rfl, rfl, rfl, rfl, rfl, rfl, rfl, rfl, rfl, rfl⟩
  case perstRelease =>
    intro sense s hperst hmain hfail hA hB
    obtain ⟨l, hstart⟩ := sampleSense_eq sense (s := onRt (perstReleased sense) s) hA hB
    refine ⟨_, exec_perstRelease sense s, ?_⟩
    rw [doPerstRelease_eq sense hperst hmain hfail, hstart]
    by_cases hsense : sense = .w150
    · simp only [onRt_rt, if_pos hsense]
      exact ⟨rfl, rfl, fun _ => ⟨rfl, rfl⟩, fun h => absurd hsense h⟩
    · simp only [onRt_rt, if_neg hsense]
      exact ⟨rfl, rfl, fun h => absurd h hsense, fun _ => rfl⟩
  case powerFail =>
    intro s hmain hfail hclosed
    refine ⟨_, exec_powerFail s, ?_⟩
    rw [powerLost_of_closed hclosed]
    simp only [doPowerFail, hmain, hfail]
    exact ⟨rfl, rfl, rfl, rfl, rfl, rfl, rfl, rfl, rfl, rfl, rfl⟩
  case training =>
    intro w r f s hmain hfail hperst hdown hw hr
    simp only [exec_linkTrainingComplete, onRt, doLinkTrainingComplete, hmain, hfail, hperst, hdown, hw, hr]
    rfl
  case down =>
    intro s hreach
    obtain ⟨r, hring, hsource⟩ := raise_record (hostLinkEvent [0, 0]) { s.rt with link := linkDown s.rt.link }
    have hlink : (raise (hostLinkEvent [0, 0]) { s.rt with link := linkDown s.rt.link }).link = linkDown s.rt.link := raise_link _ _
    refine ⟨_, r, exec_hostLinkLoss none s, ?_⟩
    rw [onRt_rt, doHostLinkLoss_down hreach, hlink]
    exact ⟨rfl, rfl, hring, hsource, fun b x _ => ptFetches_of_lost (by rw [hlink]; rfl) x⟩
  case stream =>
    intro k s hreach hk
    obtain ⟨r, hring, hsource⟩ := raise_record (hostLinkEvent [1, BitVec.ofNat 8 k]) { s.rt with link := streamLost k s.rt.link }
    refine ⟨_, r, exec_hostLinkLoss (some k) s, ?_⟩
    rw [onRt_rt, doHostLinkLoss_stream hreach hk, raise_link]
    exact ⟨hostReaches_up hreach, rfl, fun x => notMem_streamLost k x s.rt.link, hring, hsource⟩
  case back =>
    intro b x s hlost hup hmain hfail hperst hbooths hcmds hwaiting
    have hreturn : canReturn s.rt = true := by simp [canReturn, hlost, hup, hmain, hfail, hperst]
    have hlisted : boothOf (linkBack s.rt) b = some x := by simp [boothOf, linkBack, hbooths, kget]
    have hrings := doHostLinkReturn_one hreturn hbooths hcmds
    obtain ⟨n, hbooth⟩ := boothOf_recount (boothOf_modBooth_self freshRing hlisted)
    refine ⟨_, { freshRing x with counted := n }, exec_hostLinkReturn s, ?_⟩
    rw [doLinkBack_rt (by rw [hrings]; exact hwaiting), hrings]
    exact ⟨rfl, hbooth, rfl, rfl, rfl, rfl, rfl, rfl, rfl, rfl, rfl⟩
  case mgmt =>
    intro up gigabit s hmain hfail
    simp [exec_mgmtLinkChange, onRt, doMgmtLinkChange, powered, hmain, hfail]

end Sys2Proof.Machine
end

section
/-! The ballast: islands and their FIFOs, grants, gating, and the thermal responses. -/

namespace Sys2Proof.Machine

/-- What can be read in the rest of a state is the same in two states with the same rest. -/
theorem read_of_rest {α : Type} (g : Rt → α) {rest : Rt → Rt} {a b : Rt} (h : rest a = rest b) (hg : ∀ r, g (rest r) = g r) :
    g a = g b :=
  (hg a).symm.trans ((congrArg g h).trans (hg b))

/-! ## Islands, FIFOs and buckets: what a write leaves to be read -/

theorem islandOf_setIsland (i j : Nat) (x : Island) (rt : Rt) :
    islandOf (setIsland i x rt) j = if i = j then x else islandOf rt j := kgetD_kput _ _ _ _ _

@[simp] theorem islandOf_setIsland_self (i : Nat) (x : Island) (rt : Rt) : islandOf (setIsland i x rt) i = x := by
  simp [islandOf_setIsland]

@[simp] theorem fifoOf_setIsland (i r : Nat) (x : Island) (rt : Rt) : fifoOf (setIsland i x rt) r = fifoOf rt r := rfl

@[simp] theorem fifoOf_setFifo_self (r : Nat) (f : List BallastEntry) (rt : Rt) : fifoOf (setFifo r f rt) r = f := by
  unfold fifoOf setFifo
  by_cases h0 : r = 0
  · simp [h0]
  · by_cases h1 : r = 1 <;> simp [h0, h1]

theorem fifoOf_setFifo_ne {r q : Nat} (f : List BallastEntry) (rt : Rt) (hr : r < 3) (hq : q < 3) (h : r ≠ q) :
    fifoOf (setFifo r f rt) q = fifoOf rt q := by
  unfold fifoOf setFifo
  obtain rfl | rfl | rfl : r = 0 ∨ r = 1 ∨ r = 2 := by omega
  · simp [h.symm]
  · simp [h.symm]
  · obtain rfl | rfl : q = 0 ∨ q = 1 := by omega
    · rfl
    · rfl

theorem tokensOf_setTokens_self (r n : Nat) (rt : Rt) : tokensOf (setTokens r n rt) r = n := by
  unfold tokensOf setTokens
  by_cases h0 : r = 0
  · simp [h0]
  · by_cases h1 : r = 1 <;> simp [h0, h1]

/-- A bucket refills up to its content when full (R56). -/
theorem tokensOf_advanceNs (dt r : Nat) (rt : Rt) : tokensOf (advanceNs dt rt) r = min 4000 (tokensOf rt r + dt) := by
  unfold tokensOf
  split
  · rfl
  · split <;> rfl

theorem islandRail_lt (i : Nat) : islandRail i < 3 := by
  unfold islandRail
  split
  · decide
  · split <;> decide

theorem islandsRun_iff (rt : Rt) :
    islandsRun rt = true ↔ mainPower rt = true ∧ rt.power.powerFail = false ∧ rt.power.perst = false := by
  simp [islandsRun, powered, and_assoc]

/-! ## Entries of a FIFO (R57) -/

/-- The run-time state without the waiting entries. -/
def sansFifos (rt : Rt) : Rt := { rt with ballast := { rt.ballast with fifoCd0 := [], fifoCd1 := [], fifoIod := [] } }

theorem sansFifos_setFifo (r : Nat) (f : List BallastEntry) (rt : Rt) : sansFifos (setFifo r f rt) = sansFifos rt := by
  unfold setFifo
  split
  · rfl
  · split <;> rfl

theorem sansFifos_enqueue (e : BallastEntry) (rt : Rt) : sansFifos (enqueue e rt) = sansFifos rt := by
  unfold enqueue
  dsimp only
  split <;> exact sansFifos_setFifo _ _ rt

/-- The islands and the collector are outside the FIFOs. -/
theorem islandOf_of_sansFifos {a b : Rt} (h : sansFifos a = sansFifos b) (i : Nat) : islandOf a i = islandOf b i :=
  read_of_rest (islandOf · i) h fun _ => rfl

theorem islandReady_of_sansFifos {a b : Rt} (h : sansFifos a = sansFifos b) (i : Nat) : islandReady a i = islandReady b i :=
  read_of_rest (islandReady · i) h fun _ => rfl

theorem fault_of_sansFifos {a b : Rt} (h : sansFifos a = sansFifos b) : a.fault = b.fault := read_of_rest Rt.fault h fun _ => rfl

theorem mem_insertEntry {x e : BallastEntry} {l : List BallastEntry} : x ∈ insertEntry e l ↔ x = e ∨ x ∈ l := by
  induction l with
  | nil => simp [insertEntry]
  | cons y l ih =>
    simp only [insertEntry]
    split
    · exact List.mem_cons
    · rw [List.mem_cons, ih, List.mem_cons]
      exact or_left_comm

theorem islandWaiting_iff (rt : Rt) (i : Nat) : islandWaiting rt i = true ↔ ∃ x ∈ fifoOf rt (islandRail i), x.island = i := by
  simp [islandWaiting]

/-- An entry of an island that does not wait is inserted by its class. -/
theorem fifoOf_enqueue_of_not_waiting {e : BallastEntry} {rt : Rt} (h : islandWaiting rt e.island = false) :
    fifoOf (enqueue e rt) (islandRail e.island) = insertEntry e (fifoOf rt (islandRail e.island)) := by
  have hnone : ((fifoOf rt (islandRail e.island)).any fun x => x.island = e.island) = false := h
  simp only [enqueue, hnone, Bool.false_eq_true, if_false, fifoOf_setFifo_self]

/-- An entry waits once it has entered its FIFO or replaced another. -/
theorem islandWaiting_enqueue_self (e : BallastEntry) (rt : Rt) : islandWaiting (enqueue e rt) e.island = true := by
  cases h : islandWaiting rt e.island
  case false =>
    rw [islandWaiting_iff, fifoOf_enqueue_of_not_waiting h]
    exact ⟨e, mem_insertEntry.mpr (.inl rfl), rfl⟩
  case true =>
    have hsome : ((fifoOf rt (islandRail e.island)).any fun x => x.island = e.island) = true := h
    obtain ⟨x, hx, hisland⟩ := (islandWaiting_iff rt e.island).mp h
    rw [islandWaiting_iff]
    simp only [enqueue, hsome, if_true, fifoOf_setFifo_self]
    exact ⟨e, List.mem_map.mpr ⟨x, hx, if_pos hisland⟩, rfl⟩

/-- An entry takes no other island's away. -/
theorem islandWaiting_enqueue {e : BallastEntry} {rt : Rt} {i : Nat} (h : islandWaiting rt i = true) :
    islandWaiting (enqueue e rt) i = true := by
  by_cases hself : e.island = i
  · exact hself ▸ islandWaiting_enqueue_self e rt
  obtain ⟨x, hx, hisland⟩ := (islandWaiting_iff rt i).mp h
  have hne : x.island ≠ e.island := fun he => hself (he.symm.trans hisland)
  rw [islandWaiting_iff]
  refine ⟨x, ?_, hisland⟩
  by_cases hrail : islandRail e.island = islandRail i
  · unfold enqueue
    dsimp only
    split
    · rw [hrail, fifoOf_setFifo_self]
      exact List.mem_map.mpr ⟨x, hx, if_neg hne⟩
    · rw [hrail, fifoOf_setFifo_self]
      exact mem_insertEntry.mpr (.inr hx)
  · have hother (f : List BallastEntry) : fifoOf (setFifo (islandRail e.island) f rt) (islandRail i) = fifoOf rt (islandRail i) :=
      fifoOf_setFifo_ne f rt (islandRail_lt _) (islandRail_lt _) hrail
    unfold enqueue
    dsimp only
    split <;> rwa [hother]

/-- What one step of a fold reaches under an invariant, and every step keeps, holds after the fold. -/
theorem foldl_reaches {α β : Type} {I P : β → Prop} {f : β → α → β} {a : α} (hI : ∀ r x, I r → I (f r x))
    (hP : ∀ r x, P r → P (f r x)) (hreach : ∀ r, I r → P (f r a)) {l : List α} {r : β} (ha : a ∈ l) (hr : I r) :
    P (l.foldl f r) := by
  induction l generalizing r with
  | nil => cases ha
  | cons x l ih =>
    rw [List.foldl_cons]
    obtain rfl | hl := List.mem_cons.mp ha
    · exact l.foldlRecOn f (hreach r hr) fun r h x _ => hP r x h
    · exact ih hl (hI r x hr)

/-! ## Starts and stops -/

theorem askStart_eq {i : Nat} {rt : Rt} (hfail : rt.power.powerFail = false) (hperst : rt.power.perst = false)
    (hcost : islandCost i ≠ 0) (hgated : (islandOf rt i).st = .gated) :
    askStart i rt =
      setIsland i { islandOf rt i with st := .starting } (enqueue (entryFor rt i .start (islandCost i) 0) rt) := by
  simp [askStart, islandReady, hfail, hperst, hcost, hgated]

/-- While the islands run, outside the auxiliary-power hold, a request for a start is asked for. -/
theorem doBallastRequest_start {i : Nat} {rt : Rt} (hi : i < 60) (hrun : islandsRun rt = true) (haux : rt.boot.auxLow = false) :
    doBallastRequest i .start rt = askStart i rt := by
  refine if_neg ?_
  rintro (h | h | ⟨h, _⟩)
  · exact Nat.not_le.mpr hi h
  · rw [hrun] at h; cases h
  · rw [haux] at h; cases h

/-- The island that stops, its entry in the FIFO. -/
def stopAsked (i : Nat) (rt : Rt) : Rt :=
  setIsland i { islandOf rt i with st := .stopping } (enqueue (entryFor rt i .stop (islandCost i) 0) rt)

/-- Asking for a stop does it or changes nothing. -/
theorem askStop_cases (i : Nat) (rt : Rt) : askStop i rt = rt ∨ askStop i rt = stopAsked i rt := by
  unfold askStop
  split
  · exact .inl rfl
  · exact .inr rfl

theorem askStop_eq {i : Nat} {rt : Rt} (hfail : rt.power.powerFail = false) (hcost : islandCost i ≠ 0)
    (hgated : (islandOf rt i).st ≠ .gated) (hstopping : (islandOf rt i).st ≠ .stopping) : askStop i rt = stopAsked i rt := by
  simp only [askStop, hfail, hcost, hgated, hstopping, Bool.false_eq_true, or_self, if_false]
  rfl

/-- The run-time state without the waiting entries and the states of the islands. -/
def sansIslands (rt : Rt) : Rt := { sansFifos rt with ballast := { (sansFifos rt).ballast with islands := [] } }

theorem sansIslands_of_sansFifos {a b : Rt} (h : sansFifos a = sansFifos b) : sansIslands a = sansIslands b :=
  congrArg (fun r => { r with ballast := { r.ballast with islands := [] } }) h

theorem sansIslands_askStop (i : Nat) (rt : Rt) : sansIslands (askStop i rt) = sansIslands rt := by
  obtain h | h := askStop_cases i rt
  · rw [h]
  · rw [h]
    let entry := entryFor rt i .stop (islandCost i) 0
    calc sansIslands (stopAsked i rt)
      _ = sansIslands (enqueue entry rt) := rfl
      _ = sansIslands rt := sansIslands_of_sansFifos (sansFifos_enqueue entry rt)

theorem sansIslands_sleepDie (d : Nat) (rt : Rt) : sansIslands (sleepDie d rt) = sansIslands rt :=
  foldl_keeps sansIslands fun r i => sansIslands_askStop i r

theorem islandOf_stopAsked (i j : Nat) (rt : Rt) :
    islandOf (stopAsked i rt) j = if i = j then { islandOf rt i with st := .stopping } else islandOf rt j := by
  unfold stopAsked
  rw [islandOf_setIsland, islandOf_of_sansFifos (sansFifos_enqueue _ rt)]

/-- A stop asked for leaves every island as it was, or stopping. -/
theorem askStop_st (i j : Nat) (rt : Rt) :
    (islandOf (askStop i rt) j).st = (islandOf rt j).st ∨ (islandOf (askStop i rt) j).st = .stopping := by
  obtain h | h := askStop_cases i rt
  · exact .inl (by rw [h])
  · rw [h, islandOf_stopAsked]
    split
    · exact .inr rfl
    · exact .inl rfl

theorem askStop_st_self {i : Nat} {rt : Rt} (hfail : rt.power.powerFail = false) (hcost : islandCost i ≠ 0)
    (hgated : (islandOf rt i).st ≠ .gated) : (islandOf (askStop i rt) i).st = .stopping := by
  by_cases hstopping : (islandOf rt i).st = .stopping
  · obtain h | h := askStop_st i i rt
    · exact h.trans hstopping
    · exact h
  · rw [askStop_eq hfail hcost hgated hstopping, islandOf_stopAsked, if_pos rfl]

/-- A die that powers down leaves every island as it was, or stopping. -/
theorem sleepDie_st (d j : Nat) (rt : Rt) :
    (islandOf (sleepDie d rt) j).st = (islandOf rt j).st ∨ (islandOf (sleepDie d rt) j).st = .stopping := by
  unfold sleepDie
  refine (dieIslands d).foldlRecOn (motive := fun r => (islandOf r j).st = (islandOf rt j).st ∨ (islandOf r j).st = .stopping)
    _ (.inl rfl) fun r h i _ => ?_
  obtain hi | hi := askStop_st i j r
  · exact h.imp hi.trans hi.trans
  · exact .inr hi

/-- A metered island that is not gated stops as its die powers down (R60). -/
theorem sleepDie_stops {d i : Nat} {rt : Rt} (hmem : i ∈ dieIslands d) (hfail : rt.power.powerFail = false)
    (hcost : islandCost i ≠ 0) (hgated : (islandOf rt i).st ≠ .gated) : (islandOf (sleepDie d rt) i).st = .stopping := by
  refine foldl_reaches (I := fun r => r.power.powerFail = false ∧ (islandOf r i).st ≠ .gated)
    (P := fun r => (islandOf r i).st = .stopping) ?_ ?_ ?_ hmem ⟨hfail, hgated⟩
  · rintro r j ⟨hfail, hgated⟩
    have hpower : (askStop j r).power = r.power := read_of_rest Rt.power (sansIslands_askStop j r) fun _ => rfl
    refine ⟨hpower ▸ hfail, fun h => ?_⟩
    obtain hj | hj := askStop_st j i r
    · exact hgated (hj.symm.trans h)
    · exact nomatch hj.symm.trans h
  · intro r j hstopping
    exact (askStop_st j i r).elim (·.trans hstopping) id
  · rintro r ⟨hfail, hgated⟩
    exact askStop_st_self hfail hcost hgated

/-- An island of the compute dies powers down with one of them (Table 3.1). -/
theorem mem_dieIslands {i : Nat} (h : i < 36) : i ∈ dieIslands 0 ∨ i ∈ dieIslands 1 := by
  simp only [dieIslands, List.mem_append, List.mem_map, List.mem_range]
  by_cases hi : i < 18
  · exact .inl (.inl ⟨i, hi, by omega⟩)
  · exact .inr (.inl ⟨i - 18, by omega, by omega⟩)

/-! ## BALLAST_GRANT -/

/-- The head entry of a rail paid for, once its bucket holds the cost. -/
def paid (rail : Nat) (e : BallastEntry) (f : List BallastEntry) (rt : Rt) : Rt :=
  let rt := advanceNs (unitsNs e.cost - tokensOf rt rail) rt
  let rt := setTokens rail (tokensOf rt rail - unitsNs e.cost) (setFifo rail f rt)
  { rt with ballast := { rt.ballast with waitMax := max rt.ballast.waitMax (min 0xFFFF (rt.now - e.since)) } }

/-- The head entry, paid for, proceeds. -/
theorem doBallastGrant_eq {rail : Nat} {e : BallastEntry} {f : List BallastEntry} {rt : Rt} (hhead : fifoOf rt rail = e :: f)
    (hrun : islandsRun rt = true) (hidle : e.kind = .stop → islandIdle rt e.island = true) :
    doBallastGrant rail rt = match e.kind with
      | .start => paid rail e f rt
      | .stop => gateIsland e.island (paid rail e f rt)
      | .freq => takeStep e.island e.throttle (paid rail e f rt) := by
  have hgo : ¬((!islandsRun rt) = true ∨ (e.kind = .stop ∧ (!islandIdle rt e.island) = true)) := by
    rintro (h | ⟨hstop, h⟩)
    · rw [hrun] at h; cases h
    · rw [hidle hstop] at h; cases h
  unfold doBallastGrant
  rw [hhead]
  exact if_neg hgo

theorem setTokens_islands (r n : Nat) (rt : Rt) : (setTokens r n rt).ballast.islands = rt.ballast.islands := by
  unfold setTokens
  dsimp only
  split
  · rfl
  · split <;> rfl

theorem fifoOf_setTokens (r q n : Nat) (rt : Rt) : fifoOf (setTokens r n rt) q = fifoOf rt q := by
  unfold fifoOf setTokens
  dsimp only
  by_cases h0 : r = 0
  · simp [h0]
  · by_cases h1 : r = 1 <;> simp [h0, h1]

theorem paid_now (rail : Nat) (e : BallastEntry) (f : List BallastEntry) (rt : Rt) :
    (paid rail e f rt).now = rt.now + (250 * e.cost - tokensOf rt rail) := rfl

theorem tokensOf_paid (rail : Nat) (e : BallastEntry) (f : List BallastEntry) (rt : Rt) :
    tokensOf (paid rail e f rt) rail = min 4000 (tokensOf rt rail + (250 * e.cost - tokensOf rt rail)) - 250 * e.cost := by
  rw [← tokensOf_advanceNs]
  exact tokensOf_setTokens_self rail _ _

theorem fifoOf_paid (rail : Nat) (e : BallastEntry) (f : List BallastEntry) (rt : Rt) : fifoOf (paid rail e f rt) rail = f :=
  (fifoOf_setTokens rail rail _ _).trans (fifoOf_setFifo_self rail f _)

theorem paid_islands (rail : Nat) (e : BallastEntry) (f : List BallastEntry) (rt : Rt) :
    (paid rail e f rt).ballast.islands = rt.ballast.islands :=
  (setTokens_islands rail _ _).trans (congrArg (fun r => r.ballast.islands) (sansFifos_setFifo rail f (advanceNs _ rt)))

theorem islandOf_paid (rail : Nat) (e : BallastEntry) (f : List BallastEntry) (rt : Rt) (i : Nat) :
    islandOf (paid rail e f rt) i = islandOf rt i :=
  congrArg (fun m => kgetD m i Island.gated) (paid_islands rail e f rt)

/-- Of the time and the ballast, gating an island writes the island alone. -/
theorem gateIsland_ballast (i : Nat) (rt : Rt) :
    (gateIsland i rt).now = rt.now ∧ (gateIsland i rt).ballast = (setIsland i Island.gated rt).ballast := by
  have hmint (d : Nat) (m : Mint) (r : Rt) : (setMint d m r).now = r.now ∧ (setMint d m r).ballast = r.ballast := by
    unfold setMint; split <;> exact ⟨rfl, rfl⟩
  unfold gateIsland
  dsimp only
  split
  · exact ⟨rfl, rfl⟩
  · split
    · exact hmint _ _ _
    · repeat' split
      all_goals exact ⟨rfl, rfl⟩

theorem tokensOf_gateIsland (i r : Nat) (rt : Rt) : tokensOf (gateIsland i rt) r = tokensOf rt r := by
  obtain ⟨_, hballast⟩ := gateIsland_ballast i rt
  unfold tokensOf
  rw [hballast]
  rfl

theorem fifoOf_gateIsland (i r : Nat) (rt : Rt) : fifoOf (gateIsland i rt) r = fifoOf rt r := by
  obtain ⟨_, hballast⟩ := gateIsland_ballast i rt
  unfold fifoOf
  rw [hballast]
  rfl

theorem islandOf_gateIsland_self (i : Nat) (rt : Rt) : islandOf (gateIsland i rt) i = Island.gated := by
  obtain ⟨_, hballast⟩ := gateIsland_ballast i rt
  unfold islandOf
  rw [hballast]
  exact islandOf_setIsland_self i Island.gated rt

/-- A step toward full speed enters a FIFO at most. -/
theorem sansFifos_release (i : Nat) (rt : Rt) : sansFifos (release i rt) = sansFifos rt := by
  unfold release
  split
  · exact sansFifos_enqueue _ rt
  · rfl

/-- The FIFOs aside, a frequency step sets the island's count of steps. -/
theorem sansFifos_takeStep (i thr : Nat) (rt : Rt) :
    sansFifos (takeStep i thr rt) = sansFifos (setIsland i { islandOf rt i with throttle := thr } rt) := by
  unfold takeStep
  dsimp only
  split
  · exact sansFifos_release i _
  · rfl

theorem takeStep_now (i thr : Nat) (rt : Rt) : (takeStep i thr rt).now = rt.now :=
  (read_of_rest Rt.now (sansFifos_takeStep i thr rt) fun _ => rfl :)

theorem tokensOf_takeStep (i thr r : Nat) (rt : Rt) : tokensOf (takeStep i thr rt) r = tokensOf rt r :=
  (read_of_rest (tokensOf · r) (sansFifos_takeStep i thr rt) fun _ => rfl :)

theorem islandOf_takeStep_self (i thr : Nat) (rt : Rt) :
    islandOf (takeStep i thr rt) i = { islandOf rt i with throttle := thr } :=
  (islandOf_of_sansFifos (sansFifos_takeStep i thr rt) i).trans (islandOf_setIsland_self ..)

/-- A step that does not speed the island up asks for no further one. -/
theorem fifoOf_takeStep_of_le {i thr : Nat} {rt : Rt} (h : (islandOf rt i).throttle ≤ thr) (r : Nat) :
    fifoOf (takeStep i thr rt) r = fifoOf rt r := by
  have hstep : takeStep i thr rt = setIsland i { islandOf rt i with throttle := thr } rt := if_neg (Nat.not_lt.mpr h)
  rw [hstep, fifoOf_setIsland]

/-! ## ISLAND_READY -/

theorem sansWork_setClerk (c : ClerkId) (k : Clerk) (rt : Rt) : sansWork (setClerk c k rt) = sansWork rt := rfl

theorem sansWork_wake (p : Stall → Bool) (rt : Rt) : sansWork (wake p rt) = sansWork rt := rfl

theorem sansWork_grant (e : EngineRef) (c : ClerkId) (rt : Rt) : sansWork (grant e c rt) = sansWork rt := by
  unfold grant
  extract_lets x latch claimed k
  rw [sansWork_setClerk]
  exact sansWork_setCom e _ rt

/-- Passing a latch writes an engine and clerks. -/
theorem sansWork_passLatch (e : EngineRef) (rt : Rt) : sansWork (passLatch e rt) = sansWork rt := by
  unfold passLatch
  extract_lets x
  split
  · rfl
  · next c _ _ =>
    split
    · rfl
    · extract_lets granted
      rw [sansWork_wake, sansWork_setClerk]
      exact sansWork_grant e c rt

theorem sansWork_passIsland (i : Nat) (rt : Rt) : sansWork (passIsland i rt) = sansWork rt :=
  foldl_keeps sansWork fun r e => sansWork_passLatch e r

theorem sansSignal_showStage (rt : Rt) : sansSignal (showStage rt) = sansSignal rt := by
  unfold showStage
  split
  · rfl
  · split <;> rfl

theorem sansSignal_endStep (n : Nat) (rt : Rt) : sansSignal (endStep n rt) = sansSignal rt := sansSignal_showStage _

@[simp] theorem raise_ballast (e : FaultEvent) (rt : Rt) : (raise e rt).ballast = rt.ballast :=
  read_of_rest Rt.ballast (sansFault_raise e rt) fun _ => rfl

@[simp] theorem raise_power (e : FaultEvent) (rt : Rt) : (raise e rt).power = rt.power :=
  read_of_rest Rt.power (sansFault_raise e rt) fun _ => rfl

/-- Tiles that fail their check leave the ballast alone. -/
theorem badTiles_ballast (progs : List ProgEntry) (i : Nat) (bad : List Nat) (rt : Rt) :
    (badTiles progs i bad rt).ballast = rt.ballast := by
  unfold badTiles
  split
  · refine foldl_keeps Rt.ballast fun r t => ?_
    split
    · exact raise_ballast _ _
    · rfl
  · rfl

theorem badTiles_nil (progs : List ProgEntry) (i : Nat) (rt : Rt) : badTiles progs i [] rt = rt := ite_self rt

/-- The island as it comes up: its room loaded, its bad tiles found. -/
def broughtUp (i : Nat) (bad : List Nat) (s : State) : Rt :=
  badTiles s.nv.progs i bad (setIsland i { st := .ready, throttle := 0, seeded := false } (loadRoom s.nv i s.rt))

theorem islandOf_broughtUp (i : Nat) (bad : List Nat) (s : State) :
    islandOf (broughtUp i bad s) i = { st := .ready, throttle := 0, seeded := false } := by
  unfold islandOf broughtUp
  rw [badTiles_ballast]
  exact islandOf_setIsland_self i _ _

/-- Beside the steps of start-up that it ends and the latches that it passes, an island that is ready is an island brought up. -/
theorem doIslandReady_eq {i : Nat} {s : State} (bad : List Nat) (hst : (islandOf s.rt i).st = .starting)
    (hwaits : islandWaiting s.rt i = false) (hrun : islandsRun s.rt = true) :
    ∃ rt, doIslandReady i bad s = { s with rt := rt } ∧ sansSignal rt = sansSignal (broughtUp i bad s) := by
  have hgo : (islandOf s.rt i).st = .starting ∧ (!islandWaiting s.rt i) = true ∧ islandsRun s.rt = true :=
    ⟨hst, by rw [hwaits]; rfl, hrun⟩
  have hstep (c : Bool) (n : Nat) (rt : Rt) : sansSignal (if c = true then endStep n rt else rt) = sansSignal rt := by
    split
    · exact sansSignal_endStep n rt
    · rfl
  unfold doIslandReady
  extract_lets _ up all step1 step6
  rw [if_pos hgo]
  refine ⟨passIsland i step6, rfl, ?_⟩
  calc sansSignal (passIsland i step6)
    _ = sansSignal step6 := sansSignal_of_sansWork (sansWork_passIsland i step6)
    _ = sansSignal step1 := hstep _ 6 step1
    _ = sansSignal up := hstep _ 1 up

/-- A counting room that comes up holds the house code and no window (R54, R218). -/
theorem roomOf_broughtUp {i : Nat} {s : State} (hi : i < 4) :
    (roomOf (broughtUp i [] s) i).code = houseCode s.nv.progs ∧ (roomOf (broughtUp i [] s) i).window = [] := by
  have hindex : dieIndex i = i := if_pos (by omega)
  have hroom : i < 36 ∧ dieIndex i < 4 := ⟨by omega, by omega⟩
  have hnum : 4 * (i / 18) + dieIndex i = i := by omega
  unfold broughtUp loadRoom
  rw [badTiles_nil, if_pos hroom, hnum]
  show (roomOf (setRoom i _ s.rt) i).code = _ ∧ (roomOf (setRoom i _ s.rt) i).window = _
  rw [roomOf_setRoom_self]
  exact ⟨rfl, rfl⟩

/-! ## IDLE_GATING_TIMER -/

/-- An island of the Idle class is metered. -/
theorem islandCost_ne_zero_of_idleClass {i : Nat} (hi : i < 36) : islandGating i = 0 → islandCost i ≠ 0 := by
  revert i
  decide

/-- Without idle gating the row sets the period alone. -/
theorem doIdleGatingTimer_none_off {i : Nat} {rt : Rt} (h : rt.ballast.idleGating = false) : doIdleGatingTimer i none rt = rt := by
  simp [doIdleGatingTimer, h]

theorem doIdleGatingTimer_none_on {i : Nat} {rt : Rt} (hon : rt.ballast.idleGating = true) (hi : i < 36)
    (hclass : islandGating i = 0) (hready : islandReady rt i = true) (hidle : islandIdle rt i = true)
    (hrun : islandsRun rt = true) : doIdleGatingTimer i none rt = askStop i rt := by
  simp [doIdleGatingTimer, hon, hi, hclass, hready, hidle, hrun]

/-- In service a period is set first, and then an idle island asked to stop. -/
theorem doIdleGatingTimer_some {i p : Nat} {rt : Rt} (h : inService rt = true) :
    doIdleGatingTimer i (some p) rt = setIdle p rt ∨ doIdleGatingTimer i (some p) rt = askStop i (setIdle p rt) := by
  simp only [doIdleGatingTimer, h, if_true, Option.map_some, Option.getD_some]
  split
  · exact .inr rfl
  · exact .inl rfl

theorem doIdleGatingTimer_zero {i : Nat} {rt : Rt} (h : inService rt = true) :
    doIdleGatingTimer i (some 0) rt = setIdle 0 rt := by
  have hoff : (setIdle 0 rt).ballast.idleGating = false := rfl
  simp [doIdleGatingTimer, h, hoff]

/-! ## Thermal throttling (R43, R58) -/

/-- One step slower asked of an island. -/
def slowIsland (r : Rt) (i : Nat) : Rt := enqueue (entryFor r i .freq 1 ((islandOf r i).throttle + 1)) r

theorem sansFifos_slowIslands (l : List Nat) (rt : Rt) : sansFifos (l.foldl slowIsland rt) = sansFifos rt :=
  foldl_keeps sansFifos fun r _ => sansFifos_enqueue _ r

theorem islandWaiting_slowIslands {i : Nat} {l : List Nat} (rt : Rt) (h : i ∈ l) :
    islandWaiting (l.foldl slowIsland rt) i = true := by
  refine foldl_reaches (I := fun _ => True) (P := fun r => islandWaiting r i = true) ?_ ?_ ?_ h trivial
  · exact fun _ _ h => h
  · exact fun r j h => islandWaiting_enqueue h
  · exact fun r _ => islandWaiting_enqueue_self (entryFor r i .freq 1 ((islandOf r i).throttle + 1)) r

/-- Slowing some island is a step for each and one event of THERMAL_HIGH. -/
theorem slow_eq {d : Nat} {l : List Nat} (rt : Rt) (h : l ≠ []) :
    ∃ e, e.source = .thermalHigh ∧ slow d l rt = raise e (l.foldl slowIsland rt) :=
  ⟨_, rfl, if_neg h⟩

theorem slow_nil (d : Nat) (rt : Rt) : slow d [] rt = rt := rfl

theorem slow_ballast (d : Nat) (l : List Nat) (rt : Rt) : (slow d l rt).ballast = (l.foldl slowIsland rt).ballast := by
  by_cases hl : l = []
  · subst hl; rfl
  · obtain ⟨e, _, heq⟩ := slow_eq (d := d) rt hl
    rw [heq, raise_ballast]

/-- The event of a step stands in the ring. -/
theorem slow_record {d : Nat} {l : List Nat} (rt : Rt) (h : l ≠ []) :
    ∃ r, kget (slow d l rt).fault.ring (rt.fault.nextSeq % 40) = some r ∧ r.source = .thermalHigh := by
  obtain ⟨e, hsource, heq⟩ := slow_eq (d := d) rt h
  have hfault := fault_of_sansFifos (sansFifos_slowIslands l rt)
  rw [heq, ← hfault, ← hsource]
  exact raise_record e _

/-- A step back waits for an island that is slowed. -/
theorem islandWaiting_release_self {i : Nat} {rt : Rt} (hready : islandReady rt i = true) (hslow : 0 < (islandOf rt i).throttle) :
    islandWaiting (release i rt) i = true := by
  unfold release
  rw [if_pos (by simp [hready, hslow])]
  exact islandWaiting_enqueue_self (entryFor rt i _ _ _) rt

theorem islandWaiting_release {i j : Nat} {rt : Rt} (h : islandWaiting rt j = true) : islandWaiting (release i rt) j = true := by
  unfold release
  split
  · exact islandWaiting_enqueue h
  · exact h

/-- Every slowed island of a list waits for its step back. -/
theorem islandWaiting_releases {i : Nat} {l : List Nat} {rt : Rt} (hmem : i ∈ l) (hready : islandReady rt i = true)
    (hslow : 0 < (islandOf rt i).throttle) : islandWaiting (l.foldl (fun r j => release j r) rt) i = true := by
  refine foldl_reaches (I := fun r => islandReady r i = true ∧ 0 < (islandOf r i).throttle)
    (P := fun r => islandWaiting r i = true) ?_ (fun _ _ => islandWaiting_release) ?_ hmem ⟨hready, hslow⟩
  · rintro r j ⟨hready, hslow⟩
    have hkept := sansFifos_release j r
    exact ⟨(islandReady_of_sansFifos hkept i).trans hready, by rwa [islandOf_of_sansFifos hkept i]⟩
  · rintro r ⟨hready, hslow⟩
    exact islandWaiting_release_self hready hslow

/-! ## Fatal events -/

theorem zeroEngine_strong (e : EngineRef) (rt : Rt) : (zeroEngine e rt).strong = rt.strong := by
  unfold zeroEngine
  split
  · rfl
  · rfl
  · rfl
  · exact setCom_strong e _ _

/-- The end of a job withdraws its requests to the strongroom and leaves the keys. -/
theorem endJob_keys (c : ClerkId) (blocks : List Nat) (rt : Rt) : (endJob c blocks rt).strong.keys = rt.strong.keys := by
  unfold endJob
  extract_lets k released left strong withdrawn wiping
  have hreleased : released.strong = rt.strong := foldl_keeps Rt.strong fun r e => zeroEngine_strong e r
  calc wiping.strong.keys
    _ = released.strong.keys := rfl
    _ = rt.strong.keys := congrArg Strong.keys hreleased

theorem stopAll_keys (st : Nat) (rt : Rt) : (stopAll st rt).strong.keys = rt.strong.keys := by
  unfold stopAll
  extract_lets ended
  have hjob (r : Rt) (kv : Nat × Clerk) : (endJob kv.1 kv.2.blocks r).strong.keys = r.strong.keys := endJob_keys kv.1 kv.2.blocks r
  calc _ = ended.strong.keys := rfl
    _ = rt.strong.keys := foldl_keeps (fun r : Rt => r.strong.keys) hjob

/-- What a fatal event stops keeps the keys. -/
theorem fatalStop_keys (rt : Rt) :
    (fatalStage (if inTamperHalt rt then rt else stopAll stDeviceFault rt)).strong.keys = rt.strong.keys := by
  have hstage (r : Rt) : (fatalStage r).strong = r.strong := by unfold fatalStage; split <;> rfl
  rw [hstage]
  split
  · rfl
  · exact stopAll_keys stDeviceFault rt

/-- The record of an event whose class is fatal. -/
def fatalRecord (e : FaultEvent) (rt : Rt) : FaultRec := mkRecord rt e .fatal false false false

/-- Before a halt a fatal event is recorded, pending and latched, and stops the module (R17, R436). -/
theorem report_of_fatal {e : FaultEvent} {rt : Rt} (hbooth : boothAttr e = false) (hclass : classifOf rt e = .cls .fatal)
    (hhalted : rt.fault.halted = false) :
    (report e rt).fault = setPending (fatalRecord e rt) (writeRecord (fatalRecord e rt) rt.fault) ∧
      (report e rt).strong.keys = rt.strong.keys := by
  have hstop (r : Rt) : (fatalStage (if inTamperHalt r then r else stopAll stDeviceFault r)).fault = r.fault :=
    read_of_rest Rt.fault (sansSignal_fatalStop r) fun _ => rfl
  have hsent (c : Bool) (r : Rt) : ∃ x o, (if c = true then r else signal 0 r) = { r with msix := x, out := o } := by
    split
    · exact ⟨r.msix, r.out, rfl⟩
    · exact signal_eq 0 r
  simp only [report, classify, hbooth, hclass, hhalted, Bool.false_eq_true, if_false, ne_eq, not_true_eq_false, decide_false,
    Bool.and_false, reduceCtorEq, if_true]
  obtain ⟨x, o, h⟩ := hsent _ _
  rw [hstop, fatalStop_keys, h]
  exact ⟨rfl, rfl⟩

/-- After a halt an event is recorded, and nothing else happens (R433). -/
theorem report_of_halted (e : FaultEvent) {rt : Rt} (h : rt.fault.halted = true) :
    ∃ r w, report e rt = { rt with fault := writeRecord r { rt.fault with wins := w } } := by
  unfold report
  generalize (if boothAttr e then (FClass.contained, false, false, rt.fault.wins) else classify rt e) = v
  obtain ⟨c, sev, quiet, wins⟩ := v
  simp only [h, if_true]
  split <;> exact ⟨_, wins, rfl⟩

/-- After a halt the end of the pairing leaves the fatal flag, the halt and the strongroom. -/
theorem unpair_of_halted {rt : Rt} (h : rt.fault.halted = true) :
    (unpair rt).fault.pendFatal = rt.fault.pendFatal ∧ (unpair rt).fault.halted = true ∧ (unpair rt).strong = rt.strong := by
  unfold unpair
  split
  · obtain ⟨r, w, hrep⟩ := report_of_halted (plainEvent .peerLink [])
      (rt := { rt with peer := { rt.peer with paired := false, lost := true } }) h
    rw [hrep]
    exact ⟨rfl, h, rfl⟩
  · exact ⟨rfl, h, rfl⟩

/-- Before a halt a fatal event is pending and halts service, its record stands in the ring, and the strongroom's keys stay. -/
theorem raise_of_fatal {e : FaultEvent} {rt : Rt} (hbooth : boothAttr e = false) (hclass : classifOf rt e = .cls .fatal)
    (hhalted : rt.fault.halted = false) :
    (raise e rt).fault.pendFatal = true ∧ (raise e rt).fault.halted = true ∧ (raise e rt).strong.keys = rt.strong.keys ∧
      kget (raise e rt).fault.ring (rt.fault.nextSeq % 40) = some (fatalRecord e rt) := by
  obtain ⟨hfault, hkeys⟩ := report_of_fatal hbooth hclass hhalted
  have hhalt : (report e rt).fault.halted = true := by rw [hfault]; rfl
  have hfatal : inFatal (report e rt) = true := by rw [inFatal, hhalt, Bool.or_true]
  have hraise : raise e rt = unpair (report e rt) := if_pos hfatal
  obtain ⟨hpend, hhalts, hstrong⟩ := unpair_of_halted hhalt
  rw [hraise, hpend, hstrong, unpair_ring _ _ (report_recorded e rt).nextSeq]
  refine ⟨?_, hhalts, hkeys, ?_⟩
  · rw [hfault]; rfl
  · rw [hfault, setPending_ring]
    exact kget_kset_self _ _ _

/-- The event of THERMAL_FATAL at a site. -/
def thermalFatalEvent (d : Nat) : FaultEvent :=
  { source := .thermalFatal, scope := d, island := some (if d < 2 then 18 * d + 17 else 46), booth := none, detail := [],
    houseProg := false }

theorem doThermalFatal_hot {d : Nat} {t : Int} {rt : Rt} (ht : 840 < t) (hmain : mainPower rt = true)
    (hfail : rt.power.powerFail = false) :
    doThermalFatal d t rt = sleepDie 1 (sleepDie 0 (raise (thermalFatalEvent d) (readTemp d t rt))) :=
  if_pos ⟨ht, hmain, by show (!rt.power.powerFail) = true; rw [hfail]; rfl⟩

/-- With power, a metered island of a compute die that is ready stops as both dies power down. -/
theorem sleepDies_stops {i : Nat} {rt : Rt} (hi : i < 36) (hfail : rt.power.powerFail = false) (hcost : islandCost i ≠ 0)
    (hready : islandReady rt i = true) : (islandOf (sleepDie 1 (sleepDie 0 rt)) i).st = .stopping := by
  have hst : (islandOf rt i).st = .ready := eq_of_beq hready
  obtain h0 | h1 := mem_dieIslands hi
  · have hstopping := sleepDie_stops h0 hfail hcost (by rw [hst]; nofun)
    exact (sleepDie_st 1 i _).elim (·.trans hstopping) id
  · have hpower : (sleepDie 0 rt).power = rt.power := read_of_rest Rt.power (sansIslands_sleepDie 0 rt) fun _ => rfl
    refine sleepDie_stops h1 (hpower ▸ hfail) hcost fun hgated => ?_
    obtain h | h := sleepDie_st 0 i rt
    · exact nomatch hgated.symm.trans (h.trans hst)
    · exact nomatch hgated.symm.trans h

/-! ## The statement -/

theorem exec_ballastRequest (i : Nat) (k : BallastKind) (s : State) :
    exec (.ballastRequest i k) s = .next (onRt (doBallastRequest i k) s) := rfl
theorem exec_ballastGrant (rail : Fin 3) (s : State) : exec (.ballastGrant rail) s = .next (onRt (doBallastGrant rail.val) s) := rfl
theorem exec_islandReady (x : IslandStart) (s : State) : exec (.islandReady x) s = .next (doIslandReady x.island x.bad s) := rfl
theorem exec_idleGatingTimer (x : IdleTimer) (s : State) :
    exec (.idleGatingTimer x) s = .next (onRt (doIdleGatingTimer x.island x.period) s) := rfl
theorem exec_thermalThrottleStep (d : Fin 3) (t : Int) (s : State) :
    exec (.thermalThrottleStep d t) s = .next (onRt (doThermalThrottleStep d.val t) s) := rfl
theorem exec_throttleRelease (d : Fin 3) (t : Int) (s : State) :
    exec (.throttleRelease d t) s = .next (onRt (doThrottleRelease d.val t) s) := rfl
theorem exec_thermalFatal (d : Fin 3) (t : Int) (s : State) :
    exec (.thermalFatal d t) s = .next (onRt (doThermalFatal d.val t) s) := rfl
theorem exec_railWarn (row : Nat) (s : State) : exec (.railWarn row) s = .next (onRt (doRailWarn row) s) := rfl

/-- Settles O32, row by row: a request by what an entry does to its FIFO, a grant by the state in which its entry is paid for, the
thermal rows by what their folds over a die's islands reach, the fatal ones by what a fatal event leaves. -/
theorem ballastCommands : Obligations.BallastCommands := by
  refine ⟨?start, ?held, ?grant, ?ready, ?notReady, ?idleStop, ?idleOff, ?setOff, ?setOn, ?throttle, ?noThrottle, ?release,
    ?noRelease, ?fatal, ?notFatal, ?rail⟩
  case start =>
    intro i s hi hrun haux hcost hgated hwaits
    obtain ⟨_, hfail, hperst⟩ := (islandsRun_iff _).mp hrun
    let entry := entryFor s.rt i .start (islandCost i) 0
    have hrow : doBallastRequest i .start s.rt = setIsland i { islandOf s.rt i with st := .starting } (enqueue entry s.rt) := by
      rw [← askStart_eq hfail hperst hcost hgated]
      exact doBallastRequest_start hi hrun haux
    refine ⟨_, exec_ballastRequest i .start s, ?_⟩
    rw [onRt_rt, hrow, islandOf_setIsland_self, fifoOf_setIsland]
    have hnow : (enqueue entry s.rt).now = s.rt.now := read_of_rest Rt.now (sansFifos_enqueue entry s.rt) fun _ => rfl
    exact ⟨rfl, fifoOf_enqueue_of_not_waiting (e := entry) hwaits, hnow⟩
  case held =>
    intro i k s hoff
    have hrun : islandsRun s.rt = false := by
      refine eq_false_of_ne_true fun h => ?_
      obtain ⟨_, hfail, hperst⟩ := (islandsRun_iff _).mp h
      simp [hfail, hperst] at hoff
    simp [exec_ballastRequest, onRt, doBallastRequest, hrun]
  case grant =>
    intro rail e f s hhead hrun hidle
    have hrow := doBallastGrant_eq hhead hrun hidle
    refine ⟨_, exec_ballastGrant rail s, ?_⟩
    rw [onRt_rt, hrow]
    cases hkind : e.kind <;> dsimp only
    case start =>
      exact ⟨paid_now .., tokensOf_paid .., fun _ => fifoOf_paid .., nofun, nofun, fun _ => paid_islands ..⟩
    case stop =>
      obtain ⟨hnow, _⟩ := gateIsland_ballast e.island (paid rail.val e f s.rt)
      rw [hnow, tokensOf_gateIsland, fifoOf_gateIsland, islandOf_gateIsland_self]
      exact ⟨paid_now .., tokensOf_paid .., fun _ => fifoOf_paid .., fun _ => rfl, nofun, nofun⟩
    case freq =>
      rw [takeStep_now, tokensOf_takeStep, islandOf_takeStep_self, islandOf_paid]
      refine ⟨paid_now .., tokensOf_paid .., fun hslower => ?_, nofun, fun _ => rfl, nofun⟩
      rw [fifoOf_takeStep_of_le (by rw [islandOf_paid]; exact hslower rfl), fifoOf_paid]
  case ready =>
    intro i bad s hst hwaits hrun
    obtain ⟨rt, hrow, hrest⟩ := doIslandReady_eq bad hst hwaits hrun
    have hisland : islandOf rt i = { st := .ready, throttle := 0, seeded := false } :=
      (read_of_rest (islandOf · i) hrest fun _ => rfl).trans (islandOf_broughtUp i bad s)
    refine ⟨_, exec_islandReady ⟨i, bad⟩ s, ?_⟩
    rw [hrow]
    refine ⟨by simp only [islandReady, hisland]; rfl, by rw [hisland], rfl, fun hi hbad => ?_⟩
    have hroom : roomOf rt i = roomOf (broughtUp i bad s) i := read_of_rest (roomOf · i) hrest fun _ => rfl
    subst hbad
    rw [hroom]
    exact roomOf_broughtUp hi
  case notReady =>
    intro i bad s h
    have hstays : ¬((islandOf s.rt i).st = .starting ∧ (!islandWaiting s.rt i) = true ∧ islandsRun s.rt = true) := by
      rintro ⟨hst, hwaits, _⟩
      obtain h | h := h
      · exact h hst
      · rw [h] at hwaits; cases hwaits
    exact congrArg Host.Outcome.next (if_neg hstays)
  case idleStop =>
    intro i s hon hi hclass hready hidle hrun
    obtain ⟨_, hfail, _⟩ := (islandsRun_iff _).mp hrun
    have hst : (islandOf s.rt i).st = .ready := eq_of_beq hready
    have hstop : askStop i s.rt = stopAsked i s.rt :=
      askStop_eq hfail (islandCost_ne_zero_of_idleClass hi hclass) (by rw [hst]; nofun) (by rw [hst]; nofun)
    refine ⟨_, exec_idleGatingTimer ⟨i, none⟩ s, ?_⟩
    rw [onRt_rt, doIdleGatingTimer_none_on hon hi hclass hready hidle hrun, hstop]
    exact ⟨by rw [islandOf_stopAsked, if_pos rfl], islandWaiting_enqueue_self (entryFor s.rt i .stop (islandCost i) 0) s.rt⟩
  case idleOff =>
    intro i s hoff
    rw [exec_idleGatingTimer, onRt, doIdleGatingTimer_none_off hoff]
  case setOff =>
    intro i s hservice
    rw [exec_idleGatingTimer, onRt, doIdleGatingTimer_zero hservice, onRt]
  case setOn =>
    intro i p s hservice hlow hhigh
    have hset : setIdle p s.rt = { s.rt with ballast := { s.rt.ballast with idleGating := true, idlePeriod := p } } := by
      simp [setIdle, show p ≠ 0 by omega, hlow, hhigh]
    have hrest : sansIslands (doIdleGatingTimer i (some p) s.rt) = sansIslands (setIdle p s.rt) := by
      obtain h | h := doIdleGatingTimer_some (i := i) (p := p) hservice
      · rw [h]
      · rw [h]; exact sansIslands_askStop i _
    rw [hset] at hrest
    exact ⟨_, exec_idleGatingTimer ⟨i, some p⟩ s, read_of_rest (·.ballast.idleGating) hrest fun _ => rfl,
      read_of_rest (·.ballast.idlePeriod) hrest fun _ => rfl⟩
  case throttle =>
    intro d t s rt hdue hhot hrun
    let slowed := (throttled d.val).filter (canSlow rt)
    have hrow : doThermalThrottleStep d.val t s.rt = slow d.val slowed rt :=
      if_pos (by show (stepDue rt d.val t && isHottest rt d.val && islandsRun s.rt) = true; rw [hdue, hhot, hrun]; rfl)
    have hmem {i : Nat} (hi : i ∈ throttled d.val) (h : canSlow s.rt i = true) : i ∈ slowed := List.mem_filter.mpr ⟨hi, h⟩
    have hballast := slow_ballast d.val slowed rt
    refine ⟨_, exec_thermalThrottleStep d t s, ?_⟩
    rw [onRt_rt, hrow]
    refine ⟨?_, fun i hi hcan => ?_, fun hsome => ?_, fun hnone => ?_⟩
    · unfold dieTemp
      rw [hballast]
      exact read_of_rest (dieTemp · d.val) (sansFifos_slowIslands slowed rt) fun _ => rfl
    · unfold islandWaiting fifoOf
      rw [hballast]
      exact islandWaiting_slowIslands rt (hmem hi hcan)
    · obtain ⟨i, hi, hcan⟩ := hsome
      exact slow_record rt (List.ne_nil_of_mem (hmem hi hcan))
    · have hempty : slowed = [] := List.filter_eq_nil_iff.mpr fun i hi h => Bool.false_ne_true ((hnone i hi).symm.trans h)
      rw [hempty, slow_nil]
      rfl
  case noThrottle =>
    intro d t s hdue
    simp [exec_thermalThrottleStep, onRt, doThermalThrottleStep, hdue]
  case release =>
    intro d t s ht hrun
    let rt := readTemp d.val t s.rt
    have hrow : doThrottleRelease d.val t s.rt = (throttled d.val).foldl (fun r i => release i r) rt := if_pos ⟨ht, hrun⟩
    refine ⟨_, exec_throttleRelease d t s, ?_⟩
    rw [onRt_rt, hrow]
    have hrest : sansFifos ((throttled d.val).foldl (fun r i => release i r) rt) = sansFifos rt :=
      foldl_keeps sansFifos fun r i => sansFifos_release i r
    have hfault : _ = rt.fault := fault_of_sansFifos hrest
    exact ⟨hfault, fun i hi hready hslow => islandWaiting_releases hi hready hslow⟩
  case noRelease =>
    intro d t s ht
    simp [exec_throttleRelease, onRt, doThrottleRelease, Int.not_lt.mpr ht]
  case fatal =>
    intro d t s ht hmain hfail hhalted
    let rt := readTemp d.val t s.rt
    let raised := raise (thermalFatalEvent d.val) rt
    obtain ⟨hpend, hhalts, hkeys, _⟩ := raise_of_fatal (e := thermalFatalEvent d.val) (rt := rt) rfl rfl hhalted
    have hrest : sansIslands (sleepDie 1 (sleepDie 0 raised)) = sansIslands raised :=
      (sansIslands_sleepDie 1 _).trans (sansIslands_sleepDie 0 raised)
    have hfault : (sleepDie 1 (sleepDie 0 raised)).fault = raised.fault := read_of_rest Rt.fault hrest fun _ => rfl
    have hstrong : (sleepDie 1 (sleepDie 0 raised)).strong = raised.strong := read_of_rest Rt.strong hrest fun _ => rfl
    refine ⟨_, exec_thermalFatal d t s, ?_⟩
    rw [onRt_rt, doThermalFatal_hot ht hmain hfail, hfault, hstrong]
    refine ⟨hpend, hhalts, hkeys, rfl, fun i hi hcost hready => ?_⟩
    have hready' : islandReady raised i = true := by
      unfold islandReady islandOf
      rw [raise_ballast]
      exact hready
    exact sleepDies_stops hi (by rw [raise_power]; exact hfail) hcost hready'
  case notFatal =>
    intro d t s ht
    simp [exec_thermalFatal, onRt, doThermalFatal, Int.not_lt.mpr ht]
  case rail =>
    intro row s hrow hmain hfail hhalted
    let event := plainEvent .railWarn [BitVec.ofNat 8 row]
    obtain ⟨hpend, hhalts, _, hring⟩ := raise_of_fatal (e := event) (rt := s.rt) rfl rfl hhalted
    have hwarn : doRailWarn row s.rt = raise event s.rt := if_pos ⟨hrow, hmain, by rw [hfail]; rfl⟩
    refine ⟨_, fatalRecord event s.rt, exec_railWarn row s, ?_⟩
    rw [onRt_rt, hwarn]
    exact ⟨hring, rfl, rfl, hpend, hhalts, rfl⟩

end Sys2Proof.Machine
end

section
/-! Start-up: the steps of Table 4.1, the mints' start, the mask expanders, and the loading of tiles. -/

namespace Sys2Proof.Machine

theorem mem_addTo_self {α : Type} [DecidableEq α] (x : α) (l : List α) : x ∈ addTo x l := by
  unfold addTo
  split
  · assumption
  · exact List.mem_append_right l List.mem_cons_self

/-! ## What a fault event leaves of the strongroom and the boot status -/

/-- The run-time state without what recording and signalling an event write. -/
def sansNotice (rt : Rt) : Rt :=
  { rt with fault := Collector.reset, alert := Alert.reset, msix := Rt.reset.msix, out := [] }

theorem sansNotice_signal (v : Nat) (rt : Rt) : sansNotice (signal v rt) = sansNotice rt := by
  obtain ⟨x, o, h⟩ := signal_eq v rt
  rw [h]; rfl

theorem signal_fault (v : Nat) (rt : Rt) : (signal v rt).fault = rt.fault := by
  obtain ⟨x, o, h⟩ := signal_eq v rt
  rw [h]

theorem sansNotice_alertAssert (rt : Rt) : sansNotice (alertAssert rt) = sansNotice rt := rfl

theorem setPending_halted {r : FaultRec} (h : r.cls ≠ .fatal) (f : Collector) : (setPending r f).halted = f.halted := by
  unfold setPending
  split
  · rfl
  · rfl
  · next hfatal => exact absurd hfatal h

/-- A reported event is recorded and signalled, and service goes on as before; or it is fatal, and stops the module (R17). -/
theorem report_cases (e : FaultEvent) (rt : Rt) : ∃ r, sansNotice r = sansNotice rt ∧
    ((report e rt = r ∧ r.fault.halted = rt.fault.halted) ∨
      report e rt = fatalStage (if inTamperHalt r then r else stopAll stDeviceFault r)) := by
  unfold report
  generalize (if boothAttr e then (FClass.contained, false, false, rt.fault.wins) else classify rt e) = v
  obtain ⟨c, sev, quiet, wins⟩ := v
  dsimp -zeta only
  have goesOn {r : Rt} (hrest : sansNotice r = sansNotice rt) (hhalted : r.fault.halted = rt.fault.halted) :
      ∃ r', sansNotice r' = sansNotice rt ∧ ((r = r' ∧ r'.fault.halted = rt.fault.halted) ∨
        r = fatalStage (if inTamperHalt r' then r' else stopAll stDeviceFault r')) := ⟨r, hrest, .inl ⟨rfl, hhalted⟩⟩
  extract_lets _ classified _ boothRt _ c' r pending pin asserted sent
  by_cases hquiet : quiet = true
  · rw [if_pos hquiet]
    exact goesOn rfl rfl
  rw [if_neg hquiet]
  by_cases hhalted : classified.fault.halted = true
  · rw [if_pos hhalted]
    exact goesOn rfl rfl
  rw [if_neg hhalted]
  by_cases hbooth : boothAttr e = true
  · rw [if_pos hbooth]
    split
    · exact goesOn rfl rfl
    · exact goesOn (sansNotice_signal 0 boothRt) (by rw [signal_fault]; rfl)
  rw [if_neg hbooth]
  have hasserted : sansNotice asserted = sansNotice rt ∧ asserted.fault = pending.fault := by
    unfold asserted
    split
    · exact ⟨rfl, rfl⟩
    · exact ⟨sansNotice_alertAssert pending, rfl⟩
  have hsent : sansNotice sent = sansNotice asserted ∧ sent.fault = asserted.fault := by
    unfold sent
    split
    · exact ⟨rfl, rfl⟩
    · exact ⟨sansNotice_signal 0 asserted, signal_fault 0 asserted⟩
  obtain ⟨hassertedRest, hassertedFault⟩ := hasserted
  obtain ⟨hsentRest, hsentFault⟩ := hsent
  refine ⟨sent, hsentRest.trans hassertedRest, ?_⟩
  by_cases hfatal : c' = .fatal
  · rw [if_pos hfatal]
    exact .inr rfl
  · rw [if_neg hfatal]
    have hpending : pending.fault.halted = rt.fault.halted := setPending_halted (r := r) hfatal _
    exact .inl ⟨rfl, (congrArg Collector.halted (hsentFault.trans hassertedFault)).trans hpending⟩

/-- The strongroom without the requests that wait in it. -/
def sansReqs (rt : Rt) : Strong := { rt.strong with reqs := [] }

/-- The end of a job withdraws its requests to the strongroom, and changes nothing else of it. -/
theorem sansReqs_endJob (c : ClerkId) (blocks : List Nat) (rt : Rt) : sansReqs (endJob c blocks rt) = sansReqs rt := by
  unfold endJob
  extract_lets k released left strong withdrawn wiping
  have hreleased : released.strong = rt.strong := foldl_keeps Rt.strong fun r e => zeroEngine_strong e r
  calc sansReqs wiping
    _ = sansReqs released := rfl
    _ = sansReqs rt := congrArg (fun x : Strong => { x with reqs := [] }) hreleased

theorem sansReqs_stopAll (st : Nat) (rt : Rt) : sansReqs (stopAll st rt) = sansReqs rt := by
  unfold stopAll
  extract_lets ended
  calc _ = sansReqs ended := rfl
    _ = sansReqs rt := foldl_keeps sansReqs fun r kv => sansReqs_endJob kv.1 kv.2.blocks r

theorem sansReqs_fatalStop (rt : Rt) :
    sansReqs (fatalStage (if inTamperHalt rt then rt else stopAll stDeviceFault rt)) = sansReqs rt := by
  have hstage (r : Rt) : sansReqs (fatalStage r) = sansReqs r := by unfold fatalStage; split <;> rfl
  rw [hstage]
  split
  · rfl
  · exact sansReqs_stopAll stDeviceFault rt

theorem sansReqs_report (e : FaultEvent) (rt : Rt) : sansReqs (report e rt) = sansReqs rt := by
  obtain ⟨r, hrest, hcases⟩ := report_cases e rt
  have hr : sansReqs r = sansReqs rt := read_of_rest sansReqs hrest fun _ => rfl
  obtain ⟨h, _⟩ | h := hcases
  · rw [h, hr]
  · rw [h, sansReqs_fatalStop, hr]

/-- A fault event, whatever its class, withdraws requests to the strongroom at most. -/
theorem sansReqs_raise (e : FaultEvent) (rt : Rt) : sansReqs (raise e rt) = sansReqs rt := by
  have hunpair (r : Rt) : sansReqs (unpair r) = sansReqs r := by
    unfold unpair
    split
    · exact sansReqs_report _ _
    · rfl
  unfold raise
  extract_lets reported
  split
  · exact (hunpair reported).trans (sansReqs_report e rt)
  · exact sansReqs_report e rt

/-- Before SERVICE_READY a fatal event stops start-up with 85h, where no stop of step 2 or 4 stands (R87). -/
theorem raise_stage_of_fatal {e : FaultEvent} {rt : Rt} (hbooth : boothAttr e = false) (hclass : classifOf rt e = .cls .fatal)
    (hhalted : rt.fault.halted = false) (hstart : rt.boot.serviceReady = false)
    (hstage : rt.boot.stage ∉ [0x81#8, 0x82#8, 0x86#8, 0x87#8]) : (raise e rt).boot.stage = 0x85 := by
  have hhalt : (report e rt).fault.halted = true := by
    obtain ⟨hfault, _⟩ := report_of_fatal hbooth hclass hhalted
    rw [hfault]; rfl
  have hreport : (report e rt).boot.stage = 0x85 := by
    obtain ⟨r, hrest, ⟨h, hsame⟩ | h⟩ := report_cases e rt
    · rw [h, hsame, hhalted] at hhalt
      cases hhalt
    · have hboot : (if inTamperHalt r then r else stopAll stDeviceFault r).boot = rt.boot := by
        have hr : r.boot = rt.boot := read_of_rest Rt.boot hrest fun _ => rfl
        split
        · exact hr
        · exact (read_of_rest Rt.boot (sansWork_stopAll stDeviceFault r) fun _ => rfl).trans hr
      rw [h]
      unfold fatalStage
      rw [hboot, hstart, if_neg (by rw [Bool.false_or]; exact fun h => hstage (of_decide_eq_true h))]
      rfl
  have hraise : raise e rt = unpair (report e rt) := if_pos (by rw [inFatal, hhalt, Bool.or_true])
  rw [hraise]
  unfold unpair
  split
  · obtain ⟨r, w, h⟩ := report_of_halted (plainEvent .peerLink [])
      (rt := { report e rt with peer := { (report e rt).peer with paired := false, lost := true } }) hhalt
    rw [h]
    exact hreport
  · exact hreport

/-! ## Steps that run and steps that end -/

/-- A step of Table 4.1 runs now: the module is starting up, what the step waits for has ended, the step itself has not (R68). -/
structure StepRuns (n : Nat) (rt : Rt) : Prop where
  starting : starting rt n = true
  ready : stepReady rt n = true
  notDone : stepDone rt n = false

theorem StepRuns.not_idle {n : Nat} {rt : Rt} (h : StepRuns n rt) :
    ¬(!(Machine.starting rt n && stepReady rt n && !stepDone rt n)) = true := by
  rw [h.starting, h.ready, h.notDone]
  exact Bool.false_ne_true

theorem doStartUp_handshake {e : StartEnv} {s : State} (h : StepRuns 2 s.rt) : doStartUp 2 e s = onRt (endStep 2) (handshake e s) :=
  if_neg h.not_idle
theorem doStartUp_lifeCycle {e : StartEnv} {s : State} (h : StepRuns 4 s.rt) : doStartUp 4 e s = lifeCycleStep e s := if_neg h.not_idle
theorem doStartUp_derive {e : StartEnv} {s : State} (h : StepRuns 5 s.rt) : doStartUp 5 e s = deriveStep s := if_neg h.not_idle
theorem doStartUp_recovery {e : StartEnv} {s : State} (h : StepRuns 10 s.rt) : doStartUp 10 e s = recoveryStep s := if_neg h.not_idle
theorem doStartUp_seal {e : StartEnv} {s : State} (h : StepRuns 11 s.rt) : doStartUp 11 e s = sealStep s := if_neg h.not_idle
theorem doStartUp_strongroom {e : StartEnv} {s : State} (h : StepRuns 12 s.rt) : doStartUp 12 e s = strongroomStep e s := if_neg h.not_idle
theorem doStartUp_booths {e : StartEnv} {s : State} (h : StepRuns 13 s.rt) : doStartUp 13 e s = boothStep e s := if_neg h.not_idle

/-- Showing the stage writes the stage. -/
theorem showStage_eq (rt : Rt) : ∃ g, showStage rt = { rt with boot := { rt.boot with stage := g } } := by
  unfold showStage
  split
  · exact ⟨rt.boot.stage, rfl⟩
  · split
    · exact ⟨_, rfl⟩
    · exact ⟨rt.boot.stage, rfl⟩

/-- The end of a step lists it and shows the stage. -/
theorem endStep_eq (n : Nat) (rt : Rt) :
    ∃ g, endStep n rt = { rt with boot := { rt.boot with stage := g, stepsDone := addTo n rt.boot.stepsDone } } :=
  showStage_eq { rt with boot := { rt.boot with stepsDone := addTo n rt.boot.stepsDone } }

/-- A stop code stands as a step ends (R68). -/
theorem endStep_of_stop {n : Nat} {rt : Rt} (h : 0x80 ≤ rt.boot.stage.toNat) :
    endStep n rt = { rt with boot := { rt.boot with stepsDone := addTo n rt.boot.stepsDone } } :=
  if_pos (.inl h)

/-! ## Step 2: a tampered module (R70) -/

theorem repin_eq (rt : Rt) : ∃ p x o, repin rt = { rt with alert := { rt.alert with pin := p }, msix := x, out := o } := by
  unfold repin
  extract_lets rt'
  split
  · exact ⟨_, rt.msix, rt.out, rfl⟩
  · obtain ⟨x, o, h⟩ := signal_eq 0 rt'
    exact ⟨_, x, o, h⟩

/-- Whatever the module was doing, the end of service in a tamper halt shows its stage, clears SERVICE_READY and holds ALERT_N (R420,
R440). -/
theorem haltService_shows (code : BitVec 8) (rt : Rt) :
    (haltService code rt).boot.stage = code ∧ (haltService code rt).boot.serviceReady = false ∧
      (haltService code rt).alert.tamperHold = true := by
  unfold haltService
  extract_lets _ _ seq _ _ _ _ halted pinned responded
  obtain ⟨p, x, o, hpinned⟩ := repin_eq halted
  have hresponded : responded.boot = halted.boot ∧ responded.alert.tamperHold = halted.alert.tamperHold := by
    have hpin : pinned.boot = halted.boot ∧ pinned.alert.tamperHold = halted.alert.tamperHold := by
      simp only [pinned, hpinned, and_self]
    unfold responded
    split
    · obtain ⟨m, x, o, h⟩ := respond_eq false seq stTamperHalt [] pinned
      rw [h]
      exact hpin
    · exact hpin
  obtain ⟨hboot, hhold⟩ := hresponded
  have hsleep : sansIslands (sleepDie 1 (sleepDie 0 responded)) = sansIslands responded :=
    (sansIslands_sleepDie 1 _).trans (sansIslands_sleepDie 0 _)
  rw [read_of_rest Rt.boot hsleep fun _ => rfl, read_of_rest Rt.alert hsleep fun _ => rfl, hboot, hhold]
  exact ⟨rfl, rfl, rfl⟩

/-- With the tamper flag set the handshake halts the module and the gondola's root is zero. -/
theorem handshake_of_tamperFlag {e : StartEnv} {s : State} (hlink : e.glinkOk = true) (hflag : s.gon.tamperFlag = true) :
    ∃ rt, (handshake e s).rt = haltService 0x81 rt ∧ (handshake e s).gon.root = 0 := by
  simp only [handshake, hlink, hflag, Bool.not_true, Bool.false_eq_true, if_false, if_true]
  exact ⟨_, rfl, trivial⟩

/-! ## Step 4: a SEALED module (Table 4.4) -/

theorem countEpisode_of_counted {b : Burning} (h : b.s.gon.uncounted = false) : countEpisode b = b := by
  simp only [countEpisode, h]
  rfl

theorem pendingBurn_of_none {b : Burning} (hmark : openSlot b.s.otp = none) (htarget : b.s.rt.lc.pendingTarget = none) :
    pendingBurn b = b := by
  simp only [pendingBurn, hmark, htarget]

/-- The row of SEALED in Table 4.4: the root is erased and start-up stops with 83h. -/
theorem decodeRows_sealed {fatal : Bool} {b : Burning} (hlc : b.s.rt.boot.lcState = 0x03) (hhalt : inTamperHalt b.s.rt = false)
    (hhold : b.s.rt.boot.stage ≠ 0x80) (hfatal : inFatal b.s.rt = false) :
    decodeRows fatal b = { b with s := onRt (stopAt 0x83) (eraseRoot b.s) } := by
  have hrest : ¬((eraseRoot b.s).rt.boot.stage = 0x80 ∨ inFatal (eraseRoot b.s).rt = true) :=
    not_or.mpr ⟨hhold, fun h => nomatch hfatal.symm.trans h⟩
  simp only [decodeRows, hlc, hhalt, hrest]
  rfl

/-- With nothing to count or burn step 4 of a SEALED module shows the decoded state, erases the root and stops with 83h. -/
theorem lifeCycleStep_sealed (e : StartEnv) {s : State} (hcounted : s.gon.uncounted = false) (hmark : openSlot s.otp = none)
    (htarget : s.rt.lc.pendingTarget = none) (hlc : lcDecode s.otp = 0x03) (hstage : s.rt.boot.stage.toNat < 0x80)
    (hfatal : inFatal s.rt = false) :
    lifeCycleStep e s = onRt (endStep 4) (onRt (stopAt 0x83) (eraseRoot (showDecode s))) := by
  have hcode (c : BitVec 8) (hc : 0x80 ≤ c.toNat) : s.rt.boot.stage ≠ c := fun h => by rw [h] at hstage; omega
  have hhalt : inTamperHalt s.rt = false := by
    rw [inTamperHalt, beq_false_of_ne (hcode 0x81 (by decide)), beq_false_of_ne (hcode 0x82 (by decide))]
    rfl
  have hburned : pendingBurn (countEpisode (burning e.pulses s)) = burning e.pulses s := by
    rw [countEpisode_of_counted hcounted]
    exact pendingBurn_of_none hmark htarget
  have hrows := decodeRows_sealed (fatal := inFatal (showDecode s).rt) (b := { burning e.pulses s with s := showDecode s })
    hlc hhalt (hcode 0x80 (by decide)) hfatal
  have hseed : (showDecode s).rt.boot.lcState ≠ 0x06 := fun h => nomatch hlc.symm.trans h
  unfold lifeCycleStep
  rw [hburned]
  simp only [burning, Bool.false_eq_true, if_false, hseed] at hrows ⊢
  rw [hrows]
  rfl

/-! ## Steps 10 to 13 -/

/-- With an empty journal step 10 only sets the epoch; the epoch mark stays (R76). -/
theorem recoveryStep_of_no_records {s : State} (h : s.nv.journal = []) :
    (recoveryStep s).rt = endStep 10 { s.rt with epoch := topEpoch s.nv + 1 } ∧ markOf (recoveryStep s).nv = markOf s.nv := by
  simp only [recoveryStep, recoverJournal, h, raiseMark, markOf, maxOf, List.map_nil, List.filter_nil, List.foldl_nil, onRt_rt, onRt_nv,
    Nat.max_zero, and_self]

theorem drawNow_of_idle {d : Nat} (n : Nat) {rt : Rt} (hserve : canServe rt (mintOf rt d) = true) (hidle : (mintOf rt d).waiting = []) :
    drawNow d n rt = some ((generate n (mintOf rt d)).1, setMint d (generate n (mintOf rt d)).2 rt) := by
  simp only [drawNow, hserve, hidle]
  rfl

theorem takeDelivered_eq {d who : Nat} {rt : Rt} {k : Bytes} (h : kget (mintOf rt d).delivered who = some k) :
    takeDelivered d who rt = some (k, setMint d { mintOf rt d with delivered := kdel (mintOf rt d).delivered who } rt) := by
  simp only [takeDelivered, h]

/-- Where flash returns every reserved tile as it was stored, loading them leaves nothing behind. -/
theorem loadReserved_of_stored {e : StartEnv} (h : e.tiles1 = []) (rt : Rt) : loadReserved e rt = rt := by
  have hnone : ((List.range reservedTiles).filter fun t => (kget e.tiles1 t).isSome) = [] :=
    List.filter_eq_nil_iff.mpr fun t _ => by rw [h]; exact Bool.false_ne_true
  rw [loadReserved, hnone]
  rfl

/-- A map whose values are replaced, of another type perhaps, lists the same keys. -/
theorem kget_mapValues {α β : Type} (f : α → β) (m : KMap α) (k : Nat) :
    kget (m.map fun kv => (kv.1, f kv.2)) k = (kget m k).map f := by
  induction m with
  | nil => rfl
  | cons x m ih =>
    obtain ⟨i, v⟩ := x
    simp only [List.map_cons, kget]
    by_cases h : i = k
    · rw [if_pos h, if_pos h]; rfl
    · rw [if_neg h, if_neg h, ih]

/-- The booths of a table as step 13 creates them when every entry checks (R81). -/
def recreated (nv : Nv) (rt : Rt) : Rt :=
  { rt with
    booths := nv.boothTable.map fun kv => (kv.1, newBooth kv.2)
    disp := { rt.disp with part := nv.part.map (withoutHeld rt) }
    boot := { rt.boot with notRecreated := [] } }

theorem boothStep_of_good {e : StartEnv} (h : e.badBooths = []) (s : State) :
    boothStep e s = onRt (fun rt => endStep 13 (recreated s.nv rt)) s := by
  have hnot (b : Nat) : decide (b ∈ e.badBooths) = false := by rw [h]; rfl
  have hbad : ((kkeys s.nv.boothTable).filter fun b => decide (b ∈ e.badBooths)) = [] :=
    List.filter_eq_nil_iff.mpr fun b _ => ne_true_of_eq_false (hnot b)
  have hgood : (s.nv.boothTable.filter fun kv => !decide (kv.1 ∈ e.badBooths)) = s.nv.boothTable :=
    List.filter_eq_self.mpr fun kv _ => by rw [hnot]; rfl
  unfold boothStep
  rw [hbad, hgood]
  rfl

/-! ## The mints' sources -/

@[simp] theorem mintOf_setMint_self (d : Nat) (m : Mint) (rt : Rt) : mintOf (setMint d m rt) d = m := by
  by_cases h : d = 0 <;> simp only [mintOf, setMint, h, if_true, if_false]

@[simp] theorem setMint_setMint (d : Nat) (m m' : Mint) (rt : Rt) : setMint d m (setMint d m' rt) = setMint d m rt := by
  by_cases h : d = 0 <;> simp only [setMint, h, if_true, if_false]

theorem setMint_mintOf (d : Nat) (rt : Rt) : setMint d (mintOf rt d) rt = rt := by
  by_cases h : d = 0 <;> simp only [mintOf, setMint, h, if_true, if_false]

/-- What holds of RO0, RO1, ML0 and ML1 holds of every source. -/
theorem forall_src {p : Fin 4 → Prop} (ro0 : p 0) (ro1 : p 1) (ml0 : p 2) (ml1 : p 3) : ∀ i, p i
  | 0 => ro0
  | 1 => ro1
  | 2 => ml0
  | 3 => ml1

theorem mem_srcs : ∀ i, i ∈ srcs := by decide

theorem srcOf_setSrc (i j : Fin 4) (x : NoiseSrc) (m : Mint) : srcOf (setSrc i x m) j = if i = j then x else srcOf m j :=
  forall_src (p := fun i => ∀ j, srcOf (setSrc i x m) j = if i = j then x else srcOf m j) (forall_src rfl rfl rfl rfl)
    (forall_src rfl rfl rfl rfl) (forall_src rfl rfl rfl rfl) (forall_src rfl rfl rfl rfl) i j

/-- A mint but for its sources. -/
def sansSrcs (m : Mint) : Mint := { m with ro0 := NoiseSrc.reset, ro1 := NoiseSrc.reset, ml0 := NoiseSrc.reset, ml1 := NoiseSrc.reset }

theorem sansSrcs_setSrc (i : Fin 4) (x : NoiseSrc) (m : Mint) : sansSrcs (setSrc i x m) = sansSrcs m :=
  forall_src (p := fun i => sansSrcs (setSrc i x m) = sansSrcs m) rfl rfl rfl rfl i

/-! ## MINT_START_UP_TESTS (R346) -/

/-- Source i of a mint is not retired, and its first 4 096 samples pass the assay. -/
structure Passes (smp : Samples) (m : Mint) (i : Fin 4) : Prop where
  notRetired : (srcOf m i).st ≠ .retired
  full : (sampleOf smp i).length = 4096
  clean : (assay (freshSrc (srcOf m i)) (sampleOf smp i)).2 = none

/-- The start-up tests put a source that passes on standby. -/
theorem startSource_of_passes {d : Nat} {smp : Samples} {i : Fin 4} {rt : Rt} (hfore : (mintOf rt d).forerunner = false)
    (h : Passes smp (mintOf rt d) i) :
    ∃ x : NoiseSrc, x.st = .standby ∧ startSource d smp i rt = setMint d (setSrc i x (mintOf rt d)) rt := by
  obtain ⟨hretired, hfull, hclean⟩ := h
  have htake : (sampleOf smp i).take 4096 = sampleOf smp i := List.take_of_length_le (Nat.le_of_eq hfull)
  generalize hassay : assay (freshSrc (srcOf (mintOf rt d) i)) (sampleOf smp i) = r at hclean
  obtain ⟨y, t⟩ := r
  subst hclean
  refine ⟨{ y with st := .standby }, rfl, ?_⟩
  simp only [startSource, htake, hassay, hfore, Bool.false_and, Bool.or_false, beq_iff_eq, hretired, if_false]

/-- When the sources of a list pass they all stand by, and nothing else of the mint or the module has changed. -/
theorem startSources_of_pass {d : Nat} {smp : Samples} {l : List (Fin 4)} (hl : l.Nodup) {rt : Rt}
    (hfore : (mintOf rt d).forerunner = false) (hpass : ∀ i ∈ l, Passes smp (mintOf rt d) i) :
    ∃ m, l.foldl (fun r i => startSource d smp i r) rt = setMint d m rt ∧ sansSrcs m = sansSrcs (mintOf rt d) ∧
      ∀ i ∈ l, (srcOf m i).st = .standby := by
  suffices ∃ m, l.foldl (fun r i => startSource d smp i r) rt = setMint d m rt ∧ sansSrcs m = sansSrcs (mintOf rt d) ∧
      (∀ i ∈ l, (srcOf m i).st = .standby) ∧ ∀ i ∉ l, srcOf m i = srcOf (mintOf rt d) i by
    obtain ⟨m, hm, hrest, hin, _⟩ := this
    exact ⟨m, hm, hrest, hin⟩
  induction l generalizing rt with
  | nil => exact ⟨mintOf rt d, (setMint_mintOf d rt).symm, rfl, nofun, fun _ _ => rfl⟩
  | cons i l ih =>
    obtain ⟨hi, hl⟩ := List.nodup_cons.mp hl
    obtain ⟨x, hx, hrow⟩ := startSource_of_passes hfore (hpass i List.mem_cons_self)
    have hother : ∀ j ≠ i, srcOf (setSrc i x (mintOf rt d)) j = srcOf (mintOf rt d) j := fun j hj => by
      rw [srcOf_setSrc, if_neg (Ne.symm hj)]
    have hrest : sansSrcs (setSrc i x (mintOf rt d)) = sansSrcs (mintOf rt d) := sansSrcs_setSrc i x _
    have hfore' : (setSrc i x (mintOf rt d)).forerunner = false := (congrArg Mint.forerunner hrest).trans hfore
    have hpass' : ∀ j ∈ l, Passes smp (setSrc i x (mintOf rt d)) j := fun j hj => by
      obtain ⟨hretired, hfull, hclean⟩ := hpass j (List.mem_cons_of_mem i hj)
      have hsrc := hother j fun h => hi (h ▸ hj)
      exact ⟨hsrc ▸ hretired, hfull, hsrc ▸ hclean⟩
    obtain ⟨m, hm, hmRest, hin, hout⟩ := ih hl (rt := setMint d (setSrc i x (mintOf rt d)) rt)
      (by rw [mintOf_setMint_self]; exact hfore') (by rw [mintOf_setMint_self]; exact hpass')
    rw [mintOf_setMint_self] at hmRest hout
    refine ⟨m, ?_, hmRest.trans hrest, fun j hj => ?_, fun j hj => ?_⟩
    · rw [List.foldl_cons, hrow, hm, setMint_setMint]
    · obtain rfl | hj := List.mem_cons.mp hj
      · rw [hout j hi, srcOf_setSrc, if_pos rfl, hx]
      · exact hin j hj
    · obtain ⟨hji, hj⟩ := not_or.mp fun h => hj (List.mem_cons.mpr h)
      rw [hout j hj, hother j hji]

/-- When all four stand by, RO0 and ML0 enter service, and nothing but sources changes (R346). -/
theorem enterService_of_standby {m : Mint} (hfore : m.forerunner = false) (h : ∀ i, (srcOf m i).st = .standby) :
    inServiceList (enterService m) = [0, 2] ∧ sansSrcs (enterService m) = sansSrcs m := by
  let m0 := setSrc 0 { srcOf m 0 with st := .inService } m
  let m2 := setSrc 2 { srcOf m0 2 with st := .inService } m0
  have hrest : sansSrcs m2 = sansSrcs m := (sansSrcs_setSrc 2 _ m0).trans (sansSrcs_setSrc 0 _ m)
  have hfore2 : m2.forerunner = false := (congrArg Mint.forerunner hrest).trans hfore
  have hst (i : Fin 4) : (srcOf m2 i).st = if i = 0 ∨ i = 2 then .inService else .standby := by
    by_cases h2 : i = 2
    · rw [if_pos (.inr h2), h2]
      rfl
    · by_cases h0 : i = 0
      · rw [if_pos (.inl h0), h0]
        rfl
      · rw [if_neg (not_or.mpr ⟨h0, h2⟩), srcOf_setSrc, if_neg (Ne.symm h2), srcOf_setSrc, if_neg (Ne.symm h0), h]
  have henter : enterService m = m2 := by
    have hserving (i : Fin 4) (hi : i = 0 ∨ i = 2) : serving m2 i = true := by rw [serving, hst, if_pos hi]; rfl
    unfold enterService
    extract_lets put first second third
    have hfirst : first = m0 := if_pos (by rw [onStandby, h]; rfl)
    have hsecond : second = m2 := by
      unfold second
      rw [hfirst]
      exact if_pos (by rw [onStandby, srcOf_setSrc, if_neg (by decide), h]; rfl)
    have hthird : third = m2 := by
      unfold third
      rw [hsecond]
      exact if_pos (hserving 0 (.inl rfl))
    rw [hsecond, hthird, if_neg (ne_true_of_eq_false hfore2)]
    exact if_pos (.inl (hserving 2 (.inr rfl)))
  rw [henter]
  exact ⟨by simp only [inServiceList, srcs, List.filter_cons, List.filter_nil, serving, hst]; decide, hrest⟩

/-- Two sources in service give the first two blocks (R346). -/
theorem firstBlocks_of_two {smp : Samples} {m : Mint} {i j : Fin 4} (h : inServiceList m = [i, j]) :
    ∃ b, firstBlocks smp m = some b := by
  simp only [firstBlocks, h]
  exact ⟨_, rfl⟩

/-- A mint whose DRBG is instantiated from its first two blocks (R346). -/
def seededMint (kv : Bytes × Bytes) (now : Nat) (m : Mint) : Mint :=
  { m with key := kv.1, v := kv.2, seeded := true, served := 0, seededAt := now, blocks := m.blocks + 2, ready := [] }

theorem mintOf_showStage (d : Nat) (rt : Rt) : mintOf (showStage rt) d = mintOf rt d := by
  obtain ⟨g, h⟩ := showStage_eq rt
  rw [h]; rfl

/-- When all four sources pass, the mint takes RO0 and ML0 into service and is seeded. -/
theorem doMintStartUpTests_of_pass {d : Nat} {smp : Samples} {s : State} (hready : islandReady s.rt (mintIsland d) = true)
    (hunseeded : (mintOf s.rt d).seeded = false) (hfore : (mintOf s.rt d).forerunner = false)
    (hstep : (stepDone s.rt 6 || cd0Alone s.rt d) = true) (hpass : ∀ i, Passes smp (mintOf s.rt d) i) :
    ∃ kv now m, mintOf (doMintStartUpTests d smp s).rt d = seededMint kv now m ∧ inServiceList m = [0, 2] ∧
      sansSrcs m = sansSrcs (mintOf s.rt d) := by
  obtain ⟨m, hfold, hrest, hstandby⟩ := startSources_of_pass (l := srcs) (by decide) hfore fun i _ => hpass i
  have hall (i : Fin 4) : (srcOf m i).st = .standby := hstandby i (mem_srcs i)
  obtain ⟨hserve, henter⟩ := enterService_of_standby (m := m) ((congrArg Mint.forerunner hrest).trans hfore) hall
  obtain ⟨b, hblocks⟩ := firstBlocks_of_two (smp := smp) hserve
  unfold doMintStartUpTests
  extract_lets rt m0 full tested entered
  have hfull : full = true := List.all_eq_true.mpr fun i _ => by
    rw [Bool.or_eq_true, decide_eq_true_iff]
    exact .inr (Nat.le_of_eq (hpass i).full.symm)
  have hgo : (islandReady rt (mintIsland d) && !m0.seeded && full && (stepDone rt 6 || cd0Alone rt d)) = true := by
    simp only [rt, m0, hready, hunseeded, hfull, hstep, Bool.not_false, Bool.and_self]
  have hentered : entered = enterService m := by
    have htested : tested = setMint d m s.rt := hfold
    unfold entered
    rw [htested, mintOf_setMint_self]
  rw [if_pos hgo, hentered, hblocks]
  exact ⟨_, _, enterService m, (mintOf_showStage d _).trans (mintOf_setMint_self d _ tested), hserve, henter.trans hrest⟩

/-! ## Mask expanders (R77) -/

/-- Drawing n times counts n requests. -/
theorem served_forN_generate (k n : Nat) (m : Mint) : (forN n (fun _ m => (generate k m).2) m).served = m.served + n := by
  induction n with
  | zero => rfl
  | succ n ih =>
    show (forN n (fun _ m => (generate k m).2) m).served + 1 = m.served + (n + 1)
    omega

theorem mintOf_passLatch (e : EngineRef) (d : Nat) (rt : Rt) : mintOf (passLatch e rt) d = mintOf rt d := by
  have hgrant (c : ClerkId) : mintOf (grant e c rt) d = mintOf rt d := by
    unfold grant
    extract_lets x latch claimed k
    show mintOf (setCom e _ rt) d = mintOf rt d
    simp only [mintOf, setCom_mint0, setCom_mint1]
  unfold passLatch
  extract_lets x
  split
  · rfl
  · next c _ _ =>
    split
    · rfl
    · exact hgrant c

theorem mintOf_passIsland (i d : Nat) (rt : Rt) : mintOf (passIsland i rt) d = mintOf rt d :=
  foldl_keeps (mintOf · d) fun r e => mintOf_passLatch e d r

theorem mintOf_setIsland (i : Nat) (x : Island) (d : Nat) (rt : Rt) : mintOf (setIsland i x rt) d = mintOf rt d := rfl

/-- Before its masks are seeded a mint draws once for every expander without a seed (R77). -/
theorem mintOf_doMaskExpanderSeeding {d : Nat} {rt : Rt} (hseeded : (mintOf rt d).seeded = true)
    (hmask : (mintOf rt d).maskSeeded = false) (hstep : stepDone rt 6 = true) :
    mintOf (doMaskExpanderSeeding d rt) d =
      { forN (((unseeded rt d).map expanders).sum) (fun _ m => (generate 32 m).2) (mintOf rt d) with maskSeeded := true } := by
  unfold doMaskExpanderSeeding
  extract_lets m l drawn written islands
  have hgo : (m.seeded && stepDone rt 6 && (!m.maskSeeded || !l.isEmpty)) = true := by
    simp only [m, hseeded, hmask, hstep, Bool.not_false, Bool.true_or, Bool.and_self]
  rw [if_pos hgo, mintOf_showStage]
  calc _ = mintOf islands d := foldl_keeps (mintOf · d) fun r i => mintOf_passIsland i d r
    _ = mintOf written d := foldl_keeps (mintOf · d) fun r i => mintOf_setIsland i _ d r
    _ = _ := mintOf_setMint_self d _ rt

/-! ## MINT_START_TIMEOUT (R78) -/

/-- The event of a mint whose sources all failed. -/
def mintExhaustedEvent (d : Nat) : FaultEvent :=
  { source := .mintExhausted, scope := d, island := some (mintIsland d), booth := none, detail := [], houseProg := false }

theorem doMintStartTimeout_eq {d : Nat} {rt : Rt} (hstep : stepDone rt 6 = true) (hunseeded : (mintOf rt d).seeded = false)
    (hnone : inServiceList (mintOf rt d) = []) (hhalt : inTamperHalt rt = false) (hfatal : inFatal rt = false) :
    doMintStartTimeout d rt = raise (mintExhaustedEvent d) rt := by
  simp only [doMintStartTimeout, hstep, hunseeded, hnone, hhalt, hfatal]
  rfl

/-! ## SERVICE_READY (R69, R83) -/

/-- The module as it enters service: the stage, the time since the start, the listeners (R69, R83). -/
def inServiceFrom (rt : Rt) : Rt :=
  { stopAt 0x0C rt with
    boot := { (stopAt 0x0C rt).boot with
      serviceReady := true
      srTime := min 0xFFFFF ((rt.now - rt.boot.startAt) / 1000)
      stepsDone := addTo 14 rt.boot.stepsDone }
    net := { rt.net with listening := true } }

theorem doServiceReady_eq {s : State} (hstart : starting s.rt 14 = true) (hready : stepReady s.rt 14 = true)
    (hservice : s.rt.boot.serviceReady = false) (hfatal : inFatal s.rt = false) :
    doServiceReady s = alignNow (onRt inServiceFrom s) := by
  simp only [doServiceReady, hstart, hready, hservice, hfatal]
  rfl

theorem alignNow_spec (s : State) : (alignNow s).rt = s.rt ∧ (alignNow s).nv.align.length = s.nv.align.length + 1 :=
  ⟨rfl, List.length_append⟩

/-! ## Tiles (R80, R270) -/

/-- A copy's check depends on the versions and the keys, which stay while requests go. -/
theorem flashBad_of_sansReqs {a b : Rt} (h : sansReqs a = sansReqs b) (t : Nat) (r : Option TileImage) :
    flashBad a t r = flashBad b t r := by
  have hvers : a.strong.vers = b.strong.vers := show (sansReqs a).vers = (sansReqs b).vers from congrArg Strong.vers h
  have hkeys : a.strong.keys = b.strong.keys := show (sansReqs a).keys = (sansReqs b).keys from congrArg Strong.keys h
  simp only [flashBad, hvers, hkeys]

theorem failed_of_sansReqs {a b : Rt} (h : sansReqs a = sansReqs b) : a.strong.failed = b.strong.failed :=
  show (sansReqs a).failed = (sansReqs b).failed from congrArg Strong.failed h

theorem sansReqs_tileEvent (place t : Nat) (rt : Rt) : sansReqs (tileEvent place t rt) = sansReqs rt := sansReqs_raise _ rt

theorem loadTile_of_good {t : Nat} {r1 : Option TileImage} (r2 : Option TileImage) {rt : Rt} (h : flashBad rt t r1 = false) :
    loadTile t r1 r2 rt = rt :=
  if_pos (by rw [h]; rfl)

/-- A bad first copy with a good second is no failed tile. -/
theorem loadTile_of_fallback {t : Nat} {r1 r2 : Option TileImage} {rt : Rt} (h1 : flashBad rt t r1 = true)
    (h2 : flashBad rt t r2 = false) : (loadTile t r1 r2 rt).strong.failed = rt.strong.failed := by
  have hevent := sansReqs_tileEvent 2 t rt
  have hgood : flashBad (tileEvent 2 t rt) t r2 = false := (flashBad_of_sansReqs hevent t r2).trans h2
  simp only [loadTile, h1, hgood, Bool.not_true, Bool.not_false, Bool.false_eq_true, if_false, if_true]
  exact failed_of_sansReqs ((sansReqs_raise _ _).trans hevent)

/-- With both copies bad the tile is failed (R270). -/
theorem loadTile_of_both_bad {t : Nat} {r1 r2 : Option TileImage} {rt : Rt} (h1 : flashBad rt t r1 = true)
    (h2 : flashBad rt t r2 = true) : (loadTile t r1 r2 rt).strong.failed = addTo t rt.strong.failed := by
  have hevent := sansReqs_tileEvent 2 t rt
  have hbad : flashBad (tileEvent 2 t rt) t r2 = true := (flashBad_of_sansReqs hevent t r2).trans h2
  have hfailed : (tileEvent 3 t (tileEvent 2 t rt)).strong.failed = rt.strong.failed :=
    failed_of_sansReqs ((sansReqs_tileEvent 3 t _).trans hevent)
  simp only [loadTile, h1, hbad, Bool.not_true, Bool.false_eq_true, if_false, hfailed]

/-- A tile that no earlier demand has brought, and whose first copy is good, is the background's next. -/
theorem doBackgroundTileLoad_of_good {r1 : Option TileImage} (r2 : Option TileImage) {rt : Rt} (hload : loading rt = true)
    (hidle : demanded rt = false) (hnew : rt.strong.nextTile ∉ rt.strong.extra) (hgood : flashBad rt rt.strong.nextTile r1 = false) :
    let t := rt.strong.nextTile
    doBackgroundTileLoad r1 r2 rt = { rt with
      strong := { rt.strong with nextTile := t + 1, extra := rt.strong.extra.filter (· ≠ t) }
      boot := { rt.boot with resident := rt.boot.resident || decide (t + 1 = allTiles) } } := by
  intro t
  simp only [doBackgroundTileLoad, hload, hidle, hnew, loadTile_of_good r2 hgood, Bool.not_false, Bool.and_true, if_true, if_false]
  by_cases hlast : rt.strong.nextTile + 1 = allTiles
  · rw [if_pos hlast, decide_eq_true hlast, Bool.or_true]
  · rw [if_neg hlast, decide_eq_false hlast, Bool.or_false]

/-- A demand that is outstanding is served first. -/
theorem doBackgroundTileLoad_of_demanded (r1 r2 : Option TileImage) {rt : Rt} (h : demanded rt = true) :
    doBackgroundTileLoad r1 r2 rt = rt := by
  simp only [doBackgroundTileLoad, h, Bool.not_true, Bool.and_false, Bool.false_eq_true, if_false]

theorem doDemandLoad_eq {k : Nat} (r1 r2 : Option TileImage) {rt : Rt} (hload : loading rt = true) (hk : k < allTiles)
    (hout : tileResident rt k = false) :
    doDemandLoad k r1 r2 rt =
      { loadTile k r1 r2 rt with
        strong := { (loadTile k r1 r2 rt).strong with extra := addTo k (loadTile k r1 r2 rt).strong.extra } } := by
  simp only [doDemandLoad, hload, hk, hout]
  rfl

theorem indexLoaded_of_loading {rt : Rt} (h : loading rt = true) : rt.strong.indexLoaded = true := by
  simp only [loading, Bool.and_eq_true] at h
  obtain ⟨⟨⟨hindex, _⟩, _⟩, _⟩ := h
  exact hindex

/-! ## The statement -/

theorem exec_startUp (n : Nat) (e : StartEnv) (s : State) : exec (.startUp n e) s = .next (doStartUp n e s) := rfl
theorem exec_mintStartUpTests (d : Die) (smp : Samples) (s : State) :
    exec (.mintStartUpTests d smp) s = .next (doMintStartUpTests d.val smp s) := rfl
theorem exec_mintStartTimeout (d : Die) (s : State) : exec (.mintStartTimeout d) s = .next (onRt (doMintStartTimeout d.val) s) := rfl
theorem exec_maskExpanderSeeding (d : Die) (s : State) :
    exec (.maskExpanderSeeding d) s = .next (onRt (doMaskExpanderSeeding d.val) s) := rfl
theorem exec_serviceReady (s : State) : exec .serviceReady s = .next (doServiceReady s) := rfl
theorem exec_backgroundTileLoad (r1 r2 : Option TileImage) (s : State) :
    exec (.backgroundTileLoad r1 r2) s = .next (onRt (doBackgroundTileLoad r1 r2) s) := rfl
theorem exec_demandLoad (k : Nat) (r1 r2 : Option TileImage) (s : State) :
    exec (.demandLoad k r1 r2) s = .next (onRt (doDemandLoad k r1 r2) s) := rfl

/-- Settles O29, row by row: the steps by what each leaves as it ends, the mints by what their sources pass, the tiles by what the events
of a bad copy leave of the strongroom. -/
theorem startUp : Obligations.StartUp := by
  refine ⟨?tampered, ?notErased, ?keys, ?epoch, ?sealMap, ?strongroom, ?booths, ?mint, ?timeout, ?masks, ?service, ?background, ?waits,
    ?demand, ?copies⟩
  case tampered =>
    intro e s hstart hready hdone hlink hflag _
    obtain ⟨rt, hrt, hroot⟩ := handshake_of_tamperFlag hlink hflag
    obtain ⟨hstage, hservice, hhold⟩ := haltService_shows 0x81 rt
    refine ⟨_, exec_startUp 2 e s, ?_⟩
    rw [doStartUp_handshake ⟨hstart, hready, hdone⟩, onRt_rt, onRt_gon, hrt, endStep_of_stop (by rw [hstage]; decide)]
    dsimp only
    exact ⟨hstage, hroot, hhold, hservice, mem_addTo_self 2 _⟩
  case notErased =>
    intro e s hstart hready hdone hcounted hmark htarget hlc hstage hfatal
    refine ⟨_, exec_startUp 4 e s, ?_⟩
    rw [doStartUp_lifeCycle ⟨hstart, hready, hdone⟩, lifeCycleStep_sealed e hcounted hmark htarget hlc hstage hfatal, onRt_rt,
      endStep_of_stop (show 0x80 ≤ (0x83#8).toNat by decide)]
    exact ⟨rfl, hlc, rfl, rfl⟩
  case keys =>
    intro e s hstart hready hdone
    obtain ⟨g, hend⟩ := endStep_eq 5 (deriveKeys s.otp.serial { s.rt with kdbRoot := s.gon.root })
    refine ⟨_, exec_startUp 5 e s, ?_⟩
    rw [doStartUp_derive ⟨hstart, hready, hdone⟩, deriveStep, onRt_rt, hend]
    exact ⟨rfl, rfl, mem_addTo_self 5 _⟩
  case epoch =>
    intro e s hstart hready hdone hjournal
    obtain ⟨hrt, hmark⟩ := recoveryStep_of_no_records hjournal
    obtain ⟨g, hend⟩ := endStep_eq 10 { s.rt with epoch := topEpoch s.nv + 1 }
    refine ⟨_, exec_startUp 10 e s, ?_⟩
    rw [doStartUp_recovery ⟨hstart, hready, hdone⟩, hrt, hend]
    exact ⟨rfl, hmark, mem_addTo_self 10 _⟩
  case sealMap =>
    intro e s hstart hready hdone hserve hidle
    refine ⟨_, (generate 8 s.rt.mint0).1, exec_startUp 11 e s, ?_⟩
    rw [doStartUp_seal ⟨hstart, hready, hdone⟩, sealStep, drawNow_of_idle (d := 0) 8 hserve hidle]
    dsimp only
    obtain ⟨g, hend⟩ := endStep_eq 11 _
    rw [hend]
    exact ⟨rfl, rfl, rfl, rfl⟩
  case strongroom =>
    intro e k s hstart hready hdone htiles hkey
    refine ⟨_, exec_startUp 12 e s, ?_⟩
    rw [doStartUp_strongroom ⟨hstart, hready, hdone⟩, strongroomStep, takeDelivered_eq (d := 0) hkey]
    dsimp only
    obtain ⟨g, hend⟩ := endStep_eq 12 _
    rw [loadReserved_of_stored htiles, hend]
    exact ⟨rfl, rfl, rfl, rfl⟩
  case booths =>
    intro e b c s hstart hready hdone hgood hentry
    obtain ⟨g, hend⟩ := endStep_eq 13 (recreated s.nv s.rt)
    have hbooth : boothOf (recreated s.nv s.rt) b = some (newBooth c) := by
      show kget (s.nv.boothTable.map fun kv => (kv.1, newBooth kv.2)) b = _
      rw [kget_mapValues, hentry]; rfl
    refine ⟨_, exec_startUp 13 e s, ?_⟩
    rw [doStartUp_booths ⟨hstart, hready, hdone⟩, boothStep_of_good hgood, onRt_rt, hend]
    exact ⟨hbooth, rfl⟩
  case mint =>
    intro d smp s m hready hunseeded hfore hstep hsrcs hclean
    have hpass (i : Fin 4) : Passes smp m i := by
      obtain ⟨hretired, hfull⟩ := hsrcs i
      exact ⟨hretired, hfull, hclean i⟩
    obtain ⟨kv, now, n, hmint, hserve, hrest⟩ := doMintStartUpTests_of_pass hready hunseeded hfore hstep hpass
    have hblocks : n.blocks = m.blocks := show (sansSrcs n).blocks = (sansSrcs m).blocks from congrArg Mint.blocks hrest
    refine ⟨_, exec_mintStartUpTests d smp s, ?_⟩
    rw [hmint]
    exact ⟨rfl, hserve, rfl, congrArg (· + 2) hblocks⟩
  case timeout =>
    intro d s hstep hunseeded hnone hhalt hfatal hservice hstage
    have hhalted : s.rt.fault.halted = false := by
      rw [inFatal, Bool.or_eq_false_iff] at hfatal
      obtain ⟨_, h⟩ := hfatal
      exact h
    obtain ⟨hpend, hhalts, _⟩ := raise_of_fatal (e := mintExhaustedEvent d.val) rfl rfl hhalted
    refine ⟨_, exec_mintStartTimeout d s, ?_⟩
    rw [onRt_rt, doMintStartTimeout_eq hstep hunseeded hnone hhalt hfatal]
    exact ⟨raise_stage_of_fatal rfl rfl hhalted hservice hstage, hpend, hhalts⟩
  case masks =>
    intro d s hseeded hmask hstep
    refine ⟨_, exec_maskExpanderSeeding d s, ?_⟩
    rw [onRt_rt, mintOf_doMaskExpanderSeeding hseeded hmask hstep]
    exact ⟨rfl, served_forN_generate 32 _ _⟩
  case service =>
    intro s hstart hready hservice hfatal
    obtain ⟨hrt, halign⟩ := alignNow_spec (onRt inServiceFrom s)
    refine ⟨_, exec_serviceReady s, ?_⟩
    rw [doServiceReady_eq hstart hready hservice hfatal, hrt, halign]
    exact ⟨rfl, rfl, rfl, rfl, rfl⟩
  case background =>
    intro r1 r2 s hload hidle hnew hgood
    refine ⟨_, exec_backgroundTileLoad r1 r2 s, ?_⟩
    rw [onRt_rt, doBackgroundTileLoad_of_good r2 hload hidle hnew hgood]
    exact ⟨rfl, rfl, rfl⟩
  case waits =>
    intro r1 r2 s _ hdemand
    rw [exec_backgroundTileLoad, onRt, doBackgroundTileLoad_of_demanded r1 r2 hdemand]
  case demand =>
    intro k r1 r2 s hload hk hout hgood
    refine ⟨_, exec_demandLoad k r1 r2 s, ?_⟩
    rw [onRt_rt, doDemandLoad_eq r1 r2 hload hk hout, loadTile_of_good r2 hgood]
    refine ⟨?_, rfl⟩
    simp only [tileResident, indexLoaded_of_loading hload, mem_addTo_self, decide_true, Bool.or_true, Bool.and_self]
  case copies =>
    intro k r1 r2 s hload hk hout hbad
    have hrow := doDemandLoad_eq r1 r2 hload hk hout
    refine ⟨fun h => ⟨_, exec_demandLoad k r1 r2 s, ?_⟩, fun h => ⟨_, exec_demandLoad k r1 r2 s, ?_⟩⟩
    · rw [onRt_rt, hrow]
      exact ⟨loadTile_of_both_bad hbad h, mem_addTo_self k _⟩
    · rw [onRt_rt, hrow]
      exact ⟨loadTile_of_fallback hbad h, mem_addTo_self k _⟩

end Sys2Proof.Machine
end

section
/-! Requests, ledger entries, and the end of commands: what the requests of the management mailbox share. -/

namespace Sys2Proof.Machine

/-! ## Little-endian fields -/

theorem le_length (n v : Nat) : (le n v).length = n := by
  induction n generalizing v with
  | zero => rfl
  | succ n ih => rw [le, List.length_cons, ih]

theorem ofLe_le (n v : Nat) : ofLe (le n v) = v % 256 ^ n := by
  induction n generalizing v with
  | zero => simp [le, ofLe, Nat.mod_one]
  | succ n ih =>
    have hbyte : (BitVec.ofNat 8 v).toNat = v % 256 := BitVec.toNat_ofNat v 8
    rw [le, ofLe, ih, hbyte, Nat.pow_succ']
    exact Nat.mod_mul.symm

/-- A field that fills its request reads as the number that was written. -/
theorem leAt_le {n v : Nat} (h : v < 256 ^ n) : leAt (le n v) 0 n = v := by
  have hslice : slice (le n v) 0 n = le n v := by
    rw [slice, List.drop_zero, List.take_of_length_le (Nat.le_of_eq (le_length n v))]
  rw [leAt, hslice, ofLe_le, Nat.mod_eq_of_lt h]

/-! ## Maps by key -/

theorem kget_kmod_ne {α : Type} {m : KMap α} {k j : Nat} (f : α → α) (h : j ≠ k) : kget (kmod m k f) j = kget m j := by
  unfold kmod
  split
  · exact kget_kset_ne _ _ h.symm
  · rfl

/-! ## Serving a request -/

/-- An accepted request is answered by its row. -/
theorem serve_of_serves {src : ReqSrc} {n : Nat} {s : State} {q : Req} (h : Serves src n s q) (body : Req → State → State) :
    serve src n body s = body q s := by
  obtain ⟨here, code, accepted, head⟩ := h
  simp only [serve, here, code, accepted, head, ne_eq, not_true_eq_false, if_false, if_true]

theorem serveLen_of_serves {src : ReqSrc} {n len : Nat} {s : State} {q : Req} (h : Serves src n s q) (hlen : q.params.length = len)
    (body : Req → State → State) : serveLen src n len body s = body q s := by
  rw [serveLen, serve_of_serves h, if_pos hlen]

theorem inBound_of_past {src : ReqSrc} {q : Req} {s : State} (h : isPast (dueOf src q s.rt) s.rt = true) (body : Req → State → State) :
    inBound src body q s = refusedWith src q stDeviceFault s := if_pos h

theorem inBound_of_within {src : ReqSrc} {q : Req} {s : State} (h : isPast (dueOf src q s.rt) s.rt = false)
    (body : Req → State → State) : inBound src body q s = body q s := by
  rw [inBound, h, if_neg Bool.false_ne_true]

/-! ## Requests that wait -/

/-- A request that waits within its bound does not fail (R118). -/
theorem expireRequest_of_within {rt : Rt} {w : Waiting} (hw : rt.waiting = some w) (hdue : isPast w.due rt = false) :
    expireRequest rt = rt := by
  simp only [expireRequest, hw, hdue, Bool.false_eq_true, if_false]

theorem waiting_answerWaiting (st : Nat) (res : Bytes) (rt : Rt) : (answerWaiting st res rt).waiting = none := by
  unfold answerWaiting
  split
  · assumption
  · next w _ =>
    obtain ⟨m, x, o, h⟩ := respond_eq w.console w.seq st res { rt with waiting := none }
    rw [h]

/-- The answer to the request that waits leaves the booths, the commands and the epoch. -/
theorem answerWaiting_keeps (st : Nat) (res : Bytes) (rt : Rt) :
    (answerWaiting st res rt).booths = rt.booths ∧ (answerWaiting st res rt).cmds = rt.cmds ∧
      (answerWaiting st res rt).epoch = rt.epoch := by
  obtain ⟨w, m, x, o, h⟩ := answerWaiting_eq st res rt
  rw [h]
  exact ⟨rfl, rfl, rfl⟩

/-- A request that fails for its bound waits no more. -/
theorem expireRequest_waiting (rt : Rt) : expireRequest rt = rt ∨ (expireRequest rt).waiting = none := by
  unfold expireRequest
  split
  · exact .inl rfl
  · split
    · exact .inr (waiting_answerWaiting _ _ _)
    · exact .inl rfl

theorem cmds_expireRequest (rt : Rt) : (expireRequest rt).cmds = rt.cmds := by
  obtain ⟨b, w, m, x, o, h⟩ := expireRequest_eq rt
  rw [h]

/-! ## The end of a job leaves commands and booths -/

/-- The run-time state without what the end of a job writes: clerks, engines, mints and the strongroom's requests. -/
def sansJob (rt : Rt) : Rt :=
  { rt with
    clerks := [], presses := [], hashes := [], looms := [], reckoners := [], mint0 := Mint.reset, mint1 := Mint.reset
    strong := Strong.reset }

theorem sansJob_zeroEngine (e : EngineRef) (rt : Rt) : sansJob (zeroEngine e rt) = sansJob rt := by
  have hcom (x : EngCom) (r : Rt) : sansJob (setCom e x r) = sansJob r := by unfold setCom; split <;> rfl
  unfold zeroEngine
  split
  · rfl
  · rfl
  · rfl
  · exact hcom _ _

theorem sansJob_endJob (c : ClerkId) (blocks : List Nat) (rt : Rt) : sansJob (endJob c blocks rt) = sansJob rt := by
  unfold endJob
  extract_lets k released left strong withdrawn wiping
  calc sansJob wiping
    _ = sansJob released := rfl
    _ = sansJob rt := foldl_keeps sansJob fun r e => sansJob_zeroEngine e r

theorem sansJob_endJobOf (id : CmdId) (rt : Rt) : sansJob (endJobOf id rt) = sansJob rt := by
  unfold endJobOf
  exact foldl_keeps sansJob fun r kv => sansJob_endJob kv.1 kv.2.blocks r

theorem cmds_endJobOf (id : CmdId) (rt : Rt) : (endJobOf id rt).cmds = rt.cmds :=
  read_of_rest Rt.cmds (sansJob_endJobOf id rt) fun _ => rfl

/-! ## Booths, but for the limits that count for them -/

/-- A booth without the limit that the sum of R21 counts for it. -/
def uncounted (x : Booth) : Booth := { x with counted := 0 }

/-- The booths without the limits that the sum of R21 counts. -/
def sansCounted (rt : Rt) : KMap Booth := rt.booths.map fun kv => (kv.1, uncounted kv.2)

/-- A booth that two states share but for its counted limit. -/
theorem boothOf_of_sansCounted {a b : Rt} {k : Nat} {x : Booth} (h : sansCounted a = sansCounted b) (hb : boothOf b k = some x) :
    ∃ n, boothOf a k = some { x with counted := n } := by
  have hrow : (boothOf a k).map uncounted = (boothOf b k).map uncounted := by
    have hget := congrArg (kget · k) h
    rwa [sansCounted, sansCounted, kget_mapValues, kget_mapValues] at hget
  rw [hb] at hrow
  obtain ⟨y, hy, hyx⟩ := Option.map_eq_some_iff.mp hrow
  have hsame : y = { x with counted := y.counted } := congrArg (fun z : Booth => { z with counted := y.counted }) hyx
  exact ⟨y.counted, hsame ▸ hy⟩

theorem sansCounted_stopAll (st : Nat) (rt : Rt) : sansCounted (stopAll st rt) = sansCounted rt := by
  unfold stopAll
  extract_lets ended
  have hended : sansJob ended = sansJob rt := foldl_keeps sansJob fun r kv => sansJob_endJob kv.1 kv.2.blocks r
  have hbooths : ended.booths = rt.booths := read_of_rest Rt.booths hended fun _ => rfl
  simp only [sansCounted, hbooths, List.map_map]
  rfl

theorem sansCounted_report (e : FaultEvent) (rt : Rt) : sansCounted (report e rt) = sansCounted rt := by
  have hstage (r : Rt) : sansCounted (fatalStage r) = sansCounted r := by unfold fatalStage; split <;> rfl
  obtain ⟨r, hrest, hcases⟩ := report_cases e rt
  have hr : sansCounted r = sansCounted rt := read_of_rest sansCounted hrest fun _ => rfl
  obtain ⟨h, _⟩ | h := hcases
  · rw [h, hr]
  · rw [h, hstage, ← hr]
    split
    · rfl
    · exact sansCounted_stopAll stDeviceFault r

/-- A fault event, even a fatal one, changes of the booths at most the limits that count for them. -/
theorem sansCounted_raise (e : FaultEvent) (rt : Rt) : sansCounted (raise e rt) = sansCounted rt := by
  have hunpair (r : Rt) : sansCounted (unpair r) = sansCounted r := by
    unfold unpair
    split
    · exact sansCounted_report _ _
    · rfl
  unfold raise
  extract_lets reported
  split
  · exact (hunpair reported).trans (sansCounted_report e rt)
  · exact sansCounted_report e rt

/-! ## Ledger entries -/

/-- A level condition changes the collector, or raises an event. -/
theorem raiseLevel_cases (src : FaultSource) (k : Nat) (holds : Bool) (rt : Rt) :
    (∃ f, raiseLevel src k holds rt = { rt with fault := f }) ∨
      ∃ f, raiseLevel src k holds rt = raise (plainEvent src [BitVec.ofNat 8 k]) { rt with fault := f } := by
  unfold raiseLevel
  dsimp only
  split
  · exact .inr ⟨_, rfl⟩
  · split
    · exact .inl ⟨_, rfl⟩
    · exact .inl ⟨rt.fault, rfl⟩

/-- What every fault event and the collector's registers leave, a level condition leaves. -/
theorem raiseLevel_keeps {α : Type} (g : Rt → α) (hfault : ∀ r f, g { r with fault := f } = g r) (hraise : ∀ e r, g (raise e r) = g r)
    (src : FaultSource) (k : Nat) (holds : Bool) (rt : Rt) : g (raiseLevel src k holds rt) = g rt := by
  obtain ⟨f, h⟩ | ⟨f, h⟩ := raiseLevel_cases src k holds rt
  · rw [h, hfault]
  · rw [h, hraise, hfault]

theorem writeEntry_eq (e : LedgerEntry) (s : State) : writeEntry e s =
    ledgerLevels { s with nv := { s.nv with ledger := appendEntry s.rt (fun _ => s.rt.epoch) s.nv.ledger e } } := by
  rw [writeEntry, writeEntries, writeEntriesAt, if_neg (List.cons_ne_nil e [])]
  rfl

theorem writeEntry_nv (e : LedgerEntry) (s : State) :
    (writeEntry e s).nv = { s.nv with ledger := appendEntry s.rt (fun _ => s.rt.epoch) s.nv.ledger e } := by
  rw [writeEntry_eq]; rfl

theorem writeEntry_boothTable (e : LedgerEntry) (s : State) : (writeEntry e s).nv.boothTable = s.nv.boothTable := by
  rw [writeEntry_nv]

/-- What every fault event and the collector's registers leave, a ledger entry leaves: it changes the run-time state by LEDGER_HIGH and
LEDGER_FULL alone (R297). -/
theorem writeEntry_keeps {α : Type} (g : Rt → α) (hfault : ∀ r f, g { r with fault := f } = g r) (hraise : ∀ e r, g (raise e r) = g r)
    (e : LedgerEntry) (s : State) : g (writeEntry e s).rt = g s.rt := by
  rw [writeEntry_eq, ledgerLevels, onRt_rt, raiseLevel_keeps g hfault hraise, raiseLevel_keeps g hfault hraise]

theorem writeEntry_sansCounted (e : LedgerEntry) (s : State) : sansCounted (writeEntry e s).rt = sansCounted s.rt :=
  writeEntry_keeps sansCounted (fun _ _ => rfl) sansCounted_raise e s

theorem writeEntry_epoch (e : LedgerEntry) (s : State) : (writeEntry e s).rt.epoch = s.rt.epoch :=
  writeEntry_keeps Rt.epoch (fun _ _ => rfl) (fun e r => read_of_rest Rt.epoch (sansFault_raise e r) fun _ => rfl) e s

/-- The entry written is the last of the ledger, with the event's own fields (Table 13.10). -/
theorem writeEntry_last (e : LedgerEntry) (s : State) : ∃ l, (writeEntry e s).nv.ledger.entries.getLast? = some l ∧
    l.event = e.event ∧ l.booth = e.booth ∧ l.house = e.house := by
  rw [writeEntry_nv]
  exact ⟨_, List.getLast?_concat, rfl, rfl, rfl⟩

theorem nextSeq_appendEntry (rt : Rt) (epoch : LedgerEntry → Nat) (l : Ledger) (e : LedgerEntry) :
    (appendEntry rt epoch l e).nextSeq = l.nextSeq + 1 := by
  unfold appendEntry
  extract_lets numbered chain old
  rfl

theorem confirmed_appendEntry (rt : Rt) (epoch : LedgerEntry → Nat) (l : Ledger) (e : LedgerEntry) :
    (appendEntry rt epoch l e).confirmed = l.confirmed := by
  unfold appendEntry
  extract_lets numbered chain old
  rfl

theorem unconfirmed_appendEntry (rt : Rt) (epoch : LedgerEntry → Nat) (l : Ledger) (e : LedgerEntry) :
    unconfirmed (appendEntry rt epoch l e) = l.nextSeq + 1 - l.confirmed := by
  rw [unconfirmed, nextSeq_appendEntry, confirmed_appendEntry]

theorem below_levels {size next confirmed : Nat} (h : 10 * (next - confirmed + 8) < 9 * size) :
    ¬ size ≤ next + 1 - confirmed ∧ ¬ 9 * size ≤ 10 * (next + 1 - confirmed) := by
  constructor <;> omega

/-- Far from 90 % an entry changes nothing of the run-time state but the collector (R297). -/
theorem writeEntry_rt_of_room {s : State} (h : RoomLeft s.nv) (e : LedgerEntry) :
    ∃ f, (writeEntry e s).rt = { s.rt with fault := f } := by
  obtain ⟨hfull, hhigh⟩ := below_levels h
  rw [writeEntry_eq, ledgerLevels, onRt_rt]
  simp only [unconfirmed_appendEntry, decide_eq_false hfull, decide_eq_false hhigh, raiseLevel_false]
  exact ⟨_, rfl⟩

/-! ## The end of a command -/

/-- A command ends in a state with a status; what it was sent as stays. -/
def EndsWith (t : Rt) (id : CmdId) (c : Cmd) (st : Nat) : Prop :=
  ∃ y, kget t.cmds id = some y ∧ y.stage = .ended ∧ y.status = st ∧ y.desc = c.desc ∧ y.booth = c.booth

theorem kget_returnResv {id : CmdId} {rt : Rt} {c : Cmd} (h : kget rt.cmds id = some c) :
    kget (returnResv id rt).cmds id = some { c with resv := 0 } := by
  simp only [returnResv, h, modCmd]
  exact kget_kmod_self _ h

/-- Ending a command writes its end over it; counting its booth's occupancy anew does not touch it. -/
theorem cmds_setEnded (id : CmdId) (st : Nat) (res out : Bytes) (n : Nat) (rt : Rt) : ∃ f : Cmd → Cmd,
    (setEnded id st res out n rt).cmds = kmod (if out = [] then returnResv id (unready id rt) else unready id rt).cmds id f ∧
      ∀ c, (f c).stage = .ended ∧ (f c).status = st ∧ (f c).desc = c.desc ∧ (f c).booth = c.booth := by
  unfold setEnded
  extract_lets ready resv ended disp numbered
  have hcmds : (match kget numbered.cmds id with
    | none => numbered
    | some c => recount c.booth numbered).cmds = ended.cmds := by split <;> rfl
  exact ⟨_, hcmds, fun c => ⟨rfl, rfl, rfl, rfl⟩⟩

theorem setEnded_endsWith {id : CmdId} {rt : Rt} {c : Cmd} (h : kget rt.cmds id = some c) (st : Nat) (res : Bytes) (n : Nat) :
    EndsWith (setEnded id st res [] n rt) id c st := by
  have hresv : kget (returnResv id (unready id rt)).cmds id = some { c with resv := 0 } := kget_returnResv h
  obtain ⟨f, hcmds, hf⟩ := cmds_setEnded id st res [] n rt
  rw [if_pos rfl] at hcmds
  exact ⟨_, (congrArg (kget · id) hcmds).trans (kget_kmod_self f hresv), hf _⟩

theorem sansWork_setEnded (id : CmdId) (st : Nat) (res out : Bytes) (n : Nat) (rt : Rt) :
    sansWork (setEnded id st res out n rt) = sansWork rt := by
  unfold setEnded
  extract_lets ready resv ended disp numbered
  have hresv : sansWork resv = sansWork rt := by
    unfold resv
    split
    · exact sansWork_returnResv id ready
    · rfl
  have hnumbered : sansWork numbered = sansWork resv := rfl
  split
  · exact hnumbered.trans hresv
  · exact hnumbered.trans hresv

end Sys2Proof.Machine
end

section
/-! Booth requests: BOOTH_CREATE, BOOTH_MODIFY, BOOTH_CLOSE, RESET_BOOTH, ABORT and PARTITION_SET. -/

namespace Sys2Proof.Machine

/-! ## The rows -/

theorem exec_boothCreate {src : ReqSrc} {q : Req} {s : State} (h : Serves src 0x10 s q) :
    exec (.boothCreate src) s = .next (inBound src (boothCreate src) q s) :=
  congrArg Host.Outcome.next (serve_of_serves h _)

theorem exec_boothModify {src : ReqSrc} {q : Req} {s : State} (h : Serves src 0x11 s q) :
    exec (.boothModify src) s = .next (inBound src (boothModify src) q s) :=
  congrArg Host.Outcome.next (serve_of_serves h _)

theorem exec_boothClose {src : ReqSrc} {q : Req} {s : State} (h : Serves src 0x12 s q) (hlen : q.params.length = 8) :
    exec (.boothClose src) s = .next (inBound src (boothClose src) q s) :=
  congrArg Host.Outcome.next (serveLen_of_serves h hlen _)

theorem exec_boothCloseDrainTimeout (s : State) : exec .boothCloseDrainTimeout s = .next (doDrainEnd s) := rfl

theorem exec_resetBooth {src : ReqSrc} {q : Req} {s : State} (h : Serves src 0x13 s q) (hlen : q.params.length = 2) :
    exec (.resetBooth src) s = .next (inBound src (boothReset src) q s) :=
  congrArg Host.Outcome.next (serveLen_of_serves h hlen _)

theorem exec_abort {src : ReqSrc} {q : Req} {s : State} (h : Serves src 0x15 s q) (hlen : q.params.length = 8) :
    exec (.abort src) s = .next (abortTag src q s) :=
  congrArg Host.Outcome.next (serveLen_of_serves h hlen _)

theorem exec_partitionSet {src : ReqSrc} {q : Req} {s : State} (h : Serves src 0x16 s q) :
    exec (.partitionSet src) s = .next (partitionSet src q s) :=
  congrArg Host.Outcome.next (serve_of_serves h _)

/-! ## BOOTH_CREATE (R119, R120) -/

theorem createCheck_of_length {rt : Rt} {p : Bytes} (h : p.length ≠ 40 + 24 * byteAt p 38) :
    createCheck rt p = some (stMalformed, 0) := by
  simp [createCheck, h]

theorem createCheck_of_field {rt : Rt} {p : Bytes} {i : Nat} (hi : i < 15) (h : fieldOk rt p 0 i = false) :
    createCheck rt p = some (stMalformed, 0) := by
  have hall : (List.range 15).all (fieldOk rt p 0) = false :=
    List.all_eq_false.mpr ⟨i, List.mem_range.mpr hi, by rw [h]; exact Bool.false_ne_true⟩
  simp only [createCheck, hall, Bool.and_false, Bool.not_false, if_true]

/-- Checks 2 to 4 of Table 6.8: the request is well formed. -/
structure CreateWellFormed (rt : Rt) (p : Bytes) : Prop where
  length : p.length = 40 + 24 * byteAt p 38
  reserved : byteAt p 39 = 0
  fields : ∀ i, i < 15 → fieldOk rt p 0 i = true
  apart : ringsApart (boothFields p 0) = true
  share : shareFits (boothFields p 0) = true

/-- Checks 5 to 8 of Table 6.8, for a request that is well formed. -/
theorem createCheck_of_createWellFormed {rt : Rt} {p : Bytes} (h : CreateWellFormed rt p) : createCheck rt p =
    if !houseRegistered rt (boothFields p 0).house then some (stInputRefused, 0x43)
    else if rt.booths.any fun kv => kv.2.cfg.pasid == (boothFields p 0).pasid then some (stInputRefused, 0x41)
    else if 4096 ≤ rt.booths.length then some (stInputRefused, 0x42)
    else if 131072 < shareSum rt + (boothFields p 0).share then some (stInputRefused, 0x40)
    else none := by
  obtain ⟨length, reserved, fields, apart, share⟩ := h
  have hall : (List.range 15).all (fieldOk rt p 0) = true := List.all_eq_true.mpr fun i hi => fields i (List.mem_range.mp hi)
  simp only [createCheck, beq_iff_eq.mpr length, beq_iff_eq.mpr reserved, hall, apart, share, Bool.and_self, Bool.not_true, Bool.or_self,
    Bool.false_eq_true, if_false]

theorem boothCreate_of_refused {src : ReqSrc} {q : Req} {s : State} {r : Nat × Nat} (hfull : ledgerFull s.nv = false)
    (h : createCheck s.rt q.params = some r) : boothCreate src q s = onRt (refuseWith src q r) s := by
  simp only [boothCreate, hfull, h, Bool.false_eq_true, if_false]

theorem boothCreate_of_accepted {src : ReqSrc} {q : Req} {s : State} {b : Nat} (hfull : ledgerFull s.nv = false)
    (h : createCheck s.rt q.params = none) (hfree : freeBooth s.rt = some b) : boothCreate src q s =
      onRt (holdRequest src q (some (.boothCreate b (boothFields q.params 0))) none none (le 2 b)) s := by
  simp only [boothCreate, hfull, h, hfree, Bool.false_eq_true, if_false]

/-- A field outside the values of Table 6.7, or a length that does not suit the window count, makes the request malformed. -/
theorem createCheck_of_bounds {rt : Rt} {p : Bytes}
    (h : p.length ≠ 40 + 24 * byteAt p 38 ∨ 131072 < (boothFields p 0).share ∨ (boothFields p 0).sqLog2 < 6 ∨
      16 < (boothFields p 0).cqLog2 ∨ (boothFields p 0).sqIova % 4096 ≠ 0 ∨ (boothFields p 0).vector = 0) :
    createCheck rt p = some (stMalformed, 0) := by
  obtain h | h | h | h | h | h := h
  · exact createCheck_of_length h
  · exact createCheck_of_field (i := 4) (by decide) (decide_eq_false (Nat.not_le.mpr h))
  · exact createCheck_of_field (i := 5) (by decide) (decide_eq_false fun ⟨hlow, _⟩ => Nat.not_le.mpr h hlow)
  · exact createCheck_of_field (i := 6) (by decide) (decide_eq_false fun ⟨_, hhigh⟩ => Nat.not_le.mpr h hhigh)
  · exact createCheck_of_field (i := 8) (by decide) (decide_eq_false h)
  · exact createCheck_of_field (i := 7) (by decide) (decide_eq_false fun ⟨hlow, _⟩ => by omega)

/-- A test that an open booth passes, some booth of the table passes. -/
theorem any_booths_of_boothOf {rt : Rt} {k : Nat} {x : Booth} (h : boothOf rt k = some x) {p : Booth → Bool} (hp : p x = true) :
    (rt.booths.any fun kv => p kv.2) = true :=
  List.any_eq_true.mpr ⟨(k, x), mem_of_kget h, hp⟩

/-! ## BOOTH_MODIFY (R121) -/

theorem modifyCheck_of_fixedBit {rt : Rt} {x : Booth} {m i : Nat} {p : Bytes} (hi : i ∈ fixedBits) (h : m.testBit i = true) :
    modifyCheck rt x m p = some (stMalformed, 0) :=
  if_pos (.inr (.inr (List.any_eq_true.mpr ⟨i, hi, h⟩)))

theorem boothModify_of_absent {src : ReqSrc} {q : Req} {s : State} (hlen : 44 ≤ q.params.length)
    (hx : boothOf s.rt (leAt q.params 0 2) = none) : boothModify src q s = refusedFor src q 0x46 s := by
  simp only [boothModify, Nat.not_lt.mpr hlen, if_false, hx]
  rfl

theorem boothModify_of_refused {src : ReqSrc} {q : Req} {s : State} {x : Booth} {r : Nat × Nat} (hlen : 44 ≤ q.params.length)
    (hx : boothOf s.rt (leAt q.params 0 2) = some x) (h : modifyCheck s.rt x (leAt q.params 2 2) q.params = some r) :
    boothModify src q s = onRt (refuseWith src q r) s := by
  simp only [boothModify, Nat.not_lt.mpr hlen, if_false, hx, h]

theorem boothModify_of_accepted {src : ReqSrc} {q : Req} {s : State} {x : Booth} (hlen : 44 ≤ q.params.length)
    (hx : boothOf s.rt (leAt q.params 0 2) = some x) (hm : leAt q.params 2 2 ≠ 0) (hfull : ledgerFull s.nv = false)
    (h : modifyCheck s.rt x (leAt q.params 2 2) q.params = none) : boothModify src q s =
      onRt (holdRequest src q (some (.boothModify (leAt q.params 0 2) (maskedCfg x.cfg (leAt q.params 2 2) q.params)
        ((leAt q.params 2 2).testBit 14))) none none []) s := by
  simp only [boothModify, Nat.not_lt.mpr hlen, if_false, hx, h, hm, hfull, Bool.false_eq_true]

/-! ## Aborting commands (R150, R151) -/

theorem boothDrained_of_kget {rt : Rt} {id : CmdId} {c : Cmd} (h : kget rt.cmds id = some c) : boothDrained rt c.booth = false := by
  have hany : (rt.cmds.any fun kv => kv.2.booth == c.booth) = true :=
    List.any_eq_true.mpr ⟨(id, c), mem_of_kget h, beq_self_eq_true c.booth⟩
  rw [boothDrained, hany, Bool.not_true]

/-- An admitted command outside a bundle can be aborted. -/
theorem abortable_of_admitted {rt : Rt} {c : Cmd} (hbundle : c.bundle = none) (hstage : c.stage = .admitted) :
    abortable rt c = true := by
  simp [abortable, multiOf, hbundle, hstage]

/-- A command outside a bundle fails by itself. -/
theorem failCmd_of_alone {id : CmdId} {c : Cmd} {rt : Rt} (h : kget rt.cmds id = some c) (hbundle : c.bundle = none) (st : Nat)
    (res : Bytes) : ∃ r d, failCmd id st res rt = setEnded id st res [] 0 r ∧ sansWork r = sansWork rt ∧ kget r.cmds id = some d ∧
      d.desc = c.desc ∧ d.booth = c.booth := by
  have hget : kget (endJobOf id rt).cmds id = some c := by rw [cmds_endJobOf, h]
  have hwork : sansWork (endJobOf id rt) = sansWork rt := sansWork_endJobOf id rt
  simp only [failCmd, h, hbundle]
  split
  · exact ⟨_, c, rfl, hwork, hget, rfl, rfl⟩
  · exact ⟨_, _, rfl, hwork, kget_kmod_self _ hget, rfl, rfl⟩

/-- An abort ends an admitted command outside a bundle with ABORTED. -/
theorem abortCmd_of_alone {id : CmdId} {c : Cmd} {rt : Rt} (h : kget rt.cmds id = some c) (hbundle : c.bundle = none)
    (hstage : c.stage = .admitted) :
    EndsWith (abortCmd id rt) id c stAborted ∧ sansWork (abortCmd id rt) = sansWork rt := by
  obtain ⟨r, d, hfail, hwork, hget, hdesc, hbooth⟩ := failCmd_of_alone h hbundle stAborted (zeros 16)
  have habort : abortCmd id rt = setEnded id stAborted (zeros 16) [] 0 r := by
    simp only [abortCmd, h, abortable_of_admitted hbundle hstage, if_true]
    exact hfail
  obtain ⟨y, hy, hended, hstatus, hydesc, hybooth⟩ := setEnded_endsWith hget stAborted (zeros 16) 0
  rw [habort]
  exact ⟨⟨y, hy, hended, hstatus, hydesc.trans hdesc, hybooth.trans hbooth⟩, (sansWork_setEnded _ _ _ _ _ _).trans hwork⟩

/-- With one command in the module, an admitted one outside a bundle, an abort of its booth takes hold of it where it is meant. -/
theorem abortTargets_of_one {rt : Rt} {id : CmdId} {c : Cmd} (hcmds : rt.cmds = [(id, c)]) (hbundle : c.bundle = none)
    (hstage : c.stage = .admitted) (p : Cmd → Bool) : abortTargets rt c.booth p = if p c then [id] else [] := by
  simp only [abortTargets, hcmds, List.filter, abortable_of_admitted hbundle hstage, beq_self_eq_true, Bool.true_and, Bool.true_or,
    Bool.and_true]
  cases p c <;> rfl

theorem abortTag_of_absent {src : ReqSrc} {q : Req} {s : State} (hzero : zeroAt q.params 2 2 = true)
    (hx : boothOf s.rt (leAt q.params 0 2) = none) : abortTag src q s = refusedFor src q 0x46 s := by
  simp only [abortTag, hzero, hx, Bool.not_true, Bool.false_eq_true, if_false, Option.isNone_none, if_true]
  rfl

/-- An abort answers with the number of commands that it takes hold of (R150). -/
theorem abortTag_of_open {src : ReqSrc} {q : Req} {s : State} {x : Booth} (hzero : zeroAt q.params 2 2 = true)
    (hx : boothOf s.rt (leAt q.params 0 2) = some x) :
    let l := abortTargets s.rt (leAt q.params 0 2) fun c => c.desc.tag.toNat == leAt q.params 4 4
    abortTag src q s = replied src q stDone (le 4 l.length) (onRt (fun rt => l.foldl (fun r id => abortCmd id r) rt) s) := by
  simp only [abortTag, hzero, hx, Bool.not_true, Bool.false_eq_true, if_false, Option.isNone_some]
  rfl

/-! ## BOOTH_CLOSE (R123) -/

/-- A booth in whose closing nothing is counted yet. -/
def beginClose (x : Booth) : Booth := { x with closing := true, closeDone := 0, closeAborted := 0, closeDiscarded := 0 }

/-- The state in which a booth closes and its request waits. -/
def closeHeld (src : ReqSrc) (q : Req) (b : Nat) (s : State) : State :=
  onRt (fun rt => holdRequest src q none (some b) none [] (modBooth b beginClose rt)) s

/-- Without sessions and bundles, a close in DRAIN mode holds its request until the commands of its booth have run. -/
theorem boothClose_of_drain {src : ReqSrc} {q : Req} {s : State} {x : Booth} (hmode : byteAt q.params 2 = 0)
    (hzero : byteAt q.params 3 = 0) (hmin : 1 ≤ leAt q.params 4 4) (hmax : leAt q.params 4 4 ≤ 10000) (hfull : ledgerFull s.nv = false)
    (hx : boothOf s.rt (leAt q.params 0 2) = some x) (hconns : s.rt.net.conns = []) (hbundles : s.rt.bundles = []) :
    boothClose src q s = closeReady (closeHeld src q (leAt q.params 0 2) s) := by
  have hbad : ¬ (1 < byteAt q.params 2 ∨ byteAt q.params 3 ≠ 0 ∨ leAt q.params 4 4 = 0 ∨ 10000 < leAt q.params 4 4) := by omega
  have habort : ¬ byteAt q.params 2 = 1 := by omega
  have hclose (p : Conn → Bool) (al : Option String) (f : Booth → Booth) (b : Nat) :
      closeConns p al (modBooth b f s.rt) = modBooth b f s.rt := by
    simp only [closeConns, connsWhere, modBooth_net, hconns]
    rfl
  have hopen (f : Booth → Booth) (b : Nat) : openBundles (modBooth b f s.rt) b = [] := by
    simp only [openBundles, modBooth_bundles, hbundles]
    rfl
  simp only [boothClose, hbad, if_false, hfull, Bool.false_eq_true, hx, Option.isNone_some, onRt, hclose, hopen, List.foldl_nil, habort]
  rfl

theorem boothClose_of_malformed {src : ReqSrc} {q : Req} {s : State}
    (h : leAt q.params 4 4 = 0 ∨ 10000 < leAt q.params 4 4 ∨ 1 < byteAt q.params 2) :
    boothClose src q s = refusedWith src q stMalformed s :=
  if_pos (by omega)

/-- While commands of its booth are left, a waiting close does not go on; it may fail for its bound. -/
theorem closeReady_of_undrained {s : State} (h : ∀ b, s.rt.waiting.bind Waiting.booth = some b → boothDrained s.rt b = false) :
    closeReady s = onRt expireRequest s := by
  unfold closeReady
  extract_lets expired
  obtain hsame | hgone := expireRequest_waiting s.rt
  · have hrt : expired.rt = s.rt := hsame
    split
    · rfl
    · next b hb =>
      rw [hrt] at hb
      split
      · rfl
      · rw [hrt, h b hb, Bool.and_false, if_neg Bool.false_ne_true]
  · have hnone : expired.rt.waiting = none := hgone
    rw [hnone]
    rfl

/-- A closing booth without commands is closed. -/
theorem closeReady_of_drained {s : State} {w : Waiting} {b : Nat} {x : Booth} (hw : s.rt.waiting = some w) (hbooth : w.booth = some b)
    (hdue : isPast w.due s.rt = false) (hx : boothOf s.rt b = some x) (hclosing : x.closing = true)
    (hdrained : boothDrained s.rt b = true) : closeReady s = finishClose b x s := by
  have hstays : onRt expireRequest s = s := by rw [onRt, expireRequest_of_within hw hdue]
  have hbind : s.rt.waiting.bind Waiting.booth = some b := by rw [hw]; exact hbooth
  simp only [closeReady, hstays, hbind, hx, hclosing, hdrained, Bool.and_self, if_true]

/-- A booth's end touches no command and no handshake: every command of the booth has retired (R123, Table 9.3). -/
theorem untouched_of_boothClose (rt : Rt) {ch : Change} {b : Nat} (h : ch.kind = .boothClose b) : untouched rt ch = true := by
  simp [untouched, touchesCmd, touchesConn, h]

/-- A booth's end is an epoch of its own, complete at once. -/
theorem commitChange_boothClose (b : Nat) (s : State) : ∃ d, commitChange (.boothClose b) false s =
    { s with rt := { s.rt with epoch := s.rt.epoch + 1, disp := d }, nv := raiseMark (s.rt.epoch + 1) s.nv } := by
  unfold commitChange
  extract_lets e ch rt disp advanced disp' draining t
  have hdone : (untouched draining ch && !isLive ch) = true := by
    rw [untouched_of_boothClose draining (b := b) rfl]; rfl
  rw [if_pos hdone]
  exact ⟨_, rfl⟩

/-- A booth, its regions and its table entry are gone. -/
def boothGone (b : Nat) (x : Booth) (s : State) : State :=
  { s with rt := { setHostRegions x.cfg.pasid [] [] s.rt with booths := kdel s.rt.booths b }
           nv := { s.nv with boothTable := kdel s.nv.boothTable b } }

/-- The entry of a booth's end (Table 13.11). -/
def closeEntry (b : Nat) (x : Booth) : LedgerEntry := ledgerEvent 0x010A x.cfg.house b 0xFFFFFFFF 0 0 0 0 []

/-- The result of a close (Table 6.10). -/
def closeResult (x : Booth) : Bytes := le 4 x.closeDone ++ le 4 x.closeAborted ++ le 4 x.closeDiscarded

theorem finishClose_eq (b : Nat) (x : Booth) (s : State) : finishClose b x s =
    onRt (answerWaiting stDone (closeResult x)) (writeEntry (closeEntry b x) (commitChange (.boothClose b) false (boothGone b x s))) := rfl

/-- A booth is closed: it and its entry are gone at an epoch of their own, entry 010Ah stands last in the ledger, and the request is
answered (R123). -/
structure BoothClosed (b house : Nat) (s t : State) : Prop where
  booths : t.rt.booths = kdel s.rt.booths b
  table : t.nv.boothTable = kdel s.nv.boothTable b
  epoch : t.rt.epoch = s.rt.epoch + 1
  waiting : t.rt.waiting = none
  cmds : t.rt.cmds = s.rt.cmds
  entry : ∃ e, t.nv.ledger.entries.getLast? = some e ∧ e.event = 0x010A ∧ e.booth = b ∧ e.house = house

theorem finishClose_boothClosed (b : Nat) (x : Booth) {s : State} (hroom : RoomLeft s.nv) : BoothClosed b x.cfg.house s (finishClose b x s) := by
  obtain ⟨d, hcommit⟩ := commitChange_boothClose b (boothGone b x s)
  rw [finishClose_eq, hcommit]
  generalize hcommitted : State.mk _ _ _ _ _ = committed
  have hroom' : RoomLeft committed.nv := by rw [← hcommitted]; exact hroom
  obtain ⟨f, hwritten⟩ := writeEntry_rt_of_room hroom' (closeEntry b x)
  obtain ⟨hbooths, hcmds, hepoch⟩ := answerWaiting_keeps stDone (closeResult x) (writeEntry (closeEntry b x) committed).rt
  constructor
  case booths => rw [onRt_rt, hbooths, hwritten, ← hcommitted]; rfl
  case table => rw [onRt_nv, writeEntry_boothTable, ← hcommitted]; rfl
  case epoch => rw [onRt_rt, hepoch, hwritten, ← hcommitted]; rfl
  case waiting => exact waiting_answerWaiting _ _ _
  case cmds => rw [onRt_rt, hcmds, hwritten, ← hcommitted]; rfl
  case entry => exact writeEntry_last (closeEntry b x) committed

/-! ## RESET_BOOTH (R124) -/

theorem noticeAll_of_no_conns {rt : Rt} (h : rt.net.conns = []) (b : Nat) (lost : KMap Nat) : noticeAll b lost rt = rt := by
  simp only [noticeAll, connsWhere, h]
  rfl

/-- The entry of a booth's reset (Table 13.11). -/
def resetEntry (b : Nat) (x : Booth) : LedgerEntry := ledgerEvent 0x010B x.cfg.house b 0xFFFFFFFF 0 0 0 0 []

/-- The state after the reset of a booth that has no command: its ring is new, and the journal is without its uncommitted bundles. -/
def ringReset (b : Nat) (s : State) : State :=
  { s with nv := dropUncommitted s.rt b false s.nv, rt := recount b (modBooth b freshRing s.rt) }

/-- Without commands and sessions a booth's reset makes its ring new, writes entry 010Bh and answers. -/
theorem boothReset_of_idle {src : ReqSrc} {q : Req} {s : State} {b : Nat} {x : Booth} (hb : leAt q.params 0 2 = b)
    (hx : boothOf s.rt b = some x) (hfull : ledgerFull s.nv = false) (hcmds : s.rt.cmds = []) (hconns : s.rt.net.conns = []) :
    boothReset src q s = replied src q stDone [] (writeEntry (resetEntry b x) (ringReset b s)) := by
  have hidle : resetBooth b false s = ringReset b s := by
    rw [resetBooth, resetBoothState_of_idle b false hcmds, ringReset]
  have hnotice (lost : KMap Nat) : onRt (noticeAll b lost) (ringReset b s) = ringReset b s := by
    rw [onRt, noticeAll_of_no_conns (rt := (ringReset b s).rt) hconns]
  simp only [boothReset, hb, hx, hfull, Bool.false_eq_true, if_false, hidle, hnotice]
  rfl

/-- The ring of the booth is new, and stays so when the entry is written, whatever that raises. -/
theorem boothOf_writeEntry_ringReset {s : State} {b : Nat} {x : Booth} (hx : boothOf s.rt b = some x) (e : LedgerEntry) :
    ∃ n, boothOf (writeEntry e (ringReset b s)).rt b = some { freshRing x with counted := n } := by
  obtain ⟨_, hring⟩ := boothOf_recount (boothOf_modBooth_self freshRing hx)
  obtain ⟨n, hkept⟩ := boothOf_of_sansCounted (writeEntry_sansCounted e (ringReset b s)) hring
  exact ⟨n, hkept⟩

/-! ## PARTITION_SET (R196) -/

theorem partitionSet_of_empty {src : ReqSrc} {q : Req} {s : State} (hfull : ledgerFull s.nv = false) (h : q.params = []) :
    partitionSet src q s = onRt (holdRequest src q (some (.partition none)) none none []) s := by
  simp only [partitionSet, hfull, h, Bool.false_eq_true, if_false, if_true]

/-- The map of a request's bindings. -/
def boundMap (l : List Binding) : PartMap :=
  { rooms := unitMap l 0, groups := unitMap l 1, looms := unitMap l 2, reckoners := unitMap l 3, epoch := 0 }

/-- Checks 2 to 5 of a request with bindings (R197). -/
theorem partitionSet_of_bindings {src : ReqSrc} {q : Req} {s : State} (hfull : ledgerFull s.nv = false) (h : q.params ≠ [])
    (hlen : q.params.length % 4 = 0) : partitionSet src q s =
      if unitsOk s.rt (bindings q.params) then
        if mapOk s.rt (bindings q.params) then
          onRt (holdRequest src q (some (.partition (some (boundMap (bindings q.params))))) none none []) s
        else refusedFor src q 0x49 s
      else refusedWith src q stMalformed s := by
  simp only [partitionSet, hfull, h, hlen, Bool.false_eq_true, if_false]
  cases unitsOk s.rt (bindings q.params)
  · rfl
  · cases mapOk s.rt (bindings q.params) <;> rfl

/-! ## The statement -/

/-- A booth request taken past its bound fails with DEVICE_FAULT (R118). -/
theorem late_requests (src : ReqSrc) (q : Req) (s : State) (hpast : isPast (dueOf src q s.rt) s.rt = true) :
    (Serves src 0x10 s q → exec (.boothCreate src) s = .next (refusedWith src q stDeviceFault s)) ∧
    (Serves src 0x11 s q → exec (.boothModify src) s = .next (refusedWith src q stDeviceFault s)) ∧
    (Serves src 0x12 s q → q.params.length = 8 → exec (.boothClose src) s = .next (refusedWith src q stDeviceFault s)) ∧
    (Serves src 0x13 s q → q.params.length = 2 → exec (.resetBooth src) s = .next (refusedWith src q stDeviceFault s)) := by
  have hfails (body : Req → State → State) := inBound_of_past hpast body
  refine ⟨fun hq => ?_, fun hq => ?_, fun hq hlen => ?_, fun hq hlen => ?_⟩
  · rw [exec_boothCreate hq, hfails]
  · rw [exec_boothModify hq, hfails]
  · rw [exec_boothClose hq hlen, hfails]
  · rw [exec_resetBooth hq hlen, hfails]

/-- Settles O51, clause by clause: each request by its row's equation within its bound, its refusals by the checks of Tables 6.7 and 6.8,
a close by what is left of its booth's commands, an abort by the command it takes hold of. -/
theorem boothRequests : Obligations.BoothRequests := by
  refine ⟨late_requests, ?preset, ?create, ?createRefused, ?modify, ?modifyAbsent, ?masked, ?close, ?closeMalformed, ?noDrain, ?drainEnd,
    ?reset, ?resetAbsent, ?abort, ?abortAbsent, ?partition⟩
  case preset =>
    intro rt p o h
    obtain ⟨_, hvalid⟩ := Bool.and_eq_true_iff.mp (show (decide ((boothFields p o).preset < 8) && _) = true from h)
    exact hvalid
  case create =>
    intro src q b s hq hwithin hfull hfree hcheck
    have hrow := exec_boothCreate hq
    rw [inBound_of_within hwithin, boothCreate_of_accepted hfull hcheck hfree] at hrow
    exact ⟨_, _, hrow, rfl, rfl, rfl, hq.code, rfl, rfl, rfl, rfl, rfl⟩
  case createRefused =>
    intro src q b s hq hwithin hfull hfree c
    have hrefused {r : Nat × Nat} (h : createCheck s.rt q.params = some r) :
        exec (.boothCreate src) s = .next (onRt (refuseWith src q r) s) := by
      rw [exec_boothCreate hq, inBound_of_within hwithin, boothCreate_of_refused hfull h]
    refine ⟨fun h => hrefused (createCheck_of_bounds h), fun hlen hzero hfields hapart hshare => ?_⟩
    have hcheck := createCheck_of_createWellFormed ⟨hlen, hzero, hfields, hapart, hshare⟩
    refine ⟨fun hhouse => hrefused (r := (stInputRefused, 0x43)) ?_, fun hhouse =>
      ⟨fun k x hx hpasid => hrefused (r := (stInputRefused, 0x41)) ?_,
        fun hpasid hbooths hsum => hrefused (r := (stInputRefused, 0x40)) ?_⟩⟩
    · rw [hcheck, hhouse]; rfl
    · have hany := any_booths_of_boothOf hx (p := fun x => x.cfg.pasid == c.pasid) (beq_iff_eq.mpr hpasid)
      rw [hcheck, hhouse, if_neg (by decide), if_pos hany]
    · rw [hcheck, hhouse, if_neg (by decide), if_neg (Bool.not_eq_true _ ▸ hpasid), if_neg (Nat.not_le.mpr hbooths), if_pos hsum]
  case modify =>
    intro src q x s hq hwithin hlen hx m
    refine ⟨fun hm hfull hcheck => ?_, fun h => ?_⟩
    · have hrow := exec_boothModify hq
      rw [inBound_of_within hwithin, boothModify_of_accepted hlen hx hm hfull hcheck] at hrow
      exact ⟨_, _, hrow, rfl, rfl, rfl, rfl⟩
    · have hcheck : modifyCheck s.rt x m q.params = some (stMalformed, 0) := by
        obtain h | h | h | h | h := h <;> exact modifyCheck_of_fixedBit (by decide) h
      rw [exec_boothModify hq, inBound_of_within hwithin, boothModify_of_refused hlen hx hcheck]
      rfl
  case modifyAbsent =>
    intro src q s hq hwithin hlen hx
    rw [exec_boothModify hq, inBound_of_within hwithin, boothModify_of_absent hlen hx]
  case masked =>
    intro old m p
    exact ⟨fun h => by simp [maskedCfg, h], fun h => by simp [maskedCfg, h, boothFields], fun h => by simp [maskedCfg, h, boothFields],
      rfl, rfl, rfl⟩
  case close =>
    intro src q b x s hq hwithin hlen hb hmode hzero hmin hmax hfull hx hconns hbundles
    subst hb
    have hrow := exec_boothClose hq hlen
    rw [inBound_of_within hwithin, boothClose_of_drain hmode hzero hmin hmax hfull hx hconns hbundles] at hrow
    have hheld : boothOf (closeHeld src q (leAt q.params 0 2) s).rt (leAt q.params 0 2) = some (beginClose x) := boothOf_modBooth_self _ hx
    refine ⟨fun hleft => ?_, fun hnone hroom => ?_⟩
    · have hstays : expireRequest (closeHeld src q (leAt q.params 0 2) s).rt = (closeHeld src q (leAt q.params 0 2) s).rt :=
        expireRequest_of_within rfl hwithin
      rw [closeReady_of_undrained (fun b hb => by cases hb; exact congrArg not hleft), onRt, hstays] at hrow
      exact ⟨_, _, _, hrow, hheld, rfl, rfl, rfl, rfl, rfl, rfl⟩
    · rw [closeReady_of_drained rfl rfl hwithin hheld rfl (congrArg not hnone)] at hrow
      obtain ⟨hbooths, htable, hepoch, hwaiting, hcmds, e, hlast, hevent, hbooth, hhouse⟩ :=
        finishClose_boothClosed (leAt q.params 0 2) (beginClose x) (s := closeHeld src q (leAt q.params 0 2) s) hroom
      refine ⟨_, e, hrow, ?_, ?_, hepoch, hwaiting, hlast, hevent, hbooth, hhouse, hcmds, fun k hk => ?_⟩
      · rw [boothOf, hbooths, kget_kdel_self]
      · rw [htable, kget_kdel_self]
      · rw [boothOf, hbooths, kget_kdel, if_neg hk.symm]
        exact kget_kmod_ne beginClose hk
  case closeMalformed =>
    intro src q s hq hwithin hlen h
    rw [exec_boothClose hq hlen, inBound_of_within hwithin, boothClose_of_malformed h]
  case noDrain =>
    intro s h
    rw [exec_boothCloseDrainTimeout, doDrainEnd, h]
  case drainEnd =>
    intro b id c s hwaits hcmds hid hb hbundle hstage
    subst hb
    have hc : kget s.rt.cmds id = some c := by rw [hcmds]; exact if_pos rfl
    obtain ⟨⟨y, hy, hended, hstatus, hdesc, hbooth⟩, hwork⟩ := abortCmd_of_alone hc hbundle hstage
    have hwaiting : (abortCmd id s.rt).waiting = s.rt.waiting := read_of_rest Rt.waiting hwork fun _ => rfl
    have haborted : onRt (abortBooth c.booth) s = onRt (abortCmd id) s := by
      rw [onRt, abortBooth, abortTargets_of_one hcmds hbundle hstage, if_pos rfl]
      rfl
    have hrow := exec_boothCloseDrainTimeout s
    simp only [doDrainEnd, hwaits, haborted] at hrow
    rw [closeReady_of_undrained fun b' hb' => ?left] at hrow
    case left =>
      have hsame : b' = c.booth := by
        rw [onRt_rt, hwaiting, hwaits] at hb'
        exact (Option.some.inj hb').symm
      rw [hsame, ← hbooth]
      exact boothDrained_of_kget hy
    exact ⟨_, y, hrow, by rw [onRt_rt, cmds_expireRequest]; exact hy, hended, hstatus, hdesc, rfl⟩
  case reset =>
    intro src q b x s hq hwithin hparams hb hx hfull hcmds hconns
    have hlen : q.params.length = 2 := by rw [hparams, le_length]
    have hfield : leAt q.params 0 2 = b := by rw [hparams, leAt_le (by omega)]
    have hrow := exec_resetBooth hq hlen
    rw [inBound_of_within hwithin, boothReset_of_idle hfield hx hfull hcmds hconns] at hrow
    obtain ⟨n, hring⟩ := boothOf_writeEntry_ringReset hx (resetEntry b x)
    obtain ⟨e, hlast, hevent, hbooth, _⟩ := writeEntry_last (resetEntry b x) (ringReset b s)
    exact ⟨_, _, e, hrow, hring, rfl, rfl, rfl, rfl, rfl, rfl, hlast, hevent, hbooth, writeEntry_epoch _ (ringReset b s)⟩
  case resetAbsent =>
    intro src q s hq hwithin hlen hx
    rw [exec_resetBooth hq hlen, inBound_of_within hwithin, boothReset, hx]
    rfl
  case abort =>
    intro src q id c b x s hq hlen hb hzero hx hcmds hid hbooth hbundle hstage
    subst hbooth
    have hc : kget s.rt.cmds id = some c := by rw [hcmds]; exact if_pos rfl
    have hrow := (exec_abort hq hlen).trans (congrArg _ (abortTag_of_open hzero (hb.symm ▸ hx)))
    rw [hb, abortTargets_of_one hcmds hbundle hstage] at hrow
    refine ⟨fun htag => ?_, fun htag => ?_⟩
    · rw [if_pos (beq_iff_eq.mpr htag)] at hrow
      obtain ⟨⟨y, hy, hended, hstatus, _⟩, _⟩ := abortCmd_of_alone hc hbundle hstage
      exact ⟨onRt (abortCmd id) s, y, hrow, hy, hended, hstatus, rfl⟩
    · rw [if_neg (mt beq_iff_eq.mp htag)] at hrow
      exact hrow
  case abortAbsent =>
    intro src q s hq hlen hzero hx
    rw [exec_abort hq hlen, abortTag_of_absent hzero hx]
  case partition =>
    intro src q s hq hfull
    have hrow := exec_partitionSet hq
    refine ⟨fun hempty => ?_, fun h hlen hunits hmap => ?_, fun h hlen hunits hmap => ?_, fun h hlen hunits => ?_⟩
    · rw [partitionSet_of_empty hfull hempty] at hrow
      exact ⟨_, _, hrow, rfl, rfl, rfl, rfl⟩
    · rw [partitionSet_of_bindings hfull h hlen, if_pos hunits, if_pos hmap] at hrow
      exact ⟨_, _, _, hrow, rfl, rfl, rfl, rfl, rfl, rfl⟩
    · rw [hrow, partitionSet_of_bindings hfull h hlen, hunits, hmap]
      rfl
    · rw [hrow, partitionSet_of_bindings hfull h hlen, hunits]
      rfl

end Sys2Proof.Machine
end

section
/-! How a command ends: what the recording of its end, a refusal and DONE write. -/

namespace Sys2Proof.Machine

/-! ## Maps by key -/

theorem kset_kset {α : Type} (m : KMap α) (k : Nat) (v w : α) : kset (kset m k v) k w = kset m k w := by
  induction m with
  | nil => simp [kset]
  | cons x m ih =>
    obtain ⟨i, u⟩ := x
    by_cases hlt : k < i
    · simp [kset, hlt]
    · by_cases heq : k = i
      · simp [kset, heq]
      · simp [kset, hlt, heq, ih]

/-- A map whose values are replaced, by something that may depend on the key, lists the same keys. -/
theorem kget_mapPairs {α β : Type} (g : Nat × α → β) (m : KMap α) (k : Nat) :
    kget (m.map fun kv => (kv.1, g kv)) k = (kget m k).map fun v => g (k, v) := by
  induction m with
  | nil => rfl
  | cons x m ih =>
    obtain ⟨i, v⟩ := x
    by_cases h : i = k
    · subst h; simp only [List.map_cons, kget, if_true, Option.map_some]
    · simp only [List.map_cons, kget, h, if_false, ih]

/-! ## The end of a job -/

theorem clerkOf_wake_of_wiping {rt : Rt} {c : ClerkId} (p : Stall → Bool) (h : (clerkOf rt c).st = .wiping) :
    clerkOf (wake p rt) c = clerkOf rt c := by
  unfold clerkOf kgetD at h ⊢
  simp only [wake, kget_mapPairs]
  cases hk : kget rt.clerks c with
  | none => rfl
  | some k =>
    have hst : k.st = .wiping := by rw [hk] at h; exact h
    simp only [Option.map_some, hst]

/-- The clerk whose job ends wipes, and has no job (R211). -/
theorem clerkOf_endJob_self (c : ClerkId) (blocks : List Nat) (rt : Rt) :
    (clerkOf (endJob c blocks rt) c).st = .wiping ∧ (clerkOf (endJob c blocks rt) c).job = none := by
  unfold endJob
  extract_lets k released left strong withdrawn wiping
  have hst : (clerkOf wiping c).st = .wiping := by rw [clerkOf_setClerk_self]
  rw [clerkOf_wake_of_wiping _ hst]
  exact ⟨hst, by rw [clerkOf_setClerk_self]⟩

/-- The one clerk of the module that runs a command ends its job. -/
theorem endJobOf_of_one {id : CmdId} {k : ClerkId} {x : Clerk} {rt : Rt} (h : rt.clerks = [(k, x)]) (hjob : x.job = some id) :
    endJobOf id rt = endJob k x.blocks rt := by
  simp [endJobOf, h, hjob]

/-! ## Recording an end -/

/-- A command as its end leaves it: with what it answers, in its place in the order of ends (R137), retired when it can (R178). -/
def endedCmd (rt : Rt) (st : Nat) (res out : Bytes) (n : Nat) (c : Cmd) : Cmd :=
  { c with
    stage := .ended, status := st, result := padTo 16 (res.take 16), output := out, outLen := n, endSeq := rt.disp.nextEnd
    resv := if out = [] then 0 else c.resv, retired := c.retired || retiresNow rt st out c }

/-- Recording an end writes the command, the dispatch board's lists and what counts for its booth. -/
theorem setEnded_eq {id : CmdId} {c : Cmd} {rt : Rt} (h : kget rt.cmds id = some c) (st : Nat) (res out : Bytes) (n : Nat) :
    ∃ d b, setEnded id st res out n rt =
      { rt with cmds := kset rt.cmds id (endedCmd rt st res out n c), disp := d, booths := b } := by
  by_cases hout : out = []
  · simp only [setEnded, hout, if_true, returnResv, unready, h, modCmd, kmod, kget_kset_self, kset_kset, recount, modBooth]
    exact ⟨_, _, rfl⟩
  · simp only [setEnded, endedCmd, hout, if_false, unready, h, modCmd, kmod, kget_kset_self, recount, modBooth]
    exact ⟨_, _, rfl⟩

theorem endedAs_setEnded {id : CmdId} {c : Cmd} {s : State} {rt : Rt} (h : kget rt.cmds id = some c) (st : Nat) (res out : Bytes)
    (n : Nat) : EndedAs { s with rt := setEnded id st res out n rt } id st (padTo 16 (res.take 16)) out n := by
  obtain ⟨d, b, hrt⟩ := setEnded_eq h st res out n
  rw [hrt]
  exact ⟨_, kget_kset_self _ _ _, rfl, rfl, rfl, rfl, rfl⟩

theorem endedCmd_endJobOf (id : CmdId) (rt : Rt) : endedCmd (endJobOf id rt) = endedCmd rt :=
  read_of_rest endedCmd (sansJob_endJobOf id rt) fun _ => rfl

/-! ## Refusals and failures -/

/-- A command that is refused before admission carries the current epoch (R10). -/
def refusedAt (rt : Rt) (c : Cmd) : Cmd := { c with epoch := if c.admitted then c.epoch else rt.epoch }

theorem refusedAt_of_admitted {c : Cmd} (rt : Rt) (h : c.admitted = true) : refusedAt rt c = c := by
  rw [refusedAt, if_pos h]

theorem refusedAt_of_not_admitted {c : Cmd} (rt : Rt) (h : c.admitted = false) : refusedAt rt c = { c with epoch := rt.epoch } := by
  rw [refusedAt, h, if_neg Bool.false_ne_true]

/-- The state before the end of a refused command is recorded: its job has ended, and it carries its epoch. -/
theorem refused_cmds {id : CmdId} {c : Cmd} {rt : Rt} (h : kget rt.cmds id = some c) : ∃ m,
    (if c.admitted then endJobOf id rt else modCmd id (fun c => { c with epoch := (endJobOf id rt).epoch }) (endJobOf id rt)) =
      { endJobOf id rt with cmds := m } ∧ kget m id = some (refusedAt rt c) ∧ ∀ v, kset m id v = kset rt.cmds id v := by
  have hepoch : (endJobOf id rt).epoch = rt.epoch := read_of_rest Rt.epoch (sansJob_endJobOf id rt) fun _ => rfl
  cases hadm : c.admitted with
  | true => exact ⟨rt.cmds, by rw [if_pos rfl, ← cmds_endJobOf id rt], by rw [h, refusedAt_of_admitted rt hadm], fun _ => rfl⟩
  | false =>
    refine ⟨_, rfl, ?_, fun v => ?_⟩
    · rw [cmds_endJobOf, kget_kmod_self _ h, hepoch, refusedAt_of_not_admitted rt hadm]
    · rw [cmds_endJobOf, kmod, h]; exact kset_kset _ _ _ _

/-- A command outside a bundle that is refused ends by itself. -/
theorem failCmd_eq_of_alone {id : CmdId} {c : Cmd} {rt : Rt} (h : kget rt.cmds id = some c) (hbundle : c.bundle = none) (st : Nat)
    (res : Bytes) : ∃ d b, failCmd id st res rt =
      { endJobOf id rt with cmds := kset rt.cmds id (endedCmd rt st res [] 0 (refusedAt rt c)), disp := d, booths := b } := by
  obtain ⟨m, hm, hget, hset⟩ := refused_cmds h
  simp only [failCmd, h, hbundle, hm]
  obtain ⟨d, b, hrt⟩ := setEnded_eq (rt := { endJobOf id rt with cmds := m }) hget st res [] 0
  have hended : endedCmd { endJobOf id rt with cmds := m } = endedCmd rt := endedCmd_endJobOf id rt
  exact ⟨d, b, by rw [hrt, hended, hset]⟩

/-- An ended ring command in no bundle without output retires at once (R178). -/
theorem endedCmd_retired {rt : Rt} {c : Cmd} (hsession : c.session = none) (hbundle : c.bundle = none) (st : Nat) (res : Bytes) (n : Nat) :
    (endedCmd rt st res [] n c).retired = true := by
  simp [endedCmd, retiresNow, uncommitted, hsession, hbundle]

/-! ## DONE -/

/-- The output with which a command is done: none when it is withheld, a check value behind it with TALLY_OUT (R143, R312). -/
def doneOutput (rt : Rt) (c : Cmd) (out : Bytes) : Bytes :=
  if c.withheld then [] else if hasTallyOut c.desc then out ++ tallyBytes (presetOf rt c.preset) out else out

/-- The length that the output limit is held against: the inline span, or what is written and what a loom wrote before (R140, R141). -/
def doneLength (rt : Rt) (c : Cmd) (out : Bytes) (span : Nat) : Nat :=
  if c.withheld then 0 else if isInline c.desc then span else (doneOutput rt c out).length + c.direct

theorem doneOutput_endJobOf (id : CmdId) (rt : Rt) : doneOutput (endJobOf id rt) = doneOutput rt :=
  read_of_rest doneOutput (sansJob_endJobOf id rt) fun _ => rfl

theorem doneLength_endJobOf (id : CmdId) (rt : Rt) : doneLength (endJobOf id rt) = doneLength rt :=
  read_of_rest doneLength (sansJob_endJobOf id rt) fun _ => rfl

theorem multiOf_endJobOf (id : CmdId) (rt : Rt) : multiOf (endJobOf id rt) = multiOf rt :=
  read_of_rest multiOf (sansJob_endJobOf id rt) fun _ => rfl

theorem multiOf_of_alone {c : Cmd} (rt : Rt) (h : c.bundle = none) : multiOf rt c = none := by
  rw [multiOf, h]

/-- A lone command whose output is too long fails with MALFORMED, and names the length needed (R141). -/
theorem doneCmd_of_long {id : CmdId} {c : Cmd} {rt : Rt} {out : Bytes} {span : Nat} (h : kget rt.cmds id = some c)
    (hbundle : c.bundle = none) (hlong : c.desc.outLim.toNat < doneLength rt c out span) (res : Bytes) :
    doneCmd id res out span rt =
      modCmd id (fun x => { x with outLen := doneLength rt c out span }) (failCmd id stMalformed (zeros 16) (endJobOf id rt)) := by
  rw [← doneLength_endJobOf id rt] at hlong ⊢
  simp only [doneCmd, h, multiOf_of_alone _ hbundle, Option.isSome_none, Bool.false_eq_true, if_false]
  exact if_pos hlong

/-- A command alone whose output fits ends with it. -/
theorem doneCmd_of_fits {id : CmdId} {c : Cmd} {rt : Rt} {out : Bytes} {span : Nat} (h : kget rt.cmds id = some c)
    (hmulti : multiOf rt c = none) (hfits : doneLength rt c out span ≤ c.desc.outLim.toNat) (res : Bytes) :
    doneCmd id res out span rt = setEnded id stDone res (if isInline c.desc then [] else doneOutput rt c out)
      (doneLength rt c out span) (endJobOf id rt) := by
  rw [← multiOf_endJobOf id rt] at hmulti
  rw [← doneLength_endJobOf id rt] at hfits ⊢
  rw [← doneOutput_endJobOf id rt]
  simp only [doneCmd, h, hmulti]
  exact if_neg (Nat.not_lt.mpr hfits)

/-- A member of a bundle whose output fits has ended and waits for the others (R146). -/
theorem doneCmd_of_member {id : CmdId} {c : Cmd} {b : Bundle} {rt : Rt} {out : Bytes} {span : Nat} (h : kget rt.cmds id = some c)
    (hmulti : multiOf rt c = some b) (hfits : doneLength rt c out span ≤ c.desc.outLim.toNat) (res : Bytes) : ∃ m,
    doneCmd id res out span rt = modCmd id (fun y => { y with
      stage := .ended, status := stDone, result := padTo 16 (res.take 16)
      output := if isInline y.desc then [] else doneOutput rt c out, outLen := doneLength rt c out span })
      { endJobOf id rt with bundles := m } := by
  rw [← multiOf_endJobOf id rt] at hmulti
  rw [← doneLength_endJobOf id rt] at hfits ⊢
  rw [← doneOutput_endJobOf id rt]
  simp only [doneCmd, h, hmulti]
  exact ⟨_, if_neg (Nat.not_lt.mpr hfits)⟩

theorem endedAs_doneCmd_of_fits {id : CmdId} {c : Cmd} {s : State} {out : Bytes} {span : Nat} (h : kget s.rt.cmds id = some c)
    (hmulti : multiOf s.rt c = none) (hfits : doneLength s.rt c out span ≤ c.desc.outLim.toNat) (res : Bytes) :
    EndedAs { s with rt := doneCmd id res out span s.rt } id stDone (padTo 16 (res.take 16))
      (if isInline c.desc then [] else doneOutput s.rt c out) (doneLength s.rt c out span) := by
  rw [doneCmd_of_fits h hmulti hfits]
  exact endedAs_setEnded (by rw [cmds_endJobOf, h]) _ _ _ _

theorem endedAs_doneCmd_of_long {id : CmdId} {c : Cmd} {s : State} {out : Bytes} {span : Nat} (h : kget s.rt.cmds id = some c)
    (hbundle : c.bundle = none) (hlong : c.desc.outLim.toNat < doneLength s.rt c out span) (res : Bytes) :
    EndedAs { s with rt := doneCmd id res out span s.rt } id stMalformed (zeros 16) [] (doneLength s.rt c out span) := by
  obtain ⟨d, b, hfail⟩ := failCmd_eq_of_alone (rt := endJobOf id s.rt) (by rw [cmds_endJobOf, h]) hbundle stMalformed (zeros 16)
  rw [doneCmd_of_long h hbundle hlong, hfail]
  exact ⟨_, kget_kmod_self _ (kget_kset_self _ _ _), rfl, rfl, rfl, rfl, rfl⟩

/-- A command whose output is withheld ends DONE without output or length, in a bundle too (R312, R146). -/
theorem endedAs_doneCmd_of_withheld {id : CmdId} {c : Cmd} {s : State} (h : kget s.rt.cmds id = some c) (hwithheld : c.withheld = true)
    (res out : Bytes) (span : Nat) :
    EndedAs { s with rt := doneCmd id res out span s.rt } id stDone (padTo 16 (res.take 16)) [] 0 := by
  have hout : doneOutput s.rt c out = [] := if_pos hwithheld
  have hlen : doneLength s.rt c out span = 0 := if_pos hwithheld
  have hfits : doneLength s.rt c out span ≤ c.desc.outLim.toNat := hlen ▸ Nat.zero_le _
  cases hmulti : multiOf s.rt c with
  | none =>
    have hended := endedAs_doneCmd_of_fits h hmulti hfits res
    rwa [hout, hlen, ite_self] at hended
  | some b =>
    obtain ⟨m, hdone⟩ := doneCmd_of_member h hmulti hfits res
    rw [hdone]
    refine ⟨_, kget_kmod_self _ ((congrArg (kget · id) (cmds_endJobOf id s.rt)).trans h), rfl, rfl, rfl, ?_, hlen⟩
    rw [hout, ite_self]

/-! ## Bundles that fail (R148) -/

/-- A bundle whose member has failed with a status and inline result, the first to fail. -/
def failedBundle (b : Bundle) (member st : Nat) (res : Bytes) : Bundle := { b with failed := some (member, st, padTo 16 res) }

/-- The first failing member of a bundle is noted, and the bundle settles. -/
theorem failCmd_of_member {id u : Nat} {c : Cmd} {b : Bundle} {rt : Rt} (h : kget rt.cmds id = some c) (hbundle : c.bundle = some u)
    (hb : kget rt.bundles u = some b) (hsingle : b.single = false) (hcommitted : b.committed = false) (hfailed : b.failed = none)
    (st : Nat) (res : Bytes) : ∃ m d, failCmd id st res rt = settleBundle u
      { endJobOf id rt with cmds := m, bundles := kset rt.bundles u (failedBundle b c.member st res) } ∧ kget m id = some d := by
  obtain ⟨m, hm, hget, _⟩ := refused_cmds h
  have hbundles : (endJobOf id rt).bundles = rt.bundles := read_of_rest Rt.bundles (sansJob_endJobOf id rt) fun _ => rfl
  simp only [failCmd, h, hbundle, hm]
  simp only [hbundles, hb, if_neg (ne_true_of_eq_false hsingle), failBundle, modCmd, if_neg (ne_true_of_eq_false hcommitted), hfailed,
    if_true]
  exact ⟨_, _, rfl, kget_kmod_self _ hget⟩

theorem settleBundle_of_open {u : Nat} {b : Bundle} {rt : Rt} (hb : kget rt.bundles u = some b) (hopen : b.closed = false) :
    settleBundle u rt = rt := by
  simp only [settleBundle, hb, hopen, Bool.false_eq_true, if_false]
  split <;> rfl

theorem closeClaimed_cmds (u : Nat) (rt : Rt) : (closeClaimed u rt).cmds = rt.cmds := by
  unfold closeClaimed
  split
  · split <;> rfl
  · rfl

/-- Where the last member has arrived, the one member of a failed bundle ends with BUNDLE_ABORTED, and names the failure. -/
theorem endedAs_settleBundle_of_one {id u : Nat} {b : Bundle} {member st : Nat} {res : Bytes} {d : Cmd} {s : State} {rt : Rt}
    (hb : kget rt.bundles u = some b) (hfailed : b.failed = some (member, st, res)) (hclosed : b.closed = true)
    (hmembers : b.members = [id]) (hd : kget rt.cmds id = some d) :
    EndedAs { s with rt := settleBundle u rt } id stBundleAborted (padTo 16 ((le 2 st ++ res.take 14).take 16)) [] 0 := by
  have hrefused : ∃ e, kget (endJobOf id (refusalEpoch id rt)).cmds id = some e := by
    rw [cmds_endJobOf, refusalEpoch, modCmd]
    exact ⟨_, kget_kmod_self _ hd⟩
  obtain ⟨e, he⟩ := hrefused
  simp only [settleBundle, hb, hfailed, hclosed, hmembers, if_true, List.foldl_cons, List.foldl_nil]
  obtain ⟨y, hy, hended⟩ := endedAs_setEnded (s := s) he stBundleAborted (le 2 st ++ res.take 14) [] 0
  exact ⟨y, by rw [closeClaimed_cmds]; exact hy, hended⟩

/-! ## The statement -/

/-- Settles O42: a refusal by what it writes of the command and of its clerk's job, DONE by the length held against the output limit, a failing
member by the note in its bundle and the bundle's settling. -/
theorem commandEnds : Obligations.CommandEnds := by
  refine ⟨?refused, ?wipes, ?done, ?withheld, ?member⟩
  case refused =>
    intro id c st res s h hbundle
    obtain ⟨d, b, hfail⟩ := failCmd_eq_of_alone h hbundle st res
    rw [hfail]
    refine ⟨_, kget_kset_self _ _ _, rfl, rfl, rfl, rfl, rfl, rfl, rfl, fun hsession => ?_, rfl, fun j hj => kget_kset_ne _ _ hj.symm⟩
    exact endedCmd_retired (c := refusedAt s.rt c) hsession hbundle st res 0
  case wipes =>
    intro id c k st res s h hbundle hclerks
    obtain ⟨d, b, hfail⟩ := failCmd_eq_of_alone h hbundle st res
    rw [hfail, endJobOf_of_one hclerks rfl]
    exact clerkOf_endJob_self k _ s.rt
  case done =>
    intro id c res out span s h hbundle hkept
    have houtput : doneOutput s.rt c out = if hasTallyOut c.desc then out ++ tallyBytes (presetOf s.rt c.preset) out else out :=
      if_neg (ne_true_of_eq_false hkept)
    have hlength : doneLength s.rt c out span = if isInline c.desc then span else (doneOutput s.rt c out).length + c.direct :=
      if_neg (ne_true_of_eq_false hkept)
    have hfits := endedAs_doneCmd_of_fits (out := out) (span := span) h (multiOf_of_alone s.rt hbundle)
    have hlong := endedAs_doneCmd_of_long (out := out) (span := span) h hbundle
    rw [hlength, houtput] at hfits hlong
    refine ⟨fun hin hle => ?_, fun hin hlt => ?_, fun hin htally hle => ?_, fun hin htally hle => ?_, fun hin htally hlt => ?_⟩
    · rw [hin] at hfits; exact hfits hle res
    · rw [hin] at hlong; exact hlong hlt res
    · rw [hin, htally] at hfits; exact hfits hle res
    · rw [hin, htally] at hfits; exact hfits hle res
    · rw [hin, htally] at hlong; exact hlong hlt res
  case withheld =>
    intro id c res out span s h hwithheld
    exact endedAs_doneCmd_of_withheld h hwithheld res out span
  case member =>
    intro id u c b st res s h hbundle hb hsingle hcommitted hfailed
    obtain ⟨m, d, hfail, hd⟩ := failCmd_of_member h hbundle hb hsingle hcommitted hfailed st res
    have hget : kget (kset s.rt.bundles u (failedBundle b c.member st res)) u = some (failedBundle b c.member st res) :=
      kget_kset_self _ _ _
    rw [hfail]
    refine ⟨fun hopen => ?_, fun hclosed hmembers => ?_⟩
    · rw [settleBundle_of_open (b := failedBundle b c.member st res) hget hopen]
      exact ⟨_, hget, rfl, rfl⟩
    · exact endedAs_settleBundle_of_one hget rfl hclosed hmembers hd

end Sys2Proof.Machine
end

section
/-! The submission ring: doorbells, the fetch of descriptors, the input that is read before admission, and admission. -/

namespace Sys2Proof.Machine

/-- Two changes that come to the same in a state. -/
theorem next_onRt_congr {f g : Rt → Rt} {s : State} (h : f s.rt = g s.rt) :
    (Host.Outcome.next (onRt f s) : Res) = .next (onRt g s) :=
  congrArg (fun rt => Host.Outcome.next { s with rt := rt }) h

/-! ## Doorbells (R126 to R128) -/

theorem doSqTailWrite_of_live {b : Nat} {x : Booth} {rt : Rt} (hx : boothOf rt b = some x) (hlive : doorbellLive rt x = true)
    (v : BitVec 32) : doSqTailWrite b v rt =
      if 2 ^ x.cfg.sqLog2 ≤ v.toNat % 65536 then badDoorbell b 0 (v.toNat % 65536) rt
      else setBooth b { x with sqTail := v.toNat % 65536 } rt := by
  simp only [doSqTailWrite, hx, hlive, Bool.not_true, Bool.false_eq_true, if_false, Nat.reducePow]

/-- How far a value would move CQ_HEAD (R126). -/
def headMoves (x : Booth) (w : Nat) : Nat := (w + 2 ^ x.cfg.cqLog2 - x.cqHead) % 2 ^ x.cfg.cqLog2

theorem doCqHeadWrite_of_live {b : Nat} {x : Booth} {rt : Rt} (hx : boothOf rt b = some x) (hlive : doorbellLive rt x = true)
    (v : BitVec 32) : doCqHeadWrite b v rt =
      if 2 ^ x.cfg.cqLog2 ≤ v.toNat % 65536 ∨ x.cqUnread < headMoves x (v.toNat % 65536) then badDoorbell b 1 (v.toNat % 65536) rt
      else setBooth b { x with cqHead := v.toNat % 65536, cqUnread := x.cqUnread - headMoves x (v.toNat % 65536) } rt := by
  simp only [doCqHeadWrite, hx, hlive, Bool.not_true, Bool.false_eq_true, if_false, Nat.reducePow]
  rfl

/-! ## Taking a descriptor (R144, Table 7.4) -/

/-- Without marks a descriptor outside a bundle stands alone. -/
theorem marking_of_alone {d : Desc} (hfirst : markFirst d = false) (hmore : markMore d = false) :
    marking none d = { member := false, bad := false, stays := false } := by
  simp only [marking, hfirst, hmore, Bool.and_self, Bool.or_self, Bool.false_eq_true, if_false]

/-- A command that stands alone enters the list of commands. -/
def withCmd (c : Cmd) (rt : Rt) : Rt := { rt with cmds := kset rt.cmds c.id c }

theorem settleOf_of_alone {id : CmdId} {c : Cmd} {rt : Rt} (h : kget rt.cmds id = some c) (hbundle : c.bundle = none) :
    settleOf id rt = rt := by
  simp only [settleOf, h, Option.bind_some, hbundle]

theorem tamperHalt_of_cmdRefusal {rt : Rt} {op : Nat} (h : cmdRefusal rt op = none) : inTamperHalt rt = false := by
  refine eq_false_of_ne_true fun hhalt => ?_
  rw [cmdRefusal, if_pos hhalt] at h
  cases h

/-- A command ends with a status in a state; as what it came, for which booth and whether it was admitted stays. -/
structure Refused (t : Rt) (id : CmdId) (c : Cmd) (st : Nat) (m : Cmd) : Prop where
  here : kget t.cmds id = some m
  stage : m.stage = .ended
  status : m.status = st
  desc : m.desc = c.desc
  booth : m.booth = c.booth
  admitted : m.admitted = c.admitted
  bundle : m.bundle = none

theorem failWith_of_alone {id : CmdId} {c : Cmd} {rt : Rt} (h : kget rt.cmds id = some c) (hbundle : c.bundle = none) (st : Nat) :
    ∃ m, Refused (failWith id st rt) id c st m := by
  obtain ⟨d, b, hfail⟩ := failCmd_eq_of_alone h hbundle st (zeros 16)
  rw [failWith, hfail]
  exact ⟨_, kget_kset_self _ _ _, rfl, rfl, rfl, rfl, rfl, hbundle⟩

section
variable {progs : List ProgEntry} {ctx : DescCtx} {c : Cmd} {rt : Rt}

/-- A descriptor that passes every check leaves its command at stage 2. -/
theorem takeDesc_of_good (hfirst : markFirst c.desc = false) (hmore : markMore c.desc = false) (hbundle : c.bundle = none)
    (hcheck : checkDesc progs ctx false c.desc = none) (hstate : cmdRefusal rt c.desc.opcode.toNat = none) :
    takeDesc progs ctx none c rt = (withCmd c rt, none) := by
  have hsettled : settleOf c.id (withCmd c rt) = withCmd c rt := settleOf_of_alone (kget_kset_self _ _ _) hbundle
  simp only [takeDesc, openCount, Option.bind_none, marking_of_alone hfirst hmore, joinBundle, tamperHalt_of_cmdRefusal hstate, hcheck,
    hstate, Bool.not_false, Bool.false_eq_true, if_true, if_false]
  exact congrArg (·, none) hsettled

/-- The status with which a descriptor ends at once: TAMPER_HALT in tamper halt, else that of the check that it fails (R16, R418). -/
def EndsAtOnce (progs : List ProgEntry) (ctx : DescCtx) (d : Desc) (st : Nat) (rt : Rt) : Prop :=
  inTamperHalt rt = true ∧ st = stTamperHalt ∨ inTamperHalt rt = false ∧ checkDesc progs ctx false d = some st

theorem takeDesc_of_bad {st : Nat} (hfirst : markFirst c.desc = false) (hmore : markMore c.desc = false) (hbundle : c.bundle = none)
    (hend : EndsAtOnce progs ctx c.desc st rt) : takeDesc progs ctx none c rt = (failWith c.id st (withCmd c rt), none) := by
  obtain ⟨m, hm⟩ := failWith_of_alone (rt := withCmd c rt) (kget_kset_self _ _ _) hbundle st
  have hsettled : settleOf c.id (failWith c.id st (withCmd c rt)) = failWith c.id st (withCmd c rt) := settleOf_of_alone hm.here hm.bundle
  obtain ⟨hhalt, rfl⟩ | ⟨hhalt, hcheck⟩ := hend
  · simp only [takeDesc, openCount, Option.bind_none, marking_of_alone hfirst hmore, joinBundle, hhalt, Bool.not_false, if_true]
    exact congrArg (·, none) hsettled
  · simp only [takeDesc, openCount, Option.bind_none, marking_of_alone hfirst hmore, joinBundle, hhalt, hcheck, Bool.not_false,
      Bool.false_eq_true, if_true, if_false]
    exact congrArg (·, none) hsettled

end

/-! ## DESCRIPTOR_FETCH (R129) -/

/-- What DESCRIPTOR_FETCH asks for to read one entry: fetching goes on, an entry waits, and a completion entry is free for it. -/
structure FetchesOne (b : Nat) (x : Booth) (rt : Rt) : Prop where
  booth : boothOf rt b = some x
  fetches : ptFetches rt x = true
  waits : 1 ≤ sqWaiting x
  inRing : x.fetchHead + 1 ≤ 2 ^ x.cfg.sqLog2
  entryFree : cqClaimed rt b x + 1 ≤ 2 ^ x.cfg.cqLog2

theorem heldOpen_of_ptFetches {rt : Rt} {x : Booth} (h : ptFetches rt x = true) : x.heldOpen = none := by
  simp only [ptFetches, Bool.and_eq_true, Option.isNone_iff_eq_none] at h
  obtain ⟨_, hheld⟩ := h
  exact hheld

theorem exec_descriptorFetch_one {b : Nat} {x : Booth} {s : State} (h : FetchesOne b x s.rt) (e : Bytes) :
    exec (.descriptorFetch b [e]) s = .next (onRt (takeEntry s.nv.progs b e) s) := by
  obtain ⟨hx, hfetches, hwaits, hring, hfree⟩ := h
  have hall : (1 ≤ 1 ∧ 1 ≤ 8 ∧ 1 ≤ sqWaiting x ∧ x.fetchHead + 1 ≤ 2 ^ x.cfg.sqLog2 ∧ cqClaimed s.rt b x + 1 ≤ 2 ^ x.cfg.cqLog2) :=
    ⟨Nat.le_refl 1, by decide, hwaits, hring, hfree⟩
  have hrow : doDescriptorFetch b [e] s = onRt (takeEntry s.nv.progs b e) s := by
    simp only [doDescriptorFetch, hx, hfetches, List.length_singleton, decide_eq_true hall, Bool.and_self, if_true]
    rfl
  exact congrArg Host.Outcome.next hrow

/-- The command that an entry makes. -/
def fetchedCmd (b : Nat) (e : Bytes) (x : Booth) (rt : Rt) : Cmd :=
  newCmd rt.disp.nextCmd b none x.fetchHead (descOf x.cfg.fmt e) rt.epoch x.cfg.preset

/-- The state in which the next number is given to a command. -/
def numbered (rt : Rt) : Rt := { rt with disp := { rt.disp with nextCmd := rt.disp.nextCmd + 1 } }

/-- A booth whose fetch head has passed an entry, with the bundle that is open after it and the OPEN that is outstanding. -/
def entryPassed (u held : Option Nat) (x : Booth) : Booth :=
  { x with fetchHead := (x.fetchHead + 1) % 2 ^ x.cfg.sqLog2, openBundle := u, heldOpen := held }

/-- Outside a bundle an entry makes its command, and the fetch head passes it. -/
theorem takeEntry_eq {b : Nat} {x : Booth} {rt : Rt} (hx : boothOf rt b = some x) (hheld : x.heldOpen = none)
    (hopen : x.openBundle = none) (progs : List ProgEntry) (e : Bytes) : ∃ held : Option Nat,
    takeEntry progs b e rt =
      let r := takeDesc progs (boothCtx rt x) none (fetchedCmd b e x rt) (numbered rt)
      modBooth b (fun y => entryPassed r.2 (held <|> y.heldOpen) y) r.1 := by
  simp only [takeEntry, hx, hheld, hopen, Option.isSome_none, Bool.false_eq_true, if_false]
  split
  · exact ⟨some rt.disp.nextCmd, rfl⟩
  · exact ⟨none, rfl⟩

/-! ## Messages that a fault event sends -/

theorem signal_out (v : Nat) (rt : Rt) : rt.out <+: (signal v rt).out := by
  unfold signal
  dsimp only
  split
  · exact List.prefix_rfl
  · exact List.prefix_append _ _

theorem out_fatalStop (rt : Rt) : (fatalStage (if inTamperHalt rt then rt else stopAll stDeviceFault rt)).out = rt.out := by
  have hstage (r : Rt) : (fatalStage r).out = r.out := by unfold fatalStage; split <;> rfl
  rw [hstage]
  split
  · rfl
  · exact read_of_rest Rt.out (sansWork_stopAll stDeviceFault rt) fun _ => rfl

/-- What has gone out before an event is reported stays first. -/
theorem report_out (e : FaultEvent) (rt : Rt) : rt.out <+: (report e rt).out := by
  unfold report
  generalize (if boothAttr e then (FClass.contained, false, false, rt.fault.wins) else classify rt e) = v
  obtain ⟨c, sev, quiet, wins⟩ := v
  dsimp -zeta only
  extract_lets _ classified _ boothRt _ c' r pending pin asserted sent
  have hasserted : asserted.out = rt.out := by
    unfold asserted
    split <;> rfl
  have hsent : rt.out <+: sent.out := by
    unfold sent
    have hstart : rt.out <+: asserted.out := hasserted.symm ▸ List.prefix_rfl
    split
    · exact hstart
    · exact hstart.trans (signal_out 0 asserted)
  split
  · exact List.prefix_rfl
  split
  · exact List.prefix_rfl
  split
  · split
    · exact List.prefix_rfl
    · exact signal_out 0 boothRt
  split
  · rw [out_fatalStop]; exact hsent
  · exact hsent

theorem raise_out (e : FaultEvent) (rt : Rt) : rt.out <+: (raise e rt).out := by
  have hunpair (r : Rt) : r.out <+: (unpair r).out := by
    unfold unpair
    split
    · exact report_out (plainEvent .peerLink []) { r with peer := { r.peer with paired := false, lost := true } }
    · exact List.prefix_rfl
  unfold raise
  extract_lets reported
  split
  · exact (report_out e rt).trans (hunpair reported)
  · exact report_out e rt

/-! ## Completion entries (R136, R137) -/

/-- A booth whose completion tail has passed an entry; the phase turns at the end of the ring. -/
def tailPassed (x : Booth) : Booth :=
  { x with
    cqTail := if x.cqTail + 1 = 2 ^ x.cfg.cqLog2 then 0 else x.cqTail + 1
    phase := if x.cqTail + 1 = 2 ^ x.cfg.cqLog2 then !x.phase else x.phase
    cqUnread := x.cqUnread + 1 }

/-- The entry as the host receives it. -/
def entryWrite (x : Booth) (entry : Bytes) : Out := .hostWrite (some x.cfg.pasid) (x.cfg.cqIova + 32 * x.cqTail) entry false

/-- An entry goes out at the completion tail, which passes it; then it is counted towards the booth's message. -/
theorem writeEntryAt_eq {b : Nat} {x : Booth} {rt : Rt} (hx : boothOf rt b = some x) (mk : Bool → Bytes) :
    writeEntryAt b mk rt = coalesce b (setBooth b (tailPassed x) (emit (entryWrite x (mk x.phase)) rt)) := by
  simp only [writeEntryAt, hx]
  rfl

/-- A booth with one more entry that no message has signalled. -/
def counting (x : Booth) : Booth := { x with unsignalled := x.unsignalled + 1, coalRunning := true }

theorem boothOf_setBooth_self (b : Nat) (x : Booth) (rt : Rt) : boothOf (setBooth b x rt) b = some x := kget_kset_self _ _ _

/-- A booth whose entries a message has signalled. -/
def signalled (x : Booth) : Booth := { x with unsignalled := 0, coalRunning := false }

theorem sendCoalesced_eq {b : Nat} {x : Booth} {rt : Rt} (hx : boothOf rt b = some x) :
    sendCoalesced b rt = signal x.cfg.vector (setBooth b (signalled x) rt) := by
  simp only [sendCoalesced, hx]
  rfl

theorem coalesce_eq {b : Nat} {x : Booth} {rt : Rt} (hx : boothOf rt b = some x) : coalesce b rt =
    if x.cfg.coalTime = 0 ∨ x.cfg.coalCount ≤ x.unsignalled + 1 then sendCoalesced b (setBooth b (counting x) rt)
    else setBooth b (counting x) rt := by
  simp only [coalesce, hx]
  rfl

/-- A message that goes out leaves the booths. -/
theorem boothOf_signal (v b : Nat) (rt : Rt) : boothOf (signal v rt) b = boothOf rt b := by
  obtain ⟨m, o, h⟩ := signal_eq v rt
  rw [h]; rfl

/-- An entry that is counted stays the first that goes out, and its booth stays open. -/
theorem coalesce_keeps {b : Nat} {x : Booth} {rt : Rt} (hx : boothOf rt b = some x) :
    rt.out <+: (coalesce b rt).out ∧ ∃ y, boothOf (coalesce b rt) b = some y := by
  rw [coalesce_eq hx]
  split
  · rw [sendCoalesced_eq (boothOf_setBooth_self _ _ _), boothOf_signal]
    exact ⟨signal_out _ (setBooth b (signalled (counting x)) (setBooth b (counting x) rt)), _, boothOf_setBooth_self _ _ _⟩
  · exact ⟨List.prefix_rfl, _, boothOf_setBooth_self _ _ _⟩

/-! ## DESCRIPTOR_READ_FAIL (R134) -/

/-- The entry of a descriptor that could not be read: tag FFFFFFFFh with ACCESS_REFUSED, in tamper halt TAMPER_HALT (R134, R418). -/
def readFailEntry (s : State) (phase : Bool) : Bytes :=
  le 4 0xFFFFFFFF ++ le 2 (if inTamperHalt s.rt then stTamperHalt else stAccessRefused) ++
    [BitVec.ofNat 8 (b2n phase + 4 * b2n (peerLost s)), 0] ++ zeros 4 ++ le 4 s.rt.epoch ++ zeros 16

/-- The event of a descriptor that could not be read names the ring index (R134). -/
def readFailEvent (b : Nat) (x : Booth) : FaultEvent :=
  { source := .hostDma, scope := 0, island := some 37, booth := some b, detail := le 2 x.fetchHead ++ [0], houseProg := false }

/-- A booth for which nothing more is fetched. -/
def stopped (x : Booth) : Booth := { x with fetchStopped := true }

theorem exec_descriptorReadFail {b : Nat} {x : Booth} {s : State} (hx : boothOf s.rt b = some x) (hfetches : ptFetches s.rt x = true)
    (hwaits : 1 ≤ sqWaiting x) (hfree : cqClaimed s.rt b x + 1 ≤ 2 ^ x.cfg.cqLog2) : exec (.descriptorReadFail b) s =
      .next (onRt (fun rt => raise (readFailEvent b x) (modBooth b stopped (writeEntryAt b (readFailEntry s) rt))) s) := by
  have hall : 1 ≤ sqWaiting x ∧ cqClaimed s.rt b x + 1 ≤ 2 ^ x.cfg.cqLog2 := ⟨hwaits, hfree⟩
  have hrow : doDescriptorReadFail b s =
      onRt (fun rt => raise (readFailEvent b x) (modBooth b stopped (writeEntryAt b (readFailEntry s) rt))) s := by
    simp only [doDescriptorReadFail, hx, hfetches, decide_eq_true hall, Bool.and_self, if_true]
    rfl
  exact congrArg Host.Outcome.next hrow

/-- The entry of a failed read is the first thing that goes out, and its booth fetches no more, whatever the event brings. -/
theorem readFail_writes {b : Nat} {x : Booth} {rt : Rt} (hx : boothOf rt b = some x) (e : FaultEvent) (mk : Bool → Bytes) :
    let t := raise e (modBooth b stopped (writeEntryAt b mk rt))
    (boothOf t b).map Booth.fetchStopped = some true ∧ rt.out ++ [entryWrite x (mk x.phase)] <+: t.out := by
  rw [writeEntryAt_eq hx]
  obtain ⟨hout, y, hy⟩ := coalesce_keeps (boothOf_setBooth_self b (tailPassed x) (emit (entryWrite x (mk x.phase)) rt))
  refine ⟨?_, hout.trans (raise_out e (modBooth b stopped _))⟩
  obtain ⟨n, hn⟩ := boothOf_of_sansCounted (sansCounted_raise e _) (boothOf_modBooth_self stopped hy)
  rw [hn]
  rfl

/-! ## INPUT_FETCH (R11, R132, R143) -/

/-- The state of the module and the booth's windows let a fetched ring command's input be read. -/
structure InputReadable (id : CmdId) (c : Cmd) (rt : Rt) : Prop where
  here : kget rt.cmds id = some c
  stage : c.stage = .fetched
  ring : c.session = none
  state : cmdRefusal rt c.desc.opcode.toNat = none
  input : inputRangeOk rt c rt.epoch = true
  output : outputRangeOk rt c rt.epoch = true

theorem doInputFetch_eq {id : CmdId} {c : Cmd} {rt : Rt} (h : InputReadable id c rt) (data : Bytes) : doInputFetch id (some data) rt =
    if stage4Bytes c = 0 then inputRead id c [] rt else if data.length = stage4Bytes c then inputRead id c data rt else rt := by
  obtain ⟨hhere, hstage, hring, hstate, hinput, _⟩ := h
  simp only [doInputFetch, hhere, hstage, hring, hstate, hinput, ne_eq, not_true_eq_false, Option.isSome_none, Bool.false_eq_true,
    or_self, Bool.not_true, if_false]

/-- A command as stage 4 leaves it: with its inline parameters, and with what has been read of its input. -/
def inputTaken (d : Desc) (m : Bytes) (c : Cmd) : Cmd :=
  { c with desc := d, input := m, inputDone := hasTallyIn c.desc || hostInput c == 0, stage := .input }

theorem inputRead_of_plain {id : CmdId} {c : Cmd} {rt : Rt} {data m : Bytes} (h : InputReadable id c rt) (hprefix : c.prefixed = false)
    (hstrip : (if hasTallyIn c.desc then stripTally (presetOf rt c.preset) data else some data) = some m) :
    kget (inputRead id c data rt).cmds id = some (inputTaken c.desc m c) := by
  have hread : inputRead id c data rt = modCmd id (inputTaken c.desc m) rt := by
    simp only [inputRead, hstrip, hprefix, h.output, Bool.false_and, Bool.not_true, Bool.false_eq_true, if_false]
    rfl
  rw [hread]
  exact kget_kmod_self _ h.here

/-- Of a format 1 input the first 16 bytes become the inline parameters, and the rest stays in host memory (R132). -/
theorem inputRead_of_prefix {id : CmdId} {c : Cmd} {rt : Rt} {data : Bytes} (h : InputReadable id c rt) (hprefix : c.prefixed = true)
    (htally : hasTallyIn c.desc = false) (hlen : data.length = 16) (hzero : zeroAt data 14 2 = true) :
    kget (inputRead id c data rt).cmds id = some (inputTaken { c.desc with fmt := 2, inl := data.take 14 } [] c) := by
  have hrest : data.drop 16 = [] := List.drop_eq_nil_of_le (Nat.le_of_eq hlen)
  have hlong : decide (data.length < 16) = false := decide_eq_false (by omega)
  have hread : inputRead id c data rt = modCmd id (inputTaken { c.desc with fmt := 2, inl := data.take 14 } []) rt := by
    simp only [inputRead, htally, hprefix, h.output, hlong, hzero, hrest, Bool.not_true, Bool.or_self, Bool.and_false,
      Bool.false_eq_true, if_false, if_true]
    rfl
  rw [hread]
  exact kget_kmod_self _ h.here

theorem stage4Bytes_of_nothing {c : Cmd} (hprefix : c.prefixed = false) (htally : hasTallyIn c.desc = false) : stage4Bytes c = 0 := by
  simp only [stage4Bytes, hprefix, htally, Bool.false_eq_true, if_false, ite_self]

theorem stage4Bytes_of_tally {c : Cmd} (hinline : isInline c.desc = false) (htally : hasTallyIn c.desc = true) :
    stage4Bytes c = c.desc.inLen.toNat := by
  simp only [stage4Bytes, hinline, htally, Bool.false_and, Bool.false_eq_true, if_false, if_true]

theorem stage4Bytes_of_prefix {c : Cmd} (hprefix : c.prefixed = true) (htally : hasTallyIn c.desc = false) : stage4Bytes c = 16 := by
  simp only [stage4Bytes, hprefix, htally, Bool.not_true, Bool.and_false, Bool.false_eq_true, if_false, if_true]

/-! ## ADMISSION (R178 to R180) -/

/-- A lone command whose input has been read is next to be admitted, its ranges in the windows of its booth. -/
structure AdmitsNext (id : CmdId) (c : Cmd) (x : Booth) (rt : Rt) : Prop where
  here : kget rt.cmds id = some c
  ident : c.id = id
  stage : c.stage = .input
  notOpen : c.desc.opcode ≠ 1
  alone : c.bundle = none
  state : cmdRefusal rt c.desc.opcode.toNat = none
  turn : earlierWaits rt c id = false
  booth : boothOf rt c.booth = some x
  input : inputRangeOk rt c rt.epoch = true
  output : outputRangeOk rt c rt.epoch = true

/-- A command as admission leaves it (R184, R15). -/
def admittedCmd (rt : Rt) (die : Nat) (x : Booth) (c : Cmd) : Cmd :=
  { c with
    admitted := true, admitSeq := rt.disp.nextAdmit, stage := .admitted, epoch := rt.epoch, die := die
    level := min (c.desc.prio.toNat % 8) x.cfg.ceiling, streaming := x.cfg.streaming, preset := x.cfg.preset }

section
variable {id : CmdId} {c : Cmd} {x : Booth} {rt : Rt} (h : AdmitsNext id c x rt)
include h

theorem doAdmission_eq : doAdmission id rt = admitNow c [id] rt := by
  obtain ⟨hhere, hident, hstage, hopen, halone, hstate, hturn, _, _, _⟩ := h
  simp only [doAdmission, hhere, hstage, hstate, hopen, multiOf_of_alone rt halone, hturn, ne_eq, not_true_eq_false, Bool.false_eq_true,
    if_false]

theorem admitNow_of_closed (hshare : x.cfg.share = 0) : admitNow c [id] rt = failWith id stAdmissionClosed rt := by
  obtain ⟨hhere, hident, _, _, _, _, _, hx, hinput, houtput⟩ := h
  simp only [admitNow, hx, List.find?_singleton, hhere, hinput, houtput, hshare, hident, Bool.and_self, Bool.not_true, Bool.false_eq_true,
    if_false, if_true]

theorem admitNow_of_placed {die : Nat} (hshare : 0 < x.cfg.share) (hdie : placeDie rt x.cfg.house = some die) : admitNow c [id] rt =
    if x.cfg.share < occupancy rt c.booth + 1 then failWith id stQueueFull rt
    else admitAll die (min (c.desc.prio.toNat % 8) x.cfg.ceiling) x.cfg [id] rt := by
  obtain ⟨hhere, hident, _, _, _, _, _, hx, hinput, houtput⟩ := h
  simp only [admitNow, hx, List.find?_singleton, hhere, hinput, houtput, Nat.pos_iff_ne_zero.mp hshare, hdie, hident, Bool.and_self,
    Bool.not_true, Bool.false_eq_true, if_false, List.length_singleton]

end

/-- A lone command that is admitted is the last of its die's ready list. -/
theorem admitAll_of_alone {id : CmdId} {c : Cmd} {rt : Rt} (h : kget rt.cmds id = some c) (die : Nat) (x : Booth) :
    let t := admitAll die (min (c.desc.prio.toNat % 8) x.cfg.ceiling) x.cfg [id] rt
    t.disp.ready = rt.disp.ready ++ [id] ∧ kget t.cmds id = some (admittedCmd rt die x c) :=
  ⟨rfl, kget_kmod_self _ h⟩

/-! ## The statement -/

theorem exec_inputFetch (id : CmdId) (data : Option Bytes) (s : State) :
    exec (.inputFetch id data) s = .next (onRt (doInputFetch id data) s) := rfl

/-- Settles O24: the doorbells by their range checks, an entry by the checks that it meets, the input by what stage 4 reads of it, and
admission by the credits of the booth. -/
theorem ringCommands : Obligations.RingCommands := by
  refine ⟨?doorbells, ?good, ?bad, ?readFail, ?input, ?admission⟩
  case doorbells =>
    intro b v x s hx hlive w n moved
    have htail := doSqTailWrite_of_live hx hlive v
    have hhead := doCqHeadWrite_of_live hx hlive v
    exact ⟨fun hw => next_onRt_congr (htail.trans (if_neg (Nat.not_le.mpr hw))),
      fun hw => next_onRt_congr (htail.trans (if_pos hw)),
      fun hw hmoved => next_onRt_congr (hhead.trans (if_neg (not_or.mpr ⟨Nat.not_le.mpr hw, Nat.not_lt.mpr hmoved⟩))),
      fun hw => next_onRt_congr (hhead.trans (if_pos hw))⟩
  case good =>
    intro b e x s hx hfetches hwaits hring hfree d c hopen hfirst hmore _ hcheck hstate
    obtain ⟨held, htake⟩ := takeEntry_eq hx (heldOpen_of_ptFetches hfetches) hopen s.nv.progs e
    have hgood := takeDesc_of_good (c := fetchedCmd b e x s.rt) (rt := numbered s.rt) hfirst hmore rfl hcheck hstate
    rw [hgood] at htake
    refine ⟨_, exec_descriptorFetch_one ⟨hx, hfetches, hwaits, hring, hfree⟩ e, ?_⟩
    rw [onRt_rt, htake]
    refine ⟨kget_kset_self _ _ _, rfl, ?_⟩
    have hbooth : boothOf (withCmd (fetchedCmd b e x s.rt) (numbered s.rt)) b = some x := hx
    rw [boothOf_modBooth_self _ hbooth]
    rfl
  case bad =>
    intro b e x st s hx hfetches hwaits hring hfree d hopen hfirst hmore hend
    obtain ⟨held, htake⟩ := takeEntry_eq hx (heldOpen_of_ptFetches hfetches) hopen s.nv.progs e
    have hbad := takeDesc_of_bad (c := fetchedCmd b e x s.rt) (rt := numbered s.rt) hfirst hmore rfl hend
    rw [hbad] at htake
    obtain ⟨m, hm⟩ := failWith_of_alone (c := fetchedCmd b e x s.rt) (rt := withCmd (fetchedCmd b e x s.rt) (numbered s.rt))
      (kget_kset_self _ _ _) rfl st
    refine ⟨_, m, exec_descriptorFetch_one ⟨hx, hfetches, hwaits, hring, hfree⟩ e, ?_, hm.stage, hm.status, hm.desc, hm.booth, hm.admitted⟩
    rw [onRt_rt, htake]
    exact hm.here
  case readFail =>
    intro b x s hx hfetches hwaits hfree
    obtain ⟨hstopped, rest, hout⟩ := readFail_writes hx (readFailEvent b x) (readFailEntry s)
    exact ⟨_, rest, exec_descriptorReadFail hx hfetches hwaits hfree, hstopped, hout.symm⟩
  case input =>
    intro id c data s hhere hstage hring hstate hin hout
    have h : InputReadable id c s.rt := ⟨hhere, hstage, hring, hstate, hin, hout⟩
    have hrow := doInputFetch_eq h data
    refine ⟨fun hprefix htally => ?_, fun hprefix hinline htally hpos hlen m hstrip => ?_, fun hprefix htally hlen hzero => ?_⟩
    · rw [if_pos (stage4Bytes_of_nothing hprefix htally)] at hrow
      have hread := inputRead_of_plain (data := []) (m := []) h hprefix (by rw [htally]; rfl)
      refine ⟨_, exec_inputFetch _ _ _, ?_⟩
      rw [onRt_rt, hrow, hread, inputTaken, htally, Bool.false_or]
    · have hbytes := stage4Bytes_of_tally hinline htally
      rw [hbytes, if_neg (Nat.pos_iff_ne_zero.mp hpos), if_pos hlen] at hrow
      have hread := inputRead_of_plain (data := data) (m := m) h hprefix (by rw [htally]; exact hstrip)
      refine ⟨_, exec_inputFetch _ _ _, ?_⟩
      rw [onRt_rt, hrow, hread, inputTaken, htally, Bool.true_or]
    · rw [stage4Bytes_of_prefix hprefix htally, if_neg (by decide), if_pos hlen] at hrow
      refine ⟨_, exec_inputFetch _ _ _, ?_⟩
      rw [onRt_rt, hrow, inputRead_of_prefix h hprefix htally hlen hzero, inputTaken, htally, Bool.false_or]
  case admission =>
    intro id c x die s hhere hident hstage hopen halone hstate hturn hx hin hout
    have h : AdmitsNext id c x s.rt := ⟨hhere, hident, hstage, hopen, halone, hstate, hturn, hx, hin, hout⟩
    have hrow := doAdmission_eq h
    refine ⟨fun hshare hdie hroom => ?_, fun hshare => ?_, fun hshare hdie hfull => ?_⟩
    · obtain ⟨hready, hadmitted⟩ := admitAll_of_alone hhere die x
      rw [admitNow_of_placed h hshare hdie, if_neg (Nat.not_lt.mpr hroom)] at hrow
      exact ⟨_, next_onRt_congr hrow, hready, hadmitted⟩
    · exact next_onRt_congr (hrow.trans (admitNow_of_closed h hshare))
    · rw [admitNow_of_placed h hshare hdie, if_pos hfull] at hrow
      exact next_onRt_congr hrow

end Sys2Proof.Machine
end

section
/-! Two statements that fail, each with a state that its premises allow and in which the row does more than the statement says. -/

namespace Sys2Proof.Machine

/-- A booth of house 3 with rings of 16 entries, which coalesces two entries into a message. -/
def smallBooth : Booth :=
  newBooth { pasid := 1, house := 3, fmt := 2, ceiling := 0, share := 1, sqLog2 := 4, cqLog2 := 4, vector := 1, sqIova := 0x1000, cqIova := 0x2000
             coalCount := 2, coalTime := 10, streaming := false, ringTally := false, preset := 0, windows := [], epoch := 0 }

/-- The module with its host link up and the booth open as booth 0. -/
def hostedRt : Rt := { Rt.reset with link := { Rt.reset.link with up := true }, booths := [(0, smallBooth)] }

/-! ## A doorbell after a fatal fault -/

/-- A fatal fault has halted the module while it is still paired with its twin: the next event, an invalid doorbell say, ends the pairing, and
that is an event of its own (08 R175). -/
def pairedHalt : State :=
  { State.reset with
    rt := { hostedRt with
      boot := { hostedRt.boot with isSealed := true }
      fault := { hostedRt.fault with halted := true }
      peer := { hostedRt.peer with paired := true } } }

theorem doorbellLive_pairedHalt : doorbellLive pairedHalt.rt smallBooth = true := by decide

/-- One invalid value of SQ_TAIL, two records. -/
theorem doSqTailWrite_pairedHalt_nextSeq : (doSqTailWrite 0 0xFFFF pairedHalt.rt).fault.nextSeq = 2 := by decide

/-- Refutes O59: its first clause has the sequence number go on by one, and its premises do not shut out a module that has halted on a fatal
fault and is still paired, where PEER_LINK is recorded behind DOORBELL_INVALID. -/
theorem not_invalidDoorbells : ¬ Obligations.InvalidDoorbells := by
  unfold Obligations.InvalidDoorbells
  intro h
  obtain ⟨htail, _, _⟩ := h 0 0xFFFF smallBooth pairedHalt rfl doorbellLive_pairedHalt
  obtain ⟨t, r, hrow, _, _, _, _, _, hseq⟩ := htail (by decide)
  have hrt : onRt (doSqTailWrite 0 0xFFFF) pairedHalt = t := Host.Outcome.next.inj hrow
  rw [← hrt, onRt_rt, doSqTailWrite_pairedHalt_nextSeq] at hseq
  exact absurd hseq (by decide)

/-! ## A completion in tamper halt while a request is overdue -/

/-- A command that has ended without output. -/
def endedWork : Cmd := { newCmd 0 0 none 0 (desc2 []) 0 0 with stage := .ended, endSeq := 1 }

/-- In tamper halt a command awaits its entry, and a request of the ceremony console waits whose bound has passed. -/
def overdueHalt : State :=
  { State.reset with
    rt := { hostedRt with
      now := 1
      boot := { hostedRt.boot with stage := 0x81 }
      cmds := [(0, endedWork)]
      waiting := some { code := 0x12, seq := 0, console := true, staged := none, booth := none, bundle := none, result := [], due := some 0 } } }

/-- The entry goes out, and the answer to the overdue request behind it. -/
theorem completionPost_overdueHalt_out : (closeReady (doCompletionPost 0 true overdueHalt)).rt.out.length = 2 := by decide

/-- Refutes O25: its second clause, unlike the first, does not ask that no request waits, and COMPLETION_POST also answers a request whose bound
has passed (06 R118), so that more than the entry goes out. -/
theorem not_completionCommands : ¬ Obligations.CompletionCommands := by
  unfold Obligations.CompletionCommands
  rintro ⟨_, hhalt, _⟩
  obtain ⟨t, hrow, _, hout⟩ := hhalt 0 endedWork smallBooth overdueHalt rfl rfl rfl rfl rfl rfl (by decide) (by decide) (by decide) rfl
    (by decide) rfl (by decide) (by decide)
  have ht : closeReady (doCompletionPost 0 true overdueHalt) = t := Host.Outcome.next.inj hrow
  have hlen := completionPost_overdueHalt_out
  rw [ht, hout] at hlen
  exact absurd hlen (by decide)

end Sys2Proof.Machine
end

section
/-! Policy changes: how a staged change commits, drains and completes, and a room's new code. -/

namespace Sys2Proof.Machine

/-! ## What a fault event leaves of the board and of a booth -/

/-- The run-time state without what a fault event writes where it does not stop the module's work. -/
def sansEvent (rt : Rt) : Rt := { sansNotice rt with boot := Rt.reset.boot, peer := Rt.reset.peer }

theorem sansEvent_of_sansNotice {a b : Rt} (h : sansNotice a = sansNotice b) : sansEvent a = sansEvent b :=
  congrArg (fun r => { r with boot := Rt.reset.boot, peer := Rt.reset.peer }) h

theorem sansEvent_fatalStage (rt : Rt) : sansEvent (fatalStage rt) = sansEvent rt := by
  unfold fatalStage; split <;> rfl

section
variable {P : Rt → Prop} (hrest : ∀ a b, sansEvent b = sansEvent a → P a → P b) (hstop : ∀ r, P r → P (stopAll stDeviceFault r))
include hrest hstop

/-- What does not depend on the notice of an event, and what a fatal stop preserves, every report preserves. -/
theorem report_preserves (e : FaultEvent) {rt : Rt} (h : P rt) : P (report e rt) := by
  obtain ⟨r, hnotice, hcases⟩ := report_cases e rt
  have hr : P r := hrest rt r (sansEvent_of_sansNotice hnotice) h
  obtain ⟨hreport, _⟩ | hreport := hcases
  · rwa [hreport]
  · rw [hreport]
    refine hrest _ _ (sansEvent_fatalStage _) ?_
    split
    · exact hr
    · exact hstop r hr

theorem raise_preserves (e : FaultEvent) {rt : Rt} (h : P rt) : P (raise e rt) := by
  have hreported := report_preserves hrest hstop e h
  unfold raise unpair
  extract_lets reported
  split
  · split
    · exact report_preserves hrest hstop _ (hrest reported _ rfl hreported)
    · exact hreported
  · exact hreported

theorem raiseLevel_preserves (src : FaultSource) (k : Nat) (holds : Bool) {rt : Rt} (h : P rt) : P (raiseLevel src k holds rt) := by
  obtain ⟨f, heq⟩ | ⟨f, heq⟩ := raiseLevel_cases src k holds rt
  · rw [heq]
    exact hrest rt _ rfl h
  · rw [heq]
    exact raise_preserves hrest hstop _ (hrest rt _ rfl h)

theorem writeEntry_preserves (e : LedgerEntry) {s : State} (h : P s.rt) : P (writeEntry e s).rt := by
  rw [writeEntry_eq, ledgerLevels, onRt_rt]
  exact raiseLevel_preserves hrest hstop _ _ _ (raiseLevel_preserves hrest hstop _ _ _ h)

end

/-- The board without its queues: the changes, the partition maps and the numbers to come. -/
def sansQueues (rt : Rt) : Disp := { rt.disp with ready := [], drain := [], resvQueue := [], pool := 0, nextEnd := 0 }

theorem sansQueues_stopAll (st : Nat) (rt : Rt) : sansQueues (stopAll st rt) = sansQueues rt := by
  unfold stopAll
  extract_lets ended
  have hended : sansJob ended = sansJob rt := foldl_keeps sansJob fun r kv => sansJob_endJob kv.1 kv.2.blocks r
  have hdisp : ended.disp = rt.disp := read_of_rest Rt.disp hended fun _ => rfl
  exact congrArg (fun d : Disp => { d with ready := [], drain := [], resvQueue := [], pool := 0, nextEnd := 0 }) hdisp

/-- A booth counted at its share (R182). -/
def countedAtShare (x : Booth) : Booth := { x with counted := x.cfg.share }

/-- A fatal stop counts every booth at its share. -/
theorem boothOf_stopAll (st b : Nat) (rt : Rt) : boothOf (stopAll st rt) b = (boothOf rt b).map countedAtShare := by
  unfold stopAll
  extract_lets ended
  have hended : sansJob ended = sansJob rt := foldl_keeps sansJob fun r kv => sansJob_endJob kv.1 kv.2.blocks r
  have hbooths : ended.booths = rt.booths := read_of_rest Rt.booths hended fun _ => rfl
  simp only [boothOf, hbooths]
  exact kget_mapValues countedAtShare rt.booths b

theorem writeEntry_sansQueues (e : LedgerEntry) (s : State) : sansQueues (writeEntry e s).rt = sansQueues s.rt := by
  have hrest : ∀ a b : Rt, sansEvent b = sansEvent a → sansQueues a = sansQueues s.rt → sansQueues b = sansQueues s.rt :=
    fun a b hab ha => (read_of_rest sansQueues hab fun _ => rfl).trans ha
  exact writeEntry_preserves hrest (fun r hr => (sansQueues_stopAll _ r).trans hr) e rfl

/-- A booth that counts at its share stays as it is, whatever a ledger entry raises. -/
theorem boothOf_writeEntry {b : Nat} {x : Booth} {s : State} (hx : boothOf s.rt b = some x) (hcounted : countedAtShare x = x)
    (e : LedgerEntry) : boothOf (writeEntry e s).rt b = some x := by
  have hrest : ∀ r r' : Rt, sansEvent r' = sansEvent r → boothOf r b = some x → boothOf r' b = some x :=
    fun r r' hsame hr => (read_of_rest (boothOf · b) hsame fun _ => rfl).trans hr
  have hstop : ∀ r, boothOf r b = some x → boothOf (stopAll stDeviceFault r) b = some x := fun r hr => by
    rw [boothOf_stopAll, hr, Option.map_some, hcounted]
  exact writeEntry_preserves hrest hstop e hx

/-! ## What a ledger entry leaves to be read -/

@[simp] theorem writeEntry_changes (e : LedgerEntry) (s : State) : (writeEntry e s).rt.disp.changes = s.rt.disp.changes :=
  (congrArg Disp.changes (writeEntry_sansQueues e s) :)

@[simp] theorem writeEntry_part (e : LedgerEntry) (s : State) : (writeEntry e s).rt.disp.part = s.rt.disp.part :=
  (congrArg Disp.part (writeEntry_sansQueues e s) :)

@[simp] theorem writeEntry_partOld (e : LedgerEntry) (s : State) : (writeEntry e s).rt.disp.partOld = s.rt.disp.partOld :=
  (congrArg Disp.partOld (writeEntry_sansQueues e s) :)

@[simp] theorem writeEntry_waiting (e : LedgerEntry) (s : State) : (writeEntry e s).rt.waiting = s.rt.waiting :=
  writeEntry_keeps Rt.waiting (fun _ _ => rfl) (fun e r => read_of_rest Rt.waiting (sansFault_raise e r) fun _ => rfl) e s

@[simp] theorem writeEntry_rooms (e : LedgerEntry) (s : State) : (writeEntry e s).rt.rooms = s.rt.rooms :=
  writeEntry_keeps Rt.rooms (fun _ _ => rfl) (fun e r => read_of_rest Rt.rooms (sansFault_raise e r) fun _ => rfl) e s

theorem writeEntry_last_event (e : LedgerEntry) (s : State) :
    (writeEntry e s).nv.ledger.entries.getLast?.map LedgerEntry.event = some e.event := by
  obtain ⟨l, hlast, hevent, _⟩ := writeEntry_last e s
  rw [hlast, Option.map_some, hevent]

/-! ## What a change touches (Table 9.3) -/

theorem untouched_of_boothCreate (rt : Rt) {ch : Change} {b : Nat} (h : ch.kind = .boothCreate b) : untouched rt ch = true := by
  simp [untouched, touchesCmd, touchesConn, h]

theorem untouched_of_boothFields (rt : Rt) {ch : Change} {b : Nat} (h : ch.kind = .boothFields b) : untouched rt ch = true := by
  simp [untouched, touchesCmd, touchesConn, h]

theorem untouched_of_idle {rt : Rt} (hcmds : rt.cmds = []) (hconns : rt.net.conns = []) (ch : Change) : untouched rt ch = true := by
  simp only [untouched, hcmds, hconns, List.all_nil, Bool.and_self]

/-- A program's change touches no handshake. -/
theorem untouched_of_program {rt : Rt} (hcmds : rt.cmds = []) {ch : Change} {house op : Nat} (h : ch.kind = .program house op) :
    untouched rt ch = true := by
  simp [untouched, hcmds, touchesConn, h]

/-- A partition change touches every admitted command of an older epoch. -/
theorem touchesCmd_of_partition (rt : Rt) {ch : Change} {c : Cmd} (hkind : ch.kind = .partition) (hadmitted : c.admitted = true)
    (hretired : c.retired = false) (hepoch : c.epoch < ch.epoch) : touchesCmd rt ch c = true := by
  simp only [touchesCmd, hkind, hadmitted, hretired, hepoch, Bool.not_false, decide_true, Bool.and_self]

theorem untouched_false_of_touchesCmd {rt : Rt} {ch : Change} {id : CmdId} {c : Cmd} (hmem : (id, c) ∈ rt.cmds)
    (h : touchesCmd rt ch c = true) : untouched rt ch = false := by
  have hall : (rt.cmds.all fun kv => !touchesCmd rt ch kv.2) = false :=
    List.all_eq_false.mpr ⟨(id, c), hmem, by rw [h]; exact Bool.false_ne_true⟩
  rw [untouched, hall, Bool.false_and]

/-! ## Commit and completion (R189 to R193) -/

/-- The change that commits now. -/
def newChange (k : ChangeKind) (respond : Bool) (rt : Rt) : Change :=
  { kind := k, epoch := rt.epoch + 1, commitAt := rt.now, respond := respond }

/-- The board with a change more in progress. -/
def withChange (ch : Change) (rt : Rt) : Rt :=
  { rt with epoch := ch.epoch, disp := { rt.disp with changes := rt.disp.changes ++ [ch] } }

/-- A change has committed: the epoch has advanced, the marks cover it, and the commands that it touches drain. -/
def committed (ch : Change) (s : State) : State :=
  let rt := withChange ch s.rt
  { s with rt := { rt with disp := { rt.disp with drain := rt.disp.drain ++ toDrain rt ch } }, nv := raiseMark ch.epoch s.nv }

theorem commitChange_eq (k : ChangeKind) (respond : Bool) (s : State) : commitChange k respond s =
    let ch := newChange k respond s.rt
    if untouched (committed ch s).rt ch && !isLive ch then finishChange ch (committed ch s) else committed ch s := rfl

theorem commitChange_of_untouched {k : ChangeKind} {respond : Bool} {s : State}
    (h : untouched (committed (newChange k respond s.rt) s).rt (newChange k respond s.rt) = true)
    (hlive : isLive (newChange k respond s.rt) = false) :
    commitChange k respond s = finishChange (newChange k respond s.rt) (committed (newChange k respond s.rt) s) := by
  simp only [commitChange_eq, h, hlive, Bool.not_false, Bool.and_self, if_true]

theorem commitChange_of_touched {k : ChangeKind} {respond : Bool} {s : State}
    (h : untouched (committed (newChange k respond s.rt) s).rt (newChange k respond s.rt) = false) :
    commitChange k respond s = committed (newChange k respond s.rt) s := by
  simp only [commitChange_eq, h, Bool.false_and, Bool.false_eq_true, if_false]

/-- A room's change is complete when the room resumes (R220). -/
theorem commitChange_of_liveRoom (room : Nat) (respond : Bool) (s : State) :
    commitChange (.liveRoom room) respond s = committed (newChange (.liveRoom room) respond s.rt) s := by
  have hlive : isLive (newChange (.liveRoom room) respond s.rt) = true := rfl
  simp only [commitChange_eq, hlive, Bool.not_true, Bool.and_false, Bool.false_eq_true, if_false]

/-- The changes of other epochs. -/
def changesBut (e : Nat) (l : List Change) : List Change := l.filter fun x => x.epoch != e

theorem epoch_ne_of_mem_changesBut {e : Nat} {l : List Change} {x : Change} (h : x ∈ changesBut e l) : x.epoch ≠ e := by
  obtain ⟨_, hne⟩ := List.mem_filter.mp h
  exact bne_iff_ne.mp hne

/-- A change that no other precedes leaves the list empty. -/
theorem changesBut_single {e : Nat} {ch : Change} {l : List Change} (he : ch.epoch = e) (h : l = []) : changesBut e (l ++ [ch]) = [] := by
  simp [changesBut, he, h]

/-- A change is off the list, and a response may have gone out. -/
def completed (e : Nat) (w : Option Waiting) (m : Mbx) (x : Msix) (o : List Out) (s : State) : State :=
  onRt (fun rt => { rt with
    disp := { rt.disp with changes := changesBut e rt.disp.changes }, waiting := w, mbx := m, msix := x, out := o }) s

section
variable (ch : Change) (e : Nat) (w : Option Waiting) (m : Mbx) (x : Msix) (o : List Out) (s : State)

@[simp] theorem committed_changes : (committed ch s).rt.disp.changes = s.rt.disp.changes ++ [ch] := rfl
@[simp] theorem boothOf_committed (b : Nat) : boothOf (committed ch s).rt b = boothOf s.rt b := rfl

@[simp] theorem completed_epoch : (completed e w m x o s).rt.epoch = s.rt.epoch := rfl
@[simp] theorem completed_changes : (completed e w m x o s).rt.disp.changes = changesBut e s.rt.disp.changes := rfl
@[simp] theorem completed_part : (completed e w m x o s).rt.disp.part = s.rt.disp.part := rfl
@[simp] theorem completed_partOld : (completed e w m x o s).rt.disp.partOld = s.rt.disp.partOld := rfl
@[simp] theorem completed_strong : (completed e w m x o s).rt.strong = s.rt.strong := rfl
@[simp] theorem boothOf_completed (b : Nat) : boothOf (completed e w m x o s).rt b = boothOf s.rt b := rfl

end

/-- A change that is complete is off the list, what ends with it has ended, and the response that waited for it is out. -/
theorem finishChange_eq (ch : Change) (s : State) : ∃ w m x o, finishChange ch s = completed ch.epoch w m x o (endOld ch s) ∧
    (ch.respond = true → w = none) := by
  unfold finishChange
  extract_lets ended
  split
  · obtain ⟨w, m, x, o, h⟩ := answerWaiting_eq stDone ((ended.rt.waiting.map Waiting.result).getD []) ended.rt
    have hnone := waiting_answerWaiting stDone ((ended.rt.waiting.map Waiting.result).getD []) ended.rt
    rw [h] at hnone
    exact ⟨w, m, x, o, congrArg (fun rt => { ended with rt := rt }) h, fun _ => hnone⟩
  · next hsilent => exact ⟨ended.rt.waiting, ended.rt.mbx, ended.rt.msix, ended.rt.out, rfl, fun h => absurd h hsilent⟩

theorem endOld_of_keys {ch : Change} {house : Nat} (h : ch.kind = .keys house) (s : State) : endOld ch s =
    onRt (fun rt => { rt with strong := { rt.strong with shadow := rt.strong.shadow.filter fun x => x.epoch != ch.epoch } }) s := by
  simp only [endOld, h]

theorem endOld_of_partition {ch : Change} (h : ch.kind = .partition) (s : State) :
    endOld ch s = onRt (fun rt => { rt with disp := { rt.disp with partOld := none } }) s := by
  simp only [endOld, h]

theorem endOld_of_liveRoom {ch : Change} {room : Nat} (h : ch.kind = .liveRoom room) (s : State) : endOld ch s = s := by
  simp only [endOld, h]

/-- A change that touches nothing is complete with its commit, and answers. -/
theorem commitChange_answers {k : ChangeKind} {s : State}
    (h : untouched (committed (newChange k true s.rt) s).rt (newChange k true s.rt) = true)
    (hlive : isLive (newChange k true s.rt) = false) : ∃ m x o, commitChange k true s =
      completed (s.rt.epoch + 1) none m x o (endOld (newChange k true s.rt) (committed (newChange k true s.rt) s)) := by
  obtain ⟨w, m, x, o, hfinish, hnone⟩ := finishChange_eq (newChange k true s.rt) (committed (newChange k true s.rt) s)
  cases hnone rfl
  exact ⟨m, x, o, (commitChange_of_untouched h hlive).trans hfinish⟩

/-! ## The rows -/

/-- A request waits within its bound with a staged change, and power lasts for its record. -/
structure Commits (w : Waiting) (x : Staged) (s : State) : Prop where
  waiting : s.rt.waiting = some w
  staged : w.staged = some x
  within : isPast w.due s.rt = false
  main : mainPower s.rt = true
  powerFail : s.rt.power.powerFail = false

/-- The request waits for its change's completion alone. -/
def recorded (w : Waiting) (s : State) : State :=
  onRt (fun rt => { rt with waiting := some { w with staged := none, due := none } }) s

theorem exec_policyRecordWritten {w : Waiting} {x : Staged} {s : State} (h : Commits w x s) :
    exec .policyRecordWritten s = .next (commitStaged w x s) := by
  obtain ⟨hw, hstaged, hwithin, hmain, hfail⟩ := h
  have hstays : onRt expireRequest s = s := by rw [onRt, expireRequest_of_within hw hwithin]
  have hwrites : doPolicyRecordWritten s = commitStaged w x s := by
    simp only [doPolicyRecordWritten, hstays, hw, hstaged, hmain, hfail, Bool.not_false, Bool.and_self, if_true]
  exact congrArg Host.Outcome.next hwrites

theorem exec_policyRecordWritten_of_none {s : State} (h : s.rt.waiting = none) : exec .policyRecordWritten s = .next s := by
  have hstays : onRt expireRequest s = s := by simp only [onRt, expireRequest, h]
  have hidle : doPolicyRecordWritten s = s := by simp only [doPolicyRecordWritten, hstays, h]
  exact congrArg Host.Outcome.next hidle

/-- A request that fails for its bound has no effect (R118). -/
theorem expireRequest_keeps (rt : Rt) : (expireRequest rt).epoch = rt.epoch ∧ (expireRequest rt).disp = rt.disp := by
  obtain ⟨_, _, _, _, _, h⟩ := expireRequest_eq rt
  rw [h]
  exact ⟨rfl, rfl⟩

theorem exec_policyRecordWritten_of_past {w : Waiting} {s : State} (hw : s.rt.waiting = some w) (hpast : isPast w.due s.rt = true) :
    exec .policyRecordWritten s = .next (onRt expireRequest s) ∧ (expireRequest s.rt).waiting = none := by
  have hnone : (expireRequest s.rt).waiting = none := by
    simp only [expireRequest, hw, hpast, if_true, waiting_answerWaiting]
  have hfails : doPolicyRecordWritten s = onRt expireRequest s := by
    simp only [doPolicyRecordWritten, onRt_rt, hnone]
  exact ⟨congrArg Host.Outcome.next hfails, hnone⟩

theorem exec_policyChangeComplete_of_untouched {e : Nat} {ch : Change} {s : State}
    (hfind : s.rt.disp.changes.find? (fun x => x.epoch == e) = some ch) (h : untouched s.rt ch = true) (hlive : isLive ch = false) :
    exec (.policyChangeComplete e) s = .next (finishChange ch s) := by
  have hdone : doPolicyChangeComplete e s = finishChange ch s := by
    simp only [doPolicyChangeComplete, hfind, h, hlive, Bool.not_false, Bool.and_self, if_true]
  exact congrArg Host.Outcome.next hdone

theorem exec_policyChangeComplete_of_touched {e : Nat} {ch : Change} {s : State}
    (hfind : s.rt.disp.changes.find? (fun x => x.epoch == e) = some ch) (h : untouched s.rt ch = false) :
    exec (.policyChangeComplete e) s = .next s := by
  have hstays : doPolicyChangeComplete e s = s := by
    simp only [doPolicyChangeComplete, hfind, h, Bool.false_and, Bool.false_eq_true, if_false]
  exact congrArg Host.Outcome.next hstays

theorem exec_drainTimeout (id : CmdId) (s : State) : exec (.drainTimeout id) s = .next (onRt (doDrainTimeout id) s) := rfl

theorem exec_roomCodeReload (room : Nat) (s : State) : exec (.roomCodeReload room) s = .next (doRoomCodeReload room s) := rfl

/-! ## A booth that opens (R119) -/

/-- A booth stands in the table of booths and in the module. -/
def boothOpened (b : Nat) (cfg : BoothCfg) (s : State) : State :=
  { s with nv := { s.nv with boothTable := kset s.nv.boothTable b cfg }
           rt := boothRegions (newBooth cfg) { s.rt with booths := kset s.rt.booths b (newBooth cfg) } }

/-- The entry of a booth's creation (Table 13.11). -/
def createEntry (b : Nat) (cfg : BoothCfg) : LedgerEntry := ledgerEvent 0x0108 cfg.house b 0xFFFFFFFF 0 0 0 0 []

theorem boothOf_boothOpened (b : Nat) (cfg : BoothCfg) (s : State) : boothOf (boothOpened b cfg s).rt b = some (newBooth cfg) :=
  kget_kset_self s.rt.booths b (newBooth cfg)

theorem commitBooth_eq (b : Nat) (cfg : BoothCfg) (s : State) : ∃ m x o, commitBooth b cfg s =
    let stamped := { cfg with epoch := s.rt.epoch + 1 }
    writeEntry (createEntry b stamped) (completed (s.rt.epoch + 1) none m x o
      (committed (newChange (.boothCreate b) true s.rt) (boothOpened b stamped s))) := by
  obtain ⟨m, x, o, h⟩ := commitChange_answers (k := .boothCreate b) (s := boothOpened b { cfg with epoch := s.rt.epoch + 1 } s)
    (untouched_of_boothCreate _ rfl) rfl
  exact ⟨m, x, o, congrArg (writeEntry _) h⟩

/-- A booth opens with its table entry and its ledger entry, at an epoch of its own that the mark covers. -/
theorem commitBooth_opens {s : State} (hchanges : s.rt.disp.changes = []) (b : Nat) (cfg : BoothCfg) :
    let t := commitBooth b cfg s
    let stamped := { cfg with epoch := s.rt.epoch + 1 }
    boothOf t.rt b = some (newBooth stamped) ∧ kget t.nv.boothTable b = some stamped ∧ t.rt.epoch = s.rt.epoch + 1 ∧
      t.nv.epochMark = max s.nv.epochMark (s.rt.epoch + 1) ∧ t.rt.disp.changes = [] ∧ t.rt.waiting = none ∧
      t.nv.ledger.entries.getLast?.map LedgerEntry.event = some 0x0108 := by
  intro t stamped
  obtain ⟨m, x, o, ht⟩ := commitBooth_eq b cfg s
  rw [show t = _ from ht]
  refine ⟨boothOf_writeEntry ?_ rfl _, ?_, ?_, ?_, ?_, ?_, writeEntry_last_event _ _⟩
  · rw [boothOf_completed, boothOf_committed, boothOf_boothOpened]
  · rw [writeEntry_boothTable]; exact kget_kset_self _ _ _
  · rw [writeEntry_epoch]; rfl
  · rw [writeEntry_nv]; rfl
  · rw [writeEntry_changes, completed_changes, committed_changes]; exact changesBut_single rfl hchanges
  · rw [writeEntry_waiting]; rfl

/-! ## A booth's fields (R121) -/

/-- The booth with new fields, its limit not yet lowered (R182). -/
def withFields (cfg : BoothCfg) (x : Booth) : Booth := { x with cfg := cfg, counted := max x.counted cfg.share }

/-- A booth's new fields stand in the table of booths and in the module. -/
def boothModified (b : Nat) (cfg : BoothCfg) (x : Booth) (s : State) : State :=
  { s with nv := { s.nv with boothTable := kset s.nv.boothTable b cfg }
           rt := recount b (boothRegions (withFields cfg x) (setBooth b (withFields cfg x) s.rt)) }

/-- The entry of a booth's modification (Table 13.11). -/
def modifyEntry (b : Nat) (cfg : BoothCfg) : LedgerEntry := ledgerEvent 0x0109 cfg.house b 0xFFFFFFFF 0 0 0 0 []

theorem commitModify_eq {b : Nat} {x : Booth} {s : State} (hx : boothOf s.rt b = some x) (cfg : BoothCfg) : ∃ m y o,
    commitModify b cfg false s =
      let stamped := { cfg with epoch := s.rt.epoch + 1 }
      writeEntry (modifyEntry b stamped) (completed (s.rt.epoch + 1) none m y o
        (committed (newChange (.boothFields b) true s.rt) (boothModified b stamped x s))) := by
  obtain ⟨m, y, o, h⟩ := commitChange_answers (k := .boothFields b) (s := boothModified b { cfg with epoch := s.rt.epoch + 1 } x s)
    (untouched_of_boothFields _ rfl) rfl
  refine ⟨m, y, o, ?_⟩
  simp only [commitModify, hx]
  exact congrArg (writeEntry _) h

theorem boothOf_boothModified (b : Nat) (cfg : BoothCfg) (x : Booth) (s : State) :
    ∃ n, boothOf (boothModified b cfg x s).rt b = some { withFields cfg x with counted := n } :=
  boothOf_recount (kget_kset_self _ _ _)

/-- A booth takes its new fields and keeps its ring. -/
theorem commitModify_fields {b : Nat} {x : Booth} {s : State} (hx : boothOf s.rt b = some x) (cfg : BoothCfg) :
    let t := commitModify b cfg false s
    let stamped := { cfg with epoch := s.rt.epoch + 1 }
    (∃ n, boothOf t.rt b = some { withFields stamped x with counted := n }) ∧ t.rt.epoch = s.rt.epoch + 1 ∧
      kget t.nv.boothTable b = some stamped := by
  intro t stamped
  obtain ⟨m, y, o, ht⟩ := commitModify_eq hx cfg
  rw [show t = _ from ht]
  obtain ⟨n, hfields⟩ := boothOf_boothModified b stamped x s
  refine ⟨boothOf_of_sansCounted (x := { withFields stamped x with counted := n }) (writeEntry_sansCounted _ _) ?_, ?_, ?_⟩
  · rw [boothOf_completed, boothOf_committed, hfields]
  · rw [writeEntry_epoch]; rfl
  · rw [writeEntry_boothTable]; exact kget_kset_self _ _ _

/-! ## A partition map (R196, R198) -/

/-- A map is in force, the one before it beside it. -/
def partInstalled (m : Option PartMap) (s : State) : State :=
  { s with nv := { s.nv with part := m }
           rt := { s.rt with disp := { s.rt.disp with part := m, partOld := s.rt.disp.part } } }

/-- The map with the epoch of its commit. -/
def stampedMap (e : Nat) (m : Option PartMap) : Option PartMap := m.map fun x => { x with epoch := e }

theorem commitPart_eq (m : Option PartMap) (s : State) : commitPart m s =
    writeEntry (moduleEvent 0x010C []) (commitChange .partition true (partInstalled (stampedMap (s.rt.epoch + 1) m) s)) := rfl

/-- The entry of a partition change (Table 13.11). -/
def partEntry : LedgerEntry := moduleEvent 0x010C []

/-- A map that is committed, the change that it is in progress. -/
def partCommitted (m : Option PartMap) (s : State) : State :=
  committed (newChange .partition true s.rt) (partInstalled (stampedMap (s.rt.epoch + 1) m) s)

/-- With neither commands nor connections the old map goes at once. -/
theorem commitPart_of_idle {s : State} (hcmds : s.rt.cmds = []) (hconns : s.rt.net.conns = []) (m : Option PartMap) :
    let t := commitPart m s
    let stamped := stampedMap (s.rt.epoch + 1) m
    t.rt.disp.part = stamped ∧ t.rt.disp.partOld = none ∧ t.nv.part = stamped ∧ t.rt.epoch = s.rt.epoch + 1 ∧ t.rt.waiting = none := by
  intro t stamped
  have huntouched : untouched (partCommitted m s).rt (newChange .partition true s.rt) = true :=
    untouched_of_idle (rt := (partCommitted m s).rt) hcmds hconns _
  obtain ⟨y, z, o, hcommit⟩ := commitChange_answers (k := .partition) (s := partInstalled stamped s) huntouched rfl
  rw [show t = _ from (commitPart_eq m s).trans (congrArg (writeEntry partEntry) hcommit)]
  refine ⟨?_, ?_, ?_, ?_, ?_⟩
  · rw [writeEntry_part]; rfl
  · rw [writeEntry_partOld]; rfl
  · rw [writeEntry_nv]; rfl
  · rw [writeEntry_epoch]; rfl
  · rw [writeEntry_waiting]; rfl

/-- A map that touches an admitted command is in force beside the old one, and its change in progress. -/
theorem commitPart_of_touched {m : Option PartMap} {id : CmdId} {c : Cmd} {s : State} (hmem : (id, c) ∈ s.rt.cmds)
    (htouched : touchesCmd (partCommitted m s).rt (newChange .partition true s.rt) c = true) :
    commitPart m s = writeEntry partEntry (partCommitted m s) :=
  congrArg (writeEntry partEntry) (commitChange_of_touched (untouched_false_of_touchesCmd hmem htouched))

theorem roomLeft_of_empty {nv : Nv} (h : nv.ledger.nextSeq = 0) : RoomLeft nv := by
  rw [RoomLeft, unconfirmed, h, Nat.zero_sub]
  decide

/-- A map's change that touches the command in the module stays in progress: the old map stays beside the new one, and the request
waits on. It holds of every ledger with room for the entry, the empty one of the statement among them. -/
theorem commitPart_waits {id : CmdId} {c : Cmd} {s : State} (hcmds : s.rt.cmds = [(id, c)]) (hadmitted : c.admitted = true)
    (hretired : c.retired = false) (hepoch : c.epoch ≤ s.rt.epoch) (hchanges : s.rt.disp.changes = []) (hroom : RoomLeft s.nv)
    (m : Option PartMap) :
    let t := commitPart m s
    t.rt.disp.part = stampedMap (s.rt.epoch + 1) m ∧ t.rt.disp.partOld = s.rt.disp.part ∧
      t.rt.disp.changes = [newChange .partition true s.rt] ∧ t.rt.waiting = s.rt.waiting ∧
      untouched t.rt (newChange .partition true s.rt) = false := by
  intro t
  have hmem : (id, c) ∈ s.rt.cmds := hcmds ▸ List.mem_cons_self
  have htouches (rt : Rt) : touchesCmd rt (newChange .partition true s.rt) c = true :=
    touchesCmd_of_partition rt rfl hadmitted hretired (Nat.lt_succ_of_le hepoch)
  obtain ⟨f, hwritten⟩ := writeEntry_rt_of_room (s := partCommitted m s) hroom partEntry
  have hkept : (writeEntry partEntry (partCommitted m s)).rt.cmds = s.rt.cmds := by rw [hwritten]; rfl
  rw [show t = _ from commitPart_of_touched hmem (htouches _)]
  refine ⟨?_, ?_, ?_, ?_, untouched_false_of_touchesCmd (hkept.symm ▸ hmem) (htouches _)⟩
  · rw [writeEntry_part]; rfl
  · rw [writeEntry_partOld]; rfl
  · rw [writeEntry_changes]; exact congrArg (· ++ [newChange .partition true s.rt]) hchanges
  · rw [writeEntry_waiting]; rfl

/-! ## A house program (R218, R219) -/

/-- What a room write keeps, writing all eight rooms keeps. -/
theorem eachRoom_keeps {α : Type} (g : Rt → α) (hroom : ∀ k r rt, g (setRoom k r rt) = g rt) (f : Nat → Room → Room) (rt : Rt) :
    g (eachRoom f rt) = g rt :=
  foldl_keeps g fun r k => hroom k _ r

theorem eachRoom_epoch (f : Nat → Room → Room) (rt : Rt) : (eachRoom f rt).epoch = rt.epoch :=
  eachRoom_keeps Rt.epoch (fun _ _ _ => rfl) f rt

theorem eachRoom_cmds (f : Nat → Room → Room) (rt : Rt) : (eachRoom f rt).cmds = rt.cmds :=
  eachRoom_keeps Rt.cmds (fun _ _ _ => rfl) f rt

theorem editRooms_epoch (f : Nat → List Region → List Region) (rt : Rt) : (editRooms f rt).epoch = rt.epoch := rfl

theorem editRooms_cmds (f : Nat → List Region → List Region) (rt : Rt) : (editRooms f rt).cmds = rt.cmds := rfl

/-- A program as it begins to serve. -/
def newProgram (house op base : Nat) (digest : Bytes) (words : List Word) (window : List (Nat × Nat)) (e : Nat) : ProgEntry :=
  { house := house, opcode := op, digest := digest, base := base, code := words, window := window, since := e, upto := none }

/-- A program is listed behind the one that it ends, and its words lie in every room. -/
def programLoaded (p : ProgEntry) (s : State) : State :=
  { s with nv := { s.nv with progs := s.nv.progs.map (endProgram p.house p.opcode p.since) ++ [p] }
           rt := editRooms (fun k l => l ++ programRegions k p) (putWords p.base p.code s.rt) }

theorem programLoaded_epoch (p : ProgEntry) (s : State) : (programLoaded p s).rt.epoch = s.rt.epoch := by
  rw [programLoaded, editRooms_epoch, putWords, eachRoom_epoch]

theorem programLoaded_cmds (p : ProgEntry) (s : State) : (programLoaded p s).rt.cmds = s.rt.cmds := by
  rw [programLoaded, editRooms_cmds, putWords, eachRoom_cmds]

theorem commitProgram_eq (house op base : Nat) (digest : Bytes) (words : List Word) (window : List (Nat × Nat)) (s : State) :
    commitProgram house op base digest words window s =
      writeEntry (ledgerEvent 0x010E house 0xFFFF 0xFFFFFFFF 0 0 0 0 (le 2 op)) (commitChange (.program house op) true
        (programLoaded (newProgram house op base digest words window (s.rt.epoch + 1)) s)) := rfl

theorem freeProgram_epoch (house op e : Nat) (s : State) : (freeProgram house op e s).rt.epoch = s.rt.epoch := by
  rw [freeProgram, editRooms_epoch, eachRoom_epoch]

/-- A program that still serves is not freed. -/
theorem freeProgram_progs_of_serving {house op e : Nat} {p : ProgEntry} {s : State} (hprogs : s.nv.progs = [p]) (hserves : p.upto = none) :
    (freeProgram house op e s).nv.progs = [p] := by
  simp [freeProgram, hprogs, hserves]

/-- Loaded into an empty table while no command is in the module, a program stands alone and serves from the new epoch. -/
theorem commitProgram_of_idle {s : State} (hcmds : s.rt.cmds = []) (hprogs : s.nv.progs = []) (house op base : Nat) (digest : Bytes)
    (words : List Word) (window : List (Nat × Nat)) :
    let t := commitProgram house op base digest words window s
    t.nv.progs = [newProgram house op base digest words window (s.rt.epoch + 1)] ∧ t.rt.epoch = s.rt.epoch + 1 := by
  intro t
  let p := newProgram house op base digest words window (s.rt.epoch + 1)
  have hloaded : (programLoaded p s).rt.cmds = [] := (programLoaded_cmds p s).trans hcmds
  obtain ⟨m, x, o, h⟩ := commitChange_answers (k := .program house op) (s := programLoaded p s) (untouched_of_program hloaded rfl) rfl
  have ht : t = writeEntry _ _ := (commitProgram_eq house op base digest words window s).trans (congrArg (writeEntry _) h)
  have hlisted : (programLoaded p s).nv.progs = [p] := by rw [programLoaded, hprogs]; rfl
  have hserves : (freeProgram house op ((programLoaded p s).rt.epoch + 1)
      (committed (newChange (.program house op) true (programLoaded p s).rt) (programLoaded p s))).nv.progs = [p] :=
    freeProgram_progs_of_serving hlisted rfl
  rw [ht, writeEntry_nv, writeEntry_epoch, completed_epoch]
  refine ⟨hserves, ?_⟩
  exact (freeProgram_epoch _ _ _ _).trans (congrArg (· + 1) (programLoaded_epoch p s))

/-! ## A listener's entry (R158) -/

/-- An entry that takes no digest off its list is no policy change. -/
theorem commitListener_of_kept {x : Listener} (hstays : x.removing = false) (l : Nat) (s : State) : commitListener l x [] s =
    onRt (answerWaiting stDone []) { s with nv := { s.nv with listeners := kset s.nv.listeners l x } } := by
  simp only [commitListener, hstays, if_true, Bool.false_eq_true, if_false]

theorem answerWaiting_net (st : Nat) (res : Bytes) (rt : Rt) : (answerWaiting st res rt).net = rt.net := by
  obtain ⟨_, _, _, _, h⟩ := answerWaiting_eq st res rt
  rw [h]

/-! ## A live update (R220) -/

/-- The record of the last room is written: nothing is staged any more, and the bound stands. -/
def lastRoom (w : Waiting) (s : State) : State := onRt (fun rt => { rt with waiting := some { w with staged := none } }) s

/-- A room that takes no new command. -/
def roomHeld (room : Nat) (s : State) : State :=
  { s with nv := activateLib (s.rt.epoch + 1) s.nv, rt := setRoom room { roomOf s.rt room with updating := true } s.rt }

theorem commitStaged_of_lastRoom {s : State} (h : anyUpdating s.rt = false) (w : Waiting) (room : Nat) (d : Bytes) (v : BitVec 32) :
    commitStaged w (.liveRoom [room] d v) s = committed (newChange (.liveRoom room) true s.rt) (roomHeld room (lastRoom w s)) := by
  simp only [commitStaged, h, Bool.false_eq_true, if_false, if_true]
  exact commitChange_of_liveRoom room true (roomHeld room (lastRoom w s))

/-- The library that serves. -/
def servingLib (nv : Nv) : ImageCopy := if nv.image3.activeB then nv.image3.copyB else nv.image3.copyA

/-- The room with the new library, resumed. -/
def reloaded (c : ImageCopy) (r : Room) : Room := { r with image := imageDigest c, version := c.version, icache := [], updating := false }

/-- A room resumes under the new library, and an entry of it is written. -/
def roomResumed (room : Nat) (s : State) : State :=
  writeEntry (moduleEvent 0x010D [BitVec.ofNat 8 room]) (onRt (setRoom room (reloaded (servingLib s.nv) (roomOf s.rt room))) s)

/-- The completion of a room's change changes neither rooms nor what is stored. -/
theorem finishChange_of_liveRoom {room : Nat} {ch : Change} (h : ch.kind = .liveRoom room) (s : State) :
    (finishChange ch s).rt.rooms = s.rt.rooms ∧ (finishChange ch s).nv = s.nv := by
  obtain ⟨w, m, x, o, hfinish, _⟩ := finishChange_eq ch s
  rw [hfinish, endOld_of_liveRoom h]
  exact ⟨rfl, rfl⟩

theorem roomOf_roomResumed (room : Nat) (s : State) :
    roomOf (roomResumed room s).rt room = reloaded (servingLib s.nv) (roomOf s.rt room) := by
  rw [roomOf, roomResumed, writeEntry_rooms]
  exact roomOf_setRoom_self room _ s.rt

/-- A held room whose clerks are free resumes, and its entry stands last in the ledger. -/
theorem doRoomCodeReload_of_free {room : Nat} {s : State} (hheld : (roomOf s.rt room).updating = true) (hfree : roomFree s.rt room = true) :
    roomOf (doRoomCodeReload room s).rt room = reloaded (servingLib s.nv) (roomOf s.rt room) ∧
      (doRoomCodeReload room s).nv.ledger.entries.getLast?.map LedgerEntry.event = some 0x010D := by
  have hentry : (roomResumed room s).nv.ledger.entries.getLast?.map LedgerEntry.event = some 0x010D := writeEntry_last_event _ _
  have hrow : doRoomCodeReload room s = match (roomResumed room s).rt.disp.changes.find? fun x => x.kind == .liveRoom room with
      | some ch => finishChange ch (roomResumed room s)
      | none => roomResumed room s := by
    simp only [doRoomCodeReload, hheld, hfree, Bool.and_self, if_true]
    rfl
  rw [hrow]
  split
  · next ch hfind =>
    have hkind := List.find?_some (p := fun x : Change => x.kind == .liveRoom room) hfind
    obtain ⟨hrooms, hnv⟩ := finishChange_of_liveRoom (beq_iff_eq.mp hkind) (roomResumed room s)
    rw [roomOf, hrooms, hnv]
    exact ⟨roomOf_roomResumed room s, hentry⟩
  · exact ⟨roomOf_roomResumed room s, hentry⟩

theorem doRoomCodeReload_of_busy {room : Nat} {s : State} (h : roomFree s.rt room = false) : doRoomCodeReload room s = s := by
  simp only [doRoomCodeReload, h, Bool.and_false, Bool.false_eq_true, if_false]

/-! ## DRAIN_TIMEOUT (R194) -/

/-- The event of a command that a drain has aborted. -/
def drainEvent (c : Cmd) : FaultEvent :=
  { source := .drainAbort, scope := 0, island := some 47, booth := some c.booth, detail := [], houseProg := false }

theorem doDrainTimeout_of_touched {id : CmdId} {c : Cmd} {ch : Change} {rt : Rt} (hc : kget rt.cmds id = some c)
    (hstage : c.stage = .admitted) (hfind : rt.disp.changes.find? (fun ch => touchesCmd rt ch c) = some ch) :
    doDrainTimeout id rt = raise (drainEvent c) (failWith id stAborted (advanceTo (ch.commitAt + drainLimit) rt)) := by
  simp only [doDrainTimeout, hc, hfind, hstage, beq_self_eq_true, if_true]
  rfl

theorem doDrainTimeout_of_untouched {id : CmdId} {c : Cmd} {rt : Rt} (hc : kget rt.cmds id = some c)
    (h : ∀ ch ∈ rt.disp.changes, touchesCmd rt ch c = false) : doDrainTimeout id rt = rt := by
  have hfind : rt.disp.changes.find? (fun ch => touchesCmd rt ch c) = none :=
    List.find?_eq_none.mpr fun ch hmem => by rw [h ch hmem]; exact Bool.false_ne_true
  simp only [doDrainTimeout, hc, hfind]

/-! ## POLICY_CHANGE_COMPLETE (R190 to R192) -/

/-- A change that touches nothing any more takes with it what it replaced, and answers the request that waits for it. -/
theorem policyChangeComplete_ends (e : Nat) (ch : Change) (s : State)
    (hfind : s.rt.disp.changes.find? (fun x => x.epoch == e) = some ch) (huntouched : untouched s.rt ch = true) :
    (∀ b, ch.kind = .keys b → ch.respond = false → ∃ t, exec (.policyChangeComplete e) s = .next t ∧ (∀ x ∈ t.rt.disp.changes, x.epoch ≠ e) ∧
      (∀ x ∈ t.rt.strong.shadow, x.epoch ≠ e) ∧ t.rt.epoch = s.rt.epoch) ∧
    (ch.kind = .partition → ch.respond = false → ∃ t, exec (.policyChangeComplete e) s = .next t ∧ t.rt.disp.partOld = none ∧
      t.rt.disp.part = s.rt.disp.part) ∧
    (∀ b, ch.kind = .boothFields b → ch.respond = true → ∃ t, exec (.policyChangeComplete e) s = .next t ∧ t.rt.waiting = none ∧
      ∀ x ∈ t.rt.disp.changes, x.epoch ≠ e) := by
  have hepoch := List.find?_some (p := fun x : Change => x.epoch == e) hfind
  obtain rfl : ch.epoch = e := beq_iff_eq.mp hepoch
  obtain ⟨w, m, x, o, hfinish, hanswers⟩ := finishChange_eq ch s
  have hrow (hlive : isLive ch = false) : exec (.policyChangeComplete ch.epoch) s = .next (completed ch.epoch w m x o (endOld ch s)) := by
    rw [exec_policyChangeComplete_of_untouched hfind huntouched hlive, hfinish]
  refine ⟨fun house hkind _ => ?keys, fun hkind _ => ?partition, fun b hkind hresponds => ?fields⟩
  case keys =>
    refine ⟨_, hrow (by rw [isLive, hkind]), fun y hy => epoch_ne_of_mem_changesBut hy, ?_⟩
    rw [completed_strong, completed_epoch, endOld_of_keys hkind]
    refine ⟨fun y hy => ?_, rfl⟩
    obtain ⟨_, hne⟩ := List.mem_filter.mp hy
    exact bne_iff_ne.mp hne
  case partition =>
    refine ⟨_, hrow (by rw [isLive, hkind]), ?_⟩
    rw [completed_partOld, completed_part, endOld_of_partition hkind]
    exact ⟨rfl, rfl⟩
  case fields => exact ⟨_, hrow (by rw [isLive, hkind]), hanswers hresponds, fun y hy => epoch_ne_of_mem_changesBut hy⟩

/-! ## The statement -/

/-- Settles O35, row by row: a record by the commit of what its request has staged, within the request's bound, the end of a change by what
it still touches, a room's new code by the clerks that are free, an abort by the change that touches the command. -/
theorem policyCommands : Obligations.PolicyCommands := by
  refine ⟨?create, ?modify, ?partIdle, ?partBusy, ?program, ?listener, ?live, ?none, ?past, ?reload, ?reloadBusy, ?complete, ?stays, ?drain⟩
  case create =>
    intro w b cfg s hw hstaged hwithin hmain hfail hchanges
    exact ⟨_, exec_policyRecordWritten ⟨hw, hstaged, hwithin, hmain, hfail⟩, commitBooth_opens (s := recorded w s) hchanges b cfg⟩
  case modify =>
    intro w b x cfg s hw hstaged hwithin hmain hfail hx
    obtain ⟨⟨_, hfields⟩, hepoch, htable⟩ := commitModify_fields (s := recorded w s) hx cfg
    exact ⟨_, _, exec_policyRecordWritten ⟨hw, hstaged, hwithin, hmain, hfail⟩, hfields, rfl, rfl, rfl, rfl, rfl, hepoch, htable⟩
  case partIdle =>
    intro w m s hw hstaged hmain hwithin hfail hcmds hconns _
    exact ⟨_, exec_policyRecordWritten ⟨hw, hstaged, hwithin, hmain, hfail⟩, commitPart_of_idle (s := recorded w s) hcmds hconns m⟩
  case partBusy =>
    intro w m id c s hw hstaged hwithin hmain hfail hcmds hadmitted hretired hepoch hchanges hempty
    obtain ⟨hpart, hold, hprogress, hwaits, htouched⟩ :=
      commitPart_waits (s := recorded w s) hcmds hadmitted hretired hepoch hchanges (roomLeft_of_empty hempty) m
    refine ⟨_, exec_policyRecordWritten ⟨hw, hstaged, hwithin, hmain, hfail⟩, hpart, hold, congrArg (List.map Change.epoch) hprogress,
      congrArg Option.isSome hwaits, exec_policyChangeComplete_of_touched ?_ htouched⟩
    exact (congrArg (List.find? _) hprogress).trans (List.find?_cons_of_pos (beq_self_eq_true (s.rt.epoch + 1)))
  case program =>
    intro w h op base d ws win s hw hstaged hwithin hmain hfail hcmds hprogs
    obtain ⟨halone, hepoch⟩ := commitProgram_of_idle (s := recorded w s) hcmds hprogs h op base d ws win
    exact ⟨_, _, exec_policyRecordWritten ⟨hw, hstaged, hwithin, hmain, hfail⟩, halone, rfl, rfl, rfl, rfl, rfl, rfl, hepoch⟩
  case listener =>
    intro w l x s hw hstaged hstays hwithin hmain hfail
    have hrow := exec_policyRecordWritten ⟨hw, hstaged, hwithin, hmain, hfail⟩
    have hcommit := commitListener_of_kept hstays l (recorded w s)
    obtain ⟨_, _, hepoch⟩ := answerWaiting_keeps stDone [] (recorded w s).rt
    exact ⟨_, hrow.trans (congrArg Host.Outcome.next hcommit), kget_kset_self _ _ _, hepoch, waiting_answerWaiting _ _ _,
      answerWaiting_net _ _ _⟩
  case live =>
    intro w room d v s hw hstaged hwithin hmain hfail hidle
    have hrow := exec_policyRecordWritten ⟨hw, hstaged, hwithin, hmain, hfail⟩
    rw [commitStaged_of_lastRoom hidle] at hrow
    exact ⟨_, hrow, congrArg Room.updating (roomOf_setRoom_self room _ _), rfl, rfl, newChange (.liveRoom room) true s.rt,
      List.mem_append_right _ List.mem_cons_self, rfl, rfl⟩
  case none => exact fun s => exec_policyRecordWritten_of_none
  case past =>
    intro w s hw hpast
    obtain ⟨hrow, hnone⟩ := exec_policyRecordWritten_of_past hw hpast
    obtain ⟨hepoch, hdisp⟩ := expireRequest_keeps s.rt
    exact ⟨_, hrow, hnone, hepoch, hdisp, rfl⟩
  case reload =>
    intro room s hheld hfree
    obtain ⟨hroom, hentry⟩ := doRoomCodeReload_of_free hheld hfree
    refine ⟨_, exec_roomCodeReload room s, ?_⟩
    rw [hroom]
    exact ⟨rfl, rfl, rfl, rfl, hentry⟩
  case reloadBusy =>
    intro room s h
    rw [exec_roomCodeReload, doRoomCodeReload_of_busy h]
  case complete => exact policyChangeComplete_ends
  case stays => exact fun e ch s hfind htouched => exec_policyChangeComplete_of_touched hfind htouched
  case drain =>
    intro id c s hc hstage
    refine ⟨fun ch hfind => ⟨drainEvent c, rfl, rfl, ?_⟩, fun h => ?_⟩
    · exact (exec_drainTimeout id s).trans (next_onRt_congr (doDrainTimeout_of_touched hc hstage hfind))
    · exact (exec_drainTimeout id s).trans (next_onRt_congr (g := fun rt => rt) (doDrainTimeout_of_untouched hc h))

end Sys2Proof.Machine
end

section
/-! The life of a job: dispatch with the input's read, the wipe, the time limit, and the grant of staging. -/

namespace Sys2Proof.Machine

/-! ## Maps by key -/

theorem kget_filterKeys {α : Type} (p : Nat → Bool) (m : KMap α) (k : Nat) :
    kget (m.filter fun kv => p kv.1) k = if p k then kget m k else none := by
  induction m with
  | nil => simp [kget]
  | cons x m ih =>
    obtain ⟨i, v⟩ := x
    by_cases hi : p i
    · rw [List.filter_cons_of_pos (p := fun kv : Nat × α => p kv.1) hi]
      by_cases hk : i = k
      · subst hk; simp [kget, hi]
      · simpa [kget, hk] using ih
    · rw [List.filter_cons_of_neg (p := fun kv : Nat × α => p kv.1) hi, ih]
      by_cases hk : i = k
      · subst hk; simp [hi]
      · simp [kget, hk]

/-- A change that keeps a field keeps it at every key. -/
theorem map_kget_kmod {α β : Type} {g : α → β} {f : α → α} (h : ∀ v, g (f v) = g v) (m : KMap α) (k j : Nat) :
    (kget (kmod m k f) j).map g = (kget m j).map g := by
  by_cases hj : j = k
  · subst hj
    cases hm : kget m j with
    | none => simp only [kmod, hm]
    | some v => rw [kget_kmod_self f hm, Option.map_some, Option.map_some, h]
  · rw [kget_kmod_ne f hj]

/-! ## What a clerk writes leaves the commands alone -/

theorem writeWord_cmds (c : ClerkId) (a v : Nat) (rt : Rt) : (writeWord c a v rt).cmds = rt.cmds := by
  unfold writeWord
  dsimp only
  split
  · rfl
  · split <;> rfl

theorem writeWords_cmds (c : ClerkId) (a : Nat) (l : List Nat) (rt : Rt) : (writeWords c a l rt).cmds = rt.cmds := by
  induction l generalizing a rt with
  | nil => rfl
  | cons v l ih => exact (ih _ _).trans (writeWord_cmds c a v rt)

theorem writeNibbles_cmds (c : ClerkId) (p : Nat) (l : List Nat) (rt : Rt) : (writeNibbles c p l rt).cmds = rt.cmds := by
  induction l generalizing p rt with
  | nil => rfl
  | cons v l ih => exact (ih _ _).trans (writeWord_cmds c _ _ rt)

theorem writeBytes_cmds (c : ClerkId) (p : Nat) (b : Bytes) (rt : Rt) : (writeBytes c p b rt).cmds = rt.cmds :=
  writeNibbles_cmds c p (nibbles b) rt

/-- The job frame and the desk input are the clerk's own (Tables 10.8 and 10.9). -/
theorem jobSetup_cmds (ck : ClerkId) (c : Cmd) (house : Nat) (partitioned : Bool) (rt : Rt) :
    (jobSetup ck c house partitioned rt).cmds = rt.cmds := by
  simp only [jobSetup, writeWords_cmds, writeBytes_cmds]

/-! ## The start of a job (R209) -/

/-- A clerk at the first instruction of a command's job. -/
structure StartsJob (k : Clerk) (id : CmdId) (ic : Word) : Prop where
  running : k.st = .running
  job : k.job = some id
  sw : k.sw = 0
  latches : k.latches = []
  ic : k.ic = ic

theorem startsJob_startJob (progs : List ProgEntry) (ck : ClerkId) (c : Cmd) (reads : List (Nat × TileImage)) (rt : Rt) :
    StartsJob (clerkOf (startJob progs ck c reads rt) ck) c.id
      (entryPoint (progFor progs (boothHouse rt c.booth) c.desc.opcode.toNat c.epoch) c.desc.opcode.toNat) := by
  unfold startJob
  extract_lets
  rw [clerkOf_setClerk_self]
  exact ⟨rfl, rfl, rfl, rfl, rfl⟩

/-- A reservation leaves the input of every command as it is. -/
theorem takeResv_input (c : Cmd) (rt : Rt) (j : CmdId) :
    (kget (takeResv c rt).cmds j).map Cmd.input = (kget rt.cmds j).map Cmd.input := by
  unfold takeResv
  dsimp only
  split
  · rfl
  · exact map_kget_kmod (by exact fun _ => rfl) rt.cmds c.id j

/-- The start of a job leaves the input of every command as it is. -/
theorem startJob_input (progs : List ProgEntry) (ck : ClerkId) (c : Cmd) (reads : List (Nat × TileImage)) (rt : Rt) (j : CmdId) :
    (kget (startJob progs ck c reads rt).cmds j).map Cmd.input = (kget rt.cmds j).map Cmd.input := by
  unfold startJob
  extract_lets house p taken marked framed k
  rw [setClerk_cmds, jobSetup_cmds]
  calc (kget marked.cmds j).map Cmd.input
    _ = (kget taken.cmds j).map Cmd.input := map_kget_kmod (by exact fun _ => rfl) taken.cmds c.id j
    _ = (kget rt.cmds j).map Cmd.input := takeResv_input c rt j

/-! ## The read of an input that stage 4 has not read (R11, R135) -/

/-- The part of a command's input that its dispatch reads lies in the windows of its epoch. -/
abbrev InWindows (m : Cmd) (rt : Rt) : Prop :=
  rangeOk (cmdWindows rt m m.epoch) false (hostBase m) (min (hostInput m) 65536) = true

/-- A command whose input has come. -/
def withInput (m : Cmd) (d : Bytes) : Cmd := { m with input := d, inputDone := true }

section
variable {m : Cmd} {rt : Rt}

theorem readHost_of_done (h : m.inputDone = true) (data : Option Bytes) : readHost m data rt = some (rt, some m) := by
  simp only [readHost, h, if_true]

theorem readHost_outside (hd : m.inputDone = false) (hw : ¬ InWindows m rt) (data : Option Bytes) :
    readHost m data rt = some (failWith m.id stAccessRefused rt, none) := by
  simp [readHost, hd, hw]

theorem readHost_failed (hd : m.inputDone = false) (hw : InWindows m rt) :
    readHost m none rt = some (inputDmaFault m (failWith m.id stAccessRefused rt), none) := by
  simp [readHost, hd, hw]

theorem readHost_read {d : Bytes} (hd : m.inputDone = false) (hw : InWindows m rt) (hl : d.length = hostInput m) :
    readHost m (some d) rt = some ({ rt with cmds := kset rt.cmds m.id (withInput m d) }, some (withInput m d)) := by
  simp [readHost, hd, hw, hl, withInput]

/-- An input that is in the module, or that the windows hold in full, is there for the job. -/
theorem readHost_takes {d : Bytes} (h : m.inputDone = true ∨ InWindows m rt ∧ d.length = hostInput m) :
    ∃ rt1 m1, readHost m (some d) rt = some (rt1, some m1) ∧ m1.id = m.id := by
  cases hd : m.inputDone with
  | true => exact ⟨rt, m, readHost_of_done hd _, rfl⟩
  | false =>
    obtain ⟨hw, hl⟩ := h.resolve_left (Bool.eq_false_iff.mp hd)
    exact ⟨_, _, readHost_read hd hw hl, rfl⟩

end

/-! ## DISPATCH (R186, R209) -/

/-- A clerk takes commands, commands may run, and the pick finds one. -/
structure Picks (c : ClerkId) (rt : Rt) (m : Cmd) (rt0 : Rt) : Prop where
  takes : clerkTakes rt c = true
  runs : mayRun rt = true
  picked : pick c (pickOrder rt) rt = (some m, rt0)

section
variable {c : ClerkId} {m m1 : Cmd} {rt0 rt1 : Rt} {data : Option Bytes} {reads : List (Nat × TileImage)} {s : State}

theorem doDispatch_starts (hp : Picks c s.rt m rt0) (hr : readHost m data rt0 = some (rt1, some m1)) :
    doDispatch c data reads s = { s with rt := startJob s.nv.progs c m1 reads rt1 } := by
  simp [doDispatch, hp.takes, hp.runs, hp.picked, hr]

theorem doDispatch_ends (hp : Picks c s.rt m rt0) (hr : readHost m data rt0 = some (rt1, none)) :
    doDispatch c data reads s = { s with rt := rt1 } := by
  simp [doDispatch, hp.takes, hp.runs, hp.picked, hr]

/-- The clerk to which a dispatch gives a command is at the first instruction of its job. -/
theorem doDispatch_startsJob (hp : Picks c s.rt m rt0) (hr : readHost m data rt0 = some (rt1, some m1)) :
    StartsJob (clerkOf (doDispatch c data reads s).rt c) m1.id
      (entryPoint (progFor s.nv.progs (boothHouse rt1 m1.booth) m1.desc.opcode.toNat m1.epoch) m1.desc.opcode.toNat) := by
  rw [doDispatch_starts hp hr]
  exact startsJob_startJob _ _ _ _ _

end

theorem exec_dispatch (x : ClerkInput) (s : State) : exec (.dispatch x) s = .next (doDispatch x.clerk x.data x.reads s) := rfl

/-- An input that the row brings is the command's once its job runs. -/
theorem dispatch_reads {c : ClerkId} {m : Cmd} {d : Bytes} {rt0 : Rt} {s : State} (hp : Picks c s.rt m rt0)
    (hd : m.inputDone = false) (hw : InWindows m rt0) (hl : d.length = hostInput m) :
    (clerkOf (doDispatch c (some d) [] s).rt c).job = some m.id ∧
      (kget (doDispatch c (some d) [] s).rt.cmds m.id).map Cmd.input = some d := by
  have hread := readHost_read hd hw hl
  refine ⟨(doDispatch_startsJob hp hread).job, ?_⟩
  rw [doDispatch_starts hp hread, startJob_input, kget_kset_self]
  rfl

/-! ## HOUSE_PROGRAM_COMMAND (R360) -/

/-- The clerk found for a command takes commands, and its pick finds that command. -/
theorem clerkFor_spec {rt : Rt} {id : CmdId} {c : ClerkId} (h : clerkFor rt id = some c) :
    clerkTakes rt c = true ∧ (pick c (pickOrder rt) rt).1.map Cmd.id = some id := by
  have hfound := List.find?_some h
  simpa only [Bool.and_eq_true, beq_iff_eq] using hfound

theorem exec_houseProgramCommand {x : CmdInput} {m : Cmd} {c : ClerkId} {s : State} (hm : kget s.rt.cmds x.id = some m)
    (hop : isHouseOp m.desc.opcode.toNat = true) (hrun : mayRun s.rt = true) (hc : clerkFor s.rt x.id = some c) :
    exec (.houseProgramCommand x) s = .next (doDispatch c x.data x.reads s) := by
  have hrow : exec (.houseProgramCommand x) s = execHouseProgramCommand x s := rfl
  simp [hrow, execHouseProgramCommand, hm, hop, hrun, hc]

/-! ## CLERK_WIPE (R211) -/

/-- A clerk as its wipe leaves it. -/
def wipedClerk (k : Clerk) : Clerk :=
  { k with st := .free, mem := k.mem.filter (fun kv => !wipedWord k.blocks kv.1), blocks := [], sw := swPut k.sw 6 false,
           outcome := (0, 0), houseProg := false }

theorem exec_clerkWipe {c : ClerkId} {s : State} (h : (clerkOf s.rt c).st = .wiping) :
    exec (.clerkWipe c) s = .next (onRt (setClerk c (wipedClerk (clerkOf s.rt c))) s) := by
  have hrow : exec (.clerkWipe c) s = .next (onRt (doClerkWipe c) s) := rfl
  simp [hrow, doClerkWipe, onRt, h, wipedClerk]

theorem wipedWord_iff {blocks : List Nat} {a : Nat} : wipedWord blocks a = true ↔ (0x200 ≤ a ∧ a < 0x400) ∨ a / 1024 ∈ blocks := by
  simp only [wipedWord, Bool.or_eq_true, decide_eq_true_eq]

theorem wipedClerk_wiped {k : Clerk} {a : Nat} (h : wipedWord k.blocks a = true) : kget (wipedClerk k).mem a = none := by
  simp [wipedClerk, kget_filterKeys fun a => !wipedWord k.blocks a, h]

theorem wipedClerk_kept {k : Clerk} {a : Nat} (h : ¬ wipedWord k.blocks a = true) : kget (wipedClerk k).mem a = kget k.mem a := by
  simp [wipedClerk, kget_filterKeys fun a => !wipedWord k.blocks a, h]

/-! ## TIME_LIMIT (R213) -/

theorem exec_timeLimit {c : ClerkId} {s : State} (hc : c < 128) (hjob : (clerkOf s.rt c).job.isSome = true)
    (hfatal : inFatal s.rt = false) (hhalt : inTamperHalt s.rt = false) :
    exec (.timeLimit c) s =
      .next (onRt (fun rt => clerkTrap c trapTime (opcodeAt s.rt c) (advanceTo ((clerkOf rt c).dispatchedAt + jobLimit) rt)) s) := by
  have hrow : exec (.timeLimit c) s = .next (onRt (doTimeLimit c) s) := rfl
  simp [hrow, doTimeLimit, onRt, hc, hjob, hfatal, hhalt]

/-! ## STAGING_RESERVATION_GRANT (R142) -/

/-- A command with its reservation. -/
def granted (rt : Rt) (m : Cmd) : Cmd := { m with resv := resvNeed rt m, resvWait := false }

/-- With no drain-list command in the queue, its head is served when the pool suffices. -/
theorem doStagingGrant_head {m : Cmd} {id : CmdId} {q : List CmdId} {rt : Rt} (hq : rt.disp.resvQueue = id :: q)
    (hdrain : ∀ i ∈ id :: q, i ∉ rt.disp.drain) (hm : kget rt.cmds id = some m) (hpool : resvNeed rt m ≤ rt.disp.pool) :
    doStagingGrant rt = { rt with
      cmds := kset rt.cmds id (granted rt m)
      disp := { rt.disp with pool := rt.disp.pool - resvNeed rt m, resvQueue := (id :: q).filter (· ≠ id) } } := by
  have hnone : ((id :: q).find? fun i => decide (i ∈ rt.disp.drain)) = none :=
    List.find?_eq_none.mpr fun i hi => by simpa using hdrain i hi
  simp only [doStagingGrant, hq, hnone, List.head?_cons, hm, Nat.not_lt.mpr hpool, if_false, modCmd, kmod, granted]

/-! ## The statement -/

/-- Settles O23, row by row: a dispatch by the pick and what the read of the input gives, a house program's command by the clerk that the
pick finds for it, the wipe by the words it takes, the time limit by its trap, a grant by the head of the queue. -/
theorem clerkJobs : Obligations.ClerkJobs := by
  refine ⟨?start, ?input, ?wipe, ?limit, ?grant, ?house⟩
  case start =>
    intro c m0 m data reads rt0 rt1 s htakes hruns hpick hread
    have hp : Picks c s.rt m0 rt0 := ⟨htakes, hruns, hpick⟩
    have hstart := doDispatch_startsJob (reads := reads) hp hread
    have hdo := doDispatch_starts (reads := reads) hp hread
    exact ⟨_, exec_dispatch _ s, congrArg State.rt hdo, hstart.running, hstart.job, hstart.sw, hstart.latches, (congrArg State.nv hdo :),
      hstart.ic⟩
  case input =>
    intro c m d rt0 s htakes hruns hpick hd
    have hp : Picks c s.rt m rt0 := ⟨htakes, hruns, hpick⟩
    have ends {data rt1} (hread : readHost m data rt0 = some (rt1, none)) :
        exec (.dispatch ⟨c, data, []⟩) s = .next { s with rt := rt1 } :=
      (exec_dispatch _ s).trans (congrArg _ (doDispatch_ends hp hread))
    refine ⟨fun hw => ends (readHost_outside hd (Bool.eq_false_iff.mp hw) _), fun hw hl => ?_,
      fun hw => ends (readHost_failed hd hw)⟩
    exact ⟨_, exec_dispatch _ s, dispatch_reads hp hd hw hl⟩
  case wipe =>
    intro c s h
    refine ⟨_, exec_clerkWipe h, ?_, ?_, ?_, ?_, fun c' hc' => ?others⟩
    case others => exact (clerkOf_setClerk c c' _ s.rt).trans (if_neg (Ne.symm hc'))
    all_goals rw [onRt, clerkOf_setClerk_self]
    · rfl
    · exact fun a hlo hhi => wipedClerk_wiped (wipedWord_iff.mpr (.inl ⟨hlo, hhi⟩))
    · exact fun a ha => wipedClerk_wiped (wipedWord_iff.mpr (.inr ha))
    · intro a hframe hblock
      exact wipedClerk_kept fun hw => (wipedWord_iff.mp hw).elim (fun hin => by omega) hblock
  case limit => exact fun c s => exec_timeLimit
  case grant =>
    intro m id q s hq hdrain hm hpool
    have hrow : exec .stagingReservationGrant s = .next (onRt doStagingGrant s) := rfl
    rw [onRt, doStagingGrant_head hq hdrain hm hpool] at hrow
    exact ⟨_, hrow, kget_kset_self _ _ _, rfl, by simp⟩
  case house =>
    intro id c m d rt0 s hm hlo hhi _ hc hruns hpick hinput
    obtain ⟨htakes, hid⟩ := clerkFor_spec hc
    rw [hpick] at hid
    obtain ⟨rt1, m1, hread, hm1⟩ := readHost_takes hinput
    have hstart := doDispatch_startsJob (reads := []) ⟨htakes, hruns, hpick⟩ hread
    have hjob : some m1.id = some id := (congrArg some hm1).trans hid
    have hop : isHouseOp m.desc.opcode.toNat = true := decide_eq_true ⟨hlo, hhi⟩
    exact ⟨_, exec_houseProgramCommand hm hop hruns hc, hstart.running, hstart.job.trans hjob, hstart.sw⟩

end Sys2Proof.Machine
end

section
/-! What an issued instruction of the Karua-20 comes to beside flags and a jump, and the binary and logical instructions. -/

namespace Sys2Proof.Machine

/-! ## Ends of an issued instruction -/

section
variable {f : Fmt} {ls : LenSpec} {c : ClerkId} {o : Opnds} {s : State} {x : Args} {rt rt' : Rt} {body : Args → Rt → KOut}

/-- An operation that waits goes on at the next instruction when the clerk runs again. -/
theorem karua_wait {w : Stall} {fl : FlagSet} (h : issue f ls c o s = some (x, rt)) (hb : body x rt = .wait w fl rt') :
    karua f ls body c o s = .next { s with rt := finish x.ck fl f.sets (readsPort f x) x.next (.stalled w) rt' } := by
  obtain ⟨rt1, e⟩ := karua_issue body h
  rw [e, hb]; rfl

/-- An operation that ends the job leaves what the end of the job leaves. -/
theorem karua_over (h : issue f ls c o s = some (x, rt)) (hb : body x rt = .over rt') :
    karua f ls body c o s = .next { s with rt := rt' } := by
  obtain ⟨rt1, e⟩ := karua_issue body h
  rw [e, hb]; rfl

/-- An operation that traps leaves the state that the fetch left, and the trap. -/
theorem karua_trap {rt1 : Rt} {t : Trap} (hready : clerkReady s.rt c = true) (hbegun : begun s.nv.progs f ls c o s.rt = .go x rt1 rt)
    (hb : body x rt = .trap t) : karua f ls body c o s = .next { s with rt := clerkTrap x.ck t f.op rt1 } := by
  simp only [karua, onRt, runInsn, hready, hbegun, hb, settle, Bool.not_true, Bool.false_eq_true, if_false]

/-- The operands with which an instruction begins belong to its clerk. -/
theorem begun_ck {progs : List ProgEntry} {rt0 rt1 : Rt} (h : begun progs f ls c o rt0 = .go x rt1 rt) : x.ck = c := by
  obtain ⟨_, _, _, _, _, hprep, _⟩ := begun_spec h
  exact (prepare_ck hprep).1

end

/-! ## Sums, differences and products (11 R226) -/

theorem addFlags_eq (w a b n : Nat) : addFlags w a b n = ((a + b + n) % 2 ^ w,
    arithFlags w ((a + b + n) % 2 ^ w) (decide (2 ^ w ≤ a + b + n)) (outside w (signed w a + signed w b + n))) := rfl

/-- A sum without carry in. -/
theorem addFlags_zero (w a b : Nat) : addFlags w a b 0 = ((a + b) % 2 ^ w,
    arithFlags w ((a + b) % 2 ^ w) (decide (2 ^ w ≤ a + b)) (outside w (signed w a + signed w b))) := by
  simp [addFlags_eq]

theorem subFlags_eq (w a b n : Nat) : subFlags w a b n = (wrap w ((a : Int) - b - n),
    arithFlags w (wrap w ((a : Int) - b - n)) (decide (a < b + n)) (outside w (signed w a - signed w b - n))) := rfl

/-- A difference without borrow in. -/
theorem subFlags_zero (w a b : Nat) : subFlags w a b 0 = (wrap w ((a : Int) - b),
    arithFlags w (wrap w ((a : Int) - b)) (decide (a < b)) (outside w (signed w a - signed w b))) := by
  simp [subFlags_eq]

theorem signed_zero (w : Nat) : signed w 0 = 0 := by simp [signed]

/-- The negation of a word. -/
theorem subFlags_neg (w b : Nat) : subFlags w 0 b 0 = (wrap w (0 - (b : Int)),
    arithFlags w (wrap w (0 - (b : Int))) (decide (0 < b)) (outside w (0 - signed w b))) := by
  simp [subFlags_zero, signed_zero]

/-- Settles O1: each operation writes its value and its flags, NEG as the difference from zero. -/
theorem clerkMovesAndMultiplies : Obligations.ClerkMovesAndMultiplies := by
  intro c o s x rt
  refine ⟨?nop, ?mov, ?movd, ?clr, ?mfsw, ?mtsw, ?neg, ?mul, ?mulu⟩
  all_goals
    intro h
    obtain rfl := issue_ck h
  case neg => exact karua_go h (congrArg (bin20 x rt) (subFlags_neg 20 _))
  all_goals exact karua_go h rfl

/-- Settles O2: sums and differences by what `addFlags` and `subFlags` give, with the C flag as carry in for ADC and SBC. -/
theorem clerkSumsAndDifferences : Obligations.ClerkSumsAndDifferences := by
  intro c o s x rt
  refine ⟨?add, ?adc, ?addd, ?inc, ?sub, ?sbc, ?subd, ?dec, ?cmp, ?cmpd⟩
  all_goals
    intro h
    obtain rfl := issue_ck h
  case add | inc => exact karua_go h (congrArg (bin20 x rt) (addFlags_zero 20 _ _))
  case adc => exact karua_go h (congrArg (bin20 x rt) (addFlags_eq 20 _ _ _))
  case addd => exact karua_go h (congrArg (bin40 x rt) (addFlags_zero 40 _ _))
  case sub | dec => exact karua_go h (congrArg (bin20 x rt) (subFlags_zero 20 _ _))
  case sbc => exact karua_go h (congrArg (bin20 x rt) (subFlags_eq 20 _ _ _))
  case subd => exact karua_go h (congrArg (bin40 x rt) (subFlags_zero 40 _ _))
  case cmp => exact karua_go h (congrArg (fun r : Nat × FlagSet => KOut.go r.2 rt) (subFlags_zero 20 _ _))
  case cmpd => exact karua_go h (congrArg (fun r : Nat × FlagSet => KOut.go r.2 rt) (subFlags_zero 40 _ _))

/-! ## Shifts (11 R228) -/

/-- The result of a shift with its flags Z, N and C. -/
def shifted (r : Nat) (carry : Bool) : Nat × FlagSet := (r, { znFlags 20 r with c := some carry })

theorem shlFlags_eq (a n : Nat) :
    shlFlags a n = shifted (if 20 ≤ n then 0 else (a <<< n) % 2 ^ 20) (decide (0 < n ∧ n ≤ 20) && a.testBit (20 - n)) := rfl

theorem shlFlags_below {a n : Nat} (hpos : 0 < n) (hlt : n < 20) : shlFlags a n = shifted (a * 2 ^ n % 2 ^ 20) (a.testBit (20 - n)) := by
  rw [shlFlags_eq, if_neg (Nat.not_le.mpr hlt), decide_eq_true ⟨hpos, Nat.le_of_lt hlt⟩, Bool.true_and, Nat.shiftLeft_eq]

theorem shlFlags_above {a n : Nat} (h : 20 < n) : shlFlags a n = shifted 0 false := by
  rw [shlFlags_eq, if_pos (Nat.le_of_lt h), decide_eq_false fun hin => Nat.not_le.mpr h hin.2, Bool.false_and]

theorem shlFlags_zero {a : Nat} (h : a < 2 ^ 20) : shlFlags a 0 = shifted a false := by
  rw [shlFlags_eq, if_neg (by decide), Nat.shiftLeft_zero, Nat.mod_eq_of_lt h]
  rfl

theorem shlFlags_20 (a : Nat) : shlFlags a 20 = shifted 0 (a.testBit 0) := rfl

theorem shrFlags_eq (a n : Nat) :
    shrFlags a n = shifted (if 20 ≤ n then 0 else a >>> n) (decide (0 < n ∧ n ≤ 20) && a.testBit (n - 1)) := rfl

theorem shrFlags_below {a n : Nat} (hpos : 0 < n) (hlt : n < 20) : shrFlags a n = shifted (a / 2 ^ n) (a.testBit (n - 1)) := by
  rw [shrFlags_eq, if_neg (Nat.not_le.mpr hlt), decide_eq_true ⟨hpos, Nat.le_of_lt hlt⟩, Bool.true_and, Nat.shiftRight_eq_div_pow]

theorem shrFlags_above {a n : Nat} (h : 20 < n) : shrFlags a n = shifted 0 false := by
  rw [shrFlags_eq, if_pos (Nat.le_of_lt h), decide_eq_false fun hin => Nat.not_le.mpr h hin.2, Bool.false_and]

theorem shrFlags_zero (a : Nat) : shrFlags a 0 = shifted a false := rfl

theorem shrFlags_20 (a : Nat) : shrFlags a 20 = shifted 0 (a.testBit 19) := rfl

theorem sarFlags_eq (a n : Nat) : sarFlags a n =
    shifted (if 20 ≤ n then (if a.testBit 19 then 2 ^ 20 - 1 else 0) else wrap 20 (signed 20 a / ((2 ^ n : Nat) : Int)))
      (decide (0 < n) && (if n ≤ 20 then a.testBit (n - 1) else a.testBit 19)) := rfl

theorem sarFlags_below {a n : Nat} (hpos : 0 < n) (hlt : n < 20) :
    sarFlags a n = shifted (wrap 20 (signed 20 a / ((2 ^ n : Nat) : Int))) (a.testBit (n - 1)) := by
  rw [sarFlags_eq, if_neg (Nat.not_le.mpr hlt), if_pos (Nat.le_of_lt hlt), decide_eq_true hpos, Bool.true_and]

theorem sarFlags_atLeast {a n : Nat} (h : 20 ≤ n) :
    sarFlags a n = shifted (if a.testBit 19 then 2 ^ 20 - 1 else 0) (a.testBit 19) := by
  have hpos : 0 < n := by omega
  have hcarry : (if n ≤ 20 then a.testBit (n - 1) else a.testBit 19) = a.testBit 19 := by
    split
    · rw [show n = 20 by omega]
    · rfl
  rw [sarFlags_eq, if_pos h, decide_eq_true hpos, Bool.true_and, hcarry]

/-- The low bits of the signed value of a word are the word. -/
theorem wrap_signed {a : Nat} (h : a < 2 ^ 20) : wrap 20 (signed 20 a) = a := by
  unfold wrap signed
  split <;> omega

theorem sarFlags_zero {a : Nat} (h : a < 2 ^ 20) : sarFlags a 0 = shifted a false := by
  have hquot : signed 20 a / ((2 ^ 0 : Nat) : Int) = signed 20 a := Int.ediv_one _
  rw [sarFlags_eq, if_neg (by decide), hquot, wrap_signed h]
  rfl

/-- Settles O3: the logical instructions and ROL write what they compute; the shifts by their count, below, at and above 20. -/
theorem clerkLogicAndShifts : Obligations.ClerkLogicAndShifts := by
  intro c o s x rt
  refine ⟨?and, ?or, ?xor, ?not, ?tst, ?shlBelow, ?shlAbove, ?shlZero, ?shrBelow, ?shrAbove, ?sarBelow, ?sarAtLeast, ?shl20, ?shr20,
    ?shrZero, ?sarZero, ?rol⟩
  all_goals
    intro h
    obtain rfl := issue_ck h
  case shlBelow => exact fun hpos hlt => karua_go h (congrArg (bin20 x rt) (shlFlags_below hpos hlt))
  case shlAbove => exact fun hn => karua_go h (congrArg (bin20 x rt) (shlFlags_above hn))
  case shlZero => exact fun hn ha => karua_go h (congrArg (bin20 x rt) ((congrArg _ hn).trans (shlFlags_zero ha)))
  case shl20 => exact fun hn => karua_go h (congrArg (bin20 x rt) ((congrArg _ hn).trans (shlFlags_20 _)))
  case shrBelow => exact fun hpos hlt => karua_go h (congrArg (bin20 x rt) (shrFlags_below hpos hlt))
  case shrAbove => exact fun hn => karua_go h (congrArg (bin20 x rt) (shrFlags_above hn))
  case shrZero => exact fun hn => karua_go h (congrArg (bin20 x rt) ((congrArg _ hn).trans (shrFlags_zero _)))
  case shr20 => exact fun hn => karua_go h (congrArg (bin20 x rt) ((congrArg _ hn).trans (shrFlags_20 _)))
  case sarBelow => exact fun hpos hlt => karua_go h (congrArg (bin20 x rt) (sarFlags_below hpos hlt))
  case sarAtLeast => exact fun hn => karua_go h (congrArg (bin20 x rt) (sarFlags_atLeast hn))
  case sarZero => exact fun hn ha => karua_go h (congrArg (bin20 x rt) ((congrArg _ hn).trans (sarFlags_zero ha)))
  all_goals exact karua_go h rfl

/-! ## DIVU (11 R227) -/

section
variable {x : Args} {rt : Rt}

theorem opDivu_of_pos (h : 0 < valW rt x.ck x.lc) : opDivu x rt =
    divResult x rt (valD rt x.ck x.lb / valW rt x.ck x.lc) (valD rt x.ck x.lb % valW rt x.ck x.lc) := by
  simp only [opDivu, Nat.ne_of_gt h, if_false]

theorem divResult_of_fits {q : Nat} (h : q ≤ 0xFFFFF) (r : Nat) :
    divResult x rt q r = .go { znFlags 20 q with v := some false } (putD x.ck x.la (q * 2 ^ 20 + r) rt) := by
  simp only [divResult, Nat.not_lt.mpr h, decide_false, Bool.false_eq_true, if_false]
  rfl

theorem divResult_of_big {q : Nat} (h : 0xFFFFF < q) (r : Nat) :
    divResult x rt q r = .go { znFlags 20 0xFFFFF with v := some true } (putD x.ck x.la (0xFFFFF * 2 ^ 20 + 0xFFFFF) rt) := by
  simp only [divResult, h, decide_true, if_true]
  rfl

end

/-- Settles O4: the quotient fits a word, does not, or the divisor is zero. -/
theorem divuDividesOrTraps : Obligations.DivuDividesOrTraps := by
  intro c o s x rt
  refine ⟨?fits, ?big, ?zero⟩
  case fits =>
    intro h hpos hq
    obtain rfl := issue_ck h
    exact karua_go h ((opDivu_of_pos hpos).trans (divResult_of_fits hq _))
  case big =>
    intro h hpos hq
    obtain rfl := issue_ck h
    exact karua_go h ((opDivu_of_pos hpos).trans (divResult_of_big hq _))
  case zero =>
    intro rt1 hready hbegun hzero
    obtain rfl := begun_ck hbegun
    exact karua_trap hready hbegun (if_pos hzero)

end Sys2Proof.Machine
end

section
/-! The decimal and the string instructions of the Karua-20. -/

namespace Sys2Proof.Machine

/-! ## Decimal arithmetic (11 R231, R232) -/

/-- Both lengths are in the limit of 320 nibbles (R230). -/
theorem not_tooLong {m n : Nat} (hm : m ≤ 320) (hn : n ≤ 320) : ¬(320 < m ∨ 320 < n) := by omega

section
variable {x : Args} {rt : Rt}

/-- A two-operand decimal instruction stores the result of two valid strings, or an invalid source. -/
theorem decOp_eq (f : Int → Int → Int) : decOp x rt f = putDec x rt (valW rt x.ck x.lc)
    ((decVal (lenSA (valW rt x.ck x.lc)) (strA x rt (lenLA (valW rt x.ck x.lc)))).bind fun a =>
      (decVal (lenSB (valW rt x.ck x.lc)) (strB x rt (lenLB (valW rt x.ck x.lc)))).map fun b => f a b) := by
  unfold decOp
  dsimp only
  cases decVal (lenSA (valW rt x.ck x.lc)) (strA x rt (lenLA (valW rt x.ck x.lc))) with
  | none => rfl
  | some a => cases decVal (lenSB (valW rt x.ck x.lc)) (strB x rt (lenLB (valW rt x.ck x.lc))) <;> rfl

end

/-- Settles O5: with lengths in the limit each instruction stores its result by the store rule. -/
theorem decimalArithmeticStoresUnderTheRule : Obligations.DecimalArithmeticStoresUnderTheRule := by
  intro c o s x rt
  refine ⟨?addp, ?subp, ?mulp, ?movp, ?shp, ?btod⟩
  all_goals
    intro h ha
    obtain rfl := issue_ck h
  case addp | subp | mulp => exact fun hb => karua_go h ((if_neg (not_tooLong ha hb)).trans (decOp_eq _))
  case movp => exact fun hb => karua_go h (if_neg (not_tooLong ha hb))
  case shp | btod => exact karua_go h (if_neg (Nat.not_lt.mpr ha))

/-! ## Comparison and conversions (11 R231 to R233, R236) -/

section
variable {x : Args} {rt : Rt}

/-- CMPP of two valid strings. -/
theorem opCmpp_of_valid {p q : Int} (ha : lenLA (valW rt x.ck x.lc) ≤ 320) (hb : lenLB (valW rt x.ck x.lc) ≤ 320)
    (hp : decVal (lenSA (valW rt x.ck x.lc)) (strA x rt (lenLA (valW rt x.ck x.lc))) = some p)
    (hq : decVal (lenSB (valW rt x.ck x.lc)) (strB x rt (lenLB (valW rt x.ck x.lc))) = some q) :
    opCmpp x rt = .go { noFlags with z := some (decide (p = q)), n := some (decide (p < q)) } rt := by
  simp only [opCmpp, not_tooLong ha hb, hp, hq, if_false]
  rfl

/-- CMPP with an invalid string. -/
theorem opCmpp_of_invalid (ha : lenLA (valW rt x.ck x.lc) ≤ 320) (hb : lenLB (valW rt x.ck x.lc) ≤ 320)
    (h : decVal (lenSA (valW rt x.ck x.lc)) (strA x rt (lenLA (valW rt x.ck x.lc))) = none ∨
      decVal (lenSB (valW rt x.ck x.lc)) (strB x rt (lenLB (valW rt x.ck x.lc))) = none) :
    opCmpp x rt = .go { noFlags with z := some false, n := some false, id := some true } rt := by
  simp only [opCmpp, not_tooLong ha hb, if_false]
  split
  next _ _ hp hq => simp [hp, hq] at h
  next => rfl

/-- DTOB of a valid string. -/
theorem opDtob_of_valid {p : Int} (hb : lenLB (valW rt x.ck x.lc) ≤ 320)
    (hp : decVal (lenSB (valW rt x.ck x.lc)) (strB x rt (lenLB (valW rt x.ck x.lc))) = some p) :
    opDtob x rt = .go { znFlags 40 (wrap 40 p) with v := some (outside 40 p) } (putD x.ck x.la (wrap 40 p) rt) := by
  simp only [opDtob, Nat.not_lt.mpr hb, hp, if_false]
  rfl

/-- DTOB of an invalid string. -/
theorem opDtob_of_invalid (hb : lenLB (valW rt x.ck x.lc) ≤ 320)
    (h : decVal (lenSB (valW rt x.ck x.lc)) (strB x rt (lenLB (valW rt x.ck x.lc))) = none) :
    opDtob x rt = .go { znFlags 40 0 with v := some false, id := some true } (putD x.ck x.la 0 rt) := by
  simp only [opDtob, Nat.not_lt.mpr hb, h, if_false]
  rfl

/-- DAJ of the sum of two packed words. -/
theorem opDaj_of_packed {p q : Nat} (hp : packedVal (wrap 20 ((valW rt x.ck x.la : Int) - valW rt x.ck x.lb)) = some p)
    (hq : packedVal (valW rt x.ck x.lb) = some q) :
    opDaj x rt = .go { noFlags with z := some (packed ((p + q) % 100000) == 0), dc := some (decide (100000 ≤ p + q)) }
      (putW x.ck x.la (packed ((p + q) % 100000)) rt) := by
  simp only [opDaj, hp, hq]

/-- DAJ of a sum with an addend that is not packed. -/
theorem opDaj_of_invalid (h : packedVal (wrap 20 ((valW rt x.ck x.la : Int) - valW rt x.ck x.lb)) = none ∨
      packedVal (valW rt x.ck x.lb) = none) :
    opDaj x rt = .go { noFlags with z := some true, id := some true } (putW x.ck x.la 0 rt) := by
  unfold opDaj
  dsimp only
  split
  next _ _ hp hq => simp [hp, hq] at h
  next => rfl

/-- A table or a string is valid when each of its nibbles is a digit. -/
theorem all_digits_iff {l : List Nat} : l.all (fun d => decide (d < 10)) = true ↔ ∀ d ∈ l, d < 10 := by
  simp

theorem not_all_digits {l : List Nat} (h : ∃ d ∈ l, 10 ≤ d) : l.all (fun d => decide (d < 10)) = false := by
  simpa using h

/-- DECZ through a table of digits. -/
theorem opDecz_of_valid (ha : lenLA (valW rt x.ck x.lc) ≤ 320) (h : ∀ d ∈ strB x rt 16, d < 10) :
    opDecz x rt = .go noFlags (putA x rt ((strA x rt (lenLA (valW rt x.ck x.lc))).map fun i => (strB x rt 16).getD i 0)) := by
  simp only [opDecz, Nat.not_lt.mpr ha, all_digits_iff.mpr h, if_false, if_true]

/-- DECZ through a table with another nibble. -/
theorem opDecz_of_invalid (ha : lenLA (valW rt x.ck x.lc) ≤ 320) (h : ∃ d ∈ strB x rt 16, 10 ≤ d) :
    opDecz x rt = .go { noFlags with id := some true } (putA x rt ((strA x rt (lenLA (valW rt x.ck x.lc))).map fun _ => 0)) := by
  simp only [opDecz, Nat.not_lt.mpr ha, not_all_digits h, Bool.false_eq_true, if_false]

end

/-- Settles O6: each instruction on valid and on invalid digits. -/
theorem decimalComparesAndConversions : Obligations.DecimalComparesAndConversions := by
  intro c o s x rt
  refine ⟨fun p q h => ?cmpp, fun h => ?cmppInvalid, fun p h => ?dtob, fun h => ?dtobInvalid, fun p q h => ?daj, fun h => ?dajInvalid,
    fun h => ?decz, fun h => ?deczInvalid⟩
  all_goals obtain rfl := issue_ck h
  case cmpp => exact fun ha hb hp hq => karua_go h (opCmpp_of_valid ha hb hp hq)
  case cmppInvalid => exact fun ha hb hno => karua_go h (opCmpp_of_invalid ha hb hno)
  case dtob => exact fun hb hp => karua_go h (opDtob_of_valid hb hp)
  case dtobInvalid => exact fun hb hno => karua_go h (opDtob_of_invalid hb hno)
  case daj => exact fun hp hq => karua_go h (opDaj_of_packed hp hq)
  case dajInvalid => exact fun hno => karua_go h (opDaj_of_invalid hno)
  case decz => exact fun ha ht => karua_go h (opDecz_of_valid ha ht)
  case deczInvalid => exact fun ha ht => karua_go h (opDecz_of_invalid ha ht)

/-! ## Text and check digits (11 R234, R235) -/

section
variable {x : Args} {rt : Rt}

/-- The digits of a string: its nibbles without the sign. -/
def digitsOf (sb : Bool) (b : List Nat) : List Nat := if sb then b.dropLast else b

/-- The sign of a string is valid where it has one. -/
def signValid (sb : Bool) (b : List Nat) : Prop := sb = false ∨ b = [] ∨ isSign (b.getLastD 0) = true

/-- The validity that EDP and LUHN test. -/
theorem digits_sign_ok {sb : Bool} {b : List Nat} (hd : ∀ v ∈ digitsOf sb b, v < 10) (hs : signValid sb b) :
    ((digitsOf sb b).all (fun v => decide (v < 10)) && (!sb || b.isEmpty || isSign (b.getLastD 0))) = true := by
  rw [all_digits_iff.mpr hd, Bool.true_and, Bool.or_assoc, Bool.or_eq_true, Bool.or_eq_true, Bool.not_eq_true', List.isEmpty_iff]
  exact hs

/-- The text of a valid string: a sign byte where it is signed, and a byte for each digit. -/
theorem toText_of_valid {sb : Bool} {b : List Nat} (hd : ∀ v ∈ digitsOf sb b, v < 10) (hs : signValid sb b) :
    toText sb b = ((if sb then [2, if b.getLast? = some 0xB then 0xD else 0xB] else []) ++ (digitsOf sb b).flatMap fun v => [3, v], true) := by
  have hok := digits_sign_ok hd hs
  rw [List.getLastD_eq_getLast?, digitsOf] at hok
  simp only [toText, hok, digitsOf, Bool.true_and, beq_iff_eq, if_true]

/-- The digits of a text of digit bytes, and a plus sign where one is asked for. -/
theorem toDigits_of_valid {sa : Bool} {b : List Nat} (h : ∀ v ∈ packNibbles b, 0x30 ≤ v.toNat ∧ v.toNat ≤ 0x39) :
    toDigits sa b = ((packNibbles b).map (fun v => v.toNat - 0x30) ++ (if sa then [0xA] else []), true) := by
  have hok : (packNibbles b).all (fun v => decide (0x30 ≤ v.toNat ∧ v.toNat ≤ 0x39)) = true :=
    List.all_eq_true.mpr fun v hv => decide_eq_true (h v hv)
  simp only [toDigits, hok, if_true]

/-- EDP writes the text of a string. -/
theorem opEdp_text (hb : lenLB (valW rt x.ck x.lc) ≤ 320) (hdir : (valW rt x.ck x.lc).testBit 0 = false) :
    opEdp x rt = putEdp x rt (toText (lenSB (valW rt x.ck x.lc)) (strB x rt (lenLB (valW rt x.ck x.lc)))) := by
  simp only [opEdp, Nat.not_lt.mpr hb, hdir, Bool.false_eq_true, if_false]

/-- EDP writes the digits of a text. -/
theorem opEdp_digits (hb : lenLB (valW rt x.ck x.lc) ≤ 320) (hdir : (valW rt x.ck x.lc).testBit 0 = true) :
    opEdp x rt = putEdp x rt (toDigits (lenSA (valW rt x.ck x.lc)) (strB x rt (2 * lenLB (valW rt x.ck x.lc)))) := by
  simp only [opEdp, Nat.not_lt.mpr hb, hdir, if_false, if_true]

/-- LUHN computes the check digit of valid digits. -/
theorem luhn_compute {sb : Bool} {b : List Nat} (hd : ∀ v ∈ digitsOf sb b, v < 10) (hs : signValid sb b) :
    luhn sb false b = (luhnDigit (digitsOf sb b), true) := by
  have hok := digits_sign_ok hd hs
  rw [digitsOf] at hok ⊢
  simp only [luhn, hok, Bool.not_true, Bool.not_false, Bool.false_eq_true, if_true, if_false]

/-- LUHN verifies the last of at least two valid digits. -/
theorem luhn_verify {sb : Bool} {b : List Nat} (hd : ∀ v ∈ digitsOf sb b, v < 10) (hs : signValid sb b) (hlen : 2 ≤ (digitsOf sb b).length) :
    luhn sb true b = (b2n (luhnDigit (digitsOf sb b).dropLast != (digitsOf sb b).getLastD 0), true) := by
  have hok := digits_sign_ok hd hs
  have hlong := Nat.not_lt.mpr hlen
  rw [digitsOf] at hok hlong ⊢
  simp only [luhn, hok, hlong, Bool.not_true, Bool.false_eq_true, if_false]

/-- LUHN of an invalid digit. -/
theorem luhn_of_invalid {sb vfy : Bool} {b : List Nat} (h : ∃ v ∈ digitsOf sb b, 10 ≤ v) : luhn sb vfy b = (b2n vfy, false) := by
  have hno := not_all_digits h
  rw [digitsOf] at hno
  simp only [luhn, hno, Bool.false_and, Bool.not_false, if_true]

/-- The word that tells a mismatch is zero exactly for a match. -/
theorem b2n_beq_zero (b : Bool) : (b2n b == 0) = !b := by cases b <;> rfl

theorem b2n_bne_beq_zero (p q : Nat) : (b2n (p != q) == 0) = (p == q) := (b2n_beq_zero _).trans (Bool.not_not _)

theorem b2n_bne (p q : Nat) : b2n (p != q) = if p = q then 0 else 1 := by
  by_cases h : p = q <;> simp [b2n, h]

/-- LUHN writes its word, Z by it, and ID for an invalid source. -/
theorem opLuhn_eq {r : Nat × Bool} (hb : lenLB (valW rt x.ck x.lc) ≤ 320)
    (h : luhn (lenSB (valW rt x.ck x.lc)) ((valW rt x.ck x.lc).testBit 0) (strB x rt (lenLB (valW rt x.ck x.lc))) = r) :
    opLuhn x rt = .go { noFlags with z := some (r.1 == 0), id := if r.2 then none else some true } (putW x.ck x.la r.1 rt) := by
  simp only [opLuhn, Nat.not_lt.mpr hb, h, if_false]

end

/-- Settles O7: EDP by its direction, LUHN computing, verifying and on an invalid digit. -/
theorem textAndCheckDigits : Obligations.TextAndCheckDigits := by
  intro c o s x rt
  refine ⟨?text, ?digits, ?compute, ?verify, ?invalid⟩
  all_goals
    intro h hb
    obtain rfl := issue_ck h
  case text => exact fun hdir hd hs => karua_go h ((opEdp_text hb hdir).trans (congrArg (putEdp x rt) (toText_of_valid hd hs)))
  case digits => exact fun hdir hy => karua_go h ((opEdp_digits hb hdir).trans (congrArg (putEdp x rt) (toDigits_of_valid hy)))
  case compute =>
    intro hvfy hd hs
    exact karua_go h (opLuhn_eq hb ((congrArg (luhn _ · _) hvfy).trans (luhn_compute hd hs)))
  case verify =>
    intro hvfy hd hs hlen
    have hrun := opLuhn_eq hb ((congrArg (luhn _ · _) hvfy).trans (luhn_verify hd hs hlen))
    rw [b2n_bne_beq_zero, b2n_bne] at hrun
    exact karua_go h hrun
  case invalid =>
    intro hd
    have hrun := opLuhn_eq hb (luhn_of_invalid hd)
    rw [b2n_beq_zero] at hrun
    exact karua_go h hrun

/-! ## Strings (11 R237) -/

/-- CMPS within the limit of lengths. -/
theorem opCmps_of_short {x : Args} {rt : Rt} (h : valW rt x.ck x.lc ≤ 65536) : opCmps x rt =
    .go { noFlags with z := some (decide (bytesA x rt (valW rt x.ck x.lc) = bytesB x rt (valW rt x.ck x.lc)))
                       n := some (belowBytes (bytesA x rt (valW rt x.ck x.lc)) (bytesB x rt (valW rt x.ck x.lc))) } rt := by
  simp only [opCmps, Nat.not_lt.mpr h, if_false, Bool.beq_eq_decide_eq]

/-- Settles O8: with lengths of at most 65 536 bytes no instruction traps. -/
theorem stringInstructions : Obligations.StringInstructions := by
  intro c o s x rt
  refine ⟨?movs, ?cmps, ?srch, ?xors, ?fills, ?trn⟩
  all_goals
    intro h hn
    obtain rfl := issue_ck h
  case cmps => exact karua_go h (opCmps_of_short hn)
  case trn =>
    intro htable
    have htable' : ¬((!trnTableOk rt x.ck (valW rt x.ck x.lb)) = true) := by simp [htable]
    exact karua_go h ((if_neg (Nat.not_lt.mpr hn)).trans (if_neg htable'))
  all_goals exact karua_go h (if_neg (Nat.not_lt.mpr hn))

end Sys2Proof.Machine
end

section
/-! The control instructions of the Karua-20, its engine instructions, the end of a job, and the privileged instructions. -/

namespace Sys2Proof.Machine

/-! ## Branches (11 R238) -/

section
variable {f : Fmt} {ls : LenSpec} {c : ClerkId} {o : Opnds} {s : State} {x : Args} {rt : Rt} {body : Args → Rt → KOut} {i : Instr}

/-- A branch that is taken goes to a target that the clerk's code may branch to. -/
theorem branch_taken (h : targetOk rt x.ck x.ic (targetOf x.la) false = true) : branch x rt true = .jump (targetOf x.la) rt := by
  simp only [branch, h, Bool.not_true, Bool.false_eq_true, if_false, if_true]

/-- A row that branches where SW meets a condition goes to its target or to the next instruction. -/
theorem exec_condBranch (cond : Word → Bool) (hrow : exec i s = karua f ls body c o s)
    (hbody : body x rt = condBranch x rt (cond (clerkOf rt x.ck).sw)) (h : issue f ls c o s = some (x, rt))
    (hfree : ((clerkOf rt c).sw.getLsbD 6 && (clerkOf rt c).sw.getLsbD 7) = false)
    (htarget : targetOk rt c x.ic (targetOf x.la) false = true) :
    exec i s = .next (if cond (clerkOf rt c).sw then jumped f x (targetOf x.la) rt s else ended f x noFlags rt s) := by
  obtain rfl := issue_ck h
  have hbranch : body x rt = branch x rt (cond (clerkOf rt x.ck).sw) := by
    simp only [hbody, condBranch, swBit, hfree, Bool.false_eq_true, if_false]
  rw [hrow]
  cases hcond : cond (clerkOf rt x.ck).sw with
  | false => exact karua_go h (hbranch.trans (by rw [hcond]; rfl))
  | true => exact karua_jump h (hbranch.trans (by rw [hcond]; exact branch_taken htarget))

end

/-- Settles O9: each row branches on its condition of SW. -/
theorem conditionalBranches : Obligations.ConditionalBranches := by
  intro c o s x rt
  exact ⟨exec_condBranch (·.getLsbD 0) rfl rfl, exec_condBranch (!·.getLsbD 0) rfl rfl, exec_condBranch (·.getLsbD 1) rfl rfl,
    exec_condBranch (!·.getLsbD 1) rfl rfl, exec_condBranch (·.getLsbD 2) rfl rfl, exec_condBranch (!·.getLsbD 2) rfl rfl,
    exec_condBranch (·.getLsbD 3) rfl rfl, exec_condBranch (!·.getLsbD 3) rfl rfl, exec_condBranch (·.getLsbD 4) rfl rfl,
    exec_condBranch (!·.getLsbD 4) rfl rfl, exec_condBranch (·.getLsbD 5) rfl rfl, exec_condBranch (!·.getLsbD 5) rfl rfl,
    exec_condBranch (fun sw => sw.getLsbD 1 != sw.getLsbD 3) rfl rfl, exec_condBranch (fun sw => sw.getLsbD 1 == sw.getLsbD 3) rfl rfl,
    exec_condBranch (fun sw => !sw.getLsbD 0 && sw.getLsbD 1 == sw.getLsbD 3) rfl rfl⟩

/-! ## BR, CALL, RET and LOOP (11 R238, 10 R216) -/

section
variable {x : Args} {rt : Rt}

theorem opCall_jumps (hsp : 0x400 < baseWord rt x.ck 14) (hwrite : canWrite rt x.ck (baseWord rt x.ck 14 - 1) = .ok ())
    (htarget : targetOk rt x.ck x.ic (targetOf x.la) true = true) : opCall x rt = .jump (targetOf x.la)
      (writeWord x.ck (baseWord rt x.ck 14 - 1) x.next (writeWord x.ck 14 (baseWord rt x.ck 14 - 1) rt)) := by
  simp only [opCall, Nat.not_le.mpr hsp, htarget, hwrite, Bool.not_true, Bool.false_eq_true, if_false]

theorem opRet_jumps (hsp : baseWord rt x.ck 14 < 0x10000)
    (htarget : targetOk rt x.ck x.ic (readWord rt x.ck (baseWord rt x.ck 14)) false = true) :
    opRet x rt = .jump (readWord rt x.ck (baseWord rt x.ck 14)) (writeWord x.ck 14 (baseWord rt x.ck 14 + 1) rt) := by
  simp only [opRet, Nat.not_le.mpr hsp, htarget, Bool.not_true, Bool.false_eq_true, if_false]

theorem opLoop_jumps (hleft : wrap 20 ((valW rt x.ck x.la : Int) - 1) ≠ 0)
    (htarget : targetOk rt x.ck x.ic (targetOf x.lb) false = true) :
    opLoop x rt = .jump (targetOf x.lb) (putW x.ck x.la (wrap 20 ((valW rt x.ck x.la : Int) - 1)) rt) := by
  simp only [opLoop, hleft, htarget, if_false, if_true]

theorem opLoop_ends (hleft : wrap 20 ((valW rt x.ck x.la : Int) - 1) = 0) : opLoop x rt = .go noFlags (putW x.ck x.la 0 rt) := by
  simp only [opLoop, hleft, if_true]

end

/-- Settles O10: each instruction jumps to its target, and LOOP falls through at zero. -/
theorem branchesCallsAndLoops : Obligations.BranchesCallsAndLoops := by
  intro c o s x rt
  refine ⟨fun h => ?br, fun h => ?call, fun h => ?ret, fun h => ?loop, fun h => ?done⟩
  all_goals obtain rfl := issue_ck h
  case br => exact fun htarget => karua_jump h (branch_taken htarget)
  case call => exact fun hsp hwrite htarget => karua_jump h (opCall_jumps hsp hwrite htarget)
  case ret => exact fun hsp htarget => karua_jump h (opRet_jumps hsp htarget)
  case loop => exact fun hleft htarget => karua_jump h (opLoop_jumps hleft htarget)
  case done => exact fun hleft => karua_go h (opLoop_ends hleft)

/-! ## Latches and queues (11 R241 to R245) -/

section
variable {x : Args} {rt : Rt} {e : EngineRef}

/-- LATCH and WAITL of an engine that the clerk holds return at once. -/
theorem withLatch_of_holds (hport : portOf x.ck (targetWord x.la) = .engine e 0) (hholds : holds rt x.ck e = true) (g : EngineRef → KOut) :
    withLatch x rt g = .go { noFlags with z := some true } rt := by
  simp only [withLatch, hport, hholds, ne_eq, not_true, if_false, if_true]

/-- A claim on an engine of the job's house goes on. -/
theorem withLatch_of_claim (hport : portOf x.ck (targetWord x.la) = .engine e 0) (hother : otherHouse rt x.ck e = false)
    (hholds : holds rt x.ck e = false) (g : EngineRef → KOut) : withLatch x rt g = g e := by
  simp only [withLatch, hport, hholds, hother, ne_eq, not_true, Bool.false_eq_true, if_false]

/-- An instruction on an engine that the clerk holds goes on. -/
theorem withHeld_of_holds (hport : portOf x.ck (targetWord x.la) = .engine e 0) (hholds : holds rt x.ck e = true) (g : EngineRef → KOut) :
    withHeld x rt g = g e := by
  simp only [withHeld, hport, hholds, ne_eq, not_true, Bool.not_true, Bool.false_eq_true, or_self, if_false]

/-- WAITL of a held engine enters its FIFO while that has room, and asks for the island's start. -/
theorem waitl_enters (hclaim : canClaim rt e = false) (hroom : (comOf rt e).latch.fifo.length < 8)
    (hport : portOf x.ck (targetWord x.la) = .engine e 0) (hother : otherHouse rt x.ck e = false) (hholds : holds rt x.ck e = false) :
    opWaitl x rt = .wait (.latch e) noFlags (askStart (engineIsland e) (setCom e { comOf rt e with
      latch := { (comOf rt e).latch with fifo := addTo x.ck (comOf rt e).latch.fifo } } rt)) := by
  rw [opWaitl, withLatch_of_claim hport hother hholds]
  simp only [hclaim, Nat.not_le.mpr hroom, Bool.false_eq_true, if_false]

/-- The command block that SUBMIT copies. -/
def submitted (x : Args) (rt : Rt) : Block where
  words := (List.range 16).map fun i => BitVec.ofNat 20 (readWord rt x.ck (valW rt x.ck x.lb + i))
  lib := decide (0x80000 ≤ x.ic ∧ x.ic < 0x8C000)

theorem opSubmit_queues (hport : portOf x.ck (targetWord x.la) = .engine e 0) (hholds : holds rt x.ck e = true)
    (hfits : valW rt x.ck x.lb + 16 ≤ 0x40000) (hcode : codeDefined e.kind (blkW (submitted x rt) 0) = true)
    (hdesk : desksOk e.kind (submitted x rt) = true) (hroom : (comOf rt e).queue.length < 4) :
    opSubmit x rt = .go noFlags (setCom e { comOf rt e with queue := (comOf rt e).queue ++ [submitted x rt] } rt) := by
  rw [submitted] at *
  simp only [opSubmit, Nat.not_lt.mpr hfits, hport, hholds, hcode, hdesk, Nat.not_le.mpr hroom, ne_eq, not_true, Bool.not_true,
    Bool.false_eq_true, or_self, if_false]

theorem opWaite_eq (hport : portOf x.ck (targetWord x.la) = .engine e 0) (hholds : holds rt x.ck e = true) :
    opWaite x rt = if (comOf rt e).queue.isEmpty then .go noFlags rt else .wait (.engine e) noFlags rt := by
  simp only [opWaite, hport, hholds, ne_eq, not_true, Bool.not_true, Bool.false_eq_true, or_self, if_false]

end

/-- Settles O11: claims by what `withLatch` lets through, work on a held engine by what `withHeld` does. -/
theorem engineInstructions : Obligations.EngineInstructions := by
  intro c o s x rt e
  refine ⟨fun h => ?latchHeld, fun h => ?waitlHeld, fun h => ?latchFree, fun h => ?latchTaken, fun h => ?waitlFree, fun h => ?waitlTaken,
    fun h => ?unlatch, fun h => ?submit, fun h => ?waiteIdle, fun h => ?waiteBusy⟩
  all_goals
    obtain ⟨h, hport⟩ := h
    obtain rfl := issue_ck h
  case latchHeld | waitlHeld => exact fun hholds => karua_go h (withLatch_of_holds hport hholds _)
  case latchFree | waitlFree =>
    exact fun hother hholds hclaim => karua_go h ((withLatch_of_claim hport hother hholds _).trans (if_pos hclaim))
  case latchTaken =>
    exact fun hother hholds hclaim => karua_go h ((withLatch_of_claim hport hother hholds _).trans (if_neg (Bool.eq_false_iff.mp hclaim)))
  case waitlTaken =>
    exact fun hother hholds hclaim hroom => karua_wait h (waitl_enters hclaim hroom hport hother hholds)
  case unlatch =>
    exact fun hholds hidle => karua_go h ((withHeld_of_holds hport hholds _).trans (if_pos (List.isEmpty_iff.mpr hidle)))
  case submit =>
    exact fun hholds hfits hcode hdesk hroom => karua_go h (opSubmit_queues hport hholds hfits hcode hdesk hroom)
  case waiteIdle => exact fun hholds hidle => karua_go h ((opWaite_eq hport hholds).trans (if_pos (List.isEmpty_iff.mpr hidle)))
  case waiteBusy =>
    exact fun hholds hbusy => karua_wait h ((opWaite_eq hport hholds).trans (if_neg (hbusy ∘ List.isEmpty_iff.mp)))

/-! ## Keys and random bytes (11 R246, R247) -/

section
variable {x : Args} {rt : Rt} {e : EngineRef} {k : BitVec 64}

theorem askKey_of_handle (hkey : keyHandle rt x.ck x.lb = .ok k) (e : Option EngineRef) (target deriv : Nat) (data : Bytes) :
    askKey x rt e target deriv data = .wait .key noFlags { rt with strong := { rt.strong with reqs := rt.strong.reqs ++
      [{ clerk := x.ck, eng := e, handle := k, target := target, deriv := deriv, data := data }] } } := by
  simp only [askKey, hkey]

/-- A word of the key-load block of KLOADX. -/
def loadWord (x : Args) (rt : Rt) (i : Nat) : Nat := readWord rt x.ck (valW rt x.ck x.lc + i)

/-- The number of data bytes that a key-load block gives. -/
def loadLen (x : Args) (rt : Rt) : Nat := loadWord x rt 4 * 2 ^ 20 + loadWord x rt 5

theorem opKloadx_asks {p : Nat} (hport : portOf x.ck (targetWord x.la) = .engine e 0) (hholds : holds rt x.ck e = true)
    (hfits : valW rt x.ck x.lc + 8 ≤ 0x40000) (hptr : longPtr (loadWord x rt 2) (loadWord x rt 3) = some p)
    (hdata : loadLen x rt = 0 ∨ inDesk p (2 * loadLen x rt) = true) (htarget : targetDefined e.kind (loadWord x rt 0) = true) :
    opKloadx x rt = askKey x rt (some e) (loadWord x rt 0) (loadWord x rt 1) (readBytes rt x.ck (loadLen x rt) p) := by
  have hextent : ¬((decide (loadLen x rt ≠ 0) && !inDesk p (2 * loadLen x rt)) = true) := by
    obtain h | h := hdata <;> simp [h]
  simp only [loadLen, loadWord] at *
  simp only [opKloadx, Nat.not_lt.mpr hfits, hptr, hport, hholds, htarget, ne_eq, not_true, Bool.not_true, Bool.false_eq_true, or_self,
    if_false]
  exact if_neg hextent

theorem opRand_asks (hpos : 0 < valW rt x.ck x.lb) (hmax : valW rt x.ck x.lb ≤ 65536)
    (hmint : (mintOf rt (clerkDie x.ck)).exhausted = false) :
    opRand x rt = .wait .mint noFlags (setMint (clerkDie x.ck) { mintOf rt (clerkDie x.ck) with
      waiting := (mintOf rt (clerkDie x.ck)).waiting ++ [.rand x.ck (nibOf x.la) (valW rt x.ck x.lb)] } rt) := by
  simp only [opRand, Nat.not_lt.mpr hmax, Nat.ne_of_gt hpos, hmint, Bool.false_eq_true, if_false]

theorem opRand_of_zero (h : valW rt x.ck x.lb = 0) : opRand x rt = .go noFlags rt := by
  simp only [opRand, h, Nat.not_lt_zero, if_false, if_true]

end

/-- Settles O12: KLOAD and KLOADX ask the locksmith, RAND the mint. -/
theorem keyLoadsAndRandomBytes : Obligations.KeyLoadsAndRandomBytes := by
  intro c o s x rt e k
  refine ⟨fun h => ?kload, fun p h => ?kloadx, fun h => ?rand, fun h => ?randNone⟩
  all_goals obtain rfl := issue_ck h
  case kload =>
    exact fun hport hholds hkey => karua_wait h ((withHeld_of_holds hport hholds _).trans (askKey_of_handle hkey _ _ _ _))
  case kloadx =>
    exact fun hport hholds hkey hfits hptr hdata htarget =>
      karua_wait h ((opKloadx_asks hport hholds hfits hptr hdata htarget).trans (askKey_of_handle hkey _ _ _ _))
  case rand => exact fun hpos hmax hmint => karua_wait h (opRand_asks hpos hmax hmint)
  case randNone => exact fun hzero => karua_go h (opRand_of_zero hzero)

/-! ## JEND and JFAIL (11 R249, R250) -/

section
variable {x : Args} {rt : Rt} {id : CmdId} {m : Cmd}

/-- A clerk runs a command whose outcome word is clear. -/
structure RunsClear (x : Args) (rt : Rt) (id : CmdId) (m : Cmd) : Prop where
  job : (clerkOf rt x.ck).job = some id
  cmd : kget rt.cmds id = some m
  clear : (clerkOf rt x.ck).outcome.1 = 0

/-- The state in which JEND ends a job: a library job's desk blocks are not wiped (R211). -/
def jobLeft (x : Args) (rt : Rt) : Rt :=
  if (clerkOf rt x.ck).houseProg then rt else setClerk x.ck { clerkOf rt x.ck with blocks := [] } rt

theorem jobInline_of_runs (h : RunsClear x rt id m) : jobInline rt x.ck = isInline m.desc := by
  simp only [jobInline, h.job, h.cmd]

theorem opJend_inline (h : RunsClear x rt id m) (hwork : workPending rt (clerkOf rt x.ck) = false) (hinline : isInline m.desc = true)
    (hlen : valD rt x.ck x.lb ≤ 16) :
    opJend x rt = .over (doneCmd id (readBytes rt x.ck 16 (nibOf x.lc)) [] (valD rt x.ck x.lb) (jobLeft x rt)) := by
  simp [opJend, h.job, h.clear, jobInline_of_runs h, hwork, hinline, Nat.not_lt.mpr hlen, jobLeft]

theorem opJend_output (h : RunsClear x rt id m) (hwork : workPending rt (clerkOf rt x.ck) = false) (hinline : isInline m.desc = false)
    (hlen : valD rt x.ck x.lb ≤ 65536)
    (hextent : (nibbleExtent (2 * valD rt x.ck x.lb) (nibOf x.la)).1 + (nibbleExtent (2 * valD rt x.ck x.lb) (nibOf x.la)).2 ≤ 0x40000) :
    opJend x rt = .over (doneCmd id (readBytes rt x.ck 16 (nibOf x.lc)) (m.output ++ readBytes rt x.ck (valD rt x.ck x.lb) (nibOf x.la))
      (valD rt x.ck x.lb) (jobLeft x rt)) := by
  simp [opJend, h.job, h.cmd, h.clear, jobInline_of_runs h, hwork, hinline, Nat.not_lt.mpr hlen, Nat.not_lt.mpr hextent, jobLeft]

theorem opJfail_status (h : RunsClear x rt id m) {st : Nat} (hst : valW rt x.ck x.la % 2 ^ 16 = st)
    (hkind : st = stMalformed ∨ st = stUsageRefused ∨ st = stDualControl) : opJfail x rt = .over (failWith id st rt) := by
  have hother : st ≠ stInputRefused := by
    rintro rfl
    exact absurd hkind (by decide)
  simp only [opJfail, h.job, h.clear, hst, hother, hkind, ne_eq, not_true, if_false, if_true]

theorem opJfail_input (h : RunsClear x rt id m) (hst : valW rt x.ck x.la % 2 ^ 16 = stInputRefused) :
    opJfail x rt = .over (refuseInput id (valW rt x.ck x.lb % 256) rt) := by
  simp only [opJfail, h.job, h.clear, hst, ne_eq, not_true, if_false, if_true]

end

/-- Settles O13: the end of a job with its result and output, and its failure with the status that the program gives. -/
theorem jobEnds : Obligations.JobEnds := by
  intro c o s x rt id m
  dsimp only
  intro hjob hcmd hclear
  refine ⟨fun h => ?inline, fun h => ?output, fun h => ?status, fun h => ?input⟩
  all_goals
    obtain rfl := issue_ck h
    have hruns : RunsClear x rt id m := ⟨hjob, hcmd, hclear⟩
  case inline => exact fun hwork hinline hlen => karua_over h (opJend_inline hruns hwork hinline hlen)
  case output => exact fun hwork hinline hlen hextent => karua_over h (opJend_output hruns hwork hinline hlen hextent)
  case status => exact fun hkind => karua_over h (opJfail_status hruns rfl hkind)
  case input => exact fun hst => karua_over h (opJfail_input hruns hst)

/-! ## Privileged instructions (11 R251, R223) -/

section
variable {x : Args} {rt : Rt}

theorem opMcall_enters {a : Word} (hentry : kget rt.head.entries (valW rt x.ck x.la) = some a) (hn : valW rt x.ck x.la < 256)
    (hmode : swMode (clerkOf rt x.ck).sw = 2) : opMcall x rt = .jump a.toNat
      (setMode x.ck 3 { rt with head := { rt.head with retIc := BitVec.ofNat 20 x.next } }) := by
  simp only [opMcall, hentry, hmode, hn, and_self, if_true]

theorem opIor_reads {v : Word} (hreg : kget rt.head.regs (valW rt x.ck x.lb) = some v)
    (hopen : monitorOnly rt x.ck (valW rt x.ck x.lb) = false) : opIor x rt = .go noFlags (putW x.ck x.la v.toNat rt) := by
  simp only [opIor, hopen, hreg, Bool.false_eq_true, if_false]

end

/-- A clerk that is not a head clerk begins a privileged instruction with its trap. -/
theorem begun_privileged {progs : List ProgEntry} {f : Fmt} {ls : LenSpec} {c : ClerkId} {o : Opnds} {rt rt1 : Rt} (hc : c ≠ 128)
    (hfetch : fetchWords progs c o.fill (insnWords o) (clerkOf rt c).ic.toNat rt = .ok rt1)
    (hfits : insnFits rt c (clerkOf rt c).ic.toNat f.op o = true) (hop : opPrivileged f.op = true) :
    begun progs f ls c o rt = .trap trapPrivileged f.op rt1 := by
  simp [begun, beginInsn, hfits, hfetch, hop, hc]

/-- Settles O14: the head clerks run each privileged instruction; any other clerk traps PRIVILEGED. -/
theorem privilegedInstructions : Obligations.PrivilegedInstructions := by
  refine ⟨fun c o s x rt => ⟨fun a h => ?mcall, fun h => ?mret, fun v h => ?ior, fun h => ?iow, fun h => ?waiti⟩, ?traps⟩
  case traps =>
    intro c o s rt1 hc hready hfetch
    have traps {f : Fmt} (hop : opPrivileged f.op = true) (body : Args → Rt → KOut)
        (hfits : insnFits s.rt c (clerkOf s.rt c).ic.toNat f.op o = true) :
        karua f noLen body c o s = .next { s with rt := clerkTrap c trapPrivileged f.op rt1 } := by
      simp only [karua, onRt, runInsn, hready, begun_privileged hc hfetch hfits hop, Bool.not_true, Bool.false_eq_true, if_false]
    exact ⟨traps (f := fmtMcall) rfl opMcall, traps (f := fmtMret) rfl opMret, traps (f := fmtIor) rfl opIor,
      traps (f := fmtIow) rfl opIow, traps (f := fmtWaiti) rfl opWaiti⟩
  all_goals obtain rfl := issue_ck h
  case mcall => exact fun hentry hn hmode => karua_jump h (opMcall_enters hentry hn hmode)
  case mret => exact fun hmode => karua_jump h (if_pos hmode)
  case ior => exact fun hreg hopen => karua_go h (opIor_reads hreg hopen)
  case iow => exact fun hopen => karua_go h (if_neg (Bool.eq_false_iff.mp hopen))
  case waiti => exact karua_wait h rfl

end Sys2Proof.Machine
end

section
/-! What the instructions that write a word, a double or nothing leave unchanged. -/

namespace Sys2Proof.Machine

/-! ## SW bit by bit (10 Table 10.4) -/

theorem getLsbD_swPut_ne {i j : Nat} (h : i ≠ j) (sw : Word) (b : Bool) : (swPut sw j b).getLsbD i = sw.getLsbD i := by
  have hone : (1#20 <<< j).getLsbD i = false := (BitVec.getLsbD_twoPow j i).trans (by simp [h.symm])
  unfold swPut
  split
  · rw [BitVec.getLsbD_or, hone, Bool.or_false]
  · rw [BitVec.getLsbD_and, BitVec.getLsbD_not, hone]
    cases hi : sw.getLsbD i with
    | false => rfl
    | true => simp [BitVec.lt_of_getLsbD hi]

theorem getLsbD_swOpt {i j : Nat} {b : Option Bool} (h : i ≠ j ∨ b = none) (sw : Word) : (swOpt sw j b).getLsbD i = sw.getLsbD i := by
  obtain h | rfl := h
  · cases b with
    | none => rfl
    | some b => exact getLsbD_swPut_ne h sw b
  · rfl

/-- A bit of SW that the end of an instruction keeps: not K, not E for a flag-setting instruction, and no flag that it writes (R205). -/
def flagKept (sets : Bool) (f : FlagSet) (i : Nat) : Bool :=
  i != 6 && (i != 7 || !sets) && (i != 0 || f.z.isNone) && (i != 1 || f.n.isNone) && (i != 2 || f.c.isNone) && (i != 3 || f.v.isNone) &&
    (i != 4 || f.dc.isNone) && (i != 5 || f.id.isNone)

theorem flagKept_of_high {i : Nat} (h : 8 ≤ i) (sets : Bool) (f : FlagSet) : flagKept sets f i = true := by
  have hne (k : Nat) (hk : k < 8) : (i != k) = true := bne_iff_ne.mpr (by omega)
  simp [flagKept, hne]

theorem getLsbD_swFlags {sets : Bool} {f : FlagSet} {i : Nat} (h : flagKept sets f i = true) (sw : Word) (engine : Bool) :
    (swFlags sw f sets engine).getLsbD i = sw.getLsbD i := by
  simp only [flagKept, Bool.and_eq_true, Bool.or_eq_true, bne_iff_ne, ne_eq, Bool.not_eq_true', Option.isNone_iff_eq_none] at h
  obtain ⟨⟨⟨⟨⟨⟨⟨_, he⟩, hz⟩, hn⟩, hc⟩, hv⟩, hdc⟩, hid⟩ := h
  have hflags : (swOpt (swOpt (swOpt (swOpt (swOpt (swOpt sw 0 f.z) 1 f.n) 2 f.c) 3 f.v) 4 f.dc) 5 f.id).getLsbD i = sw.getLsbD i := by
    rw [getLsbD_swOpt hid, getLsbD_swOpt hdc, getLsbD_swOpt hv, getLsbD_swOpt hc, getLsbD_swOpt hn, getLsbD_swOpt hz]
  unfold swFlags
  dsimp only
  split
  next hsets => rw [getLsbD_swPut_ne (he.resolve_right (by simp [hsets])), hflags]
  next => exact hflags

/-! ## What a clerk's instruction touches -/

/-- The run-time state without its clerks and rooms. -/
def sansClerks (rt : Rt) : Rt := { rt with clerks := [], rooms := [] }

/-- What a change from `rt` to `rt'` leaves: of clerk `c` every word that it reads outside `words`, the bits of SW that `kept` names, its job and
its latches; every other clerk and room; and all of the run-time state beside clerks and rooms. -/
structure ClerkFrame (c : ClerkId) (words : List Nat) (kept : Nat → Bool) (rt rt' : Rt) : Prop where
  rest : sansClerks rt' = sansClerks rt
  word : ∀ a, a < 0x90000 ∨ c = 128 → a ∉ words → readWord rt' c a = readWord rt c a
  bit : ∀ i, kept i = true → (clerkOf rt' c).sw.getLsbD i = (clerkOf rt c).sw.getLsbD i
  job : (clerkOf rt' c).job = (clerkOf rt c).job
  latches : (clerkOf rt' c).latches = (clerkOf rt c).latches
  clerk : ∀ k, k ≠ c → clerkOf rt' k = clerkOf rt k
  room : ∀ r, r ≠ clerkRoom c → roomOf rt' r = roomOf rt r

section
variable {c : ClerkId} {words words' : List Nat} {kept kept' : Nat → Bool} {rt r1 r2 : Rt}

theorem ClerkFrame.refl (c : ClerkId) (words : List Nat) (kept : Nat → Bool) (rt : Rt) : ClerkFrame c words kept rt rt :=
  ⟨rfl, fun _ _ _ => rfl, fun _ _ => rfl, rfl, rfl, fun _ _ => rfl, fun _ _ => rfl⟩

theorem ClerkFrame.trans (h : ClerkFrame c words kept rt r1) (h' : ClerkFrame c words kept r1 r2) : ClerkFrame c words kept rt r2 where
  rest := h'.rest.trans h.rest
  word a ha hw := (h'.word a ha hw).trans (h.word a ha hw)
  bit i hi := (h'.bit i hi).trans (h.bit i hi)
  job := h'.job.trans h.job
  latches := h'.latches.trans h.latches
  clerk k hk := (h'.clerk k hk).trans (h.clerk k hk)
  room r hr := (h'.room r hr).trans (h.room r hr)

theorem ClerkFrame.mono (h : ClerkFrame c words kept rt r1) (hwords : words ⊆ words') (hkept : ∀ i, kept' i = true → kept i = true) :
    ClerkFrame c words' kept' rt r1 :=
  { h with word := fun a ha hw => h.word a ha fun hin => hw (hwords hin), bit := fun i hi => h.bit i (hkept i hi) }

/-- Two states read a word alike where the clerk's memory and its room's hold it alike. -/
theorem readWord_congr {a : Nat} (ha : a < 0x90000 ∨ c = 128) (hmem : kgetD (clerkOf r1 c).mem a 0 = kgetD (clerkOf rt c).mem a 0)
    (hcode : codeWord (roomOf r1 (clerkRoom c)) a = codeWord (roomOf rt (clerkRoom c)) a)
    (hwindow : kgetD (roomOf r1 (clerkRoom c)).window a 0 = kgetD (roomOf rt (clerkRoom c)).window a 0) :
    readWord r1 c a = readWord rt c a := by
  unfold readWord
  rw [hmem, hcode, hwindow]
  by_cases hc : c = 128
  · simp only [hc, true_or, if_true]
  · simp only [ha.resolve_right hc, if_true]

/-- A clerk written with its job, its latches and its memory outside `words`. -/
theorem setClerk_frame {k : Clerk} (hmem : ∀ a, a ∉ words → kgetD k.mem a 0 = kgetD (clerkOf rt c).mem a 0)
    (hbit : ∀ i, kept i = true → k.sw.getLsbD i = (clerkOf rt c).sw.getLsbD i)
    (hjob : k.job = (clerkOf rt c).job) (hlatches : k.latches = (clerkOf rt c).latches) :
    ClerkFrame c words kept rt (setClerk c k rt) where
  rest := rfl
  word a ha hw := readWord_congr ha (by rw [clerkOf_setClerk_self, hmem a hw]) rfl rfl
  bit i hi := by rw [clerkOf_setClerk_self, hbit i hi]
  job := by rw [clerkOf_setClerk_self, hjob]
  latches := by rw [clerkOf_setClerk_self, hlatches]
  clerk j hj := by rw [clerkOf_setClerk, if_neg hj.symm]
  room _ _ := rfl

/-- A clerk's room written with its code and its window outside `words`. -/
theorem setRoom_frame {r : Room} (hcode : ∀ a, codeWord r a = codeWord (roomOf rt (clerkRoom c)) a)
    (hwindow : ∀ a, a ∉ words → kgetD r.window a 0 = kgetD (roomOf rt (clerkRoom c)).window a 0) :
    ClerkFrame c words kept rt (setRoom (clerkRoom c) r rt) where
  rest := rfl
  word a ha hw := readWord_congr ha rfl (by rw [roomOf_setRoom_self, hcode a]) (by rw [roomOf_setRoom_self, hwindow a hw])
  bit _ _ := rfl
  job := rfl
  latches := rfl
  clerk _ _ := rfl
  room j hj := by rw [roomOf_setRoom, if_neg hj.symm]

/-! ## Writes -/

/-- A written word changes no other. -/
theorem writeWord_frame {a : Nat} (hin : a ∈ words) (v : Nat) : ClerkFrame c words kept rt (writeWord c a v rt) := by
  have hother (m : KMap Word) (w : Word) (b : Nat) (hb : b ∉ words) : kgetD (kput 0 m a w) b 0 = kgetD m b 0 :=
    kgetD_kput_ne 0 m w fun heq => hb (heq ▸ hin)
  unfold writeWord
  dsimp only
  split
  · exact setClerk_frame (hother _ _) (fun _ _ => rfl) rfl rfl
  · split
    · exact setRoom_frame (fun _ => rfl) (hother _ _)
    · exact .refl _ _ _ _

theorem putW_frame (l : Loc) (v : Nat) : ClerkFrame c (storedAt 1 l) kept rt (putW c l v rt) := by
  cases l with
  | word a m => exact writeWord_frame (List.mem_singleton_self a) v
  | nib | imm | key | none => exact .refl _ _ _ _

theorem putD_frame (l : Loc) (v : Nat) : ClerkFrame c (storedAt 2 l) kept rt (putD c l v rt) := by
  cases l with
  | word a m => exact (writeWord_frame List.mem_cons_self _).trans (writeWord_frame (List.mem_cons_of_mem _ List.mem_cons_self) _)
  | nib | imm | key | none => exact .refl _ _ _ _

/-- The end of an instruction changes SW by its flags, E and K, and the IC and run state. -/
theorem finish_frame (f : FlagSet) (sets engine : Bool) (ic : Nat) (st : ClerkSt) :
    ClerkFrame c words (flagKept sets f) rt (finish c f sets engine ic st rt) := by
  refine setClerk_frame (fun _ _ => rfl) (fun i hi => ?_) rfl rfl
  have hne : i ≠ 6 := by
    rintro rfl
    cases hi
  exact (getLsbD_swPut_ne hne _ _).trans (getLsbD_swFlags hi _ engine)

/-! ## Fetch and operands -/

theorem fillTiles_frame {fill : List (Nat × CodeRead)} {l : List Nat} (h : fillTiles (clerkRoom c) fill l rt = .ok r1) :
    ClerkFrame c words kept rt r1 := by
  induction l generalizing rt with
  | nil => cases h; exact .refl _ _ _ _
  | cons t l ih =>
    unfold fillTiles at h
    split at h
    · exact ih h
    · split at h
      · cases h
      · have hfilled : ClerkFrame c words kept rt (fillTile (clerkRoom c) t rt) := setRoom_frame (fun _ => rfl) fun _ _ => rfl
        exact hfilled.trans (ih h)

theorem fetchWords_frame {progs : List ProgEntry} {fill : List (Nat × CodeRead)} {n a : Nat} (h : fetchWords progs c fill n a rt = .ok r1) :
    ClerkFrame c words kept rt r1 := by
  induction n generalizing rt a with
  | zero => cases h; exact .refl _ _ _ _
  | succ n ih =>
    unfold fetchWords at h
    split at h
    · cases h; exact .refl _ _ _ _
    split at h
    · cases h
    split at h
    · cases h
    split at h
    · cases h
    next r hfill => exact (fillTiles_frame hfill).trans (ih h)

/-- The base words that an operand's mode may update (10 Table 10.5). -/
def baseUpdates (o : Opnd) : List Nat := if o.mode ∈ [5, 6] then List.range 16 else []

theorem mem_baseUpdates {o : Opnd} {m : BitVec 4} (hmode : o.mode.toNat = m.toNat) (hm : m ∈ [5, 6]) (v : Nat) :
    bitsAt v 16 4 ∈ baseUpdates o := by
  rw [← BitVec.eq_of_toNat_eq hmode] at hm
  rw [baseUpdates, if_pos hm, List.mem_range]
  exact Nat.mod_lt _ (by decide)

/-- The address of an operand updates a base word in modes 5 and 6 alone. -/
theorem effAddr_frame {ic len : Nat} {o : Opnd} {l : Loc} (h : effAddr rt c ic len o = .ok (l, r1)) :
    ClerkFrame c (baseUpdates o) kept rt r1 := by
  unfold effAddr at h
  dsimp only at h
  split at h
  case h_5 hm => cases h; exact writeWord_frame (mem_baseUpdates (m := 5) hm (by decide) _) _
  case h_6 hm => cases h; exact writeWord_frame (mem_baseUpdates (m := 6) hm (by decide) _) _
  case h_2 | h_8 | h_9 =>
    split at h
    · cases h
    · cases h; exact .refl _ _ _ _
  all_goals cases h; exact .refl _ _ _ _

theorem locate_frame {ic nibs : Nat} {kd : Option Kind} {o : Opnd} {l : Loc} (h : locate rt c ic kd nibs o = .ok (l, r1))
    (hwords : baseUpdates o ⊆ words) : ClerkFrame c words kept rt r1 := by
  unfold locate at h
  split at h
  · cases h; exact .refl _ _ _ _
  · split at h
    · cases h
    · next haddr => cases h; exact (effAddr_frame haddr).mono hwords fun _ hi => hi

/-- The base words that an instruction's operands may update. -/
def updates (o : Opnds) : List Nat := baseUpdates o.a ++ baseUpdates o.b ++ baseUpdates o.c

theorem prepare_frame {ic next : Nat} {f : Fmt} {ls : LenSpec} {o : Opnds} {x : Args} (h : prepare rt c ic next f ls o = .ok (x, r1)) :
    ClerkFrame c (updates o) kept rt r1 := by
  unfold prepare at h
  dsimp only at h
  split at h
  · cases h
  next ha =>
  split at h
  · cases h
  next hb =>
  split at h
  · cases h
  next hc =>
  split at h
  · cases h
  · cases h
    exact ((locate_frame ha (by simp [updates])).trans (locate_frame hb (by simp [updates]))).trans (locate_frame hc (by simp [updates]))

/-- An instruction that is issued has changed no word beside the base words of its operands. -/
theorem issue_frame {f : Fmt} {ls : LenSpec} {o : Opnds} {s : State} {x : Args} (h : issue f ls c o s = some (x, rt)) :
    ClerkFrame c (updates o) kept s.rt rt := by
  obtain ⟨_, _, hbegun⟩ := issue_spec h
  obtain ⟨_, hfetch, _, _, _, hprep, hfill⟩ := begun_spec hbegun
  exact ((fetchWords_frame hfetch).trans (prepare_frame hprep)).trans (fillTiles_frame hfill)

theorem lt_of_mem_baseUpdates {o : Opnd} {a : Nat} (h : a ∈ baseUpdates o) : a < 16 := by
  unfold baseUpdates at h
  split at h
  · exact List.mem_range.mp h
  · cases h

theorem lt_of_mem_updates {o : Opnds} {a : Nat} (h : a ∈ updates o) : a < 16 := by
  rw [updates, List.mem_append, List.mem_append] at h
  obtain (h | h) | h := h <;> exact lt_of_mem_baseUpdates h

theorem updates_of_plain {o : Opnds} (ha : o.a.mode ∉ [5, 6]) (hb : o.b.mode ∉ [5, 6]) (hc : o.c.mode ∉ [5, 6]) : updates o = [] := by
  rw [updates, baseUpdates, baseUpdates, baseUpdates, if_neg ha, if_neg hb, if_neg hc]
  rfl

end

/-! ## The rows (11 R226, R228, R229) -/

/-- The bits of SW that a row keeps: the flags of its list and all above E. -/
def keptBits (keep : List Nat) (i : Nat) : Bool := decide (i ∈ keep ∨ 8 ≤ i)

/-- A row runs an operation that always ends with flags, writes at most the `n` words of its destination, and keeps the flags `keep`. -/
structure RowRuns (f : Fmt) (n : Nat) (keep : List Nat) (mk : ClerkId → Opnds → Instr) (body : Args → Rt → KOut) : Prop where
  row : ∀ c o s, exec (mk c o) s = karua f noLen body c o s
  runs : ∀ x rt, ∃ fl rt', body x rt = .go fl rt' ∧ keep.all (flagKept f.sets fl) = true ∧
    ClerkFrame x.ck (storedAt n x.la) (keptBits keep) rt rt'

/-- A row whose operation ends with flags `fl` and writes by `w`. -/
theorem rowRuns_of {f : Fmt} {n : Nat} {keep : List Nat} {mk : ClerkId → Opnds → Instr} {body : Args → Rt → KOut}
    {fl : Args → Rt → FlagSet} {w : Args → Rt → Rt} (hrow : ∀ c o s, exec (mk c o) s = karua f noLen body c o s) (hbody : ∀ x rt, body x rt = .go (fl x rt) (w x rt))
    (hkeep : ∀ x rt, keep.all (flagKept f.sets (fl x rt)) = true)
    (hwrites : ∀ x rt, ClerkFrame x.ck (storedAt n x.la) (keptBits keep) rt (w x rt)) : ∃ body, RowRuns f n keep mk body :=
  ⟨body, hrow, fun x rt => ⟨_, _, hbody x rt, hkeep x rt, hwrites x rt⟩⟩

/-- MTSW writes the six flags, and E for a source in engine port space. -/
theorem rowRuns_mtsw : RowRuns fmtMtsw 0 [] .mtsw opMtsw := by
  refine ⟨fun _ _ _ => rfl, fun x rt => ⟨_, _, rfl, rfl, ?_⟩⟩
  split
  · refine setClerk_frame (fun _ _ => rfl) (fun i hi => getLsbD_swPut_ne ?_ _ _) rfl rfl
    rintro rfl
    cases hi
  · exact .refl _ _ _ _

theorem wordRow_runs {f : Fmt} {n : Nat} {keep : List Nat} {mk : ClerkId → Opnds → Instr} (h : WordRow f n keep mk) :
    ∃ body, RowRuns f n keep mk body := by
  unfold WordRow at h
  refine (?rows : ∀ r ∈ _, ∃ body, RowRuns r.1 r.2.1 r.2.2.1 r.2.2.2 body) _ h
  simp only [List.forall_mem_cons, List.not_mem_nil, false_implies, implies_true, and_true]
  refine ⟨?nop, ?clr, ?mfsw, ?mtsw, ?mov, ?movd, ?add, ?adc, ?addd, ?inc, ?sub, ?sbc, ?subd, ?dec, ?neg, ?mul, ?mulu, ?cmp, ?cmpd, ?tst,
    ?and, ?or, ?xor, ?not, ?shl, ?shr, ?sar, ?rol⟩
  case mtsw => exact ⟨_, rowRuns_mtsw⟩
  case nop | cmp | cmpd | tst => exact rowRuns_of (fun _ _ _ => rfl) (fun _ _ => rfl) (fun _ _ => rfl) fun _ _ => .refl _ _ _ _
  case movd | addd | subd | mul | mulu => exact rowRuns_of (fun _ _ _ => rfl) (fun _ _ => rfl) (fun _ _ => rfl) fun _ _ => putD_frame _ _
  all_goals exact rowRuns_of (fun _ _ _ => rfl) (fun _ _ => rfl) (fun _ _ => rfl) fun _ _ => putW_frame _ _

/-- What an issued row changes: first the base words of its operands, then its destination and flags. -/
theorem wordRow_frame {f : Fmt} {n : Nat} {keep : List Nat} {mk : ClerkId → Opnds → Instr} {c : ClerkId} {o : Opnds} {s t : State} {x : Args}
    {rt : Rt} (hrow : WordRow f n keep mk) (h : issue f noLen c o s = some (x, rt)) (hexec : exec (mk c o) s = .next t) :
    ClerkFrame c (storedAt n x.la) (keptBits keep) rt t.rt ∧ t = { s with rt := t.rt } := by
  obtain ⟨body, hruns⟩ := wordRow_runs hrow
  obtain ⟨fl, rt', hbody, hkeep, hwrites⟩ := hruns.runs x rt
  obtain rfl := issue_ck h
  rw [hruns.row, karua_go h hbody] at hexec
  cases hexec
  have hflags (i : Nat) (hi : keptBits keep i = true) : flagKept f.sets fl i = true :=
    (of_decide_eq_true hi).elim (fun hin => List.all_eq_true.mp hkeep i hin) fun hhigh => flagKept_of_high hhigh _ _
  exact ⟨hwrites.trans ((finish_frame fl f.sets _ _ _).mono (fun _ hw => hw) hflags), rfl⟩

/-- Settles O15: the frame of the operands' base word updates, then that of the row. -/
theorem clerkFrames : Obligations.ClerkFrames := by
  intro f n keep mk c o s t x rt hrow h hexec
  obtain ⟨hrun, ht⟩ := wordRow_frame hrow h hexec
  have hissue : ClerkFrame c (updates o) (keptBits keep) s.rt rt := issue_frame h
  have hall : ClerkFrame c (updates o ++ storedAt n x.la) (keptBits keep) s.rt t.rt :=
    (hissue.mono (List.subset_append_left _ _) fun _ hi => hi).trans (hrun.mono (List.subset_append_right _ _) fun _ hi => hi)
  have rest {α : Type} (g : Rt → α) (hg : ∀ r, g (sansClerks r) = g r) : g t.rt = g s.rt := by rw [← hg, hall.rest, hg]
  refine ⟨hrun.word, fun a ha hhigh => hissue.word a ha fun hin => ?_, fun hma hmb hmc a ha => hissue.word a ha ?_,
    fun i hi => hall.bit i (decide_eq_true hi), hall.job, hall.latches, hall.clerk, hall.room, ?_⟩
  · exact absurd (lt_of_mem_updates hin) (Nat.not_lt.mpr hhigh)
  · rw [updates_of_plain hma hmb hmc]
    exact List.not_mem_nil
  · refine ⟨rest Rt.presses fun _ => rfl, rest Rt.hashes fun _ => rfl, rest Rt.looms fun _ => rfl, rest Rt.reckoners fun _ => rfl,
      rest Rt.cmds fun _ => rfl, rest Rt.bundles fun _ => rfl, rest Rt.strong fun _ => rfl, rest Rt.booths fun _ => rfl,
      rest Rt.fault fun _ => rfl, rest Rt.mbx fun _ => rfl, rest Rt.epoch fun _ => rfl, rest Rt.disp fun _ => rfl,
      rest Rt.boot fun _ => rfl, rest Rt.out fun _ => rfl, ?_⟩
    rw [ht]
    exact ⟨rfl, rfl, rfl, rfl⟩

end Sys2Proof.Machine
end

section
/-! The front command of an engine's queue, and the commands of the hash units. -/

namespace Sys2Proof.Machine

/-! ## The front command -/

/-- An engine in the state in which its front command works: the command's blocks are counted. -/
def charged (e : EngineRef) (n : Nat) (rt : Rt) : Rt := setCom e { comOf rt e with blocks := (comOf rt e).blocks + n } rt

/-- An engine's row does the work of its front command. -/
theorem onRt_runFront {e : EngineRef} {op : Nat} {c : ClerkId} {b : Block} {s : State} (h : AtFront s.rt e op c b) {blocks : Block → Nat}
    {body : ClerkId → Block → Rt → Rt} {work : Rt → Rt}
    (hbody : body c b (charged e (blocks b) s.rt) = work (charged e (blocks b) s.rt)) :
    onRt (fun rt => runFront e op blocks body rt) s = engineDone e (blocks b) work s := by
  have hrun : runFront e op blocks body s.rt = afterCommand e (popQueue e (body c b (charged e (blocks b) s.rt))) := runFront_done h blocks body
  rw [onRt, hrun, hbody]
  rfl

@[simp] theorem clerkOf_charged (e : EngineRef) (n : Nat) (rt : Rt) (c : ClerkId) : clerkOf (charged e n rt) c = clerkOf rt c :=
  clerkOf_setCom e _ rt c

@[simp] theorem cmds_charged (e : EngineRef) (n : Nat) (rt : Rt) : (charged e n rt).cmds = rt.cmds := setCom_cmds e _ rt

@[simp] theorem boothOf_charged (e : EngineRef) (n : Nat) (rt : Rt) (k : Nat) : boothOf (charged e n rt) k = boothOf rt k := by
  rw [boothOf, charged, setCom_booths, boothOf]

@[simp] theorem jobCmd_charged (e : EngineRef) (n : Nat) (rt : Rt) (c : ClerkId) : jobCmd (charged e n rt) c = jobCmd rt c := by
  rw [jobCmd, clerkOf_charged, cmds_charged, jobCmd]

@[simp] theorem cmdWindows_charged (e : EngineRef) (n : Nat) (rt : Rt) (m : Cmd) (k : Nat) :
    cmdWindows (charged e n rt) m k = cmdWindows rt m k := by
  rw [cmdWindows, boothOf_charged, cmdWindows]

@[simp] theorem getPtr_charged (e : EngineRef) (n : Nat) (rt : Rt) (c : ClerkId) (b : Block) (i k : Nat) :
    getPtr (charged e n rt) c b i k = getPtr rt c b i k := getPtr_charge e _ rt c b i k

/-- The source that an engine reads does not depend on the count of blocks. -/
@[simp] theorem readSource_charged (e : EngineRef) (n : Nat) (rt : Rt) (c : ClerkId) (b : Block) (src srcOk : Bool) (k : Nat) :
    readSource (charged e n rt) c b src srcOk k = readSource rt c b src srcOk k := by
  rw [readSource, jobCmd_charged, getPtr_charged]
  simp only [cmdWindows_charged]
  rfl

/-! ## The hash units (14 R307) -/

theorem hashOf_charged (d : Die) (h n : Nat) (rt : Rt) : hashOf (charged (hashRef d h) n rt) (ekey (hashRef d h)) =
    { hashOf rt (ekey (hashRef d h)) with com := { comOf rt (hashRef d h) with blocks := (comOf rt (hashRef d h)).blocks + n } } :=
  hashOf_setCom d h _ rt

/-- The key of a hash command permits it: HASH uses none. -/
def KeyPermits (u : HashUnit) (op : Nat) : Prop := op = 1 ∨ (hmacKey u op).isSome = true

theorem hmacKey_gen {u : HashUnit} {k : EngKey} (hk : u.k0 = some k) (hperm : k.perms.hmacg = true) : hmacKey u 2 = some k.key := by
  rw [hmacKey, hk]
  exact if_pos hperm

theorem hmacKey_ver {u : HashUnit} {k : EngKey} (hk : u.k0 = some k) (hperm : k.perms.hmacv = true) : hmacKey u 3 = some k.key := by
  rw [hmacKey, hk]
  exact if_pos hperm

theorem hmacKey_withCom (u : HashUnit) (x : EngCom) (op : Nat) : hmacKey { u with com := x } op = hmacKey u op := rfl

theorem KeyPermits.of_key {u : HashUnit} {op : Nat} {key : Bytes} (h : hmacKey u op = some key) : KeyPermits u op := .inr (by rw [h]; rfl)

section
variable {op : Nat} {d : Die} {h : Nat} {srcOk : Bool} {c : ClerkId} {b : Block} {a : HashAlg} {before src : Bytes} {s : State}

/-- A hash command whose key permits it does its work on its source. -/
theorem hashBody_of_permitted (r : HashRuns op d h srcOk c b a before src s) (hkey : KeyPermits (hashOf s.rt (ekey (hashRef d h))) op) (n : Nat) :
    hashBody (hashRef d h) srcOk c b (charged (hashRef d h) n s.rt) = hashWork (hashRef d h) c b a before src (charged (hashRef d h) n s.rt) := by
  obtain ⟨hfront, ⟨hflags, hzero⟩, halg, hpar, hpre, ⟨hlong, hwhole⟩, hcont, hsrc⟩ := r
  have hop : blkW b 0 = op := hfront.code
  have hpermits : (op != 1 && (hmacKey (hashOf s.rt (ekey (hashRef d h))) op).isNone) = false := by
    obtain rfl | hkey := hkey
    · rfl
    · simp [hkey]
  have hprefix : (blkFlag b 3 && !prefixAllowed b) = false ∧ (blkFlag b 3 && (hashOf s.rt (ekey (hashRef d h))).pre.isNone) = false := by
    cases hflag : blkFlag b 3
    · exact ⟨rfl, rfl⟩
    · obtain ⟨hallowed, hloaded⟩ := hpre hflag
      simp [hallowed, hloaded]
  have hlen : (decide (16777216 < blkD b 6) || (!blkFlag b 1 && blkD b 6 % hashBlock a != 0)) = false := by
    cases hfinal : blkFlag b 1
    · simp [hwhole hfinal, hlong]
    · simp [hlong]
  have hstate : (if blkFlag b 0 then (hashOf s.rt (ekey (hashRef d h))).st else some (blkW b 8, op, [])) = some (blkW b 8, op, before) := by
    split at hcont
    · next hflag => rw [if_pos hflag, hcont]
    · next hflag => rw [if_neg hflag, hcont]
  simp only [hashBody, hop, hashOf_charged, hmacKey_withCom, hflags, hzero, halg, hpermits, hpar, hprefix.1, hprefix.2, hlen, hstate, readSource_charged, hsrc,
    endRead, decide_true, Bool.and_self, Bool.not_true, Bool.false_eq_true, if_false, and_self, if_true]

/-- Without FINAL the unit keeps what it has absorbed. -/
theorem hashWork_of_more (hfinal : ¬ blkFlag b 1 = true) (n : Nat) : hashWork (hashRef d h) c b a before src (charged (hashRef d h) n s.rt) =
    keepHash d h (some (blkW b 8, blkW b 0, absorbed s d h b before src)) (charged (hashRef d h) n s.rt) := by
  simp [hashWork, hashOf_charged, keepHash, absorbed, hfinal]

theorem hashWork_of_hash (hfinal : blkFlag b 1 = true) (hop : blkW b 0 = 1) (n : Nat) :
    hashWork (hashRef d h) c b a before src (charged (hashRef d h) n s.rt) =
    putDest c b (digest a (digestLen (blkW b 9) a) (absorbed s d h b before src)) (keepHash d h none (charged (hashRef d h) n s.rt)) := by
  simp [hashWork, hashOf_charged, keepHash, absorbed, hfinal, hop]

theorem hashWork_of_hmacGen (hfinal : blkFlag b 1 = true) (hop : blkW b 0 = 2) {key : Bytes}
    (hkey : hmacKey (hashOf s.rt (ekey (hashRef d h))) 2 = some key) (n : Nat) :
    hashWork (hashRef d h) c b a before src (charged (hashRef d h) n s.rt) =
    putDest c b (hmac a key (absorbed s d h b before src)) (keepHash d h none (charged (hashRef d h) n s.rt)) := by
  simp [hashWork, hashOf_charged, hmacKey_withCom, keepHash, absorbed, hfinal, hop, hkey]

/-- HMAC_VER compares the last bytes of what is absorbed with the MAC of the rest. -/
theorem hashWork_of_hmacVer (hfinal : blkFlag b 1 = true) (hop : blkW b 0 = 3) {key m mac : Bytes}
    (hkey : hmacKey (hashOf s.rt (ekey (hashRef d h))) 3 = some key) (hall : absorbed s d h b before src = m ++ mac)
    (hmac : mac.length = digestLen (blkW b 9) a) (hlen : mac.length ≤ src.length) (n : Nat) :
    hashWork (hashRef d h) c b a before src (charged (hashRef d h) n s.rt) =
    writeWord c (blkW b 10) (if Machine.hmac a key m = mac then 0 else 1) (keepHash d h none (charged (hashRef d h) n s.rt)) := by
  have hsplit : (m ++ mac).length - mac.length = m.length := by simp
  rw [absorbed] at hall
  simp only [hashWork, hashOf_charged, hmacKey_withCom, hop, hkey, hall, ← hmac, hsplit]
  simp [keepHash, hashOf_charged, hfinal, Nat.not_lt.mpr hlen, b2n]

/-- A row of the hash units whose key permits the command. -/
theorem hashRow_of_permitted (r : HashRuns op d h srcOk c b a before src s) (hkey : KeyPermits (hashOf s.rt (ekey (hashRef d h))) op) {work : Rt → Rt}
    (hwork : ∀ n, hashWork (hashRef d h) c b a before src (charged (hashRef d h) n s.rt) = work (charged (hashRef d h) n s.rt)) :
    hashRow op d h srcOk s = .next (hashDone d h b work s) :=
  congrArg Host.Outcome.next (onRt_runFront r.front ((hashBody_of_permitted r hkey _).trans (hwork _)))

/-- Without FINAL the unit keeps what it has absorbed. -/
theorem hashRow_of_more (r : HashRuns op d h srcOk c b a before src s) (hkey : KeyPermits (hashOf s.rt (ekey (hashRef d h))) op)
    (hfinal : ¬ blkFlag b 1 = true) :
    hashRow op d h srcOk s = .next (hashDone d h b (keepHash d h (some (blkW b 8, op, absorbed s d h b before src))) s) := by
  obtain rfl := r.front.code
  exact hashRow_of_permitted r hkey (hashWork_of_more hfinal)

theorem digestLen_of_not_shake {a : HashAlg} (ha : isShake a = false) (m n : Nat) : digestLen m a = digestLen n a := by
  cases a <;> simp_all [isShake, digestLen]

/-- HMAC uses no SHAKE (14 Table 14.6). -/
theorem not_shake_of_hmac (hpar : hashParOk b a = true) (hop : blkW b 0 ≠ 1) : isShake a = false := by
  have hfirst : (blkW b 0 == 1 || !isShake a) = true := by
    simp only [hashParOk, Bool.and_eq_true] at hpar
    exact hpar.1.1
  simpa [hop] using hfirst

/-- HMAC_GEN with a key that lacks HMACG (R302). -/
theorem hmacGen_of_unpermitted (r : HashRuns 2 d h srcOk c b a before src s) {k : EngKey} (hk : (hashOf s.rt (ekey (hashRef d h))).k0 = some k)
    (hperm : k.perms.hmacg = false) (hfinal : blkFlag b 1 = true) :
    hashRow 2 d h srcOk s = .next (hashDone d h b (fun rt =>
      recordOutcome c stUsageRefused 0 (putDest c b (zeros (digestLen (blkW b 9) a)) rt)) s) := by
  refine congrArg Host.Outcome.next (onRt_runFront r.front ?_)
  obtain ⟨hfront, ⟨hflags, hzero⟩, halg, hpar, -⟩ := r
  have hop : blkW b 0 = 2 := hfront.code
  have hkey (x : EngCom) : hmacKey { hashOf s.rt (ekey (hashRef d h)) with com := x } 2 = none := by
    simp [hmacKey, hk, hperm]
  have hlen := digestLen_of_not_shake (not_shake_of_hmac hpar (by rw [hop]; decide)) (min (blkW b 9) 512) (blkW b 9)
  simp [hashBody, hashRefuse, hop, hashOf_charged, hkey, hflags, hzero, halg, hfinal, hlen]

end

/-- Settles O17: without FINAL each command keeps what it has absorbed; with FINAL it delivers what its code asks, or is refused by its key. -/
theorem hashCommands : Obligations.HashCommands := by
  intro d h srcOk c b a before src k s
  refine ⟨fun r hmore => ?_, fun r hfinal => ?_, fun r hk hperm hmore => ?_, fun r hk hperm hfinal => ?_, fun r hk hperm hfinal => ?_,
    fun r hk hperm hmore => ?_, fun r hk hperm hfinal m mac hall hmac hlen => ?_⟩
  · exact hashRow_of_more r (.inl rfl) hmore
  · exact hashRow_of_permitted r (.inl rfl) (hashWork_of_hash hfinal r.front.code)
  · exact hashRow_of_more r (.of_key (hmacKey_gen hk hperm)) hmore
  · have hkey := hmacKey_gen hk hperm
    exact hashRow_of_permitted r (.of_key hkey) (hashWork_of_hmacGen hfinal r.front.code hkey)
  · exact hmacGen_of_unpermitted r hk hperm hfinal
  · exact hashRow_of_more r (.of_key (hmacKey_ver hk hperm)) hmore
  · have hkey := hmacKey_ver hk hperm
    exact hashRow_of_permitted r (.of_key hkey) (hashWork_of_hmacVer hfinal r.front.code hkey hall hmac (hmac ▸ hlen))

end Sys2Proof.Machine
end

section
/-! The commands of the looms. -/

namespace Sys2Proof.Machine

/-! ## A loom command that passes its checks (14 R308 to R311) -/

theorem loomOf_charged (d : Die) (l n : Nat) (rt : Rt) : loomOf (charged (loomRef d l) n rt) (ekey (loomRef d l)) =
    { loomOf rt (ekey (loomRef d l)) with com := { comOf rt (loomRef d l) with blocks := (comOf rt (loomRef d l)).blocks + n } } :=
  loomOf_setCom d l _ rt

@[simp] theorem bundles_charged (e : EngineRef) (n : Nat) (rt : Rt) : (charged e n rt).bundles = rt.bundles := setCom_bundles e _ rt

/-- The group of a loom's key that its command asks for. -/
def loomGroup (op : Nat) (p : Perms) : Bool := if loomDec op then p.dec else p.enc

/-- A direct decryption that R311 lets go. -/
def DirectAllowed (rt : Rt) (c : ClerkId) (b : Block) : Prop :=
  loomDst b = 2 → ∃ m, jobCmd rt c = some m ∧ directOk rt (clerkOf rt c) m = true ∧ loomPayload b ≤ m.desc.outLim.toNat

/-- The checks that a loom command passes on its way to its work. -/
structure LoomPasses (d : Die) (l : Nat) (srcOk : Bool) (c : ClerkId) (b : Block) (key : EngKey) (src : Bytes) (s : State) : Prop where
  flags : blkW b 1 < 8 ∧ loomDst b ≠ 3
  reg : (loomOf s.rt (ekey (loomRef d l))).k0 = some key
  perms : loomGroup (blkW b 0) key.perms = true
  aes : key.alg = .aes ∧ key.perms.ecbOnly = false
  par : loomParOk b = true
  len : loomLenOk b = true ∧ loomFits (jobCmd s.rt c) b = true
  source : readSource s.rt c b (blkFlag b 0) srcOk (blkD b 6) = .ok src
  direct : DirectAllowed s.rt c b

section
variable {d : Die} {l : Nat} {srcOk : Bool} {c : ClerkId} {b : Block} {k : EngKey} {src : Bytes} {s : State}

theorem loomBody_of_passes (h : LoomPasses d l srcOk c b k src s) (n : Nat) :
    loomBody (loomRef d l) srcOk c b (charged (loomRef d l) n s.rt) = loomWork (loomRef d l) k.key c b src (charged (loomRef d l) n s.rt) := by
  obtain ⟨⟨hflags, hdst⟩, hreg, hperms, ⟨haes, hecb⟩, hpar, ⟨hlen, hfits⟩, hsrc, hdirect⟩ := h
  have hgroup : (!(if loomDec (blkW b 0) = true then k.perms.dec else k.perms.enc) || k.perms.ecbOnly) = false := by
    rw [loomGroup] at hperms
    rw [hperms, hecb]
    rfl
  simp only [loomBody, loomOf_charged, hreg, jobCmd_charged, readSource_charged, clerkOf_charged, hflags, bne_iff_ne.mpr hdst, hgroup, haes, hpar, hlen,
    hfits, hsrc, endRead, decide_true, Bool.and_self, Bool.not_true, bne_self_eq_false, Bool.or_self, Bool.false_eq_true, if_false]
  split
  · next hdst =>
    obtain ⟨m, hm, hok, hlim⟩ := hdirect hdst
    have hok' : directOk (charged (loomRef d l) n s.rt) (clerkOf s.rt c) m = true := by
      rw [← hok]
      simp only [directOk, multiOf, bundles_charged]
    simp only [hm, hok', Bool.not_true, Bool.false_eq_true, if_false, if_neg (Nat.not_lt.mpr hlim)]
  · rfl

/-! ## The work of a loom command (14 R309, R310, R312) -/

theorem loomDeliver_of_staged (hdst : loomDst b < 2) (out : Bytes) (rt : Rt) : loomDeliver c b (jobCmd s.rt c) out rt = loomTo s c b out rt := by
  unfold loomDeliver loomTo
  obtain hdst | hdst : loomDst b = 0 ∨ loomDst b = 1 := by omega
  · rw [hdst]; rfl
  · rw [hdst]
    cases jobCmd s.rt c <;> rfl

/-- What passes through the hold buffer: the output of a decryption. -/
def loomHeld (d : Die) (l : Nat) (b : Block) (out : Bytes) (rt : Rt) : Rt := if loomDec (blkW b 0) then heldBack d l b out rt else rt

/-- A loom's work on a command whose tag verifies, if it has one to verify. -/
theorem loomWork_of_verified {out : Bytes} (h : loomOut k.key b (getPtr s.rt c b 8 (blkW b 10)) (loomHdr s c b) src = (out, true)) (n : Nat) :
    loomWork (loomRef d l) k.key c b src (charged (loomRef d l) n s.rt) = writeWord c (blkW b 15) 0
      (loomDeliver c b (jobCmd s.rt c) out (loomHeld d l b out (charged (loomRef d l) n s.rt))) := by
  rw [loomHdr] at h
  simp only [loomWork, getPtr_charged, jobCmd_charged, h]
  have hheld : (if (loomDec (blkW b 0) && decide (loomPayload b ≤ 65536)) = true then
      setLoom (ekey (loomRef d l)) { loomOf (charged (loomRef d l) n s.rt) (ekey (loomRef d l)) with hold := out } (charged (loomRef d l) n s.rt)
      else charged (loomRef d l) n s.rt) = loomHeld d l b out (charged (loomRef d l) n s.rt) := by
    cases hdec : loomDec (blkW b 0) <;> simp [loomHeld, heldBack, hdec]
  simp only [Bool.not_true, Bool.false_and, Bool.false_eq_true, if_false, hheld]
  cases jobCmd s.rt c <;> rfl

/-- What a loom puts in place of a payload whose tag does not verify. -/
def loomBlank (b : Block) (out : Bytes) : Bytes := if loomPayload b ≤ 65536 then zeros out.length else out

/-- A loom's work on a decryption whose tag does not verify. -/
theorem loomWork_of_mismatch {out : Bytes} (hdec : loomDec (blkW b 0) = true)
    (h : loomOut k.key b (getPtr s.rt c b 8 (blkW b 10)) (loomHdr s c b) src = (out, false)) (n : Nat) :
    loomWork (loomRef d l) k.key c b src (charged (loomRef d l) n s.rt) = withhold s c (writeWord c (blkW b 15) 1
      (loomDeliver c b (jobCmd s.rt c) (loomBlank b out) (heldBack d l b (loomBlank b out) (charged (loomRef d l) n s.rt)))) := by
  rw [loomHdr] at h
  simp only [loomWork, getPtr_charged, jobCmd_charged, h, hdec, withhold, loomBlank, heldBack, Bool.not_false, Bool.true_and, decide_eq_true_eq]
  cases jobCmd s.rt c <;> rfl

theorem loomOut_gcmEnc (h : blkW b 0 = 1) (key nonce hdr src : Bytes) : loomOut key b nonce hdr src = (gcmEnc key nonce hdr src, true) := by
  rw [loomOut, h]; rfl

theorem loomOut_gcmDec (h : blkW b 0 = 2) (key nonce hdr src : Bytes) : loomOut key b nonce hdr src =
    gcmDec key nonce hdr (src.take (src.length - blkW b 11)) (src.drop (src.length - blkW b 11)) := by
  rw [loomOut, h]; rfl

theorem loomOut_ccmEnc (h : blkW b 0 = 3) (key nonce hdr src : Bytes) : loomOut key b nonce hdr src = (ccmEnc key nonce hdr src (blkW b 11), true) := by
  rw [loomOut, h]; rfl

theorem loomOut_ccmDec (h : blkW b 0 = 4) (key nonce hdr src : Bytes) : loomOut key b nonce hdr src =
    ccmDec key nonce hdr (src.take (src.length - blkW b 11)) (src.drop (src.length - blkW b 11)) := by
  rw [loomOut, h]; rfl

/-- A row of the looms whose command passes its checks. -/
theorem loomRow_of_passes {op : Nat} (hfront : AtFront s.rt (loomRef d l) op c b) (h : LoomPasses d l srcOk c b k src s) {work : Rt → Rt}
    (hwork : ∀ n, loomWork (loomRef d l) k.key c b src (charged (loomRef d l) n s.rt) = work (charged (loomRef d l) n s.rt)) :
    loomRow op d l srcOk s = .next (loomDone d l b work s) :=
  congrArg Host.Outcome.next (onRt_runFront hfront ((loomBody_of_passes h _).trans (hwork _)))

variable {op : Nat}

theorem LoomRuns.passes (r : LoomRuns op d l srcOk c b k src s) (hperms : loomGroup op k.perms = true) : LoomPasses d l srcOk c b k src s := by
  obtain ⟨hfront, ⟨hflags, hdst⟩, hreg, haes, hpar, hlen, hsrc⟩ := r
  obtain rfl := hfront.code
  exact ⟨⟨hflags, by omega⟩, hreg, hperms, haes, hpar, hlen, hsrc, fun h => absurd h (by omega)⟩

/-- An encryption to the desk or to staging. -/
theorem loomRow_encrypts (r : LoomRuns op d l srcOk c b k src s) (hop : loomDec op = false) (hperms : k.perms.enc = true) {out : Bytes}
    (hout : loomOut k.key b (getPtr s.rt c b 8 (blkW b 10)) (loomHdr s c b) src = (out, true)) :
    loomRow op d l srcOk s = .next (loomDone d l b (fun rt => writeWord c (blkW b 15) 0 (loomTo s c b out rt)) s) := by
  refine loomRow_of_passes r.front (r.passes (by rw [loomGroup, hop]; exact hperms)) fun n => ?_
  rw [loomWork_of_verified hout, loomHeld, r.front.code, hop, loomDeliver_of_staged r.plain.2]
  rfl

/-- A decryption to the desk or to staging whose tag verifies. -/
theorem loomRow_opens (r : LoomRuns op d l srcOk c b k src s) (hop : loomDec op = true) (hperms : k.perms.dec = true) {out : Bytes}
    (hout : loomOut k.key b (getPtr s.rt c b 8 (blkW b 10)) (loomHdr s c b) src = (out, true)) :
    loomRow op d l srcOk s = .next (loomDone d l b (fun rt => writeWord c (blkW b 15) 0 (loomTo s c b out (heldBack d l b out rt))) s) := by
  refine loomRow_of_passes r.front (r.passes (by rw [loomGroup, hop]; exact hperms)) fun n => ?_
  rw [loomWork_of_verified hout, loomHeld, r.front.code, hop, loomDeliver_of_staged r.plain.2]
  rfl

/-- A decryption to the desk or to staging whose tag does not verify. -/
theorem loomRow_withholds (r : LoomRuns op d l srcOk c b k src s) (hop : loomDec op = true) (hperms : k.perms.dec = true) {out : Bytes}
    (hout : loomOut k.key b (getPtr s.rt c b 8 (blkW b 10)) (loomHdr s c b) src = (out, false)) :
    loomRow op d l srcOk s = .next (loomDone d l b (fun rt => withhold s c (writeWord c (blkW b 15) 1
      (loomTo s c b (loomBlank b out) (heldBack d l b (loomBlank b out) rt)))) s) := by
  refine loomRow_of_passes r.front (r.passes (by rw [loomGroup, hop]; exact hperms)) fun n => ?_
  rw [loomWork_of_mismatch (by rw [r.front.code, hop]) hout, loomDeliver_of_staged r.plain.2]

theorem resultWord_of_loomParOk (h : loomParOk b = true) : 0x400 ≤ blkW b 15 ∧ blkW b 15 < 0x40000 := by
  simp only [loomParOk, Bool.and_eq_true, decide_eq_true_eq] at h
  exact h.1.2

/-- GCM_DEC with a key that lacks DEC (R302). -/
theorem gcmDec_of_unpermitted (r : LoomRuns 2 d l srcOk c b k src s) (hperm : k.perms.dec = false) :
    loomRow 2 d l srcOk s = .next (loomDone d l b (fun rt => recordOutcome c stUsageRefused 0 (writeWord c (blkW b 15) 0
      (if loomDst b = 0 then putDest c b (zeros (min (loomPayload b) 65552)) rt else rt))) s) := by
  obtain ⟨hfront, ⟨hflags, hdst⟩, hreg, haes, hpar, hlen, hsrc⟩ := r
  refine congrArg Host.Outcome.next (onRt_runFront hfront ?_)
  have hdst3 : loomDst b ≠ 3 := by omega
  have hdec : loomDec (blkW b 0) = true := by rw [hfront.code]; rfl
  simp [loomBody, loomRefuse, loomOf_charged, hreg, hflags, hdst3, hdec, hperm, resultWord_of_loomParOk hpar]

end

/-! ## What the end of an engine's command leaves to be read -/

theorem clerkOf_wake (p : Stall → Bool) (rt : Rt) (c : ClerkId) : ∃ st, clerkOf (wake p rt) c = { clerkOf rt c with st := st } := by
  unfold clerkOf kgetD
  simp only [wake, kget_mapPairs]
  cases kget rt.clerks c with
  | none => exact ⟨Clerk.reset.st, rfl⟩
  | some k =>
    simp only [Option.map_some]
    split
    · split
      · exact ⟨.running, rfl⟩
      · exact ⟨k.st, rfl⟩
    · exact ⟨k.st, rfl⟩

/-- What the end of an engine's command leaves of commands, of what has been sent, and of the desks. -/
structure EndKeeps (rt rt' : Rt) : Prop where
  rest : sansJob rt' = sansJob rt
  desk : ∀ c, (clerkOf rt' c).mem = (clerkOf rt c).mem

theorem EndKeeps.trans {a b c : Rt} (h : EndKeeps a b) (h' : EndKeeps b c) : EndKeeps a c :=
  ⟨h'.rest.trans h.rest, fun k => (h'.desk k).trans (h.desk k)⟩

theorem EndKeeps.cmds {a b : Rt} (h : EndKeeps a b) : b.cmds = a.cmds := read_of_rest Rt.cmds h.rest fun _ => rfl

theorem EndKeeps.out {a b : Rt} (h : EndKeeps a b) : b.out = a.out := read_of_rest Rt.out h.rest fun _ => rfl

/-- A desk word is read from the clerk's memory. -/
theorem readWord_desk {a : Nat} (ha : a < 0x40000) (rt : Rt) (c : ClerkId) : readWord rt c a = (kgetD (clerkOf rt c).mem a 0).toNat :=
  if_pos (.inr ha)

theorem EndKeeps.word {r r' : Rt} (h : EndKeeps r r') {a : Nat} (ha : a < 0x40000) (c : ClerkId) : readWord r' c a = readWord r c a := by
  rw [readWord_desk ha, readWord_desk ha, h.desk]

theorem endKeeps_wake (p : Stall → Bool) (rt : Rt) : EndKeeps rt (wake p rt) where
  rest := rfl
  desk c := by
    obtain ⟨st, h⟩ := clerkOf_wake p rt c
    rw [h]

theorem endKeeps_setClerk {c : ClerkId} {k : Clerk} {rt : Rt} (h : k.mem = (clerkOf rt c).mem) : EndKeeps rt (setClerk c k rt) where
  rest := rfl
  desk j := by
    rw [clerkOf_setClerk]
    split
    · next heq => rw [h, heq]
    · rfl

theorem sansJob_setCom (e : EngineRef) (x : EngCom) (rt : Rt) : sansJob (setCom e x rt) = sansJob rt := by
  unfold setCom; split <;> rfl

theorem endKeeps_setCom (e : EngineRef) (x : EngCom) (rt : Rt) : EndKeeps rt (setCom e x rt) :=
  ⟨sansJob_setCom e x rt, fun c => by rw [clerkOf_setCom]⟩

theorem clerks_zeroEngine (e : EngineRef) (rt : Rt) : (zeroEngine e rt).clerks = rt.clerks := by
  unfold zeroEngine
  split
  · rfl
  · rfl
  · rfl
  · exact setCom_clerks e _ _

theorem endKeeps_zeroEngine (e : EngineRef) (rt : Rt) : EndKeeps rt (zeroEngine e rt) :=
  ⟨sansJob_zeroEngine e rt, fun c => by rw [clerkOf, clerks_zeroEngine, ← clerkOf]⟩

theorem endKeeps_releaseLatch (e : EngineRef) (c : ClerkId) (rt : Rt) : EndKeeps rt (releaseLatch e c rt) :=
  (endKeeps_zeroEngine e rt).trans (endKeeps_setClerk rfl)

theorem endKeeps_unlatchWaiter (e : EngineRef) (rt : Rt) : EndKeeps rt (unlatchWaiter e rt) := by
  unfold unlatchWaiter
  split
  · exact ⟨rfl, fun _ => rfl⟩
  · split
    · exact (endKeeps_releaseLatch e _ rt).trans (endKeeps_setClerk rfl)
    · exact ⟨rfl, fun _ => rfl⟩

theorem endKeeps_afterCommand (e : EngineRef) (rt : Rt) : EndKeeps rt (afterCommand e rt) := by
  have hwake := endKeeps_wake (· == .submit e) rt
  unfold afterCommand
  dsimp only
  split
  · exact hwake.trans ((endKeeps_wake _ _).trans (endKeeps_unlatchWaiter e _))
  · exact hwake

theorem endKeeps_end (e : EngineRef) (rt : Rt) : EndKeeps rt (afterCommand e (popQueue e rt)) :=
  (endKeeps_setCom e _ rt).trans (endKeeps_afterCommand e _)

/-! ## The queue of an engine -/

theorem comOf_wake (p : Stall → Bool) (rt : Rt) (e : EngineRef) : comOf (wake p rt) e = comOf rt e := rfl

theorem comOf_setClerk (c : ClerkId) (k : Clerk) (rt : Rt) (e : EngineRef) : comOf (setClerk c k rt) e = comOf rt e := rfl

/-- A released engine has no command in its queue (14 R300). -/
theorem queue_zeroEngine (e : EngineRef) (rt : Rt) : (comOf (zeroEngine e rt) e).queue = [] := by
  unfold zeroEngine
  split
  · next h => simp [comOf, h, comWiping]
  · next h => simp [comOf, h, comWiping]
  · next h => simp [comOf, h, comWiping]
  · rw [comOf_setCom_self]
    rfl

theorem queue_unlatchWaiter {e : EngineRef} {rt : Rt} (h : (comOf rt e).queue = []) : (comOf (unlatchWaiter e rt) e).queue = [] := by
  unfold unlatchWaiter
  split
  · exact h
  · split
    · exact queue_zeroEngine e rt
    · exact h

theorem queue_afterCommand (e : EngineRef) (rt : Rt) : (comOf (afterCommand e rt) e).queue = (comOf rt e).queue := by
  unfold afterCommand
  dsimp only
  split
  · next hempty =>
    rw [comOf_wake, List.isEmpty_iff] at hempty
    exact (queue_unlatchWaiter (rt := wake _ (wake _ rt)) hempty).trans hempty.symm
  · rfl

/-- The command at the front leaves the queue. -/
theorem queue_end (e : EngineRef) (rt : Rt) : (comOf (afterCommand e (popQueue e rt)) e).queue = (comOf rt e).queue.drop 1 := by
  rw [queue_afterCommand, popQueue, comOf_setCom_self]

/-! ## What a loom's work writes -/

theorem sansClerks_writeWord (c : ClerkId) (a v : Nat) (rt : Rt) : sansClerks (writeWord c a v rt) = sansClerks rt :=
  (writeWord_frame (kept := fun _ => true) (List.mem_singleton_self a) v).rest

theorem sansClerks_writeNibbles (c : ClerkId) (p : Nat) (v : List Nat) (rt : Rt) : sansClerks (writeNibbles c p v rt) = sansClerks rt := by
  induction v generalizing p rt with
  | nil => rfl
  | cons v vs ih => exact (ih _ _).trans (sansClerks_writeWord c _ _ rt)

theorem sansClerks_putDest (c : ClerkId) (b : Block) (v : Bytes) (rt : Rt) : sansClerks (putDest c b v rt) = sansClerks rt := by
  unfold putDest
  split
  · rfl
  · exact sansClerks_writeNibbles c _ _ rt

theorem readWord_writeWord_desk {a : Nat} (ha : a < 0x40000) (c : ClerkId) {v : Nat} (hv : v < 2 ^ 20) (rt : Rt) :
    readWord (writeWord c a v rt) c a = v := by
  rw [readWord_desk ha, writeWord, if_pos (.inr ha), clerkOf_setClerk_self, kgetD_kput_self, BitVec.toNat_ofNat, Nat.mod_eq_of_lt hv]

section
variable {d : Die} {l : Nat} {srcOk : Bool} {c : ClerkId} {b : Block} {k : EngKey} {src out : Bytes} {s : State} {m : Cmd}

theorem looms_loomDeliver (m : Option Cmd) (rt : Rt) : (loomDeliver c b m out rt).looms = rt.looms := by
  unfold loomDeliver
  split
  · exact read_of_rest Rt.looms (sansClerks_putDest c b out rt) fun _ => rfl
  all_goals rfl

theorem comOf_loomHeld (rt : Rt) : comOf (loomHeld d l b out rt) (loomRef d l) = comOf rt (loomRef d l) := by
  unfold loomHeld heldBack
  split
  · split
    · simp [comOf, loomRef]
    · rfl
  · rfl

theorem comOf_loom_congr {r r' : Rt} (h : r'.looms = r.looms) : comOf r' (loomRef d l) = comOf r (loomRef d l) := by
  simp only [comOf, loomRef, loomOf, h]

/-- The run-time state without its looms. -/
def sansLooms (rt : Rt) : Rt := { rt with looms := [] }

theorem sansLooms_loomHeld (rt : Rt) : sansLooms (loomHeld d l b out rt) = sansLooms rt := by
  unfold loomHeld heldBack
  split
  · split <;> rfl
  · rfl

/-- The state that a loom command's work leaves once its tag verifies. -/
def loomDelivers (d : Die) (l : Nat) (c : ClerkId) (b : Block) (m : Cmd) (out : Bytes) (rt : Rt) : Rt :=
  writeWord c (blkW b 15) 0 (loomDeliver c b (some m) out (loomHeld d l b out rt))

theorem queue_loomDelivers (m : Cmd) (n : Nat) : (comOf (loomDelivers d l c b m out (charged (loomRef d l) n s.rt)) (loomRef d l)).queue =
    (comOf s.rt (loomRef d l)).queue := by
  have hlooms (r : Rt) (v : Nat) : (writeWord c (blkW b 15) v r).looms = r.looms :=
    read_of_rest Rt.looms (sansClerks_writeWord c _ v r) fun _ => rfl
  rw [loomDelivers, comOf_loom_congr (hlooms _ _), comOf_loom_congr (looms_loomDeliver _ _), comOf_loomHeld, charged, comOf_setCom_self]

/-- A staged output is appended to the command's (14 R309). -/
theorem loomDelivers_staged (hcmd : kget s.rt.cmds m.id = some m) (hdst : loomDst b = 1) (n : Nat) :
    (kget (loomDelivers d l c b m out (charged (loomRef d l) n s.rt)).cmds m.id).map Cmd.output = some (m.output ++ out) := by
  have hheld : (loomHeld d l b out (charged (loomRef d l) n s.rt)).cmds = s.rt.cmds :=
    (read_of_rest Rt.cmds (sansLooms_loomHeld _) fun _ => rfl).trans (cmds_charged _ _ _)
  rw [loomDelivers, writeWord_cmds]
  simp only [loomDeliver, hdst, modCmd, hheld]
  rw [kget_kmod_self _ hcmd]
  rfl

/-- A direct output is written to the host (14 R311). -/
theorem loomDelivers_direct (hdst : loomDst b = 2) (n : Nat) :
    (loomDelivers d l c b m out (charged (loomRef d l) n s.rt)).out =
      s.rt.out ++ [.hostWrite ((boothOf s.rt m.booth).map fun x => x.cfg.pasid) m.desc.outIova.toNat out s.rt.link.relaxed] := by
  have hheld {α : Type} (g : Rt → α) (hg : ∀ r, g (sansLooms r) = g r) :
      g (loomHeld d l b out (charged (loomRef d l) n s.rt)) = g (charged (loomRef d l) n s.rt) :=
    read_of_rest g (sansLooms_loomHeld _) hg
  have hout (r : Rt) (v : Nat) : (writeWord c (blkW b 15) v r).out = r.out :=
    read_of_rest Rt.out (sansClerks_writeWord c _ v r) fun _ => rfl
  rw [loomDelivers, hout]
  simp only [loomDeliver, hdst, setClerk_out, modCmd, hostData, emit, boothOf, hheld Rt.out fun _ => rfl, hheld Rt.booths fun _ => rfl, hheld Rt.link fun _ => rfl]
  simp only [charged, setCom_out, setCom_booths, setCom_link]

/-- A command that its job runs, and whose loom command at the front verifies, completes. -/
theorem loomRow_completes (hfront : AtFront s.rt (loomRef d l) (blkW b 0) c b) (h : LoomPasses d l srcOk c b k src s)
    (hout : loomOut k.key b (getPtr s.rt c b 8 (blkW b 10)) (loomHdr s c b) src = (out, true))
    (hjob : jobCmd s.rt c = some m) (hcmd : kget s.rt.cmds m.id = some m) :
    ∃ t, loomRow (blkW b 0) d l srcOk s = .next t ∧ (comOf t.rt (loomRef d l)).queue = (comOf s.rt (loomRef d l)).queue.drop 1 ∧
      readWord t.rt c (blkW b 15) = 0 ∧
      (loomDst b = 1 → (kget t.rt.cmds m.id).map Cmd.output = some (m.output ++ out)) ∧
      (loomDst b = 2 → t.rt.out =
        s.rt.out ++ [.hostWrite ((boothOf s.rt m.booth).map fun x => x.cfg.pasid) m.desc.outIova.toNat out s.rt.link.relaxed]) := by
  have hrow : loomRow (blkW b 0) d l srcOk s = .next (loomDone d l b (loomDelivers d l c b m out) s) := by
    refine loomRow_of_passes hfront h fun n => ?_
    rw [loomWork_of_verified hout, hjob]
    rfl
  have hend := endKeeps_end (loomRef d l) (loomDelivers d l c b m out (charged (loomRef d l) (loomBlocks b) s.rt))
  refine ⟨_, hrow, ?_, ?_, fun hdst => ?_, fun hdst => ?_⟩
  · refine (queue_end _ _).trans ?_
    rw [← charged, queue_loomDelivers]
  · refine (hend.word (resultWord_of_loomParOk h.par).2 c).trans ?_
    exact readWord_writeWord_desk (resultWord_of_loomParOk h.par).2 c (by decide) _
  · rw [← loomDelivers_staged hcmd hdst, ← hend.cmds]
    rfl
  · exact hend.out.trans (loomDelivers_direct hdst _)

end

/-! ## The statement -/

/-- Settles O18: the delivering clauses by the loom's work on a command that passes its checks, the refusal by the key's group, completion by
what that work writes and what the end of the command leaves. -/
theorem loomCommands : Obligations.LoomCommands := by
  refine ⟨fun d l srcOk c b k src s => ?_, fun d l srcOk c b k src out m s hfront hflags hdst hreg haes hecb hperms hpar hlen hfits hsrc hout hjob hcmd
    hdirect => ?_⟩
  · refine ⟨fun r hperm => ?_, fun r hperm => ?_, fun r hperm out => ⟨fun hout => ?_, fun hout => ?_⟩,
      fun r hperm out => ⟨fun hout => ?_, fun hout => ?_⟩, gcmDec_of_unpermitted⟩
    · exact loomRow_encrypts r rfl hperm (loomOut_gcmEnc r.front.code _ _ _ _)
    · exact loomRow_encrypts r rfl hperm (loomOut_ccmEnc r.front.code _ _ _ _)
    · exact loomRow_opens r rfl hperm ((loomOut_gcmDec r.front.code _ _ _ _).trans hout)
    · exact loomRow_withholds r rfl hperm ((loomOut_gcmDec r.front.code _ _ _ _).trans hout)
    · exact loomRow_opens r rfl hperm ((loomOut_ccmDec r.front.code _ _ _ _).trans hout)
    · exact loomRow_withholds r rfl hperm ((loomOut_ccmDec r.front.code _ _ _ _).trans hout)
  · have hpasses : LoomPasses d l srcOk c b k src s :=
      ⟨⟨hflags, by omega⟩, hreg, hperms, ⟨haes, hecb⟩, hpar, ⟨hlen, by rw [hjob]; exact hfits⟩, hsrc, fun hdst => ⟨m, hjob, hdirect hdst⟩⟩
    have hrow := loomRow_completes hfront hpasses hout hjob hcmd
    refine ⟨fun hop => ?_, fun hop => ?_, fun hop => ?_, fun hop => ?_⟩ <;> (rw [hop] at hrow; exact hrow)

end Sys2Proof.Machine
end

section
/-! The limb commands of a reckoner. -/

namespace Sys2Proof.Machine

/-! ## A reckoner command at the front (15 Table 15.2) -/

section
variable {op : Nat} {d : Die} {i : Nat} {c : ClerkId} {b : Block} {x : RecCmd} {r q : Reckoner} {s : State}

/-- Reckoner commands count no blocks: the command finds the reckoner as it is. -/
theorem reckonerOf_charged (d : Die) (i : Nat) (rt : Rt) :
    reckonerOf (charged (recRef d i) 0 rt) (ekey (recRef d i)) = reckonerOf rt (ekey (recRef d i)) :=
  reckonerOf_setCom d i _ rt

theorem recFinish_silent (d : Die) (i : Nat) (c : ClerkId) (q : Reckoner) (rt : Rt) : recFinish (recRef d i) c (q, []) rt = recPut d i q rt := rfl

theorem recFinish_outcome (d : Die) (i : Nat) (c : ClerkId) (q : Reckoner) (st why : Nat) (rt : Rt) :
    recFinish (recRef d i) c (q, [(st, why)]) rt = recordOutcome c st why (recPut d i q rt) := rfl

/-- The row of a command that acts on the reckoner alone ends as the command does. -/
theorem recRow_of_runs (h : RecRuns op d i c b x r s) (f : RecCmd → Reckoner → RecOut) :
    recRow op (recBody f) d i s = .next (recDone d i (recFinish (recRef d i) c (f x r)) s) := by
  obtain ⟨hfront, hcmd, hunit, ⟨hfields, hy⟩, hptrs⟩ := h
  refine congrArg Host.Outcome.next (onRt_runFront hfront ?_)
  simp only [recBody, reckonerOf_charged, hcmd, hunit, hptrs, hfields, hy, beq_self_eq_true, Bool.and_self, if_true]

theorem recRow_silent (h : RecRuns op d i c b x r s) {f : RecCmd → Reckoner → RecOut} (hf : f x r = (q, [])) :
    recRow op (recBody f) d i s = .next (recDone d i (recPut d i q) s) := by
  rw [recRow_of_runs h, hf]
  rfl

theorem recRow_outcome (h : RecRuns op d i c b x r s) {f : RecCmd → Reckoner → RecOut} {st why : Nat} (hf : f x r = (q, [(st, why)])) :
    recRow op (recBody f) d i s = .next (recDone d i (fun rt => recordOutcome c st why (recPut d i q rt)) s) := by
  rw [recRow_of_runs h, hf]
  rfl

/-- The code of a command is that of its row. -/
theorem RecRuns.op_eq (h : RecRuns op d i c b x r s) : x.op = op := by
  rw [← h.cmd]
  exact h.front.code

/-- The command of a code that acts on the reckoner alone and may stand in a list (R331). -/
def pureCmd (op : Nat) (x : RecCmd) (r : Reckoner) : RecOut :=
  match op with
  | 0x03 => recMovl x r
  | 0x05 => recMacp x r
  | 0x06 => recRedc x r
  | 0x07 => recModAdd false x r
  | 0x08 => recModAdd true x r
  | 0x09 => recCswap x r
  | 0x0A => recBset x r
  | 0x11 => recLbfly x r
  | 0x12 => recLattice2 polyMul (!fAcc x) (fAcc x) x r
  | 0x13 => recLattice2 baseMul false (fAcc x) x r
  | 0x14 => recLattice2 polyAdd true false x r
  | 0x15 => recLattice2 polySub true false x r
  | 0x16 => recLround x r
  | _ => malformedRec r

theorem recPure_eq (hfields : fieldsOk x = true) (hy : x.y = 0) : recPure x r = pureCmd x.op x r := by
  simp only [recPure, hfields, hy, bne_self_eq_false, Bool.not_true, Bool.or_self, Bool.false_eq_true, if_false]
  rfl

/-- The row of a command that may stand in a list and records no outcome. -/
theorem recRow_pure (h : RecRuns op d i c b x r s) (hf : pureCmd op x r = (q, [])) :
    recRow op (recBody recPure) d i s = .next (recDone d i (recPut d i q) s) :=
  recRow_silent h (by rw [recPure_eq h.fields.1 h.fields.2, h.op_eq, hf])

end

/-! ## Ranges of operand memory -/

theorem inMem_of_fits {p n : Nat} (h : fits p n) : inMem p n = true := decide_eq_true h

theorem overlap_of_disjoint {a n b m : Nat} (h : disjoint a n b m) : overlap a n b m = false := by
  refine decide_eq_false fun ho => ?_
  simp only [disjoint] at h
  omega

theorem overlapPart_of_sameOrApart {a b n : Nat} (h : sameOrApart a b n) : overlapPart a b n = false := by
  obtain rfl | h := h
  · simp [overlapPart]
  · simp [overlapPart, overlap_of_disjoint h]

theorem limbAt_lt (r : Reckoner) (p : Nat) : limbAt r p < 2 ^ 64 := BitVec.isLt _

/-- An operand of `n` limbs is below 2^(64n). -/
theorem numAt_lt (r : Reckoner) (n p : Nat) : numAt r n p < 2 ^ (64 * n) := by
  induction n generalizing p with
  | zero => exact Nat.one_pos
  | succ n ih =>
    have hlow := limbAt_lt r p
    have hhigh := ih (p + 1)
    rw [numAt, Nat.mul_succ, Nat.add_comm (64 * n), Nat.pow_add]
    nlinarith

/-! ## Table 15.3, command by command -/

section
variable {x : RecCmd} {r : Reckoner}

theorem recMovl_eq (hn : 1 ≤ x.n) (ha : fits x.a x.n) (hd : fits x.d x.n) (hapart : disjoint x.a x.n x.d x.n) (hp : x.p = 0) :
    recMovl x r = (putNum x.d x.n (numAt r x.n x.a) (anySecret r x.a x.n) r, []) := by
  have hmax : x.n ≤ 4096 := by simp only [fits] at ha; omega
  simp [recMovl, hn, hmax, inMem_of_fits ha, inMem_of_fits hd, overlap_of_disjoint hapart, hp]

theorem recSetmod_odd (hn : 1 ≤ x.n ∧ x.n ≤ 128) (ha : fits x.a x.n) (hp : x.p = 0) (hodd : numAt r x.n x.a % 2 = 1) (hmin : 3 ≤ numAt r x.n x.a) :
    recSetmod x r = (setModReg x.m { len := x.n, m := numAt r x.n x.a, secret := anySecret r x.a x.n } r, []) := by
  simp [recSetmod, hn, inMem_of_fits ha, hp, hodd, Nat.not_lt.mpr hmin]

theorem recSetmod_refused (hn : 1 ≤ x.n ∧ x.n ≤ 128) (ha : fits x.a x.n) (hp : x.p = 0) (hbad : numAt r x.n x.a % 2 = 0 ∨ numAt r x.n x.a < 3) :
    recSetmod x r = ({ setModReg x.m { len := x.n, m := 2 ^ (64 * x.n) - 1, secret := anySecret r x.a x.n } r with refused := true },
      [(stInputRefused, 0x37)]) := by
  simp [recSetmod, refusedRec, hn, inMem_of_fits ha, hp, hbad]

/-- What MACP asks of its fields when B comes from operand memory. -/
structure MacpFields (x : RecCmd) : Prop where
  len : 1 ≤ x.n ∧ x.n ≤ 128
  inA : fits x.a x.n
  inB : fits x.b x.n
  inD : fits x.d (2 * x.n)
  apartA : disjoint x.a x.n x.d (2 * x.n)
  apartB : disjoint x.b x.n x.d (2 * x.n)
  unused : x.p = 0
  plain : fRsq x = false

theorem recMacp_eq (h : MacpFields x) (hcap : (if fAcc x then numAt r (2 * x.n) x.d else 0) + numAt r x.n x.a * numAt r x.n x.b < 2 ^ (128 * x.n)) :
    recMacp x r = (putNum x.d (2 * x.n) ((if fAcc x then numAt r (2 * x.n) x.d else 0) + numAt r x.n x.a * numAt r x.n x.b)
      (anySecret r x.a x.n || anySecret r x.b x.n || (fAcc x && anySecret r x.d (2 * x.n))) r, []) := by
  obtain ⟨hn, ha, hb, hd, hda, hdb, hp, hrsq⟩ := h
  simp [recMacp, hn, inMem_of_fits ha, inMem_of_fits hb, inMem_of_fits hd, overlap_of_disjoint hda, overlap_of_disjoint hdb, hp, hrsq, hcap]

/-- A product of two operands of `n` limbs fits 2n limbs. -/
theorem product_fits (r : Reckoner) (n a b : Nat) : numAt r n a * numAt r n b < 2 ^ (128 * n) := by
  have h := Nat.mul_lt_mul'' (numAt_lt r n a) (numAt_lt r n b)
  rwa [← Nat.pow_add, show 64 * n + 64 * n = 128 * n by omega] at h

/-! ### The Montgomery reduction (R321) -/

/-- Halving modulo an odd number. -/
def halve (m x : Nat) : Nat := if x % 2 = 1 then (x + m) / 2 else x / 2

theorem halve_lt {m x : Nat} (h : x < m) : halve m x < m := by
  unfold halve
  split <;> omega

theorem halve_mul_two {m x : Nat} (hodd : m % 2 = 1) : halve m x * 2 % m = x % m := by
  unfold halve
  split
  · next hx =>
    rw [show (x + m) / 2 * 2 = x + m by omega, Nat.add_mod_right]
  · rw [show x / 2 * 2 = x by omega]

theorem forN_halve {m x : Nat} (hodd : m % 2 = 1) (hx : x < m) (k : Nat) :
    forN k (fun _ y => halve m y) x < m ∧ forN k (fun _ y => halve m y) x * 2 ^ k % m = x := by
  induction k with
  | zero => exact ⟨hx, by rw [forN, Nat.pow_zero, Nat.mul_one, Nat.mod_eq_of_lt hx]⟩
  | succ k ih =>
    obtain ⟨hlt, heq⟩ := ih
    refine ⟨halve_lt hlt, ?_⟩
    rw [forN, Nat.pow_succ, Nat.mul_comm (2 ^ k), ← Nat.mul_assoc, Nat.mul_mod, halve_mul_two hodd, ← Nat.mul_mod, heq]

theorem montReduce_spec {m : ModReg} (hodd : m.m % 2 = 1) (t : Nat) :
    montReduce m t < m.m ∧ montReduce m t * 2 ^ (64 * m.len) % m.m = t % m.m :=
  forN_halve hodd (Nat.mod_lt t (by omega)) _

theorem recRedc_eq (hn : 1 ≤ x.n ∧ x.n ≤ 128) (ha : fits x.a (2 * x.n)) (hd : fits x.d x.n) (hapart : disjoint x.a (2 * x.n) x.d x.n) (hp : x.p = 0)
    (hrsq : fRsq x = false) (hzx : fZx x = false) (hfull : (modReg r x.m).len = x.n) :
    recRedc x r = (putNum x.d x.n (montReduce (modReg r x.m) (numAt r (2 * x.n) x.a))
      ((modReg r x.m).secret || anySecret r x.a (2 * x.n)) r, []) := by
  have hne : x.n ≠ 0 := by omega
  simp [recRedc, hn, inMem_of_fits ha, inMem_of_fits hd, overlap_of_disjoint hapart, hp, hrsq, hzx, hfull, hne]

/-! ### Sums and differences below the modulus -/

/-- What MADD and MSUB ask of their fields and operands. -/
structure ModAddFields (x : RecCmd) (r : Reckoner) : Prop where
  len : 1 ≤ x.n ∧ x.n ≤ 128
  inA : fits x.a x.n
  inB : fits x.b x.n
  inD : fits x.d x.n
  placeA : sameOrApart x.a x.d x.n
  placeB : sameOrApart x.b x.d x.n
  modulus : 0 < (modReg r x.m).len
  unused : x.p = 0
  belowA : numAt r x.n x.a < (modReg r x.m).m
  belowB : numAt r x.n x.b < (modReg r x.m).m

theorem recModAdd_eq (h : ModAddFields x r) (sub : Bool) :
    recModAdd sub x r = (putNum x.d x.n
      (if sub then (numAt r x.n x.a + (modReg r x.m).m - numAt r x.n x.b) % (modReg r x.m).m
        else (numAt r x.n x.a + numAt r x.n x.b) % (modReg r x.m).m)
      ((modReg r x.m).secret || anySecret r x.a x.n || anySecret r x.b x.n) r, []) := by
  obtain ⟨hn, ha, hb, hd, hpa, hpb, hm, hp, hlta, hltb⟩ := h
  simp [recModAdd, hn, inMem_of_fits ha, inMem_of_fits hb, inMem_of_fits hd, overlapPart_of_sameOrApart hpa, overlapPart_of_sameOrApart hpb,
    Nat.ne_of_gt hm, hp, hlta, hltb]

/-- The difference of two numbers below the modulus. -/
theorem sub_mod_of_lt {a b m : Nat} (ha : a < m) (hb : b < m) : (a + m - b) % m = if b ≤ a then a - b else a + m - b := by
  split
  · rw [show a + m - b = a - b + m by omega, Nat.add_mod_right, Nat.mod_eq_of_lt (by omega)]
  · exact Nat.mod_eq_of_lt (by omega)

/-! ### CSWAP_BIT and BSET (R330) -/

theorem putLimbs_keeps {α : Type} (g : Reckoner → α) (hg : ∀ r m, g { r with mem := m } = g r) (p : Nat) (l : List Nat) (r : Reckoner) :
    g (putLimbs p l r) = g r := by
  induction l generalizing p r with
  | nil => rfl
  | cons v vs ih => exact (ih _ _).trans (hg r _)

theorem putNum_keeps {α : Type} (g : Reckoner → α) (hmem : ∀ r m, g { r with mem := m } = g r) (hmarks : ∀ r m, g { r with marks := m } = g r)
    (p n v : Nat) (sec : Bool) (r : Reckoner) : g (putNum p n v sec r) = g r :=
  (hmarks _ _).trans (putLimbs_keeps g hmem p _ r)

@[simp] theorem putNum_bc (p n v : Nat) (sec : Bool) (r : Reckoner) : (putNum p n v sec r).bc = r.bc :=
  putNum_keeps Reckoner.bc (fun _ _ => rfl) (fun _ _ => rfl) p n v sec r

@[simp] theorem putNum_swap (p n v : Nat) (sec : Bool) (r : Reckoner) : (putNum p n v sec r).swap = r.swap :=
  putNum_keeps Reckoner.swap (fun _ _ => rfl) (fun _ _ => rfl) p n v sec r

/-- The exchange that CSWAP_BIT makes under a bit. -/
def exchanged (x : RecCmd) (r : Reckoner) (sw : Bool) : Reckoner :=
  let sec := anySecret r x.a x.n || anySecret r x.b x.n || anySecret r x.p 1 || anySecret r (x.p + r.bc / 64) 1
  putNum x.b x.n (if sw then numAt r x.n x.a else numAt r x.n x.b) sec (putNum x.a x.n (if sw then numAt r x.n x.b else numAt r x.n x.a) sec r)

theorem exchanged_bc (x : RecCmd) (r : Reckoner) (sw : Bool) : (exchanged x r sw).bc = r.bc := (putNum_bc _ _ _ _ _).trans (putNum_bc _ _ _ _ _)

theorem exchanged_swap (x : RecCmd) (r : Reckoner) (sw : Bool) : (exchanged x r sw).swap = r.swap :=
  (putNum_swap _ _ _ _ _).trans (putNum_swap _ _ _ _ _)

theorem recCswap_eq (hn : 1 ≤ x.n ∧ x.n ≤ 256) (ha : fits x.a x.n) (hb : fits x.b x.n) (hapart : disjoint x.a x.n x.b x.n) (hp : x.p < 4096) :
    recCswap x r = ({ exchanged x r (if fFin x then r.swap else if fRaw x then selBit r x.p else selBit r x.p ^^ r.swap) with
      swap := if fFin x then false else if fRaw x then r.swap else selBit r x.p
      bc := if !fFin x && fDec x then r.bc - 1 else r.bc }, []) := by
  have hbc : (if (!fFin x && fDec x && decide (0 < r.bc)) = true then r.bc - 1 else r.bc) = if (!fFin x && fDec x) = true then r.bc - 1 else r.bc := by
    rcases Nat.eq_zero_or_pos r.bc with h | h <;> simp [h]
  simp only [recCswap, hn, inMem_of_fits ha, inMem_of_fits hb, overlap_of_disjoint hapart, hp, hbc, exchanged, and_self, decide_true, Bool.and_self,
    Bool.not_true, Bool.or_self, Bool.false_eq_true, if_false, Bool.bne_eq_xor]

theorem recBset_eq (hp : x.p < 2 ^ 18) : recBset x r = ({ r with bc := x.p, swap := false }, []) := if_neg (by omega)

end

/-! ## The statement -/

/-- Settles O19, command by command: each row ends as its command of Table 15.3 does, REDC by halving modulo an odd number. -/
theorem reckonerLimbs : Obligations.ReckonerLimbs := by
  intro d i c b x r s
  refine ⟨fun h hn ha hd hapart hp => ?_, fun h hn ha hp hodd hmin => ?_, fun h hn ha hp hbad => ?_,
    fun h hn ha hb hd hda hdb hp hrsq hacc => ?_, fun h hn ha hb hd hda hdb hp hrsq hacc hcap => ?_,
    fun h hn ha hd hapart hp hrsq hzx _ hfull hodd => ?_, fun h hn ha hb hd hpa hpb hm hp hlta hltb => ?_,
    fun h hn ha hb hd hpa hpb hm hp hlta hltb => ?_,
    fun h hn1 hn256 ha hb hapart hp => ⟨fun hfin => ?_, fun hfin hraw => ?_, fun hfin hraw => ?_⟩, fun h hp => ?_⟩
  · exact recRow_pure h (recMovl_eq hn ha hd hapart hp)
  · exact recRow_silent h (recSetmod_odd hn ha hp hodd hmin)
  · exact recRow_outcome h (recSetmod_refused hn ha hp hbad)
  · have hmacp := recMacp_eq (r := r) ⟨hn, ha, hb, hd, hda, hdb, hp, hrsq⟩ (by simpa [hacc] using product_fits r x.n x.a x.b)
    exact recRow_pure h (hmacp.trans (by simp [hacc]))
  · have hmacp := recMacp_eq (r := r) ⟨hn, ha, hb, hd, hda, hdb, hp, hrsq⟩ (by simpa [hacc] using hcap)
    exact recRow_pure h (hmacp.trans (by simp [hacc]))
  · obtain ⟨hlt, heq⟩ := montReduce_spec hodd (numAt r (2 * x.n) x.a)
    exact ⟨_, hlt, hfull ▸ heq, recRow_pure h (recRedc_eq hn ha hd hapart hp hrsq hzx hfull)⟩
  · exact recRow_pure h (recModAdd_eq ⟨hn, ha, hb, hd, hpa, hpb, hm, hp, hlta, hltb⟩ false)
  · refine recRow_pure h ((recModAdd_eq ⟨hn, ha, hb, hd, hpa, hpb, hm, hp, hlta, hltb⟩ true).trans ?_)
    rw [if_pos rfl, sub_mod_of_lt hlta hltb]
  · refine recRow_pure h ((recCswap_eq ⟨hn1, hn256⟩ ha hb hapart hp).trans ?_)
    rw [← exchanged_bc x r r.swap]
    simp [hfin, exchanged]
  · refine recRow_pure h ((recCswap_eq ⟨hn1, hn256⟩ ha hb hapart hp).trans ?_)
    rw [← exchanged_swap x r (selBit r x.p)]
    simp [hfin, hraw, exchanged]
  · refine recRow_pure h ((recCswap_eq ⟨hn1, hn256⟩ ha hb hapart hp).trans ?_)
    simp [hfin, hraw, exchanged]
  · exact recRow_pure h (recBset_eq hp)

end Sys2Proof.Machine
end

section
/-! The lattice commands of a reckoner. -/

namespace Sys2Proof.Machine

section
variable {x : RecCmd} {r : Reckoner}

/-! ## SETQ (15 R333) -/

/-- The number that word 13 and the low bits of word 14 give: the modulus of SETQ, the bound of LNORM. -/
def wideField (x : RecCmd) : Nat := x.p + 2 ^ 20 * (x.x % 16)

theorem wideField_eq (x : RecCmd) : x.p + 2 ^ 20 * bitsAt x.x 0 4 = wideField x := by simp [bitsAt, wideField]

theorem recSetq_builtin (hx : x.x < 16) (hq : wideField x = 3329 ∨ wideField x = 8380417) :
    recSetq x r = ({ r with q := wideField x, tw := [] }, []) := by
  have hgood : ¬(wideField x % 2 = 0 ∨ wideField x < 3 ∨ 2 ^ 24 ≤ wideField x) := by omega
  simp only [recSetq, wideField_eq]
  rw [if_neg (Nat.not_le.mpr hx), if_neg hgood, if_pos (show wideField x = qKyber ∨ wideField x = qDil from hq)]

theorem recSetq_refused (hx : x.x < 16) (hq : wideField x % 2 = 0 ∨ wideField x < 3 ∨ 2 ^ 24 ≤ wideField x) :
    recSetq x r = ({ r with refused := true }, [(stInputRefused, 0x37)]) := by
  simp only [recSetq, wideField_eq]
  rw [if_neg (Nat.not_le.mpr hx), if_pos hq]
  rfl

/-! ## Polynomials (15 R333, R334) -/

theorem polyOk_of_fits {k : Nat} {ps : List Nat} (hk : 1 ≤ k ∧ k ≤ 8) (hq : 0 < r.q) (hps : ∀ p ∈ ps, fits p (128 * k)) : polyOk r k ps = true := by
  have hall : ps.all (fun p => inMem p (128 * k)) = true := List.all_eq_true.mpr fun p hp => inMem_of_fits (hps p hp)
  simp [polyOk, hk, Nat.ne_of_gt hq, hall]

theorem recLbfly_eq (hk : 1 ≤ x.n ∧ x.n ≤ 8) (hq : 0 < r.q) (ha : fits x.a (128 * x.n)) (hp : x.p < layerCount r.q) (hx : x.x = 0) :
    recLbfly x r = (putLattice x x.a ((polysAt r x.n x.a).map (nttLayer r.q r.tw x.p (fInv x))) (anySecret r x.a (128 * x.n)) r, []) := by
  have hok : polyOk r x.n [x.a] = true := polyOk_of_fits hk hq (by simpa using ha)
  simp [recLbfly, hok, hp, hx]

/-- What an operation on two polynomials asks of its fields; `same` tells that D may equal a source. -/
structure LatticeFields (same : Bool) (x : RecCmd) (r : Reckoner) : Prop where
  count : 1 ≤ x.n ∧ x.n ≤ 8
  modulus : 0 < r.q
  inA : fits x.a (128 * x.n)
  inB : fits x.b (128 * x.n)
  inD : fits x.d (128 * x.n)
  placeA : if same then sameOrApart x.a x.d (128 * x.n) else disjoint x.a (128 * x.n) x.d (128 * x.n)
  placeB : if same then sameOrApart x.b x.d (128 * x.n) else disjoint x.b (128 * x.n) x.d (128 * x.n)
  unused : x.p = 0 ∧ x.x = 0

theorem latticeFields {same : Bool} (h : 1 ≤ x.n ∧ x.n ≤ 8 ∧ 0 < r.q ∧ fits x.a (128 * x.n) ∧ fits x.b (128 * x.n) ∧ fits x.d (128 * x.n) ∧ x.p = 0 ∧ x.x = 0)
    (hpa : if same then sameOrApart x.a x.d (128 * x.n) else disjoint x.a (128 * x.n) x.d (128 * x.n))
    (hpb : if same then sameOrApart x.b x.d (128 * x.n) else disjoint x.b (128 * x.n) x.d (128 * x.n)) : LatticeFields same x r := by
  obtain ⟨hk1, hk8, hq, ha, hb, hd, hp, hx⟩ := h
  exact ⟨⟨hk1, hk8⟩, hq, ha, hb, hd, hpa, hpb, hp, hx⟩

theorem not_bad_place {same : Bool} {a d n : Nat} (h : if same then sameOrApart a d n else disjoint a n d n) :
    (if same then overlapPart a d n else overlap a n d n) = false := by
  cases same
  · exact overlap_of_disjoint h
  · exact overlapPart_of_sameOrApart h

/-- The polynomials that a function of two gives, pair by pair. -/
def eachPair (f : List Nat → List Nat → List Nat) (x : RecCmd) (r : Reckoner) : List (List Nat) :=
  (List.range x.n).map fun j => f ((polysAt r x.n x.a).getD j []) ((polysAt r x.n x.b).getD j [])

theorem recLattice2_eq {same : Bool} (h : LatticeFields same x r) (f : Nat → List Nat → List Nat → List Nat) :
    recLattice2 f same false x r =
      (putLattice x x.d (eachPair (f r.q) x r) (anySecret r x.a (128 * x.n) || anySecret r x.b (128 * x.n)) r, []) := by
  obtain ⟨hk, hq, ha, hb, hd, hpa, hpb, hp, hx⟩ := h
  have hok : polyOk r x.n [x.a, x.b, x.d] = true := polyOk_of_fits hk hq (by simp [ha, hb, hd])
  simp [recLattice2, hok, not_bad_place hpa, not_bad_place hpb, hp, hx, eachPair]

/-! ## LROUND and LNORM (15 Table 15.7, R335) -/

theorem recLround_eq (hk : 1 ≤ x.n ∧ x.n ≤ 8) (hq : 0 < r.q) (ha : fits x.a (128 * x.n)) (hd : fits x.d (128 * x.n))
    (hplace : sameOrApart x.a x.d (128 * x.n)) (hp : x.p ∈ [0, 1, 2, 4, 5]) (hok : lroundOk r.q x.p x.x = true) :
    recLround x r = (putLattice x x.d (List.zipWith (List.zipWith fun u v => lroundD r.q x.p x.x u v) (polysAt r x.n x.a) (polysAt r x.n x.b))
      (anySecret r x.a (128 * x.n)) r, []) := by
  have hone : x.p ≠ 3 ∧ x.p ≠ 6 ∧ x.p ≠ 7 ∧ x.p < 256 := by
    simp only [List.mem_cons, List.not_mem_nil, or_false] at hp
    omega
  obtain ⟨h3, h6, h7, hsmall⟩ := hone
  have hpoly : polyOk r x.n [x.a, x.d] = true := polyOk_of_fits hk hq (by simp [ha, hd])
  simp [recLround, hpoly, beq_false_of_ne h6, beq_false_of_ne h7, h3, Nat.not_le.mpr hsmall, hok, overlapPart_of_sameOrApart hplace]

/-- What LNORM asks of its fields, bit 8 of word 14 being zero. -/
theorem lnorm_fields (hk : 1 ≤ x.n ∧ x.n ≤ 8) (hq : 0 < r.q) (ha : fits x.a (128 * x.n)) (hx : x.x < 16) :
    (!polyOk r x.n [x.a] || bitsAt x.x 4 4 != 0 || decide (512 ≤ x.x)) = false ∧ x.x.testBit 8 = false := by
  have hpoly : polyOk r x.n [x.a] = true := polyOk_of_fits hk hq (by simpa using ha)
  have hbits : bitsAt x.x 4 4 = 0 := by simp [bitsAt]; omega
  refine ⟨?_, Nat.testBit_lt_two_pow (by omega)⟩
  simp [hpoly, hbits]
  omega

theorem recLnorm_allowed (hk : 1 ≤ x.n ∧ x.n ≤ 8) (hq : 0 < r.q) (ha : fits x.a (128 * x.n)) (hx : x.x < 16) (hlib : x.lib = true) {perms : List Nat}
    {z : Nat} (hperms : r.keyPerms = some perms) (hsign : 1 ∈ perms) (hz : r.mlDsa = some z) (hbound : wideField x ∈ mlDsaBounds z) :
    recLnorm x r = (putNum x.d 1 (b2n ((polysAt r x.n x.a).flatten.any fun v => decide (wideField x ≤ (centred r.q v).natAbs))) false r, []) := by
  obtain ⟨hfields, hcount⟩ := lnorm_fields hk hq ha hx
  simp only [recLnorm, hfields, wideField_eq, hlib, hperms, hz, List.contains_iff_mem.mpr hsign, List.contains_iff_mem.mpr hbound, rejection, hcount,
    Bool.and_self, Bool.false_eq_true, if_false, if_true]

theorem recLnorm_unowned (hk : 1 ≤ x.n ∧ x.n ≤ 8) (hq : 0 < r.q) (ha : fits x.a (128 * x.n)) (hx : x.x < 16) (hlib : x.lib = false) :
    recLnorm x r = (putNum x.d 1 0 false r, [(stUsageRefused, 0)]) := by
  obtain ⟨hfields, -⟩ := lnorm_fields hk hq ha hx
  simp only [recLnorm, hfields, hlib, Bool.false_and, Bool.false_eq_true, if_false]

end

/-! ## The statement -/

/-- Settles O21, command by command: each row ends as its command of Table 15.3 does. -/
theorem reckonerLattice : Obligations.ReckonerLattice := by
  intro d i c b x r s
  refine ⟨fun h hx hq => ?_, fun h hx hq => ?_, fun h hk1 hk8 hq ha hp hx => ?_, fun h hpolys hacc hpa hpb => ?_, fun h hpolys hacc hpa hpb => ?_,
    fun h hpolys hpa hpb => ?_, fun h hpolys hpa hpb => ?_, fun h hk1 hk8 hq ha hd hplace hp hok => ?_, fun h hk1 hk8 hq ha hx hlib perms z hperms hmem hz hbound => ?_,
    fun h hk1 hk8 hq ha hx hlib => ?_⟩
  · exact recRow_silent h (recSetq_builtin hx hq)
  · exact recRow_outcome h (recSetq_refused hx hq)
  · exact recRow_pure h (recLbfly_eq ⟨hk1, hk8⟩ hq ha hp hx)
  · refine recRow_pure h (Eq.trans ?_ (recLattice2_eq (same := true) (latticeFields hpolys hpa hpb) polyMul))
    simp [pureCmd, hacc]
  · refine recRow_pure h (Eq.trans ?_ (recLattice2_eq (same := false) (latticeFields hpolys hpa hpb) baseMul))
    simp [pureCmd, hacc]
  · exact recRow_pure h (recLattice2_eq (same := true) (latticeFields hpolys hpa hpb) polyAdd)
  · exact recRow_pure h (recLattice2_eq (same := true) (latticeFields hpolys hpa hpb) polySub)
  · exact recRow_pure h (recLround_eq ⟨hk1, hk8⟩ hq ha hd hplace hp hok)
  · refine recRow_silent h ((recLnorm_allowed ⟨hk1, hk8⟩ hq ha hx hlib hperms hmem hz hbound).trans ?_)
    simp only [b2n, List.any_eq_true, decide_eq_true_eq, ← Int.ofNat_le]
    rfl
  · exact recRow_outcome h (recLnorm_unowned ⟨hk1, hk8⟩ hq ha hx hlib)

end Sys2Proof.Machine
end

section
/-! The transfers of a reckoner: LOADL, STOREL, RNDL, RUNL, CHK and the wipe. -/

namespace Sys2Proof.Machine

/-! ## A command that may use pointers -/

/-- A reckoner command at the front, decoded as `x` with its reserved bits zero; pointers and word 15 as they are. -/
structure RecFront (op : Nat) (d : Die) (i : Nat) (c : ClerkId) (b : Block) (x : RecCmd) (r : Reckoner) (s : State) : Prop where
  front : AtFront s.rt (recRef d i) op c b
  cmd : recCmd b = x
  unit : reckonerOf s.rt (ekey (recRef d i)) = r
  fields : fieldsOk x = true

section
variable {op : Nat} {d : Die} {i : Nat} {c : ClerkId} {b : Block} {x : RecCmd} {r q : Reckoner} {s : State}

theorem RecFront.of_all (h : AtFront s.rt (recRef d i) op c b ∧ recCmd b = x ∧ reckonerOf s.rt (ekey (recRef d i)) = r ∧ fieldsOk x = true) :
    RecFront op d i c b x r s := by
  obtain ⟨hfront, hcmd, hunit, hfields⟩ := h
  exact ⟨hfront, hcmd, hunit, hfields⟩

theorem RecFront.op_eq (h : RecFront op d i c b x r s) : x.op = op := by
  rw [← h.cmd]
  exact h.front.code

/-- A row of a reckoner does the work of its command. -/
theorem recRow_of_front {f : EngineRef → ClerkId → Block → Rt → Rt} {work : Rt → Rt} (h : AtFront s.rt (recRef d i) op c b)
    (hf : f (recRef d i) c b (charged (recRef d i) 0 s.rt) = work (charged (recRef d i) 0 s.rt)) :
    recRow op f d i s = .next (recDone d i work s) :=
  congrArg Host.Outcome.next (onRt_runFront h hf)

/-! ## LOADL (15 R326 to R328) -/

/-- The fields of a LOADL of class 0 or 1 and what it reads: an integer of at most `n` limbs, big-endian. -/
structure LoadFields (x : RecCmd) (src : Bytes) : Prop where
  fields : fieldsOk x = true
  unused : x.p = 0 ∧ x.y = 0
  len : 1 ≤ x.n ∧ x.n ≤ 256
  place : fits x.a x.n
  size : src.length ≤ 8 * x.n

theorem loadl_row {src : Bytes} (h : RecFront 0x01 d i c b x r s) (hzero : blkZero b 4 2 = true) (hsrc : getPtr s.rt c b 2 (blkD b 6) = src) :
    exec (.loadl d i) s = .next (recDone d i (recFinish (recRef d i) c (recLoadl x src r)) s) := by
  refine recRow_of_front h.front ?_
  simp only [loadlBody, reckonerOf_charged, getPtr_charged, h.cmd, h.unit, hzero, hsrc, if_true]

theorem recLoadl_integer {src : Bytes} (h : LoadFields x src) (hx : x.x = 0) : recLoadl x src r = (putNum x.a x.n (ofBe src) (fSec x) r, []) := by
  obtain ⟨hfields, ⟨hp, hy⟩, hn, ha, hsize⟩ := h
  simp [recLoadl, hfields, hp, hy, hn, hx, bitsAt, inMem_of_fits ha, Nat.not_lt.mpr hsize, valReason]

/-- A value of class 1 that is zero (15 Table 15.4). -/
theorem recLoadl_zero {src : Bytes} (h : LoadFields x src) (hx : x.x = 1) (hmod : 0 < (modReg r x.m).len) (hpublic : (modReg r x.m).secret = false)
    (hsrc : ofBe src = 0) : recLoadl x src r = ({ putNum x.a x.n 0 (fSec x) r with refused := true }, [(stInputRefused, 0x30)]) := by
  obtain ⟨hfields, ⟨hp, hy⟩, hn, ha, hsize⟩ := h
  simp [recLoadl, refusedRec, hfields, hp, hy, hn, hx, bitsAt, inMem_of_fits ha, Nat.not_lt.mpr hsize, valReason, Nat.ne_of_gt hmod, hpublic, hsrc,
    show Nat.testBit 1 8 = false by decide]

/-! ## STOREL (15 R324) -/

/-- The fields of a STOREL of a big-endian integer. -/
structure StoreFields (b : Block) (x : RecCmd) : Prop where
  zero : blkZero b 2 2 = true
  unused : x.p = 0 ∧ x.x = 0 ∧ x.y = 0
  len : 1 ≤ x.n ∧ x.n ≤ 256
  place : fits x.a x.n
  plain : fSec x = false
  size : blkD b 6 ≤ 8 * x.n

theorem storel_row (h : RecFront 0x02 d i c b x r s) (hf : StoreFields b x) : exec (.storel d i) s = .next (recDone d i (fun rt =>
    if anySecret r x.a x.n then putDest c b (zeros (blkD b 6)) (recordOutcome c stUsageRefused 0 rt)
    else putDest c b (be (blkD b 6) (numAt r x.n x.a)) rt) s) := by
  obtain ⟨hzero, ⟨hp, hx, hy⟩, hn, ha, hsec, hsize⟩ := hf
  refine recRow_of_front h.front ?_
  simp [storelBody, reckonerOf_charged, h.cmd, h.unit, h.fields, hzero, hp, hx, hy, hn, inMem_of_fits ha, hsec, Nat.not_lt.mpr hsize]

/-! ## RNDL (15 R332) and RUNL (R331) -/

theorem rndl_row (h : RecFront 0x0B d i c b x r s) (hptrs : noPtrs b = true) (hp : x.p = 0) (hx : x.x = 0) (hy : x.y = 0)
    (hn : 1 ≤ x.n ∧ x.n ≤ 256) (hd : fits x.d x.n) (hidle : (comOf s.rt (recRef d i)).running = false) (hmint : (mintOf s.rt d.val).exhausted = false) :
    exec (.rndl d i) s = .next (onRt (fun rt => setMint d.val { mintOf rt d.val with waiting := (mintOf rt d.val).waiting ++ [.rndl d i x.d x.n] }
      (setCom (recRef d i) { comOf rt (recRef d i) with running := true } rt)) s) := by
  obtain ⟨⟨q, hq⟩, hholder, hcode, hruns, hfresh⟩ := h.front
  rw [Bool.or_eq_false_iff] at hruns
  have hrow : doRndl d i s.rt = setMint d.val { mintOf s.rt d.val with waiting := (mintOf s.rt d.val).waiting ++ [.rndl d i x.d x.n] }
      (setCom (recRef d i) { comOf s.rt (recRef d i) with running := true } s.rt) := by
    simp [doRndl, hq, hholder, h.cmd, h.op_eq, hidle, hruns, hptrs, h.fields, hp, hx, hy, hn, inMem_of_fits hd, hmint]
  exact congrArg Host.Outcome.next (congrArg (fun rt => { s with rt := rt }) hrow)

@[simp] theorem readWord_charged (e : EngineRef) (n : Nat) (rt : Rt) (c : ClerkId) (a : Nat) : readWord (charged e n rt) c a = readWord rt c a :=
  readWord_charge e _ rt c a

/-- The fields of a RUNL whose list stands at nibble address `p`. -/
structure RunFields (b : Block) (x : RecCmd) (p : Nat) : Prop where
  ptr : blkP b 2 = some p
  whole : p % 5 = 0
  zero : blkZero b 4 4 = true
  unused : x.p = 0 ∧ x.x = 0
  len : 1 ≤ x.n ∧ x.n ≤ 64
  times : 1 ≤ x.y ∧ x.y ≤ 8192

theorem runl_row {p : Nat} {l : List Block} (h : RecFront 0x0C d i c b x r s) (hf : RunFields b x p) (hl : readList s.rt c (p / 5) x.n = l)
    (hcodes : ∀ y ∈ l, inList (blkW y 0) = true)
    (hruns : forN x.y (fun _ t => runEntries (l.map fun y => listCmd y b.lib) t) ({ r with list := l }, []) = (q, [])) :
    exec (.runl d i) s = .next (recDone d i (recPut d i q) s) := by
  obtain ⟨hptr, hwhole, hzero, ⟨hp, hx⟩, hn, hy⟩ := hf
  refine recRow_of_front h.front ?_
  have hlist : readList (charged (recRef d i) 0 s.rt) c (p / 5) x.n = l := by
    rw [← hl]
    simp only [readList, readWord_charged]
  have hall : l.all (fun y => inList (blkW y 0)) = true := List.all_eq_true.mpr hcodes
  simp only [runlBody, reckonerOf_charged, h.cmd, h.unit, hptr, h.fields, hzero, hp, hx, hwhole, hn, hy, hlist, hall, hruns, and_self, decide_true,
    bne_self_eq_false, Bool.not_true, Bool.or_self, Bool.false_eq_true, if_false]
  rfl

/-! ## CHK (15 R336, R337, Tables 15.8 and 15.9) -/

/-- The release range and the purpose of a CHK of an operation under a secret key. -/
structure ChkFields (kind : Nat) (b : Block) (x : RecCmd) : Prop where
  ptrs : noPtrs b = true
  word : x.p = 0x10 + kind
  range : x.x < 4096 ∧ fits x.x x.y
  len : 1 ≤ x.y ∧ x.y ≤ 1024

/-- The power that CHK kind 1 checks. -/
def powerHolds (x : RecCmd) (r : Reckoner) : Prop := powMod (numAt r x.n x.a) (limbAt r x.d) (modReg r x.m).m = numAt r x.n x.b

/-- The operands of CHK kind 1. -/
structure PowerFields (x : RecCmd) (r : Reckoner) : Prop where
  len : 1 ≤ x.n ∧ x.n ≤ 128
  inA : fits x.a x.n
  inB : fits x.b x.n
  inD : fits x.d 1
  modulus : 0 < (modReg r x.m).len
  plain : anySecret r x.d 1 = false

theorem chkPasses_power (idx : Bytes) (hp : x.p = 0x11) (h : PowerFields x r) :
    chkPasses idx x r = some (powMod (numAt r x.n x.a) (limbAt r x.d) (modReg r x.m).m == numAt r x.n x.b) := by
  obtain ⟨hn, ha, hb, hd, hm, hplain⟩ := h
  simp [chkPasses, hp, bitsAt, hn, inMem_of_fits ha, inMem_of_fits hb, inMem_of_fits hd, Nat.ne_of_gt hm, hplain]

/-- The operands of CHK kind 3. -/
structure TransformFields (x : RecCmd) (r : Reckoner) : Prop where
  count : 1 ≤ x.n ∧ x.n ≤ 8
  modulus : 0 < r.q
  inA : fits x.a (128 * x.n)
  inB : fits x.b (128 * x.n)

theorem chkPasses_transform (idx : Bytes) (hp : x.p = 0x13) (h : TransformFields x r) : chkPasses idx x r = some (nttAgrees idx x r) := by
  have hok : polyOk r x.n [x.a, x.b] = true := polyOk_of_fits h.count h.modulus (by simp [h.inA, h.inB])
  simp [chkPasses, hp, bitsAt, hok]

theorem not_chkBad {kind : Nat} (hk : 1 ≤ kind ∧ kind < 16) (h : ChkFields kind b x) (hfields : fieldsOk x = true) (hpasses : (chkPasses [] x r).isSome = true) :
    chkBad x r = false := by
  obtain ⟨-, hp, ⟨hx, hrange⟩, hlen⟩ := h
  have hpurpose : bitsAt x.p 4 4 = 1 := by simp [bitsAt, hp]; omega
  have hword : ¬ 256 ≤ x.p := by omega
  simp [chkBad, hfields, hpurpose, hword, Nat.not_le.mpr hx, hlen, inMem_of_fits hrange, hpasses]

/-- The release range after a refusal. -/
def blanked (x : RecCmd) (r : Reckoner) : Reckoner := putNum x.x x.y 0 false r

section
variable {idx : Bytes} {pass : Bool} (hbad : chkBad x r = false) (hpass : chkPasses idx x r = some pass)
include hbad hpass

/-- A CHK that the library did not issue. -/
theorem recChk_unowned (hlib : x.lib = false) : recChk idx x r = ((blanked x r, [(stUsageRefused, 0)]), false) := by
  simp [recChk, hbad, hpass, hlib, blanked]

/-- A CHK after a refusal. -/
theorem recChk_refused (hlib : x.lib = true) (hrefused : r.refused = true) : recChk idx x r = ((blanked x r, []), false) := by
  simp [recChk, hbad, hpass, hlib, hrefused, blanked]

/-- A CHK that comes to its invariant. -/
theorem recChk_judged (hlib : x.lib = true) (hrefused : r.refused = false) (hkeys : r.keyPerms = none) :
    recChk idx x r = if pass then ((markRange x.x x.y false r, []), false) else ((blanked x r, [(stDeviceFault, 0)]), true) := by
  cases pass <;> simp [recChk, hbad, hpass, hlib, hrefused, hkeys, blanked]

end

/-- A CHK that raises no fault. -/
theorem chkBody_quiet {idx : Bytes} {l : List (Nat × Nat)} (h : RecFront 0x0D d i c b x r s) (hptrs : noPtrs b = true)
    (ho : recChk idx x r = ((q, l), false)) :
    chkBody idx (recRef d i) c b (charged (recRef d i) 0 s.rt) = recFinish (recRef d i) c (q, l) (charged (recRef d i) 0 s.rt) := by
  simp [chkBody, reckonerOf_charged, h.cmd, h.unit, hptrs, ho]

/-- The fault event of an invariant that fails (R337). -/
def invariantEvent (d : Die) (i : Nat) (c : ClerkId) (b : Block) (r : Reckoner) (rt : Rt) : FaultEvent :=
  { source := .reckonerInvariant, scope := 0, island := some (engineIsland (recRef d i)), booth := (jobCmd rt c).map Cmd.booth,
    detail := [BitVec.ofNat 8 i, BitVec.ofNat 8 (bitsAt (blkW b 13) 0 4)] ++ le 4 (r.keySlots.headD 0xFFFFFFFF), houseProg := false }

/-- A CHK whose invariant fails (R337). -/
theorem chkBody_fault {idx : Bytes} {l : List (Nat × Nat)} (h : RecFront 0x0D d i c b x r s) (hptrs : noPtrs b = true)
    (ho : recChk idx x r = ((q, l), true)) : ∃ ev : FaultEvent, ev.source = .reckonerInvariant ∧
    chkBody idx (recRef d i) c b (charged (recRef d i) 0 s.rt) = raise ev (recFinish (recRef d i) c (q, l) (charged (recRef d i) 0 s.rt)) := by
  refine ⟨invariantEvent d i c b r (recFinish (recRef d i) c (q, l) (charged (recRef d i) 0 s.rt)), rfl, ?_⟩
  simp only [chkBody, reckonerOf_charged, h.cmd, h.unit, hptrs, ho, if_true]
  rfl

theorem chkFront_of_front (h : AtFront s.rt (recRef d i) 0x0D c b) : chkFront s.rt (recRef d i) = true := by
  obtain ⟨⟨q, hq⟩, hholder, hcode, -⟩ := h
  simp [chkFront, hq, hholder, hcode]

theorem doChk_undrawn (h : AtFront s.rt (recRef d i) 0x0D c b) (hdraw : chkDraw s.rt (recRef d i) = 0) :
    doChk d i s.rt = runFront (recRef d i) 0x0D (fun _ => 0) (chkBody [] (recRef d i)) s.rt := by
  simp [doChk, h.runs, chkFront_of_front h, hdraw]

theorem chkDraw_of_front (h : RecFront 0x0D d i c b x r s) : chkDraw s.rt (recRef d i) =
    if noPtrs b && bitsAt x.p 0 4 == 3 && !chkBad x r then 16 * x.n else 0 := by
  obtain ⟨⟨q, hq⟩, -⟩ := h.front
  simp only [chkDraw, hq, h.cmd, h.unit]
  rw [← h.cmd]
  rfl

/-- A CHK of kind 1 draws nothing. -/
theorem chk_row_power (h : RecFront 0x0D d i c b x r s) (hf : ChkFields 1 b x) {l : List (Nat × Nat)} (ho : recChk [] x r = ((q, l), false)) :
    exec (.chk d i) s = .next (recDone d i (recFinish (recRef d i) c (q, l)) s) := by
  have hdraw : chkDraw s.rt (recRef d i) = 0 := by
    rw [chkDraw_of_front h, hf.word]
    simp [bitsAt]
  have hrun : onRt (fun rt => runFront (recRef d i) 0x0D (fun _ => 0) (chkBody [] (recRef d i)) rt) s =
      recDone d i (recFinish (recRef d i) c (q, l)) s := onRt_runFront h.front (chkBody_quiet h hf.ptrs ho)
  have hrow : onRt (doChk d i) s = recDone d i (recFinish (recRef d i) c (q, l)) s := by
    rw [← hrun, onRt, doChk_undrawn h.front hdraw, onRt]
  exact congrArg Host.Outcome.next hrow

theorem not_chkBad_power (h : RecFront 0x0D d i c b x r s) (hf : ChkFields 1 b x) (ho : PowerFields x r) : chkBad x r = false :=
  not_chkBad ⟨by decide, by decide⟩ hf h.fields (by rw [chkPasses_power [] hf.word ho]; rfl)

theorem chkDraw_transform (h : RecFront 0x0D d i c b x r s) (hf : ChkFields 3 b x) (ho : TransformFields x r) :
    chkDraw s.rt (recRef d i) = 16 * x.n := by
  have hbad : chkBad x r = false := not_chkBad ⟨by decide, by decide⟩ hf h.fields (by rw [chkPasses_transform [] hf.word ho]; rfl)
  rw [chkDraw_of_front h, hf.word, hf.ptrs, hbad]
  rfl

/-- A CHK of kind 3 that the mint cannot serve has not run (log 17). -/
theorem chk_row_unserved (h : RecFront 0x0D d i c b x r s) (hf : ChkFields 3 b x) (ho : TransformFields x r) (hdraw : drawNow d.val (16 * x.n) s.rt = none) :
    exec (.chk d i) s = .next s := by
  have hcount := ho.count
  refine congrArg Host.Outcome.next (congrArg (fun rt => { s with rt := rt }) (?_ : doChk d i s.rt = s.rt))
  simp [doChk, h.front.runs, chkFront_of_front h.front, chkDraw_transform h hf ho, hdraw, show x.n ≠ 0 by omega]

/-- A draw changes a mint alone. -/
theorem RecFront.drawn {n : Nat} {v : Bytes} {rt : Rt} (h : RecFront op d i c b x r s) (hdraw : drawNow d.val n s.rt = some (v, rt)) :
    RecFront op d i c b x r { s with rt := rt } := by
  unfold drawNow at hdraw
  dsimp only at hdraw
  split at hdraw
  · cases hdraw
    unfold setMint
    split
    · exact ⟨⟨h.front.front, h.front.holder, h.front.code, h.front.runs, h.front.fresh⟩, h.cmd, h.unit, h.fields⟩
    · exact ⟨⟨h.front.front, h.front.holder, h.front.code, h.front.runs, h.front.fresh⟩, h.cmd, h.unit, h.fields⟩
  · cases hdraw

/-- A CHK of kind 3 runs on the indices that it has drawn. -/
theorem chk_row_drawn (h : RecFront 0x0D d i c b x r s) (hf : ChkFields 3 b x) (ho : TransformFields x r) {v : Bytes} {rt : Rt}
    (hdraw : drawNow d.val (16 * x.n) s.rt = some (v, rt)) {work : Rt → Rt}
    (hwork : chkBody v (recRef d i) c b (charged (recRef d i) 0 rt) = work (charged (recRef d i) 0 rt)) :
    exec (.chk d i) s = .next (recDone d i work { s with rt := rt }) := by
  have hcount := ho.count
  have hrow : doChk d i s.rt = runFront (recRef d i) 0x0D (fun _ => 0) (chkBody v (recRef d i)) rt := by
    simp [doChk, h.front.runs, chkFront_of_front h.front, chkDraw_transform h hf ho, hdraw, show x.n ≠ 0 by omega]
  have hrun : onRt (fun rt => runFront (recRef d i) 0x0D (fun _ => 0) (chkBody v (recRef d i)) rt) { s with rt := rt } =
      recDone d i work { s with rt := rt } := onRt_runFront (h.drawn hdraw).front hwork
  have hdone : onRt (doChk d i) s = recDone d i work { s with rt := rt } := by
    rw [← hrun, onRt, hrow, onRt]
  exact congrArg Host.Outcome.next hdone

/-- The row of a CHK of kind 3 whose indices agree. -/
theorem chk_row_quiet (h : RecFront 0x0D d i c b x r s) (hf : ChkFields 3 b x) (ho : TransformFields x r) {v : Bytes} {rt : Rt}
    (hdraw : drawNow d.val (16 * x.n) s.rt = some (v, rt)) (hchk : recChk v x r = ((q, []), false)) :
    exec (.chk d i) s = .next (recDone d i (recPut d i q) { s with rt := rt }) := by
  refine chk_row_drawn h hf ho hdraw ?_
  rw [← recFinish_silent d i c]
  exact (chkBody_quiet (h.drawn hdraw) hf.ptrs hchk :)

/-- The row of a CHK of kind 3 whose indices do not agree. -/
theorem chk_row_fault (h : RecFront 0x0D d i c b x r s) (hf : ChkFields 3 b x) (ho : TransformFields x r) {v : Bytes} {rt : Rt}
    (hdraw : drawNow d.val (16 * x.n) s.rt = some (v, rt)) {st why : Nat} (hchk : recChk v x r = ((q, [(st, why)]), true)) :
    ∃ ev : FaultEvent, ev.source = .reckonerInvariant ∧
      exec (.chk d i) s = .next (recDone d i (fun rt => raise ev (recordOutcome c st why (recPut d i q rt))) { s with rt := rt }) := by
  obtain ⟨ev, hsource, hbody⟩ := chkBody_fault (h.drawn hdraw) hf.ptrs hchk
  refine ⟨ev, hsource, chk_row_drawn h hf ho hdraw ?_⟩
  rw [← recFinish_outcome d i c]
  exact hbody

end

/-! ## The statement -/

theorem reckonerWipe_row {d : Die} {i : Nat} {s : State} (h : (comOf s.rt (recRef d i)).latch.wiping = true) :
    exec (.reckonerWipe d i) s = .next (onRt (fun rt => passLatch (recRef d i) (setReckoner (ekey (recRef d i))
      { Reckoner.reset with com := { EngCom.reset with latch := { (comOf rt (recRef d i)).latch with wiping := false } } } rt)) s) :=
  congrArg Host.Outcome.next (congrArg (fun rt => { s with rt := rt }) (if_pos h))

/-- Settles O20: LOADL, STOREL, RNDL and RUNL by their bodies on legal fields, CHK by the row of Table 15.9 that its check comes to. -/
theorem reckonerTransfers : Obligations.ReckonerTransfers := by
  intro d i c b x r s
  refine ⟨fun ⟨h, hzero, hp, hy, hn1, hn256, ha, hsize⟩ hx => ?_, fun ⟨h, hzero, hp, hy, hn1, hn256, ha, hsize⟩ hx hmod hpublic hsrc => ?_,
    fun ⟨h, hzero, hp, hx, hy, hn1, hn256, ha, hsec, hsize⟩ hplain => ?_, fun ⟨h, hzero, hp, hx, hy, hn1, hn256, ha, hsec, hsize⟩ hsecret => ?_,
    fun h hptrs hp hx hy hn1 hn256 hd hidle hmint => ?_, fun h p hptr hwhole hzero hp hx hn1 hn64 hy1 hy8192 hcodes q hruns => ?_,
    fun ⟨h, hptrs, hp, hx, hy1, hy1024, hrange, hn1, hn8, hq, ha, hb⟩ hdraw => ?_,
    fun v rt ⟨h, hptrs, hp, hx, hy1, hy1024, hrange, hn1, hn8, hq, ha, hb⟩ hdraw hlib hrefused hkeys => ?_,
    fun ⟨h, hptrs, hp, hx, hy1, hy1024, hrange, hn1, hn128, ha, hb, hd, hm, hplain⟩ hlib hrefused hkeys hinv => ?_,
    fun ⟨h, hptrs, hp, hx, hy1, hy1024, hrange, hn1, hn128, ha, hb, hd, hm, hplain⟩ hlib hrefused => ?_,
    fun ⟨h, hptrs, hp, hx, hy1, hy1024, hrange, hn1, hn128, ha, hb, hd, hm, hplain⟩ hlib => ?_, reckonerWipe_row⟩
  · have hf := RecFront.of_all h
    rw [loadl_row hf hzero rfl, recLoadl_integer ⟨hf.fields, ⟨hp, hy⟩, ⟨hn1, hn256⟩, ha, hsize⟩ hx]
    rfl
  · have hf := RecFront.of_all h
    rw [loadl_row hf hzero rfl, recLoadl_zero ⟨hf.fields, ⟨hp, hy⟩, ⟨hn1, hn256⟩, ha, hsize⟩ hx hmod hpublic hsrc]
    rfl
  · rw [storel_row (.of_all h) ⟨hzero, ⟨hp, hx, hy⟩, ⟨hn1, hn256⟩, ha, hsec, hsize⟩, hplain]
    rfl
  · rw [storel_row (.of_all h) ⟨hzero, ⟨hp, hx, hy⟩, ⟨hn1, hn256⟩, ha, hsec, hsize⟩, hsecret]
    rfl
  · exact rndl_row (.of_all h) hptrs hp hx hy ⟨hn1, hn256⟩ hd hidle hmint
  · simp only [hptr, Option.getD_some] at hcodes hruns
    exact runl_row (.of_all h) ⟨hptr, hwhole, hzero, ⟨hp, hx⟩, ⟨hn1, hn64⟩, ⟨hy1, hy8192⟩⟩ rfl hcodes hruns
  · exact chk_row_unserved (.of_all h) ⟨hptrs, hp, ⟨hx, hrange⟩, ⟨hy1, hy1024⟩⟩ ⟨⟨hn1, hn8⟩, hq, ha, hb⟩ hdraw
  · have hf := RecFront.of_all h
    have hfields : ChkFields 3 b x := ⟨hptrs, hp, ⟨hx, hrange⟩, ⟨hy1, hy1024⟩⟩
    have hops : TransformFields x r := ⟨⟨hn1, hn8⟩, hq, ha, hb⟩
    have hbad : chkBad x r = false := not_chkBad ⟨by decide, by decide⟩ hfields hf.fields (by rw [chkPasses_transform [] hp hops]; rfl)
    have hjudged := recChk_judged hbad (chkPasses_transform v hp hops) hlib hrefused hkeys
    refine ⟨fun hagrees => ?_, fun hfails => ?_⟩
    · rw [hagrees, if_pos rfl] at hjudged
      exact (chk_row_quiet hf hfields hops hdraw hjudged :)
    · rw [hfails, if_neg Bool.false_ne_true] at hjudged
      exact (chk_row_fault hf hfields hops hdraw hjudged :)
  · have hf := RecFront.of_all h
    have hfields : ChkFields 1 b x := ⟨hptrs, hp, ⟨hx, hrange⟩, ⟨hy1, hy1024⟩⟩
    have hops : PowerFields x r := ⟨⟨hn1, hn128⟩, ha, hb, hd, hm, hplain⟩
    have hjudged := recChk_judged (not_chkBad_power hf hfields hops) (chkPasses_power [] hp hops) hlib hrefused hkeys
    rw [if_pos (beq_iff_eq.mpr hinv)] at hjudged
    exact (chk_row_power hf hfields hjudged :)
  · have hf := RecFront.of_all h
    have hfields : ChkFields 1 b x := ⟨hptrs, hp, ⟨hx, hrange⟩, ⟨hy1, hy1024⟩⟩
    have hops : PowerFields x r := ⟨⟨hn1, hn128⟩, ha, hb, hd, hm, hplain⟩
    exact (chk_row_power hf hfields (recChk_refused (not_chkBad_power hf hfields hops) (chkPasses_power [] hp hops) hlib hrefused) :)
  · have hf := RecFront.of_all h
    have hfields : ChkFields 1 b x := ⟨hptrs, hp, ⟨hx, hrange⟩, ⟨hy1, hy1024⟩⟩
    have hops : PowerFields x r := ⟨⟨hn1, hn128⟩, ha, hb, hd, hm, hplain⟩
    exact (chk_row_power hf hfields (recChk_unowned (not_chkBad_power hf hfields hops) (chkPasses_power [] hp hops) hlib) :)

end Sys2Proof.Machine
end

section
/-! What happens to an engine beside its commands, the streams of a job, and the delivery of a key. -/

namespace Sys2Proof.Machine

/-! ## LATCH_BREAK (14 R299) -/

/-- The fault event of a latch held over its limit. -/
def latchBreakEvent (e : EngineRef) (c : ClerkId) (m : Cmd) (rt : Rt) : FaultEvent :=
  { source := .latchBreak, scope := 0, island := some (engineIsland e), booth := some m.booth,
    detail := le 2 (engineBlock e) ++ [BitVec.ofNat 8 (c % 64)] ++
      le 4 (max rt.now ((comOf rt e).latch.claimedAt + holdLimit) - (comOf rt e).latch.claimedAt),
    houseProg := (clerkOf rt c).houseProg }

theorem advanceTo_now (t : Nat) (rt : Rt) : (advanceTo t rt).now = max rt.now t := by
  have h : (advanceTo t rt).now = rt.now + (t - rt.now) := rfl
  omega

theorem doLatchBreak_of_press {e : EngineRef} {c : ClerkId} {id : CmdId} {m : Cmd} {rt : Rt} (hholder : holderOf rt e = some c)
    (hjob : (clerkOf rt c).job = some id) (hcmd : kget rt.cmds id = some m) (hkind : e.kind = .press) (hidle : (comOf rt e).running = false)
    (hfatal : inFatal rt = false) (hhalt : inTamperHalt rt = false) :
    doLatchBreak e rt = raise (latchBreakEvent e c m rt) (failWith id stDeviceFault (advanceTo ((comOf rt e).latch.claimedAt + holdLimit) rt)) := by
  have hkeeps : kget (advanceTo ((comOf rt e).latch.claimedAt + holdLimit) rt).cmds id = some m := hcmd
  simp only [doLatchBreak, hholder, hjob, hkind, hidle, hfatal, hhalt, advanceTo_now, hkeeps]
  rfl

/-! ## Zeroing and the mask reseed (14 R300, R313) -/

theorem doEngineZeroingEnd_eq {e : EngineRef} {rt : Rt} (hkind : e.kind ≠ .reckoner) (h : (comOf rt e).latch.wiping = true) :
    doEngineZeroingEnd e rt = passLatch e (clearWiping e rt) := by simp [doEngineZeroingEnd, hkind, h]

@[simp] theorem comOf_setMint (d : Nat) (m : Mint) (rt : Rt) (e : EngineRef) : comOf (setMint d m rt) e = comOf rt e := by
  unfold setMint; split <;> rfl

@[simp] theorem mintOf_setCom (e : EngineRef) (x : EngCom) (rt : Rt) (d : Nat) : mintOf (setCom e x rt) d = mintOf rt d := by
  simp only [mintOf, setCom_mint0, setCom_mint1]

theorem doMaskReseedRequest_eq {e : EngineRef} {rt : Rt} (hkind : e.kind ≠ .reckoner) (hexists : engineExists e = true)
    (hblocks : maskAsk ≤ (comOf rt e).blocks) (hasked : (comOf rt e).reseedAsked = false) :
    doMaskReseedRequest e rt = setMint e.die.val { mintOf rt e.die.val with waiting := .reseed e :: (mintOf rt e.die.val).waiting }
      (setCom e { comOf rt e with reseedAsked := true } rt) := by
  simp [doMaskReseedRequest, hkind, hexists, hblocks, hasked]

/-- A latch whose FIFO is empty passes to no clerk. -/
theorem comOf_passLatch_of_empty {e : EngineRef} {rt : Rt} (h : (comOf rt e).latch.fifo = []) : comOf (passLatch e rt) e = comOf rt e := by
  unfold passLatch
  simp only [h]
  rfl

theorem comOf_maskReseed {e : EngineRef} {rt : Rt} (h : (comOf rt e).latch.fifo = []) : comOf (maskReseed e rt) e =
    { comOf rt e with blocks := 0, reseedAsked := false, rejecting := false, running := false } := by
  unfold maskReseed
  dsimp only
  rw [comOf_passLatch_of_empty (by rw [comOf_setCom_self]; exact h), comOf_setCom_self]

theorem doMaskReseedArrival_eq {e : EngineRef} {rt : Rt} (hasked : (comOf rt e).reseedAsked = true) (hseeded : (mintOf rt e.die.val).seeded = true) :
    doMaskReseedArrival e rt = maskReseed e (setMint e.die.val (dropReseed e (mintOf rt e.die.val)) rt) := by
  simp [doMaskReseedArrival, hasked, hseeded]

theorem doMaskReseedTimeout_eq {e : EngineRef} {c : ClerkId} {rt : Rt} (hkind : e.kind ≠ .reckoner) (hholder : holderOf rt e = some c)
    (hrunning : (comOf rt e).running = true) : doMaskReseedTimeout e rt =
      afterCommand e (popQueue e (recordOutcome c stRngUnavailable 0 (setCom e { comOf rt e with rejecting := true } rt))) := by
  simp [doMaskReseedTimeout, hkind, hholder, hrunning]

/-! ## The streams (11 R244) -/

theorem doInputStreamRead_of_session {c : ClerkId} {b : Block} {q : List Block} {id : CmdId} {m : Cmd} {p : Nat} {rt : Rt} (srcOk : Bool)
    (hq : (clerkOf rt c).inQ = b :: q) (hjob : (clerkOf rt c).job = some id) (hcmd : kget rt.cmds id = some m) (hptr : blkP b 4 = some p)
    (hsession : m.session.isSome = true) (hfatal : inFatal rt = false) (hhalt : inTamperHalt rt = false) :
    doInputStreamRead c srcOk rt =
      (let rt1 := writeBytes c p (padTo (blkD b 6) (slice m.input (clerkOf rt c).inPos (blkD b 6))) rt
       streamDone c false (setClerk c { clerkOf rt1 c with
         inPos := (clerkOf rt c).inPos + min (blkD b 6) (m.input.length - (clerkOf rt c).inPos) } rt1)) := by
  have hlocal : m.session.isNone = false := by rw [← Option.not_isSome, hsession]; rfl
  simp only [doInputStreamRead, hq, hjob, hcmd, hptr, hfatal, hhalt, hlocal, Bool.false_and, Bool.and_false, Bool.false_eq_true, or_self, if_false]
  rfl

theorem doOutputStreamWrite_eq {c : ClerkId} {b : Block} {q : List Block} {id : CmdId} {p : Nat} {rt : Rt}
    (hq : (clerkOf rt c).outQ = b :: q) (hjob : (clerkOf rt c).job = some id) (hptr : blkP b 2 = some p)
    (hfatal : inFatal rt = false) (hhalt : inTamperHalt rt = false) :
    doOutputStreamWrite c rt =
      (let rt1 := modCmd id (fun m => { m with output := m.output ++ readBytes rt c (blkD b 6) p }) rt
       streamDone c true (setClerk c { clerkOf rt1 c with streamUsed := true } rt1)) := by
  simp only [doOutputStreamWrite, hq, hjob, hptr, hfatal, hhalt, Bool.false_eq_true, or_self, if_false]

/-! ## LOCKSMITH_DELIVERY (11 R246, 14 R301) -/

/-- A context whose command reads tiles as the row gives them. -/
def withReads (x : JobCtx) (t : List (Nat × TileImage)) : JobCtx := { x with cmd := { x.cmd with reads := t } }

theorem lookKey_withReads {x : JobCtx} {t : List (Nat × TileImage)} {h : BitVec 64} {ok : SlotRec → Bool} {slot : Nat} {r : SlotRec} {rt : Rt}
    (hmiss : tileMiss rt x h t = none) (hfind : findKey rt x.house x.cmd.bundle x.cmd.epoch h ok = .key slot r) :
    lookKey rt (withReads x t) h ok = .key slot r := by
  have hmiss' : tileMiss rt (withReads x t) h (withReads x t).cmd.reads = none := hmiss
  have hfind' : findKey rt (withReads x t).house (withReads x t).cmd.bundle (withReads x t).cmd.epoch h ok = .key slot r := hfind
  simp only [lookKey, checked, hmiss', hfind']

/-- A plain request for an AES key of a press's register 0. -/
structure PlainRequest (q : LockReq) (e : EngineRef) : Prop where
  engine : q.eng = some e
  press : e.kind = .press
  target : q.target = 0
  plain : q.deriv = 0
  data : q.data = []

/-- The key that a delivery places, with the permissions of the stored one. -/
def storedKey (r : SlotRec) (m : Bytes) : EngKey := { alg := .aes, key := m, perms := storedPerms r, payload := false }

theorem deliverKey_plain {x : JobCtx} {q : LockReq} {e : EngineRef} {r : SlotRec} (h : PlainRequest q e) (halg : keyAlgOf r.alg = some .aes)
    (m : Bytes) (rt : Rt) : deliverKey x q e r m rt = .go (setPress (ekey e) { pressOf rt (ekey e) with k0 := some (storedKey r m) } rt) := by
  obtain ⟨heng, hkind, htarget, hderiv, hdata⟩ := h
  simp [deliverKey, hderiv, hdata, halg, hkind, engineTakes, htarget, putKey, storedKey]

theorem setCache_keeps {α : Type} (g : Rt → α) (hg : ∀ rt s, g { rt with strong := s } = g rt) (d : Nat) (l : List Nat) (rt : Rt) :
    g (setCache d l rt) = g rt := by
  unfold setCache; split <;> exact hg _ _

theorem touchTiles_keeps {α : Type} (g : Rt → α) (hg : ∀ rt s, g { rt with strong := s } = g rt) (d : Nat) (l : List Nat) (rt : Rt) :
    g (touchTiles d l rt) = g rt := foldl_keeps g fun r _ => setCache_keeps g hg d _ r

theorem serveRequest_plain {x : JobCtx} {q : LockReq} {e : EngineRef} {slot : Nat} {r : SlotRec} {rt : Rt} (h : PlainRequest q e)
    (halg : keyAlgOf r.alg = some .aes) (hlook : lookKey rt x q.handle (requestAccepts rt x q) = .key slot r) :
    serveRequest x q rt = .go (setPress (ekey e)
      { pressOf rt (ekey e) with k0 := some (storedKey r (materialOf rt x.cmd.bundle x.cmd.epoch slot r)) }
      (touchTiles x.cmd.die (readTiles rt x.cmd.bundle x.cmd.epoch slot r) rt)) := by
  simp only [serveRequest, h.engine, hlook, h.press, deliverKey_plain h halg]
  rw [pressOf, touchTiles_keeps Rt.presses fun _ _ => rfl, ← pressOf]

/-- The request of a clerk is withdrawn once it is served. -/
def withdrawn (c : ClerkId) (rt : Rt) : Rt := { rt with strong := { rt.strong with reqs := rt.strong.reqs.filter fun y => y.clerk ≠ c } }

theorem find_withdrawn (c : ClerkId) (rt : Rt) : ((withdrawn c rt).strong.reqs.find? fun y => y.clerk == c) = none := by
  simp [withdrawn, List.find?_filter]

theorem doLocksmithDelivery_eq {c : ClerkId} {t : List (Nat × TileImage)} {q : LockReq} {x : JobCtx} {rt rt1 : Rt}
    (hreq : (rt.strong.reqs.find? fun y => y.clerk == c) = some q) (hctx : jobCtx rt c = some x) (hidle : engineIdle rt q = true)
    (hfatal : inFatal rt = false) (hhalt : inTamperHalt rt = false) (hserve : serveRequest (withReads x t) q rt = .go rt1) :
    doLocksmithDelivery c t rt = setClerk c { clerkOf (withdrawn c rt1) c with st := .running } (withdrawn c rt1) := by
  rw [withReads] at hserve
  simp only [doLocksmithDelivery, hreq, hctx, hidle, hfatal, hhalt, hserve, Bool.not_true, Bool.or_self, Bool.false_eq_true, if_false]
  rfl

/-! ## The statement -/

/-- Settles O22, row by row. -/
theorem engineEvents : Obligations.EngineEvents := by
  refine ⟨fun e c id m s hholder hjob hcmd hkind hidle hfatal hhalt => ?_, fun e s hkind h => ?_, fun e s hkind hexists hblocks hasked => ?_,
    fun e s hasked hseeded hfifo => ?_, fun e c s hkind hholder hrunning => ?_,
    fun c b q id m p srcOk s => ?_, fun c b q id p s hq hjob hptr hfatal hhalt => ?_,
    fun c t q x e slot r s hreq hctx heng hkind hqueue hidle hfatal hhalt hmiss htarget hderiv hdata hfind halg => ?_⟩
  · refine ⟨latchBreakEvent e c m s.rt, _, rfl, ?_, rfl, rfl, rfl, rfl, rfl⟩
    exact congrArg (fun rt => { s with rt := rt }) (doLatchBreak_of_press hholder hjob hcmd hkind hidle hfatal hhalt)
  · exact next_onRt_congr (doEngineZeroingEnd_eq hkind h)
  · refine ⟨_, rfl, ?_, ?_⟩
    · rw [onRt_rt, doMaskReseedRequest_eq hkind hexists hblocks hasked, comOf_setMint, comOf_setCom_self]
    · rw [onRt_rt, doMaskReseedRequest_eq hkind hexists hblocks hasked, mintOf_setMint_self]
  · refine ⟨_, rfl, ?_⟩
    rw [onRt_rt, doMaskReseedArrival_eq hasked hseeded, comOf_maskReseed (by rw [comOf_setMint]; exact hfifo)]
    exact ⟨rfl, rfl, rfl, rfl⟩
  · exact next_onRt_congr (doMaskReseedTimeout_eq hkind hholder hrunning)
  · intro k hq hjob hcmd hptr hsession hfatal hhalt
    exact next_onRt_congr (doInputStreamRead_of_session srcOk hq hjob hcmd hptr hsession hfatal hhalt)
  · exact next_onRt_congr (doOutputStreamWrite_eq hq hjob hptr hfatal hhalt)
  · have hserve := serveRequest_plain ⟨heng, hkind, htarget, hderiv, hdata⟩ halg (lookKey_withReads (ok := requestAccepts s.rt (withReads x t) q) hmiss hfind)
    have hengine : engineIdle s.rt q = true := by simp [engineIdle, heng, hqueue, hidle]
    refine ⟨_, rfl, ?_⟩
    rw [onRt_rt, doLocksmithDelivery_eq hreq hctx hengine hfatal hhalt hserve]
    refine ⟨?_, by rw [clerkOf_setClerk_self], find_withdrawn c _⟩
    exact congrArg Press.k0 (pressOf_setPress_self _ _ _)

end Sys2Proof.Machine
end

section
/-! PROOFS. The registers that the host reads and writes (25): when a block is served, the latching reads, the mailbox block, the
acknowledgement of faults and the tally presets. -/

namespace Sys2Proof.Machine

/-! ## Service of a block -/

/-- Every block in front of the clockmaker's is served whenever the host reaches the module (Table 25.2). -/
theorem blockServed_of_reaches {rt : Rt} {off : Nat} (h : hostReaches rt = true) (hoff : off < 0x7000) :
    blockServed rt off = true := by
  have hconfig : ¬ 0x1400000 ≤ off := by omega
  have hlow : ¬ 0x7000 ≤ off := by omega
  simp [blockServed, h, hconfig, hlow]

theorem mustRetry_of_lt (rt : Rt) {off : Nat} (h : off < 0x1400000) : mustRetry rt off = false := by
  have hconfig : ¬ 0x1400000 ≤ off := by omega
  simp [mustRetry, hconfig]

theorem mustRetry_of_unserved {rt : Rt} {off : Nat} (h : 0x1400000 ≤ off) (hc : configServed rt = false) :
    mustRetry rt off = true := by simp [mustRetry, h, hc]

/-! ## Reads -/

/-- The latch that a read sets is nothing that the host sees of this read (R470). -/
@[simp] theorem latchRead_out (off : Nat) (rt : Rt) : (latchRead off rt).out = rt.out := by
  simp only [latchRead]; split <;> rfl

/-- A read that is answered sends its value. -/
theorem doLatchingRegisterRead_out {off : Nat} (size : Nat) {s : State} (h : hostReaches s.rt = true)
    (hr : mustRetry s.rt off = false) :
    (doLatchingRegisterRead off size s).rt.out = s.rt.out ++ [.readData off (barRead s off size)] := by
  rw [doLatchingRegisterRead]
  simp only [h, hr, Bool.not_true, Bool.false_eq_true, if_false, onRt_rt]
  split <;> simp [emit]

/-- A served word is read with its latch. -/
theorem doLatchingRegisterRead_word {off : Nat} {s : State} (h : hostReaches s.rt = true) (hoff : off < 0x7000)
    (ha : off % 4 = 0) :
    doLatchingRegisterRead off 4 s =
      onRt (fun rt => emit (.readData off (w32 (regValue s off))) (latchRead off rt)) s := by
  have hb := blockServed_of_reaches h hoff
  simp [doLatchingRegisterRead, h, mustRetry_of_lt s.rt (show off < 0x1400000 by omega), barRead, ha, hb, onRt]

/-- Another size or alignment reads all ones (R110). -/
theorem barRead_of_unaligned {off size : Nat} (s : State) (h : size ≠ 4 ∨ off % 4 ≠ 0) : barRead s off size = 0xFFFFFFFF :=
  if_pos h

/-- EPOCH_LO latches the upper word, which the read of EPOCH_HI then returns (R470). -/
theorem epoch_read {s : State} (h : hostReaches s.rt = true) : ∃ t, exec (.latchingRegisterRead 0x1020 4) s = .next t ∧
    t.rt.out = s.rt.out ++ [.readData 0x1020 (BitVec.ofNat 32 (s.rt.epoch % 2 ^ 32))] ∧
    t.rt.rlatch.epochHi = some (BitVec.ofNat 32 (s.rt.epoch / 2 ^ 32)) ∧
    ∃ u, exec (.latchingRegisterRead 0x1024 4) t = .next u ∧
      u.rt.out = t.rt.out ++ [.readData 0x1024 (BitVec.ofNat 32 (s.rt.epoch / 2 ^ 32))] := by
  refine ⟨_, congrArg Host.Outcome.next (doLatchingRegisterRead_word h (by decide) rfl), rfl, rfl, _,
    congrArg Host.Outcome.next (doLatchingRegisterRead_word ?_ (by decide) rfl), ?_⟩
  · exact h
  · have hhi : ∀ v : BitVec 32, w32 v.toNat = v := fun v => by simp [w32]
    exact congrArg (fun v => _ ++ [Out.readData 0x1024 v]) (hhi _)

/-! ## Writes -/

/-- A write of a word to a served block is a write of its register. -/
theorem doRegisterWrite_word {off : Nat} (v : BitVec 32) {s : State} (h : hostReaches s.rt = true) (hoff : off < 0x7000)
    (ha : off % 4 = 0) : doRegisterWrite off 4 v s = writeReg off v s := by
  simp [doRegisterWrite, mustRetry_of_lt s.rt (show off < 0x1400000 by omega), ha, blockServed_of_reaches h hoff]

/-- The blocks of identity and boot status are read only (Table 25.1). -/
theorem writeReg_readOnly {off : Nat} (v : BitVec 32) (s : State) (h : off < 0x2000) : writeReg off v s = s := by
  have hconfig : writeConfig off v s.rt = s.rt := by
    rw [writeConfig, if_neg (by omega), if_neg (by omega)]
  rw [writeReg, if_neg (by omega), if_neg (by omega), if_neg (by omega), if_neg (by omega), if_neg (by omega),
    if_neg (by omega), if_neg (by omega), if_neg (by omega)]
  exact congrArg (fun rt => { s with rt := rt }) hconfig

theorem doRegisterWrite_readOnly {off : Nat} (v : BitVec 32) (s : State) (h : off < 0x2000) :
    doRegisterWrite off 4 v s = s := by
  rw [doRegisterWrite, mustRetry_of_lt s.rt (by omega), Bool.and_false, if_neg (by decide), writeReg_readOnly v s h, ite_self]

theorem doRegisterWrite_of_unaligned {off size : Nat} (v : BitVec 32) {s : State} (hr : mustRetry s.rt off = false)
    (h : size ≠ 4 ∨ off % 4 ≠ 0) : doRegisterWrite off size v s = s := by
  rw [doRegisterWrite, hr, Bool.and_false, if_neg (by decide), if_neg (by omega)]

/-! ## The mailbox block -/

theorem writeReg_mailbox {off : Nat} (v : BitVec 32) (s : State) (h : 0x2000 ≤ off) (h' : off < 0x4000) :
    writeReg off v s = onRt (writeMailbox (off - 0x2000) v) s := if_pos ⟨h, h'⟩

/-- While BUSY is clear a write to the request buffer replaces its word (R116). -/
theorem writeMailbox_request {k : Nat} (v : BitVec 32) {rt : Rt} (hb : rt.mbx.busy = false) (hk : k < 512) :
    writeMailbox (0x800 + 4 * k) v rt = { rt with mbx := { rt.mbx with req := kput 0 rt.mbx.req k v } } := by
  have hidx : (0x800 + 4 * k - 0x800) / 4 = k := by omega
  rw [writeMailbox, if_neg (by omega), if_neg (by omega), if_pos ⟨by omega, by omega, by simp [hb]⟩, hidx]

@[simp] theorem wakeHead_mbx (rt : Rt) : (wakeHead rt).mbx = rt.mbx := by
  simp only [wakeHead]; split <;> rfl

/-- MBX_GO with a request that a row of the module serves sets BUSY and leaves the request to its row (R116, R367). -/
theorem mbxGo_mbx_of_listed {rt : Rt} (hb : rt.mbx.busy = false) (hq : unlisted (parseReq (reqBuffer rt.mbx)) = false) :
    (mbxGo rt).mbx = { rt.mbx with busy := true, goAt := rt.now } := by
  have hbuf : ∀ m : Mbx, reqBuffer { m with busy := true, goAt := rt.now } = reqBuffer m := fun _ => rfl
  rw [mbxGo]
  simp only [hb, Bool.false_eq_true, if_false, wakeHead_mbx, hbuf, hq]

theorem unlisted_of_code_one {q : Req} (h : q.code = 0x01) : unlisted q = false := by
  simp [unlisted, h, listedCodes]

/-! ## Tally presets -/

theorem presetOf_of_free {k : Nat} (rt : Rt) (h : 3 ≤ k) : presetOf rt k = kgetD rt.tally.presets k Preset.zero := by
  rw [presetOf]
  · omega
  · omega
  · omega

/-- A good preset that is neither valid nor locked is set valid and kept (R404). -/
theorem doTallyPresetValidate_of_good {k : Nat} {s : State} (h3 : 3 ≤ k) (h7 : k ≤ 7) (hb : blockServed s.rt 0x9000 = true)
    (hl : presetLocked s k = false) (hv : (presetOf s.rt k).valid = false) (hp : presetOk (presetOf s.rt k) = true) :
    doTallyPresetValidate k s = { setPreset k { presetOf s.rt k with valid := true } s with
      nv := { s.nv with presets := kput Preset.zero s.nv.presets k { presetOf s.rt k with valid := true } } } := by
  simp [doTallyPresetValidate, h3, h7, hb, hl, hv, hp, setPreset]

theorem doTallyPresetValidate_of_bad {k : Nat} {s : State} (hp : presetOk (presetOf s.rt k) = false) :
    doTallyPresetValidate k s = s := by
  simp [doTallyPresetValidate, hp]

theorem presetOf_setPreset {k : Nat} (p : Preset) (s : State) (h : 3 ≤ k) : presetOf (setPreset k p s).rt k = p :=
  (presetOf_of_free _ h).trans (kgetD_kput_self ..)

/-! ## The obligation -/

/-- Settles O26, register by register: a block in front of the clockmaker's is served whenever the host reaches the module, and a
write falls on the one register of its offset. -/
theorem registerCommands : Obligations.RegisterCommands := by
  unfold Obligations.RegisterCommands
  refine ⟨fun s h => epoch_read h, ?_, ?_, fun off v s h => ?_, fun off size v s hr h => ?_, ?_, ?_, ?_, ?_, ?_⟩
  case refine_1 =>
    intro off size s h hr ha
    exact ⟨_, rfl, (doLatchingRegisterRead_out size h hr).trans (by rw [barRead_of_unaligned s ha])⟩
  case refine_2 =>
    intro k v s h hb hk
    have hoff : 0x2800 + 4 * k - 0x2000 = 0x800 + 4 * k := by omega
    have hw : doRegisterWrite (0x2800 + 4 * k) 4 v s =
        onRt (fun rt => { rt with mbx := { rt.mbx with req := kput 0 rt.mbx.req k v } }) s := by
      rw [doRegisterWrite_word v h (by omega) (by omega), writeReg_mailbox v s (by omega) (by omega), hoff]
      exact congrArg (fun rt => { s with rt := rt }) (writeMailbox_request v hb hk)
    exact ⟨_, congrArg Host.Outcome.next hw, kgetD_kput_self .., fun j hj => kgetD_kput_ne _ _ _ hj.symm, hb, rfl⟩
  case refine_3 => exact congrArg Host.Outcome.next (doRegisterWrite_readOnly v s h)
  case refine_4 => exact congrArg Host.Outcome.next (doRegisterWrite_of_unaligned v hr h)
  case refine_5 =>
    intro off size v s h hoff hc
    have hr := mustRetry_of_unserved hoff hc
    constructor
    · exact congrArg Host.Outcome.next (by simp [doLatchingRegisterRead, h, hr])
    · exact congrArg Host.Outcome.next (by simp [doRegisterWrite, h, hr])
  case refine_6 =>
    intro s h hb hq
    have hw : doRegisterWrite 0x2000 4 1 s = onRt mbxGo s := by
      rw [doRegisterWrite_word 1 h (by decide) rfl, writeReg_mailbox 1 s (by decide) (by decide)]
      rfl
    have hm := mbxGo_mbx_of_listed hb (unlisted_of_code_one hq)
    exact ⟨_, congrArg Host.Outcome.next hw, congrArg Mbx.busy hm, (congrArg Mbx.req hm :)⟩
  case refine_7 =>
    intro v s h
    refine ⟨onRt (doFaultAck v) s, rfl, ?_⟩
    rw [onRt_rt, doFaultAck, if_pos h]
    exact ⟨rfl, rfl, rfl, rfl, rfl, rfl, rfl, rfl⟩
  case refine_8 =>
    intro k s h3 h7 hb hl hv
    constructor
    · intro hp
      exact ⟨_, congrArg Host.Outcome.next (doTallyPresetValidate_of_good h3 h7 hb hl hv hp),
        presetOf_setPreset _ s h3, by simp⟩
    · exact fun hp => congrArg Host.Outcome.next (doTallyPresetValidate_of_bad hp)
  case refine_9 =>
    intro s h hb
    exact next_onRt_congr (by simp [doMbxGoWhileBusy, h, hb])

end Sys2Proof.Machine
end

section
/-! PROOFS. Fault events (22): what a contained event writes, what an escalated one stops (R17, R432), the fabric's two rows (03 R62, R64)
and the two holds of ALERT_N (R439). -/

namespace Sys2Proof.Machine

/-! ## The end of admitted commands (R17) -/

theorem stopAll_cmds (st : Nat) (rt : Rt) :
    (stopAll st rt).cmds = rt.cmds.map fun kv => (kv.1, stopCmd st rt.disp.nextEnd kv.2) := by
  unfold stopAll
  extract_lets ended
  have hended : sansJob ended = sansJob rt := foldl_keeps sansJob fun r kv => sansJob_endJob kv.1 kv.2.blocks r
  have hcmds : ended.cmds = rt.cmds := read_of_rest Rt.cmds hended fun _ => rfl
  have hdisp : ended.disp = rt.disp := read_of_rest Rt.disp hended fun _ => rfl
  rw [hcmds, hdisp]

/-- Every admitted command ends with the status that stops it. -/
theorem stopAll_ends {st : Nat} {rt : Rt} {id : CmdId} {c : Cmd} (hc : kget rt.cmds id = some c) (hadm : c.admitted = true) :
    ∃ d, kget (stopAll st rt).cmds id = some d ∧ d.stage = .ended ∧ d.status = st := by
  rw [stopAll_cmds, kget_map, hc]
  exact ⟨_, rfl, by rw [stopCmd, if_pos hadm], by rw [stopCmd, if_pos hadm]⟩

theorem fatalStage_cmds (rt : Rt) : (fatalStage rt).cmds = rt.cmds := by
  unfold fatalStage; split <;> rfl

/-! ## Contained events -/

/-- What signals a change leaves all but the message of vector 0. -/
theorem signalUnless_eq (c : Bool) (rt : Rt) : ∃ x o, (if c then rt else signal 0 rt) = { rt with msix := x, out := o } := by
  split
  · exact ⟨rt.msix, rt.out, rfl⟩
  · exact signal_eq 0 rt

/-- The state with an event's record written, pending and latched (R436). -/
def withRecord (r : FaultRec) (rt : Rt) : Rt := { rt with fault := setPending r (writeRecord r rt.fault) }

/-- What the record of an event signals: ALERT_N, but for a corrected one, and vector 0 (R113, R439). -/
def notified (r : FaultRec) (rt : Rt) : Rt :=
  let asserted := if r.cls = .corrected then withRecord r rt else alertAssert (withRecord r rt)
  if asserted.fault.irqMask.getLsbD (classBit r.cls) && asserted.alert.pin == (withRecord r rt).alert.pin then asserted
  else signal 0 asserted

theorem notified_eq {r : FaultRec} (hr : r.cls ≠ .corrected) (rt : Rt) :
    ∃ x o, notified r rt = { alertAssert (withRecord r rt) with msix := x, out := o } := by
  rw [notified, if_neg hr]
  exact signalUnless_eq _ _

/-- What follows the classification of an event that is pending under its final class (R432, R439). -/
def reportAs (r : FaultRec) (rt : Rt) : Rt :=
  let sent := notified r rt
  if r.cls = .fatal then fatalStage (if inTamperHalt sent then sent else stopAll stDeviceFault sent) else sent

/-- Before a halt, an event of a plain class is reported under it, or one higher when its flag is set. -/
theorem report_of_class {e : FaultEvent} {rt : Rt} {c : FClass} (hbooth : boothAttr e = false) (hclass : classifOf rt e = .cls c)
    (hhalted : rt.fault.halted = false) :
    report e rt = reportAs (mkRecord rt e (if pendOf rt.fault c && decide (c ≠ .fatal) then escalate c else c)
      (pendOf rt.fault c && decide (c ≠ .fatal)) false false) rt := by
  have hc : classify rt e = (c, false, false, rt.fault.wins) := by rw [classify, hclass]
  unfold report
  rw [hbooth, if_neg Bool.false_ne_true, hc]
  exact (if_neg Bool.false_ne_true).trans ((if_neg (Bool.eq_false_iff.mp hhalted)).trans (if_neg Bool.false_ne_true))

/-- A contained event that finds no flag set is recorded, pending and latched, and drives ALERT_N (R436, R439). -/
theorem report_of_contained {e : FaultEvent} {rt : Rt} (hbooth : boothAttr e = false) (hclass : classifOf rt e = .cls .contained)
    (hhalted : rt.fault.halted = false) (hpend : rt.fault.pendCont = false) :
    ∃ x o, report e rt =
      { alertAssert (withRecord (mkRecord rt e .contained false false false) rt) with msix := x, out := o } := by
  have hesc : pendOf rt.fault .contained = false := hpend
  rw [report_of_class hbooth hclass hhalted, hesc]
  exact notified_eq (r := mkRecord rt e .contained false false false) (fun h => nomatch h) rt

/-- Outside a fatal fault a contained event goes no further. -/
theorem raise_of_contained {e : FaultEvent} {rt : Rt} (hbooth : boothAttr e = false) (hclass : classifOf rt e = .cls .contained)
    (hfatal : inFatal rt = false) (hpend : rt.fault.pendCont = false) :
    ∃ x o, raise e rt =
      { alertAssert (withRecord (mkRecord rt e .contained false false false) rt) with msix := x, out := o } := by
  have hhalted : rt.fault.halted = false := (Bool.or_eq_false_iff.mp hfatal).2
  obtain ⟨x, o, h⟩ := report_of_contained hbooth hclass hhalted hpend
  refine ⟨x, o, ?_⟩
  rw [raise, h]
  exact if_neg (Bool.eq_false_iff.mp hfatal)

/-- The record of an event that its class's flag raises to fatal (R432). -/
def escalatedRecord (e : FaultEvent) (rt : Rt) : FaultRec := mkRecord rt e .fatal true false false

/-- A contained event that finds PEND_CONT set is fatal: it halts the module and stops what is admitted (R17, R432). -/
theorem report_of_escalated {e : FaultEvent} {rt : Rt} (hbooth : boothAttr e = false) (hclass : classifOf rt e = .cls .contained)
    (hhalted : rt.fault.halted = false) (hpend : rt.fault.pendCont = true) (htamper : inTamperHalt rt = false) :
    ∃ r, sansNotice r = sansNotice rt ∧
      r.fault = setPending (escalatedRecord e rt) (writeRecord (escalatedRecord e rt) rt.fault) ∧
      report e rt = fatalStage (stopAll stDeviceFault r) := by
  have hesc : pendOf rt.fault .contained = true := hpend
  rw [report_of_class hbooth hclass hhalted, hesc]
  obtain ⟨x, o, h⟩ := notified_eq (r := escalatedRecord e rt) (fun h => nomatch h) rt
  have hstill : inTamperHalt (notified (escalatedRecord e rt) rt) = false := by rw [h]; exact htamper
  refine ⟨notified (escalatedRecord e rt) rt, by rw [h]; rfl, by rw [h]; rfl, congrArg fatalStage ?_⟩
  exact if_neg (Bool.eq_false_iff.mp hstill)

/-- The end of the pairing leaves the commands. -/
theorem unpair_cmds_of_halted {rt : Rt} (h : rt.fault.halted = true) :
    (unpair rt).cmds = rt.cmds ∧ (unpair rt).peer.paired = false := by
  unfold unpair
  split
  · obtain ⟨r, w, hrep⟩ := report_of_halted (plainEvent .peerLink [])
      (rt := { rt with peer := { rt.peer with paired := false, lost := true } }) h
    rw [hrep]
    exact ⟨rfl, rfl⟩
  · next hp => exact ⟨rfl, Bool.eq_false_iff.mpr hp⟩

theorem raise_of_escalated {e : FaultEvent} {rt : Rt} (hbooth : boothAttr e = false) (hclass : classifOf rt e = .cls .contained)
    (hhalted : rt.fault.halted = false) (hpend : rt.fault.pendCont = true) (htamper : inTamperHalt rt = false) :
    kget (raise e rt).fault.ring (rt.fault.nextSeq % 40) = some (escalatedRecord e rt) ∧ (raise e rt).fault.halted = true ∧
      (raise e rt).fault.pendFatal = true ∧ (raise e rt).peer.paired = false ∧
      ∀ id c, kget rt.cmds id = some c → c.admitted = true →
        ∃ d, kget (raise e rt).cmds id = some d ∧ d.stage = .ended ∧ d.status = stDeviceFault := by
  obtain ⟨r, hrest, hrec, hreport⟩ := report_of_escalated hbooth hclass hhalted hpend htamper
  have hstill : inTamperHalt r = false := (read_of_rest inTamperHalt hrest fun _ => rfl).trans htamper
  have hstop : sansSignal (fatalStage (stopAll stDeviceFault r)) = sansSignal r := by
    have h := sansSignal_fatalStop r
    rwa [if_neg (Bool.eq_false_iff.mp hstill)] at h
  have hfault : (report e rt).fault = setPending (escalatedRecord e rt) (writeRecord (escalatedRecord e rt) rt.fault) := by
    rw [hreport, ← hrec]
    exact read_of_rest Rt.fault hstop fun _ => rfl
  have hhalt : (report e rt).fault.halted = true := by rw [hfault]; rfl
  have hfatal : inFatal (report e rt) = true := by rw [inFatal, hhalt, Bool.or_true]
  have hraise : raise e rt = unpair (report e rt) := if_pos hfatal
  obtain ⟨hpendFatal, hhalts, _⟩ := unpair_of_halted hhalt
  obtain ⟨hcmds, hpaired⟩ := unpair_cmds_of_halted hhalt
  rw [hraise, hpendFatal, hcmds, unpair_ring _ _ (report_recorded e rt).nextSeq]
  refine ⟨?_, hhalts, ?_, hpaired, fun id c hc hadm => ?_⟩
  · rw [hfault, setPending_ring]
    exact kget_kset_self _ _ _
  · rw [hfault]; rfl
  · have hsame : r.cmds = rt.cmds := read_of_rest Rt.cmds hrest fun _ => rfl
    rw [hreport, fatalStage_cmds]
    exact stopAll_ends (hsame ▸ hc) hadm

/-! ## The event of a source -/

/-- What LOCKSTEP's comparator adds to its event is detail alone. -/
theorem sourceEvent_eq (rt : Rt) (e : FaultEvent) : ∃ d, sourceEvent rt e = { e with detail := d } := by
  unfold sourceEvent
  split
  · exact ⟨_, rfl⟩
  · exact ⟨e.detail, rfl⟩

theorem doFaultEvent_of_power {e : FaultEvent} {rt : Rt} (hmain : mainPower rt = true) (hfail : rt.power.powerFail = false) :
    ∃ d, doFaultEvent e rt = raise { e with detail := d } rt := by
  obtain ⟨d, h⟩ := sourceEvent_eq rt e
  exact ⟨d, by rw [doFaultEvent, powered, hmain, hfail, h]; rfl⟩

/-! ## The fabric -/

/-- The event of a checker that corrects a flit. -/
def fabricCeEvent (die : Fin 3) (checker src : Nat) (addr : BitVec 56) : FaultEvent :=
  { source := .fabricCe, scope := die, island := some checker, booth := none, detail := fabricDetail src addr, houseProg := false }

theorem fabricDetail_length (src : Nat) (addr : BitVec 56) : (fabricDetail src addr).length = 8 := by
  rw [fabricDetail, List.length_cons, le_length]

/-- The first correction on a die is counted alone (R431). -/
theorem classify_fabricCe (die : Fin 3) (checker src : Nat) (addr : BitVec 56) {rt : Rt} (hforce : rt.fault.inForce = [])
    (hwins : rt.fault.wins = []) : classify rt (fabricCeEvent die checker src addr) =
      (.corrected, false, true, [{ source := .fabricCe, scope := die, times := [rt.now] }]) := by
  simp [classify, classifOf, fabricCeEvent, isFixed, defaultClassif, hforce, hwins]

/-- A quiet event is recorded, and nothing else happens (R431). -/
theorem raise_of_quiet {e : FaultEvent} {rt : Rt} {c : FClass} {sev : Bool} {w : List CountWin} (hbooth : boothAttr e = false)
    (hclass : classify rt e = (c, sev, true, w)) (hfatal : inFatal rt = false) :
    raise e rt = { rt with fault := writeRecord (mkRecord rt e .corrected false false true) { rt.fault with wins := w } } := by
  have hreport : report e rt =
      { rt with fault := writeRecord (mkRecord rt e .corrected false false true) { rt.fault with wins := w } } := by
    simp only [report, hbooth, hclass, Bool.false_eq_true, if_false, if_true]
    rfl
  rw [raise, hreport]
  exact if_neg (Bool.eq_false_iff.mp hfatal)

theorem doFabricCe_of_corrected {die : Fin 3} {checker src : Nat} {addr : BitVec 56} {f : Flit} {rt : Rt}
    (hmain : mainPower rt = true) (hfail : rt.power.powerFail = false) (hc : isCorrected (checkFlit rt.fabricPerm f) = true) :
    doFabricCe die checker src addr f rt = raise (fabricCeEvent die checker src addr) rt := by
  simp [doFabricCe, hc, doFaultEvent, powered, hmain, hfail, sourceEvent, fabricCeEvent]

/-- The event of a checker that finds an error that it cannot correct. -/
def fabricUeEvent (checker src : Nat) (addr : BitVec 56) (booth : Option Nat) : FaultEvent :=
  { source := .fabricUe, scope := 0, island := some checker, booth := booth, detail := fabricDetail src addr, houseProg := false }

theorem doFabricUe_command {checker src : Nat} {addr : BitVec 56} {f : Flit} {id : CmdId} {c : Cmd} {rt : Rt}
    (hmain : mainPower rt = true) (hfail : rt.power.powerFail = false) (hf : checkFlit rt.fabricPerm f = .uncorrectable)
    (hc : kget rt.cmds id = some c) (hid : c.id = id) (hst : c.stage = .dispatched) :
    doFabricUe checker src addr (.command id) f rt =
      failWith id stDeviceFault (raise (fabricUeEvent checker src addr (some c.booth)) rt) := by
  simp [doFabricUe, powered, hmain, hfail, hf, hc, hid, hst, fabricUeEvent]

theorem doFabricUe_management {checker src : Nat} {addr : BitVec 56} {f : Flit} {rt : Rt}
    (hmain : mainPower rt = true) (hfail : rt.power.powerFail = false) (hf : checkFlit rt.fabricPerm f = .uncorrectable) :
    doFabricUe checker src addr (.management false) f rt =
      failRequest stDeviceFault [] (raise (fabricUeEvent checker src addr none) rt) := by
  simp [doFabricUe, powered, hmain, hfail, hf, fabricUeEvent]

/-- No sink uses a poisoned flit (R62). -/
theorem sinkTakes_of_poison (v : Option Bytes) {f : Flit} (h : f.poison = true) : sinkTakes v f = none := by
  rw [sinkTakes, checkFlit, if_pos h]

/-- What a checker cannot correct goes on as poison, and no sink uses it. -/
theorem forwarded_of_uncorrectable {v : Option Bytes} {f : Flit} (h : checkFlit v f = .uncorrectable) :
    (forwarded v f).poison = true ∧ sinkTakes v f = none := by
  rw [forwarded, sinkTakes, h]
  exact ⟨rfl, rfl⟩

/-! ## ALERT_N (R439) -/

/-- The pin of ALERT_N with its drivers. -/
def pinOf (rt : Rt) : Bool := mainPower rt && (rt.alert.tamperHold || rt.alert.widthActive || rt.alert.hold)

theorem repin_alert (rt : Rt) : (repin rt).alert = { rt.alert with pin := pinOf rt } := by
  unfold repin
  extract_lets rt'
  split
  · rfl
  · obtain ⟨x, o, h⟩ := signal_eq 0 rt'
    rw [h]; rfl

/-- A pin that stays where it is signals nothing. -/
theorem repin_of_steady {rt : Rt} (h : rt.alert.pin = pinOf rt) : repin rt = rt := by
  have hsame : (alertPin rt).alert.pin = rt.alert.pin := h.symm
  have heq : alertPin rt = rt := congrArg (fun p => { rt with alert := { rt.alert with pin := p } }) h.symm
  exact (if_pos hsame).trans heq

/-- The end of the width while HOLD is 1 changes no pin. -/
theorem doAlertWidthExpiry_of_hold {rt : Rt} (hw : rt.alert.widthActive = true) (hp : rt.alert.pin = true)
    (hh : rt.alert.hold = true) (hm : mainPower rt = true) : doAlertWidthExpiry rt =
      { advanceTo rt.alert.widthEnds rt with alert := { rt.alert with widthActive := false } } := by
  have hpin : pinOf { advanceTo rt.alert.widthEnds rt with alert := { rt.alert with widthActive := false } } = true := by
    have hpower : mainPower { advanceTo rt.alert.widthEnds rt with alert := { rt.alert with widthActive := false } } = true := hm
    rw [pinOf, hpower, hh, Bool.or_true, Bool.and_true]
  rw [doAlertWidthExpiry, if_pos hw]
  exact repin_of_steady (hp.trans hpin.symm)

/-- HOLD clears once no flag stands (R439). -/
theorem doAlertHoldClear_alert {rt : Rt} (hc : rt.fault.pendCont = false) (hf : rt.fault.pendFatal = false)
    (hh : rt.fault.halted = false) : (doAlertHoldClear rt).alert = { rt.alert with
      hold := false, pin := mainPower rt && (rt.alert.tamperHold || rt.alert.widthActive) } := by
  rw [doAlertHoldClear, hc, hf, hh]
  refine (repin_alert _).trans ?_
  simp [pinOf, mainPower]

theorem doAlertHoldClear_of_pending {rt : Rt}
    (h : rt.fault.pendCont = true ∨ rt.fault.pendFatal = true ∨ rt.fault.halted = true) : doAlertHoldClear rt = rt := by
  rw [doAlertHoldClear, if_pos]
  simpa [or_assoc] using h

/-! ## The obligation -/

/-- Settles O27: a contained event by the record that it writes, an escalated one by the halt that follows its record, the fabric's
rows by the event that each raises. -/
theorem faultCommands : Obligations.FaultCommands := by
  unfold Obligations.FaultCommands
  refine ⟨?contained, ?escalated, ?fabricCe, ?fabricUe, ?poisoned, fun v f => sinkTakes_of_poison v rfl, ?width, ?hold, ?held⟩
  case contained =>
    intro e s hmain hfail hbooth hclass hfatal _ hpend
    obtain ⟨d, hrun⟩ := doFaultEvent_of_power (e := e) hmain hfail
    obtain ⟨x, o, hraise⟩ := raise_of_contained (e := { e with detail := d }) hbooth hclass hfatal hpend
    refine ⟨onRt (doFaultEvent e) s, mkRecord s.rt { e with detail := d } .contained false false false, rfl, ?_⟩
    rw [onRt_rt, hrun, hraise]
    refine ⟨kget_kset_self _ _ _, rfl, rfl, rfl, rfl, rfl, rfl, rfl, ?_, rfl, rfl, ?_, rfl⟩
    · exact if_neg (Bool.eq_false_iff.mp hpend)
    · show (mainPower s.rt && (s.rt.alert.tamperHold || true || true)) = true
      rw [hmain, Bool.or_true, Bool.and_true]
  case escalated =>
    intro e s hmain hfail hbooth hclass hhalted htamper hpend
    obtain ⟨d, hrun⟩ := doFaultEvent_of_power (e := e) hmain hfail
    obtain ⟨hring, hhalt, hpendFatal, hpaired, hcmds⟩ :=
      raise_of_escalated (e := { e with detail := d }) hbooth hclass hhalted hpend htamper
    refine ⟨onRt (doFaultEvent e) s, escalatedRecord { e with detail := d } s.rt, rfl, ?_⟩
    rw [onRt_rt, hrun]
    exact ⟨hring, rfl, rfl, hhalt, hpendFatal, hpaired, hcmds⟩
  case fabricCe =>
    intro die checker src addr f s hmain hfail hfatal hc hforce hwins
    have hrun := (doFabricCe_of_corrected (die := die) (checker := checker) (src := src) (addr := addr) hmain hfail hc).trans
      (raise_of_quiet rfl (classify_fabricCe die checker src addr hforce hwins) hfatal)
    have hdetail : padTo 8 ((fabricDetail src addr).take 8) = fabricDetail src addr := by
      have hlen := fabricDetail_length src addr
      simp [padTo, zeros, List.take_of_length_le, hlen]
    refine ⟨onRt (doFabricCe die checker src addr f) s, mkRecord s.rt (fabricCeEvent die checker src addr) .corrected false false true,
      rfl, ?_⟩
    rw [onRt_rt, hrun]
    exact ⟨kget_kset_self _ _ _, rfl, rfl, rfl, rfl, hdetail, rfl, rfl⟩
  case fabricUe =>
    intro checker src addr f id c s hmain hfail hf hc hid hst
    exact ⟨fabricUeEvent checker src addr (some c.booth), rfl, rfl, rfl,
      next_onRt_congr (doFabricUe_command hmain hfail hf hc hid hst)⟩
  case poisoned =>
    intro checker src addr f use s hf
    obtain ⟨hpoison, hsink⟩ := forwarded_of_uncorrectable hf
    refine ⟨hpoison, hsink, fun hmain hfail huse => ?_⟩
    rw [huse]
    exact ⟨fabricUeEvent checker src addr none, rfl, rfl, next_onRt_congr (doFabricUe_management hmain hfail hf)⟩
  case width =>
    intro s hw hp hh hm
    refine ⟨onRt doAlertWidthExpiry s, rfl, ?_⟩
    rw [onRt_rt, doAlertWidthExpiry_of_hold hw hp hh hm]
    exact ⟨rfl, rfl, advanceTo_now _ _⟩
  case hold =>
    intro s hc hf hh
    have halert := doAlertHoldClear_alert hc hf hh
    exact ⟨_, rfl, congrArg Alert.hold halert, congrArg Alert.pin halert⟩
  case held => exact fun s h => next_onRt_congr (g := id) (doAlertHoldClear_of_pending h)

end Sys2Proof.Machine
end

section
/-! PROOFS. The end of service at the rip line (21 R420): a command that R16 has ended stays so whatever the halt then refuses, and every
store of a secret stays zeroed as the request in progress is answered and the dies power down. -/

namespace Sys2Proof.Machine

/-! ## Commands that the halt has ended -/

/-- A command has ended with TAMPER_HALT and without output, and no bundle reaches it (R16). -/
structure HaltEnded (id : CmdId) (rt : Rt) : Prop where
  ended : ∃ d, kget rt.cmds id = some d ∧ d.stage = .ended ∧ d.status = stTamperHalt ∧ d.output = [] ∧ d.bundle = none
  free : ∀ u x, kget rt.bundles u = some x → id ∉ x.members

/-- The halt's end of a command rests on that command and on the bundles. -/
theorem HaltEnded.of_same {id : CmdId} {a b : Rt} (h : HaltEnded id a) (hc : kget b.cmds id = kget a.cmds id)
    (hb : b.bundles = a.bundles) : HaltEnded id b :=
  ⟨hc ▸ h.ended, hb ▸ h.free⟩

theorem HaltEnded.bundle {id u : Nat} {x : Bundle} {rt : Rt} (h : HaltEnded id rt) (hx : id ∉ x.members) :
    HaltEnded id { rt with bundles := kset rt.bundles u x } where
  ended := h.ended
  free v y hy := by
    rw [kget_kset] at hy
    split at hy
    · cases hy; exact hx
    · exact h.free v y hy

theorem HaltEnded.endJob {id j : CmdId} {rt : Rt} (h : HaltEnded id rt) : HaltEnded id (endJobOf j rt) :=
  h.of_same (by rw [cmds_endJobOf]) (read_of_rest Rt.bundles (sansJob_endJobOf j rt) fun _ => rfl)

theorem HaltEnded.modOther {id j : CmdId} {rt : Rt} (h : HaltEnded id rt) (hj : id ≠ j) (f : Cmd → Cmd) :
    HaltEnded id (modCmd j f rt) :=
  h.of_same (kget_kmod_ne f hj) rfl

theorem HaltEnded.close {id : CmdId} {rt : Rt} (h : HaltEnded id rt) (u : Nat) : HaltEnded id (closeClaimed u rt) := by
  refine h.of_same (by rw [closeClaimed_cmds]) ?_
  unfold closeClaimed
  split
  · split <;> rfl
  · rfl

theorem setEnded_bundles (j : CmdId) (st : Nat) (res out : Bytes) (n : Nat) (rt : Rt) :
    (setEnded j st res out n rt).bundles = rt.bundles := by
  have hresv (r : Rt) : (returnResv j r).bundles = r.bundles := by unfold returnResv; split <;> rfl
  unfold setEnded
  extract_lets ready resv ended disp numbered
  have hready : resv.bundles = rt.bundles := by
    unfold resv
    split
    · exact hresv ready
    · rfl
  split
  · exact hready
  · exact hready

/-- The end of another command does not reach it. -/
theorem HaltEnded.endOther {id j : CmdId} {rt : Rt} (h : HaltEnded id rt) (hj : id ≠ j) (st : Nat) (res out : Bytes) (n : Nat) :
    HaltEnded id (setEnded j st res out n rt) := by
  refine h.of_same ?_ (setEnded_bundles j st res out n rt)
  obtain ⟨f, hcmds, _⟩ := cmds_setEnded j st res out n rt
  have hresv : kget (returnResv j (unready j rt)).cmds id = kget rt.cmds id := by
    unfold returnResv
    split
    · rfl
    · exact kget_kmod_ne _ hj
  rw [hcmds, kget_kmod_ne f hj]
  split
  · exact hresv
  · rfl

/-- Every step of a fold that keeps a property makes the fold keep it. -/
theorem foldl_invariant {α β : Type} {P : β → Prop} {f : β → α → β} {l : List α} {r : β} (h : ∀ r, ∀ a ∈ l, P r → P (f r a)) (hr : P r) :
    P (l.foldl f r) :=
  List.foldlRecOn l f hr fun r hr a ha => h r a ha hr

theorem HaltEnded.settle {id : CmdId} {rt : Rt} (h : HaltEnded id rt) (u : Nat) : HaltEnded id (settleBundle u rt) := by
  unfold settleBundle
  split
  · exact h
  · next x hx =>
    have hfree : id ∉ x.members := h.free u x hx
    split
    · exact h
    · split
      · extract_lets settled
        have hsettled : HaltEnded id settled := by
          refine foldl_invariant (fun r j hmem hr => ?_) h
          have hj : id ≠ j := fun heq => hfree (heq ▸ hmem)
          exact (hr.modOther hj _).endJob.endOther hj _ _ _ _
        exact (hsettled.bundle (x := { x with changes := [], reads := [], entries := [] }) hfree).close u
      · exact h

theorem HaltEnded.failBundle {id : CmdId} {rt : Rt} (h : HaltEnded id rt) (u idx st : Nat) (res : Bytes) :
    HaltEnded id (failBundle u idx st res rt) := by
  unfold Machine.failBundle
  split
  · exact h
  · next x hx =>
    have hfree : id ∉ x.members := h.free u x hx
    dsimp only
    split
    · exact h
    · refine (h.bundle ?_).settle u
      split
      · exact hfree
      · exact hfree

/-- Another command that the halt refuses does not reach it, with its bundle or alone. -/
theorem HaltEnded.failOther {id j : CmdId} {rt : Rt} (h : HaltEnded id rt) (hj : id ≠ j) (st : Nat) (res : Bytes) :
    HaltEnded id (failCmd j st res rt) := by
  unfold failCmd
  split
  · exact h
  · next c _ =>
    extract_lets ended dated
    have hdated : HaltEnded id dated := by
      unfold dated
      split
      · exact h.endJob
      · exact h.endJob.modOther hj _
    split
    · exact hdated.endOther hj _ _ _ _
    · next u _ =>
      split
      · exact hdated.endOther hj _ _ _ _
      · split
        · have hdropped : HaltEnded id { dated with bundles := kdel dated.bundles u } := by
            refine ⟨hdated.ended, fun v y hy => ?_⟩
            rw [kget_kdel] at hy
            split at hy
            · cases hy
            · exact hdated.free v y hy
          exact (hdropped.endOther hj _ _ _ _).close u
        · exact (hdated.modOther hj _).failBundle u _ _ _

/-- The halt ends it anew as it ended it. -/
theorem HaltEnded.failSelf {id : CmdId} {rt : Rt} (h : HaltEnded id rt) : HaltEnded id (failWith id stTamperHalt rt) := by
  obtain ⟨⟨d, hd, _, _, _, hbundle⟩, hfree⟩ := h
  obtain ⟨disp, booths, hend⟩ := failCmd_eq_of_alone hd hbundle stTamperHalt (zeros 16)
  have hbundles : (endJobOf id rt).bundles = rt.bundles := read_of_rest Rt.bundles (sansJob_endJobOf id rt) fun _ => rfl
  rw [failWith, hend]
  exact ⟨⟨_, kget_kset_self _ _ _, rfl, rfl, rfl, hbundle⟩, fun u x hx => hfree u x (hbundles ▸ hx)⟩

theorem HaltEnded.fail {id : CmdId} {rt : Rt} (h : HaltEnded id rt) (j : CmdId) : HaltEnded id (failWith j stTamperHalt rt) := by
  by_cases hj : id = j
  · exact hj ▸ h.failSelf
  · exact h.failOther hj _ _

/-- R16 ends every admitted command, and leaves no bundle that has admitted members. -/
theorem haltEnded_stopAll {id : CmdId} {c : Cmd} {rt : Rt} (hc : kget rt.cmds id = some c) (hadm : c.admitted = true) :
    HaltEnded id (stopAll stTamperHalt rt) := by
  constructor
  · rw [stopAll_cmds, kget_map, hc, Option.map_some, stopCmd, if_pos hadm]
    exact ⟨_, rfl, rfl, rfl, rfl, rfl⟩
  · intro u x hx hmem
    unfold stopAll at hx
    extract_lets ended at hx
    have hended : sansJob ended = sansJob rt := foldl_keeps sansJob fun r kv => sansJob_endJob kv.1 kv.2.blocks r
    have hcmds : ended.cmds = rt.cmds := read_of_rest Rt.cmds hended fun _ => rfl
    have hgathers : gathering ended x = true := (List.mem_filter.mp (mem_of_kget hx)).2
    simp only [gathering, Bool.and_eq_true, List.all_eq_true] at hgathers
    have hnot := hgathers.2 id hmem
    rw [hcmds, hc, Option.map_some, hadm] at hnot
    cases hnot

theorem kget_filter_of_keeps {α : Type} {p : Nat × α → Bool} {m : KMap α} {k : Nat} {v : α} (h : kget m k = some v) (hp : p (k, v) = true) :
    kget (m.filter p) k = some v := by
  induction m with
  | nil => cases h
  | cons kv m ih =>
    obtain ⟨j, w⟩ := kv
    by_cases hj : j = k
    · subst hj
      have hw : w = v := by simpa [kget] using h
      rw [hw, List.filter_cons_of_pos hp]
      simp [kget]
    · have hm : kget m k = some v := by simpa [kget, hj] using h
      rw [List.filter_cons]
      split
      · simpa [kget, hj] using ih hm
      · exact ih hm

theorem dropUnwhole_cmd {id : CmdId} {d : Cmd} {rt : Rt} (h : kget rt.cmds id = some d) (hb : d.bundle = none) :
    kget (dropUnwhole rt).cmds id = some d := by
  unfold dropUnwhole
  exact kget_filter_of_keeps h (by simp [hb])

theorem haltSessions_cmds (rt : Rt) : (haltSessions rt).cmds = (dropUnwhole rt).cmds := by
  unfold haltSessions
  extract_lets dropped owes isSession old closed kept
  exact foldl_keeps Rt.cmds fun _ _ => rfl

theorem haltSessions_power (rt : Rt) : (haltSessions rt).power = rt.power := by
  unfold haltSessions
  extract_lets dropped owes isSession old closed kept
  have h : closed.power = dropped.power := foldl_keeps Rt.power fun _ _ => rfl
  exact h

/-- No connection that the halt keeps has traffic keys (R420). -/
theorem haltSessions_conns {rt : Rt} {k : Nat} {y : Conn} (h : kget (haltSessions rt).net.conns k = some y) :
    y.rxSecret = [] ∧ y.txSecret = [] := by
  unfold haltSessions at h
  extract_lets dropped owes isSession old closed kept at h
  obtain ⟨kv, _, heq⟩ := List.mem_map.mp (mem_of_kget h)
  cases heq
  exact ⟨rfl, rfl⟩

/-! ## The state in which service has ended -/

theorem sansWork_settleBundle (u : Nat) (rt : Rt) : sansWork (settleBundle u rt) = sansWork rt := by
  unfold settleBundle
  split
  · rfl
  · split
    · rfl
    · split
      · next x _ _ _ st res _ _ =>
        have hfold : sansWork (x.members.foldl (fun r id =>
            setEnded id stBundleAborted (le 2 st ++ res.take 14) [] 0 (endJobOf id (refusalEpoch id r))) rt) = sansWork rt :=
          foldl_keeps sansWork fun r j => (sansWork_setEnded j _ _ _ _ _).trans (sansWork_endJobOf j _)
        exact (sansWork_closeClaimed u _).trans hfold
      · rfl

theorem sansWork_failCmd (j : CmdId) (st : Nat) (res : Bytes) (rt : Rt) : sansWork (failCmd j st res rt) = sansWork rt := by
  unfold failCmd
  split
  · rfl
  · extract_lets ended dated
    have hdated : sansWork dated = sansWork rt := by
      unfold dated
      split
      · exact sansWork_endJobOf j rt
      · exact sansWork_endJobOf j rt
    split
    · exact (sansWork_setEnded ..).trans hdated
    · next u _ =>
      split
      · exact (sansWork_setEnded ..).trans hdated
      · split
        · exact (sansWork_closeClaimed u _).trans ((sansWork_setEnded ..).trans hdated)
        · unfold failBundle
          split
          · exact hdated
          · dsimp only
            split
            · exact hdated
            · exact (sansWork_settleBundle u _).trans hdated

/-- What the halt stops and refuses, before the stores are zeroed. -/
def haltStopped (rt : Rt) : Rt := haltSessions (haltUnadmitted (stopAll stTamperHalt (unpair rt)))

/-- The state at the end of service, before ALERT_N, the answer to a request in progress and the stops of the dies. -/
def haltZeroed (code : BitVec 8) (rt : Rt) : Rt :=
  let rt := stopAt code (zeroStores rt)
  { rt with
    boot := { rt.boot with serviceReady := false, resident := false, erasing := false }
    waiting := none
    disp := { rt.disp with changes := [] }
    alert := { rt.alert with tamperHold := true } }

/-- What the end of service leaves zeroed, and what it keeps for the answers that are still owed. -/
structure Zeroed (r t : Rt) : Prop where
  clerks : t.clerks = [(128, headClerk)]
  presses : t.presses = []
  reckoners : t.reckoners = []
  strong : t.strong = Strong.reset
  nonce : t.lc.nonce = none
  twoKey : t.twoKey = .closed
  net : t.net = r.net
  cmds : t.cmds = r.cmds
  power : t.power = r.power

theorem haltZeroed_zeroed (code : BitVec 8) (rt : Rt) : Zeroed rt (haltZeroed code rt) := by
  constructor <;> rfl

theorem haltStopped_power (rt : Rt) : (haltStopped rt).power = rt.power := by
  have hrefused : (haltUnadmitted (stopAll stTamperHalt (unpair rt))).power = (stopAll stTamperHalt (unpair rt)).power :=
    foldl_keeps Rt.power fun r j => read_of_rest Rt.power (sansWork_failCmd j _ _ r) fun _ => rfl
  rw [haltStopped, haltSessions_power, hrefused, read_of_rest Rt.power (sansWork_stopAll stTamperHalt (unpair rt)) fun _ => rfl]
  exact read_of_rest Rt.power (sansFault_unpair rt) fun _ => rfl

/-- A report leaves an admitted command admitted. -/
theorem report_admitted {id : CmdId} {c : Cmd} {rt : Rt} (hc : kget rt.cmds id = some c) (hadm : c.admitted = true) (e : FaultEvent) :
    ∃ d, kget (report e rt).cmds id = some d ∧ d.admitted = true := by
  obtain ⟨r, hrest, hcases⟩ := report_cases e rt
  have hr : kget r.cmds id = some c := (congrArg (kget · id) (read_of_rest Rt.cmds hrest fun _ => rfl)).trans hc
  obtain ⟨h, _⟩ | h := hcases
  · exact ⟨c, h ▸ hr, hadm⟩
  · rw [h, fatalStage_cmds]
    split
    · exact ⟨c, hr, hadm⟩
    · rw [stopAll_cmds, kget_map, hr]
      exact ⟨_, rfl, by rw [stopCmd, if_pos hadm]; exact hadm⟩

theorem unpair_admitted {id : CmdId} {c : Cmd} {rt : Rt} (hc : kget rt.cmds id = some c) (hadm : c.admitted = true) :
    ∃ d, kget (unpair rt).cmds id = some d ∧ d.admitted = true := by
  unfold unpair
  split
  · exact report_admitted (rt := { rt with peer := { rt.peer with paired := false, lost := true } }) hc hadm _
  · exact ⟨c, hc, hadm⟩

/-- Every admitted command has ended with TAMPER_HALT, its output discarded (R16). -/
theorem haltStopped_ends {id : CmdId} {c : Cmd} {rt : Rt} (hc : kget rt.cmds id = some c) (hadm : c.admitted = true) :
    ∃ d, kget (haltStopped rt).cmds id = some d ∧ d.stage = .ended ∧ d.status = stTamperHalt ∧ d.output = [] := by
  obtain ⟨e, he, headm⟩ := unpair_admitted hc hadm
  have hrefused : HaltEnded id (haltUnadmitted (stopAll stTamperHalt (unpair rt))) :=
    foldl_invariant (fun r j _ hr => hr.fail j) (haltEnded_stopAll he headm)
  obtain ⟨d, hd, hstage, hstatus, hout, hbundle⟩ := hrefused.ended
  exact ⟨d, by rw [haltStopped, haltSessions_cmds]; exact dropUnwhole_cmd hd hbundle, hstage, hstatus, hout⟩

theorem repin_eq_pinOf (rt : Rt) : ∃ x o, repin rt = { rt with alert := { rt.alert with pin := pinOf rt }, msix := x, out := o } := by
  unfold repin
  extract_lets rt'
  split
  · exact ⟨rt.msix, rt.out, rfl⟩
  · obtain ⟨x, o, h⟩ := signal_eq 0 rt'
    exact ⟨x, o, h⟩

/-- After the stores are zeroed, the halt drives ALERT_N, answers a request in progress, and asks the dies' islands to stop. -/
theorem haltService_rest (code : BitVec 8) (rt : Rt) : ∃ m x o, sansIslands (haltService code rt) = sansIslands { haltZeroed code (haltStopped rt) with
    alert := { (haltZeroed code (haltStopped rt)).alert with pin := pinOf (haltZeroed code (haltStopped rt)) }, mbx := m, msix := x, out := o } := by
  obtain ⟨x, o, hpin⟩ := repin_eq_pinOf (haltZeroed code (haltStopped rt))
  have hsleep (r : Rt) : sansIslands (sleepDie 1 (sleepDie 0 r)) = sansIslands r :=
    (sansIslands_sleepDie 1 _).trans (sansIslands_sleepDie 0 _)
  unfold haltService
  extract_lets _ busy seq _ _ _ _ halted pinned responded
  have hpinned : pinned = { haltZeroed code (haltStopped rt) with
      alert := { (haltZeroed code (haltStopped rt)).alert with pin := pinOf (haltZeroed code (haltStopped rt)) }, msix := x, out := o } := hpin
  by_cases hbusy : busy = true
  · obtain ⟨m, x', o', hresp⟩ := respond_eq false seq stTamperHalt [] pinned
    refine ⟨m, x', o', (hsleep responded).trans ?_⟩
    have hresponded : responded = respond false seq stTamperHalt [] pinned := if_pos hbusy
    rw [hresponded, hresp, hpinned]
  · refine ⟨(haltZeroed code (haltStopped rt)).mbx, x, o, (hsleep responded).trans ?_⟩
    have hresponded : responded = pinned := if_neg hbusy
    rw [hresponded, hpinned]

/-- The end of service leaves every store of a secret zeroed (R420). -/
theorem haltService_zeroed (code : BitVec 8) (rt : Rt) : Zeroed (haltStopped rt) (haltService code rt) := by
  obtain ⟨m, x, o, h⟩ := haltService_rest code rt
  have hz := haltZeroed_zeroed code (haltStopped rt)
  exact {
    clerks := (read_of_rest Rt.clerks h fun _ => rfl).trans hz.clerks
    presses := (read_of_rest Rt.presses h fun _ => rfl).trans hz.presses
    reckoners := (read_of_rest Rt.reckoners h fun _ => rfl).trans hz.reckoners
    strong := (read_of_rest Rt.strong h fun _ => rfl).trans hz.strong
    nonce := (congrArg Lc.nonce (read_of_rest Rt.lc h fun _ => rfl)).trans hz.nonce
    twoKey := (read_of_rest Rt.twoKey h fun _ => rfl).trans hz.twoKey
    net := (read_of_rest Rt.net h fun _ => rfl).trans hz.net
    cmds := (read_of_rest Rt.cmds h fun _ => rfl).trans hz.cmds
    power := (read_of_rest Rt.power h fun _ => rfl).trans hz.power }

/-- With main power the halt drives ALERT_N low (R440). -/
theorem haltService_pin (code : BitVec 8) {rt : Rt} (h : mainPower rt = true) : (haltService code rt).alert.pin = true := by
  obtain ⟨m, x, o, hrest⟩ := haltService_rest code rt
  have hpower : (haltZeroed code (haltStopped rt)).power = rt.power :=
    (haltZeroed_zeroed code (haltStopped rt)).power.trans (haltStopped_power rt)
  have hmain : mainPower (haltZeroed code (haltStopped rt)) = true := by rw [mainPower, hpower]; exact h
  have hhold : (haltZeroed code (haltStopped rt)).alert.tamperHold = true := rfl
  have halert := congrArg Alert.pin (read_of_rest Rt.alert hrest fun _ => rfl)
  rw [halert]
  dsimp only
  rw [pinOf, hmain, hhold]
  rfl

theorem haltService_conns (code : BitVec 8) {rt : Rt} {k : Nat} {y : Conn} (h : kget (haltService code rt).net.conns k = some y) :
    y.rxSecret = [] ∧ y.txSecret = [] := by
  rw [(haltService_zeroed code rt).net, haltStopped] at h
  exact haltSessions_conns h

theorem haltService_cmd (code : BitVec 8) {id : CmdId} {c : Cmd} {rt : Rt} (hc : kget rt.cmds id = some c) (hadm : c.admitted = true) :
    ∃ d, kget (haltService code rt).cmds id = some d ∧ d.stage = .ended ∧ d.status = stTamperHalt ∧ d.output = [] := by
  rw [(haltService_zeroed code rt).cmds]
  exact haltStopped_ends hc hadm

end Sys2Proof.Machine
end

section
/-! PROOFS. The gondola's response, the tamper count, the cells and their window (21 R416 to R426, 02 R45, R46). -/

namespace Sys2Proof.Machine

/-! ## The gondola (R419, R421, R424, R425) -/

/-- The entry that a trip logs. -/
def tripEntry (cells : Bool) (now : Nat) (x : Trip) (g : Gondola) : GLogEntry :=
  { stamp := gonNow g now, source := BitVec.ofNat 8 x.code, site := BitVec.ofNat 8 x.site, flags := entryFlags cells x (!g.tamperFlag),
    episode := BitVec.ofNat 16 (if !g.tamperFlag then g.episode + 1 else g.episode) }

theorem gondolaTrip_log (cells : Bool) (now : Nat) (x : Trip) (g : Gondola) :
    kget (gondolaTrip cells now x g).log g.logNext = some (tripEntry cells now x g) := kget_kset_self _ _ _

/-- Bit 0 of an entry's flags says that the module was on cells (Table 21.6). -/
theorem entryFlags_cells (cells : Bool) (x : Trip) (first : Bool) : (entryFlags cells x first).getLsbD 0 = cells := by
  have h (a b c d : Bool) : (BitVec.ofNat 8 (b2n a + 2 * b2n b + 4 * b2n c + 8 * b2n d)).getLsbD 0 = a := by
    revert a b c d; decide
  exact h cells x.detA x.detB first

/-- A first trip begins an episode, which is not yet counted; a later one changes neither. -/
theorem gondolaTrip_first (cells : Bool) (now : Nat) (x : Trip) {g : Gondola} (h : g.tamperFlag = false) :
    (gondolaTrip cells now x g).uncounted = true ∧ (gondolaTrip cells now x g).firstCause = some (tripEntry cells now x g) ∧
      (gondolaTrip cells now x g).episode = g.episode + 1 := by
  simp [gondolaTrip, logEntry, tripEntry, h]

theorem gondolaTrip_later (cells : Bool) (now : Nat) (x : Trip) {g : Gondola} (h : g.tamperFlag = true) :
    (gondolaTrip cells now x g).uncounted = g.uncounted ∧ (gondolaTrip cells now x g).firstCause = g.firstCause ∧
      (gondolaTrip cells now x g).episode = g.episode := by
  simp [gondolaTrip, logEntry, h]

/-! ## A tripped source (R416) -/

theorem ripLine_rt (x : Trip) (s : State) : (ripLine x s).rt = haltService 0x81 s.rt := by
  simp only [ripLine]

theorem ripLine_gon (x : Trip) (s : State) : (ripLine x s).gon = gondolaTrip false s.rt.now x s.gon := by
  simp only [ripLine]

theorem ripLine_kept (x : Trip) (s : State) : (ripLine x s).otp = s.otp ∧ (ripLine x s).nv = s.nv := by
  simp only [ripLine, and_self]

/-- A source other than an excused door trips the rip line when it is armed. -/
theorem tripSource_of_armed {x : Trip} {s : State} (hmain : mainPower s.rt = true) (hfail : s.rt.power.powerFail = false)
    (harmed : (cellsSource x.code || mainArmed s.rt x) = true) (hdoor : ¬ (x.code = 0x08 ∧ windowExcuses s.rt = true)) :
    tripSource x s = ripLine x s := by
  have hon : powered s.rt = true := by rw [powered, hmain, hfail]; rfl
  simp only [tripSource, if_neg hdoor, hon, harmed, if_true]

theorem tripSource_of_unarmed {x : Trip} {s : State} (hcells : cellsSource x.code = false) (harmed : mainArmed s.rt x = false) :
    tripSource x s = s := by
  simp [tripSource, hcells, harmed]

theorem tripSource_of_cells {x : Trip} {s : State} (hmain : mainPower s.rt = false) (hcells : cellsSource x.code = true)
    (hdoor : x.code ≠ 0x08) : tripSource x s = { s with gon := gondolaTrip true s.rt.now x s.gon } := by
  simp [tripSource, powered, hmain, hcells, hdoor]

theorem tripSource_of_deadMain {x : Trip} {s : State} (hmain : mainPower s.rt = false) (hcells : cellsSource x.code = false) :
    tripSource x s = s := by
  simp [tripSource, powered, hmain, hcells]

theorem doGondolaCellTamper_of_cells {s : State} (x : Trip) (hmain : mainPower s.rt = false) : doGondolaCellTamper x s = tripSource x s := by
  simp [doGondolaCellTamper, hmain]

/-! ## The tamper count (R424) -/

/-- The fuse of the next episode. -/
def episodeFuse (o : Otp) : Fuse := { field := 6, bit := o.tamperCnt }

theorem burnAll_episode {p : Pulses} {o : Otp} (hcut : p.cut = none) (hweak : episodeFuse o ∉ p.weak) :
    burnAll p true [episodeFuse o] o = { otp := { o with tamperCnt := o.tamperCnt + 1 }, left := spend p, fin := .done } := by
  have hburn : burnFuse p true (episodeFuse o) o = { otp := setFuse (episodeFuse o) o, left := spend p, fin := .done } := by
    simp [burnFuse, fuseSet, cutNow, enabledFuse, hcut, hweak]
    simp [episodeFuse]
  have hset : setFuse (episodeFuse o) o = { o with tamperCnt := o.tamperCnt + 1 } := by simp [setFuse, episodeFuse]
  rw [burnAll, hburn, hset]
  rfl

theorem burnAll_weak {p : Pulses} {o : Otp} (hcut : p.cut = none) (hweak : episodeFuse o ∈ p.weak) :
    burnAll p true [episodeFuse o] o = { otp := o, left := p, fin := .stuck (episodeFuse o) } := by
  have hburn : burnFuse p true (episodeFuse o) o = { otp := o, left := p, fin := .stuck (episodeFuse o) } := by
    simp [burnFuse, fuseSet, cutNow, hcut, hweak]
    simp [episodeFuse]
  rw [burnAll, hburn]
  rfl

/-- The burn of an uncounted episode takes: one fuse more, and the episode is counted. -/
theorem doTamperCountBurn_of_good {s : State} (hmain : mainPower s.rt = true) (hfail : s.rt.power.powerFail = false)
    (hhalt : inTamperHalt s.rt = true) (hun : s.gon.uncounted = true) (hcnt : s.otp.tamperCnt < 256) :
    doTamperCountBurn [] s = { s with otp := { s.otp with tamperCnt := s.otp.tamperCnt + 1 }, gon := { s.gon with uncounted := false } } := by
  have hroom : ¬ 256 ≤ s.otp.tamperCnt := by omega
  have hburn := burnAll_episode (p := { weak := [], cut := none }) (o := s.otp) rfl (by simp)
  rw [episodeFuse] at hburn
  simp [doTamperCountBurn, powered, hmain, hfail, hhalt, countEpisode, burning, hun, hroom, burnList, hburn]

/-- The burn of an uncounted episode fails: OTP_BURN, and the episode stays uncounted. -/
theorem doTamperCountBurn_of_weak {s : State} (hmain : mainPower s.rt = true) (hfail : s.rt.power.powerFail = false)
    (hhalt : inTamperHalt s.rt = true) (hun : s.gon.uncounted = true) (hcnt : s.otp.tamperCnt < 256) :
    doTamperCountBurn [episodeFuse s.otp] s =
      { s with otp := { s.otp with lastBurnFail := true }, rt := otpBurn (episodeFuse s.otp) s.rt } := by
  have hroom : ¬ 256 ≤ s.otp.tamperCnt := by omega
  have hburn := burnAll_weak (p := { weak := [episodeFuse s.otp], cut := none }) (o := s.otp) rfl (by simp)
  simp only [episodeFuse] at hburn ⊢
  simp [doTamperCountBurn, powered, hmain, hfail, hhalt, countEpisode, burning, hun, hroom, burnList, hburn]

theorem doTamperCountBurn_of_counted {s : State} (w : List Fuse) (h : s.gon.uncounted = false) : doTamperCountBurn w s = s := by
  simp [doTamperCountBurn, countEpisode, burning, h]

/-! ## The cells (R46, R426) -/

theorem doCellMeasure_of_power {a b : Nat} {rt : Rt} (hmain : mainPower rt = true) (hfail : rt.power.powerFail = false) :
    doCellMeasure a b rt = raiseLevel .cellLow 1 (decide (b < 2700))
      (raiseLevel .cellLow 0 (decide (a < 2700)) { rt with cellA := min a 0xFFFF, cellB := min b 0xFFFF }) := by
  simp [doCellMeasure, hmain, hfail]

theorem setPending_entered (r : FaultRec) (f : Collector) : (setPending r f).entered = f.entered := by
  unfold setPending; split <;> rfl

/-- Whatever its class, an event writes its own record to the ring (R436), and does not touch the list of level conditions that hold
(R430). -/
theorem report_fault (e : FaultEvent) (rt : Rt) : ∃ c esc sev quiet,
    (report e rt).fault.ring = kset rt.fault.ring (rt.fault.nextSeq % 40) (mkRecord rt e c esc sev quiet) ∧
      (report e rt).fault.entered = rt.fault.entered := by
  unfold report
  generalize (if boothAttr e then (FClass.contained, false, false, rt.fault.wins) else classify rt e) = v
  obtain ⟨c, sev, quiet, wins⟩ := v
  dsimp -zeta only
  extract_lets _ classified _ boothRt esc c' r pending pin asserted sent
  have hpending : pending.fault.ring = kset rt.fault.ring (rt.fault.nextSeq % 40) (mkRecord rt e c' esc sev false) ∧
      pending.fault.entered = rt.fault.entered := ⟨setPending_ring r _, setPending_entered r _⟩
  have hasserted : asserted.fault = pending.fault := by unfold asserted; split <;> rfl
  have hsent : sent.fault = pending.fault := by
    unfold sent
    split
    · exact hasserted
    · exact (signal_fault 0 asserted).trans hasserted
  have hstopped : (fatalStage (if inTamperHalt sent then sent else stopAll stDeviceFault sent)).fault = pending.fault :=
    (read_of_rest Rt.fault (sansSignal_fatalStop sent) fun _ => rfl).trans hsent
  by_cases hquiet : quiet = true
  · rw [if_pos hquiet]; exact ⟨.corrected, false, false, true, rfl, rfl⟩
  rw [if_neg hquiet]
  by_cases hhalted : classified.fault.halted = true
  · rw [if_pos hhalted]; exact ⟨c, false, sev, false, rfl, rfl⟩
  rw [if_neg hhalted]
  by_cases hbooth : boothAttr e = true
  · rw [if_pos hbooth]
    refine ⟨.contained, false, false, false, ?_⟩
    split
    · exact ⟨rfl, rfl⟩
    · rw [signal_fault]; exact ⟨rfl, rfl⟩
  rw [if_neg hbooth]
  refine ⟨c', esc, sev, false, ?_⟩
  by_cases hfatal : c' = .fatal
  · rw [if_pos hfatal, hstopped]; exact hpending
  · rw [if_neg hfatal, hsent]; exact hpending

theorem report_entered (e : FaultEvent) (rt : Rt) : (report e rt).fault.entered = rt.fault.entered := by
  obtain ⟨_, _, _, _, _, h⟩ := report_fault e rt
  exact h

/-- The record of an event, whatever follows it, stands in the ring with what the event says. -/
theorem raise_fault (e : FaultEvent) (rt : Rt) : ∃ c esc sev quiet,
    kget (raise e rt).fault.ring (rt.fault.nextSeq % 40) = some (mkRecord rt e c esc sev quiet) := by
  obtain ⟨c, esc, sev, quiet, hring, _⟩ := report_fault e rt
  have hget : kget (report e rt).fault.ring (rt.fault.nextSeq % 40) = some (mkRecord rt e c esc sev quiet) := by
    rw [hring, kget_kset_self]
  refine ⟨c, esc, sev, quiet, ?_⟩
  unfold raise
  extract_lets reported
  split
  · exact (unpair_ring reported _ (report_recorded e rt).nextSeq).trans hget
  · exact hget

theorem unpair_entered (rt : Rt) : (unpair rt).fault.entered = rt.fault.entered := by
  unfold unpair
  split
  · exact report_entered _ _
  · rfl

/-- An event that is only reported leaves its quiet record, and the conditions that hold as they were (R430, R431). -/
theorem raise_quiet {e : FaultEvent} {rt : Rt} (hbooth : boothAttr e = false) (hclass : classifOf rt e = .report) :
    kget (raise e rt).fault.ring (rt.fault.nextSeq % 40) = some (mkRecord rt e .corrected false false true) ∧
      (raise e rt).fault.entered = rt.fault.entered := by
  have hrep := report_of_classifOf_report hbooth hclass
  have hring : kget (report e rt).fault.ring (rt.fault.nextSeq % 40) = some (mkRecord rt e .corrected false false true) := by
    rw [hrep]
    exact kget_kset_self _ _ _
  unfold raise
  extract_lets reported
  split
  · exact ⟨(unpair_ring reported _ (report_recorded e rt).nextSeq).trans hring, (unpair_entered reported).trans (report_entered e rt)⟩
  · exact ⟨hring, report_entered e rt⟩

theorem raiseLevel_true_of_mem {src : FaultSource} {k : Nat} {rt : Rt} (h : (src, k) ∈ rt.fault.entered) :
    raiseLevel src k true rt = rt := by
  simp [raiseLevel, h]

/-- Two good cells are noted (R46). -/
theorem doCellMeasure_of_good {a b : Nat} {rt : Rt} (hmain : mainPower rt = true) (hfail : rt.power.powerFail = false)
    (ha : 2700 ≤ a) (hb : 2700 ≤ b) (ha' : a < 65536) (hb' : b < 65536) (hnone : rt.fault.entered = []) :
    doCellMeasure a b rt = { rt with cellA := a, cellB := b } := by
  have hmin : min a 0xFFFF = a ∧ min b 0xFFFF = b := by omega
  have hlow : ¬ a < 2700 ∧ ¬ b < 2700 := by omega
  have hnot (k : Nat) : (FaultSource.cellLow, k) ∉ rt.fault.entered := by rw [hnone]; exact List.not_mem_nil
  rw [doCellMeasure_of_power hmain hfail, hmin.1, hmin.2, decide_eq_false hlow.1, decide_eq_false hlow.2,
    raiseLevel_false_of_notMem (rt := { rt with cellA := a, cellB := b }) (hnot 0),
    raiseLevel_false_of_notMem (rt := { rt with cellA := a, cellB := b }) (hnot 1)]

/-- The state in which a low cell A is noted, before its event. -/
def cellALow (a b : Nat) (rt : Rt) : Rt :=
  { rt with cellA := a, cellB := min b 0xFFFF, fault := { rt.fault with entered := [(.cellLow, 0)] } }

/-- The event of a low cell A. -/
def cellALowEvent : FaultEvent := plainEvent .cellLow [BitVec.ofNat 8 0]

/-- The first reading of a low cell A enters CELL_LOW and reports it (R46, R430). -/
theorem doCellMeasure_of_low {a b : Nat} {rt : Rt} (hmain : mainPower rt = true) (hfail : rt.power.powerFail = false)
    (ha : a < 2700) (hb : 2700 ≤ b) (hnone : rt.fault.entered = []) :
    doCellMeasure a b rt = raise cellALowEvent (cellALow a b rt) := by
  have hmin : min a 0xFFFF = a := by omega
  have hhigh : ¬ b < 2700 := by omega
  have hnot : (FaultSource.cellLow, 0) ∉ rt.fault.entered := by rw [hnone]; exact List.not_mem_nil
  have henters : raiseLevel .cellLow 0 true { rt with cellA := a, cellB := min b 0xFFFF } = raise cellALowEvent (cellALow a b rt) := by
    rw [raiseLevel_true_of_notMem (rt := { rt with cellA := a, cellB := min b 0xFFFF }) hnot, cellALow, cellALowEvent, hnone]
    rfl
  have hentered : (raise cellALowEvent (cellALow a b rt)).fault.entered = [(.cellLow, 0)] := (raise_quiet rfl rfl).2
  rw [doCellMeasure_of_power hmain hfail, hmin, decide_eq_true ha, decide_eq_false hhigh, henters]
  exact raiseLevel_false_of_notMem (by rw [hentered]; decide)

/-- A low cell that is noted is not reported again (R430). -/
theorem doCellMeasure_of_noted {a b : Nat} {rt : Rt} (hmain : mainPower rt = true) (hfail : rt.power.powerFail = false)
    (ha : a < 2700) (hb : 2700 ≤ b) (hcell : rt.cellA = a) (hnoted : rt.fault.entered = [(.cellLow, 0)]) :
    doCellMeasure a b rt = { rt with cellB := min b 65535 } := by
  have hmin : min a 0xFFFF = rt.cellA := by omega
  have hhigh : ¬ b < 2700 := by omega
  have hmem : (FaultSource.cellLow, 0) ∈ rt.fault.entered := by rw [hnoted]; decide
  have hnot : (FaultSource.cellLow, 1) ∉ rt.fault.entered := by rw [hnoted]; decide
  rw [doCellMeasure_of_power hmain hfail, hmin, decide_eq_true ha, decide_eq_false hhigh,
    raiseLevel_true_of_mem (rt := { rt with cellA := rt.cellA, cellB := min b 0xFFFF }) hmem]
  exact raiseLevel_false_of_notMem (rt := { rt with cellA := rt.cellA, cellB := min b 0xFFFF }) hnot

/-- The check value that decay leaves is not the good one (R426). -/
theorem decayed_ne_good (c good : BitVec 32) : (if c = good then c ^^^ 1 else c) ≠ good := by
  split
  · next h =>
    rw [← h]
    intro heq
    have hbit := congrArg (fun v : BitVec 32 => v.getLsbD 0) heq
    simp at hbit
  · next h => exact h

/-! ## The cell service window (R45) -/

/-- The ledger's entry of a window that closes. -/
def windowEntry (s : State) : LedgerEntry :=
  ledgerEvent 0x0107 s.rt.window.house 0xFFFF 0xFFFFFFFF 0 0 s.rt.window.officers.1 s.rt.window.officers.2
    (le 2 s.rt.cellA ++ le 2 s.rt.cellB)

/-- A window's end in the ledger and the state, apart from the door. -/
def windowShut (s : State) : State := onRt (fun rt => { rt with window := CellWindow.closed }) (writeEntry (windowEntry s) s)

theorem closeWindow_of_shut {s : State} (h : s.gon.doorOpen = false) : closeWindow s = windowShut s := by
  have hgon : (windowShut s).gon.doorOpen = false := h
  exact if_neg (Bool.eq_false_iff.mp hgon)

theorem closeWindow_of_open {s : State} (h : s.gon.doorOpen = true) : closeWindow s = doorTrip (windowShut s) := by
  have hgon : (windowShut s).gon.doorOpen = true := h
  exact if_pos hgon

theorem windowShut_ledger (s : State) : (windowShut s).nv.ledger.nextSeq = s.nv.ledger.nextSeq + 1 ∧
    (windowShut s).nv.ledger.entries.getLast?.map LedgerEntry.event = some 0x0107 := by
  obtain ⟨l, hl, hevent, _⟩ := writeEntry_last (windowEntry s) s
  constructor
  · show (writeEntry (windowEntry s) s).nv.ledger.nextSeq = _
    rw [writeEntry_nv]
    dsimp only
    rw [nextSeq_appendEntry]
  · show (writeEntry (windowEntry s) s).nv.ledger.entries.getLast?.map LedgerEntry.event = _
    rw [hl, Option.map_some, hevent]
    rfl

theorem windowShut_power (s : State) : (windowShut s).rt.power = s.rt.power :=
  writeEntry_keeps Rt.power (fun _ _ => rfl) raise_power (windowEntry s) s

/-- The trip of an open cell door. -/
def openDoor : Trip := { code := 0x08, site := 0, detA := false, detB := false }

/-- With main power an open door that no window excuses trips the rip line (R45). -/
theorem doorTrip_of_power {s : State} (hmain : mainPower s.rt = true) (hfail : s.rt.power.powerFail = false)
    (hwindow : windowExcuses s.rt = false) :
    doorTrip s = ripLine openDoor { s with gon := { s.gon with active := addTo 0x08 s.gon.active } } := by
  refine tripSource_of_armed hmain hfail rfl fun h => ?_
  exact Bool.false_ne_true (hwindow.symm.trans h.2)

/-- A door that opens outside a window, or past its 600 s, trips the rip line, whether or not the window then closes (R45). -/
theorem doCellDoorOpen_trips {s : State} (hout : s.rt.window.isOpen = false ∨ s.rt.window.endsAt ≤ s.rt.now) (hmain : mainPower s.rt = true)
    (hfail : s.rt.power.powerFail = false) : ∃ u, u.gon.doorOpen = true ∧ doCellDoorOpen s = ripLine openDoor u := by
  have hnot : windowExcuses s.rt = false := by
    obtain h | h := hout
    · rw [windowExcuses, h, Bool.false_and]
    · rw [windowExcuses, decide_eq_false (Nat.not_lt.mpr h), Bool.and_false]
  unfold doCellDoorOpen
  extract_lets _ opened
  have hopened : windowExcuses opened.rt = false := hnot
  rw [if_neg (Bool.eq_false_iff.mp hopened)]
  split
  · have hpower : (windowShut opened).rt.power = s.rt.power := windowShut_power opened
    rw [closeWindow_of_open rfl, doorTrip_of_power (by rw [mainPower, hpower]; exact hmain) (by rw [hpower]; exact hfail) rfl]
    exact ⟨_, rfl, rfl⟩
  · rw [doorTrip_of_power (s := opened) hmain hfail hopened]
    exact ⟨_, rfl, rfl⟩

theorem doCellDoorOpen_of_window {s : State} (hopen : s.rt.window.isOpen = true) (hnow : s.rt.now < s.rt.window.endsAt) :
    doCellDoorOpen s = { s with gon := { s.gon with doorOpen := true }, rt := { s.rt with window := { s.rt.window with opened := true } } } := by
  simp [doCellDoorOpen, windowExcuses, hopen, hnow, onRt]

theorem doCellDoorClose_of_opened {s : State} (hopen : s.rt.window.isOpen = true) (hopened : s.rt.window.opened = true) :
    doCellDoorClose s =
      windowShut { s with gon := { s.gon with doorOpen := false, active := s.gon.active.filter (· ≠ 0x08) } } := by
  simp only [doCellDoorClose, hopen, hopened, Bool.and_self, if_true]
  exact closeWindow_of_shut rfl

/-! ## The obligation -/

/-- Settles O33: the rip line by what the end of service zeroes and ends, the gondola and the fuses by what a trip and a burn leave, the
cells by what a reading enters, and the window by its entry and the door. -/
theorem tamperCommands : Obligations.TamperCommands := by
  unfold Obligations.TamperCommands
  refine ⟨?ripLine, fun x s _ _ hc ha => congrArg Host.Outcome.next (tripSource_of_unarmed hc ha), ?onCells,
    fun x s hmain hc => congrArg Host.Outcome.next ((doGondolaCellTamper_of_cells x hmain).trans (tripSource_of_deadMain hmain hc)), ?burn,
    fun w s h => congrArg Host.Outcome.next (doTamperCountBurn_of_counted w h), ?logRead, ?goodCells, ?lowCell, ?decay, ?expiry, ?noExpiry,
    ?doorInWindow, ?doorTrips, ?doorShuts, ?doorOutside⟩
  case ripLine =>
    intro x s hmain hfail harmed hcode
    have hrun : tripSource x s = ripLine x s := tripSource_of_armed hmain hfail harmed fun h => hcode h.1
    obtain ⟨hstage, hready, _⟩ := haltService_shows 0x81 s.rt
    have hz := haltService_zeroed 0x81 s.rt
    refine ⟨ripLine x s, tripEntry false s.rt.now x s.gon, congrArg Host.Outcome.next hrun, ?_⟩
    rw [ripLine_rt, ripLine_gon]
    exact ⟨rfl, rfl, rfl, gondolaTrip_log false s.rt.now x s.gon, rfl, rfl, entryFlags_cells _ _ _, hstage, hready,
      haltService_pin 0x81 hmain, hz.clerks, hz.presses, hz.reckoners, hz.strong, fun k y hy => haltService_conns 0x81 hy, hz.nonce, hz.twoKey, fun id c hc hadm => haltService_cmd 0x81 hc hadm, ripLine_kept x s⟩
  case onCells =>
    intro x s hmain hcells hcode
    have hrun := tripSource_of_cells hmain hcells hcode
    exact ⟨_, _, ⟨congrArg Host.Outcome.next hrun, congrArg Host.Outcome.next ((doGondolaCellTamper_of_cells x hmain).trans hrun)⟩, rfl, rfl,
      gondolaTrip_log true s.rt.now x s.gon, rfl, entryFlags_cells _ _ _, gondolaTrip_first true s.rt.now x,
      gondolaTrip_later true s.rt.now x, rfl, rfl⟩
  case burn =>
    intro s hmain hfail hhalt hun hcnt
    constructor
    · exact ⟨_, congrArg Host.Outcome.next (doTamperCountBurn_of_good hmain hfail hhalt hun hcnt), rfl, rfl, rfl⟩
    · intro hhalted
      obtain ⟨hpend, _⟩ := raise_of_fatal (e := plainEvent .otpBurn (le 2 6 ++ le 2 s.otp.tamperCnt)) rfl rfl hhalted
      exact ⟨_, congrArg Host.Outcome.next (doTamperCountBurn_of_weak hmain hfail hhalt hun hcnt), rfl, rfl, hpend⟩
  case logRead =>
    intro lost s hmain hfail hlost
    have hall : lost.filter (fun j => decide (j < 64)) = lost := List.filter_eq_self.mpr fun j hj => decide_eq_true (hlost j hj)
    refine ⟨_, congrArg Host.Outcome.next (if_pos (by rw [hmain, hfail]; rfl)), rfl, hall, rfl, rfl, rfl⟩
  case goodCells =>
    exact fun a b s hmain hfail ha hb ha' hb' hnone => next_onRt_congr (doCellMeasure_of_good hmain hfail ha hb ha' hb' hnone)
  case lowCell =>
    intro a b s hmain hfail ha hb hnone
    have hrun := doCellMeasure_of_low hmain hfail ha hb hnone
    obtain ⟨hring, hentered⟩ := raise_quiet (e := cellALowEvent) (rt := cellALow a b s.rt) rfl rfl
    have hkept := sansFault_raise cellALowEvent (cellALow a b s.rt)
    have hcell : (raise cellALowEvent (cellALow a b s.rt)).cellA = a := read_of_rest Rt.cellA hkept fun _ => rfl
    have hpower : (raise cellALowEvent (cellALow a b s.rt)).power = s.rt.power := raise_power _ _
    refine ⟨onRt (doCellMeasure a b) s, mkRecord (cellALow a b s.rt) cellALowEvent .corrected false false true, rfl, ?_⟩
    rw [onRt_rt, hrun]
    refine ⟨hcell, hentered, hring, rfl, rfl, next_onRt_congr ?_⟩
    rw [onRt_rt, hrun]
    exact doCellMeasure_of_noted (by rw [mainPower, hpower]; exact hmain) (by rw [hpower]; exact hfail) ha hb hcell hentered
  case decay =>
    intro s hmain
    have hoff : ¬ powered s.rt = true := by rw [powered, hmain]; exact Bool.false_ne_true
    exact ⟨_, congrArg Host.Outcome.next (if_neg hoff), decayed_ne_good _ _, rfl, rfl, rfl, rfl, rfl, rfl⟩
  case expiry =>
    intro s hopen hdoor
    obtain ⟨hseq, hevent⟩ := windowShut_ledger (onRt (fun rt => advanceTo rt.window.endsAt rt) s)
    exact ⟨_, congrArg Host.Outcome.next ((if_pos hopen).trans (closeWindow_of_shut hdoor)), rfl, hseq, rfl, hevent⟩
  case noExpiry => exact fun s h => congrArg Host.Outcome.next (if_neg (Bool.eq_false_iff.mp h))
  case doorInWindow =>
    exact fun s hopen hnow => ⟨_, congrArg Host.Outcome.next (doCellDoorOpen_of_window hopen hnow), rfl, rfl, rfl⟩
  case doorTrips =>
    intro s hout hmain hfail
    obtain ⟨u, hdoor, hrun⟩ := doCellDoorOpen_trips hout hmain hfail
    refine ⟨ripLine openDoor u, congrArg Host.Outcome.next hrun, ?_⟩
    rw [ripLine_rt, ripLine_gon]
    exact ⟨hdoor, rfl, rfl, (haltService_shows 0x81 u.rt).1⟩
  case doorShuts =>
    intro s hopen hopened
    exact ⟨_, congrArg Host.Outcome.next (doCellDoorClose_of_opened hopen hopened), rfl, rfl, (windowShut_ledger _).1, rfl⟩
  case doorOutside =>
    intro s h
    exact congrArg Host.Outcome.next (if_neg (by rw [h, Bool.false_and]; exact Bool.false_ne_true))

end Sys2Proof.Machine
end

section
/-! PROOFS. The protection map (20): an update changes the tables of its bridles alone (R413), and a refused access is latched and counted
in its bridle's record, whatever the initiator then does (R411, Table 20.3). -/

namespace Sys2Proof.Machine

/-! ## What a failed request and a refused access leave -/

/-- The failure of a management request writes what a response writes. -/
theorem failRequest_eq (st : Nat) (res : Bytes) (rt : Rt) :
    ∃ w m x o, failRequest st res rt = { rt with waiting := w, mbx := m, msix := x, out := o } := by
  unfold failRequest
  split
  · exact answerWaiting_eq st res rt
  · split
    · obtain ⟨m, x, o, h⟩ := respond_eq false (parseReq (reqBuffer rt.mbx)).seq st res rt
      exact ⟨rt.waiting, m, x, o, h⟩
    · exact ⟨rt.waiting, rt.mbx, rt.msix, rt.out, rfl⟩

@[simp] theorem failRequest_bridles (st : Nat) (res : Bytes) (rt : Rt) : (failRequest st res rt).bridles = rt.bridles := by
  obtain ⟨w, m, x, o, h⟩ := failRequest_eq st res rt
  rw [h]

@[simp] theorem failRequest_fault (st : Nat) (res : Bytes) (rt : Rt) : (failRequest st res rt).fault = rt.fault := by
  obtain ⟨w, m, x, o, h⟩ := failRequest_eq st res rt
  rw [h]

@[simp] theorem raise_bridles (e : FaultEvent) (rt : Rt) : (raise e rt).bridles = rt.bridles :=
  read_of_rest Rt.bridles (sansFault_raise e rt) fun _ => rfl

@[simp] theorem failWith_bridles (id : CmdId) (st : Nat) (rt : Rt) : (failWith id st rt).bridles = rt.bridles :=
  read_of_rest Rt.bridles (sansWork_failCmd id st (zeros 16) rt) fun _ => rfl

@[simp] theorem bridleFault_bridles (b : Nat) (a : Access) (rt : Rt) : (bridleFault b a rt).bridles = rt.bridles :=
  raise_bridles _ rt

/-- A trap that names no refused word leaves the map. -/
theorem clerkTrap_bridles {t : Trap} (h : t.refused = none) (c : ClerkId) (op : Nat) (rt : Rt) :
    (clerkTrap c t op rt).bridles = rt.bridles := by
  unfold clerkTrap
  extract_lets k
  split
  · rfl
  · next id _ =>
    extract_lets booth e rt1
    have hrt1 : rt1 = rt := by unfold rt1; rw [h]
    rw [raise_bridles]
    exact (failWith_bridles id stDeviceFault rt1).trans (by rw [hrt1])

/-- What the initiator does with a refusal leaves the map. -/
@[simp] theorem refusalActs_bridles (b : Nat) (a : Access) (rt : Rt) : (refusalActs b a rt).bridles = rt.bridles := by
  unfold refusalActs
  split
  · split
    · exact failWith_bridles _ _ _
    · split
      · split
        · exact clerkTrap_bridles rfl _ _ _
        · rw [bridleFault_bridles, failWith_bridles]
      · rw [bridleFault_bridles, failWith_bridles]
  · split
    · exact failRequest_bridles _ _ _
    · rw [bridleFault_bridles, failRequest_bridles]

/-! ## The violation record (R411) -/

/-- A record after more refused beats: each counts, up to 255. -/
def counted (n : Nat) (v : VRec) : VRec := { v with count := min (v.count + n) 255 }

/-- The record that the first refused beat fills. -/
def firstRefusal (b x : Nat) (a : Access) (rt : Rt) : VRec :=
  { valid := true, cause := (verdict rt b a x).getD 0, count := 1, kind := kindCode a.kind, house := a.house, initiator := a.initiator,
    addr := x, pasid := a.pasid.getD 0, epoch := BitVec.ofNat 32 (accessEpoch rt a), booth := a.booth.getD 0xFFFF }

/-- Latching writes violation records alone. -/
theorem latchBeats_eq (b : Nat) (a : Access) (l : List Nat) (rt : Rt) :
    ∃ m, latchBeats b a l rt = { rt with bridles := { rt.bridles with recs := m } } := by
  induction l generalizing rt with
  | nil => exact ⟨rt.bridles.recs, rfl⟩
  | cons x l ih =>
    obtain ⟨m, h⟩ := ih (latchViolation b x a ((verdict rt b a x).getD 0) rt)
    exact ⟨m, h⟩

theorem latchViolation_of_valid {b x cause : Nat} {a : Access} {v : VRec} {rt : Rt} (h : kget rt.bridles.recs b = some v)
    (hv : v.valid = true) : kget (latchViolation b x a cause rt).bridles.recs b = some (counted 1 v) := by
  have hget : kgetD rt.bridles.recs b VRec.zero = v := by rw [kgetD, h]
  simp [latchViolation, hget, hv, counted, sat8]

theorem counted_counted (m n : Nat) (v : VRec) : counted n (counted m v) = counted (m + n) v := by
  have hcount : min (min (v.count + m) 255 + n) 255 = min (v.count + (m + n)) 255 := by omega
  rw [counted, counted, counted, hcount]

/-- Every refused beat counts in a record that is filled. -/
theorem latchBeats_of_valid {b : Nat} {a : Access} {l : List Nat} {v : VRec} {rt : Rt} (h : kget rt.bridles.recs b = some v)
    (hv : v.valid = true) (hcount : v.count ≤ 255) : kget (latchBeats b a l rt).bridles.recs b = some (counted l.length v) := by
  induction l generalizing rt v with
  | nil =>
    have hsame : counted 0 v = v := by rw [counted, Nat.add_zero, Nat.min_eq_left hcount]
    rw [List.length_nil, hsame]
    exact h
  | cons x l ih =>
    have hrest := ih (latchViolation_of_valid (x := x) (cause := (verdict rt b a x).getD 0) (a := a) h hv) hv
      (Nat.min_le_right _ _)
    rw [List.length_cons, Nat.add_comm, ← counted_counted]
    exact hrest

/-- The first refused beat fills an empty record, and the rest count. -/
theorem latchBeats_of_none {b x : Nat} {a : Access} {l : List Nat} {rt : Rt} (h : kget rt.bridles.recs b = none) :
    kget (latchBeats b a (x :: l) rt).bridles.recs b = some (counted l.length (firstRefusal b x a rt)) := by
  have hfirst : kget (latchViolation b x a ((verdict rt b a x).getD 0) rt).bridles.recs b = some (firstRefusal b x a rt) := by
    have hget : kgetD rt.bridles.recs b VRec.zero = VRec.zero := by rw [kgetD, h]
    rw [latchViolation]
    dsimp only
    rw [hget, kget_kset_self]
    rfl
  exact latchBeats_of_valid hfirst rfl (by decide : 1 ≤ 255)

theorem doBridleRefusal_of_refused {b x : Nat} {l : List Nat} {a : Access} {rt : Rt} (hb : b < 40) (hmain : mainPower rt = true)
    (hl : refusedBeats rt b a = x :: l) : doBridleRefusal b a rt = refusalActs b a (latchBeats b a (x :: l) rt) := by
  have hb' : ¬ 40 ≤ b := by omega
  simp [doBridleRefusal, hl, hb', hmain]

theorem doBridleRefusal_of_admitted {b : Nat} {a : Access} {rt : Rt} (h : refusedBeats rt b a = []) : doBridleRefusal b a rt = rt := by
  simp [doBridleRefusal, h]

/-- The first refused beat has a verdict. -/
theorem verdict_of_refusedBeats {b x : Nat} {l : List Nat} {a : Access} {rt : Rt} (h : refusedBeats rt b a = x :: l) :
    some ((verdict rt b a x).getD 0) = verdict rt b a x := by
  have hne : refusedBeats rt b a ≠ [] := by rw [h]; exact List.cons_ne_nil _ _
  have hhead := List.head_dropWhile_not (l := beatsOf a) (fun x => (verdict rt b a x).isNone) hne
  have hx : (refusedBeats rt b a).head hne = x := by simp only [h, List.head_cons]
  have hfirst : (verdict rt b a x).isNone = false := hx ▸ hhead
  obtain ⟨v, hv⟩ := Option.isSome_iff_exists.mp (Option.isNone_eq_false_iff.mp hfirst)
  rw [hv, Option.getD_some]

/-! ## Updates (R413) -/

theorem inOrder_singleton {e : BridleEdit} (h : e.bridle < 40) : inOrder [e] = [e] := by
  have hnone (l : List Nat) (hl : e.bridle ∉ l) : l.flatMap (fun b => [e].filter fun e => e.bridle == b) = [] := by
    refine List.flatMap_eq_nil_iff.mpr fun b hb => ?_
    have hne : e.bridle ≠ b := fun heq => hl (heq ▸ hb)
    simp [hne]
  obtain ⟨pre, post, hsplit⟩ := List.append_of_mem (List.mem_range.mpr h)
  have hnodup : (pre ++ e.bridle :: post).Nodup := hsplit ▸ List.nodup_range
  obtain ⟨_, hpost, hdisj⟩ := List.nodup_append.mp hnodup
  have hpre : e.bridle ∉ pre := fun hmem => hdisj _ hmem _ List.mem_cons_self rfl
  rw [inOrder, hsplit, List.flatMap_append, List.flatMap_cons, hnone pre hpre, hnone post (List.nodup_cons.mp hpost).1]
  simp

theorem bridle_lt_of_accepted {r : BridleRequest} {e : BridleEdit} {rt : Rt} (hr : r.edits = [e]) (h : refusedEdit rt r = none) :
    e.bridle < 40 := by
  by_contra hge
  have hge' : 40 ≤ e.bridle := by omega
  simp [refusedEdit, hr, hge'] at h

theorem refusedEdit_of_bad {r : BridleRequest} {e : BridleEdit} {x : Region} {rt : Rt} (hr : r.edits = [e]) (hx : x ∈ e.add)
    (hbad : entryOk rt r.house e.bridle x = false) : refusedEdit rt r = some (some e.bridle) := by
  have hall : e.add.all (entryOk rt r.house e.bridle) = false := List.all_eq_false.mpr ⟨x, hx, Bool.eq_false_iff.mp hbad⟩
  simp only [refusedEdit, hr, hall, Bool.not_false, Bool.or_true, List.find?_cons_of_pos]

/-- The request is served: the map is sealed, and neither a fatal fault nor a halt is in force. -/
def mapServed (rt : Rt) : Bool := !(!(rt.boot.isSealed && mainPower rt) || inFatal rt || inTamperHalt rt)

/-- The event of a refused entry. -/
def bridleRequestEvent (b : Nat) : FaultEvent :=
  { source := .bridleRequest, scope := 0, island := some 45, booth := none, detail := [BitVec.ofNat 8 b], houseProg := false }

theorem doBridleUpdate_of_served {r : BridleRequest} {rt : Rt} (h : mapServed rt = true) : doBridleUpdate r rt =
    match refusedEdit rt r with
    | some none => failRequest stInputRefused [0x47] rt
    | some (some b) => failRequest stDeviceFault [] (raise (bridleRequestEvent b) rt)
    | none => { rt with bridles := { rt.bridles with tables := (inOrder r.edits).foldl editTable rt.bridles.tables } } := by
  have hserved : (!(rt.boot.isSealed && mainPower rt) || inFatal rt || inTamperHalt rt) = false := by simpa [mapServed] using h
  rw [doBridleUpdate, hserved, if_neg Bool.false_ne_true]
  rfl

theorem doBridleUpdate_of_accepted {r : BridleRequest} {e : BridleEdit} {rt : Rt} (h : mapServed rt = true) (hr : r.edits = [e])
    (hok : refusedEdit rt r = none) :
    doBridleUpdate r rt = { rt with bridles := { rt.bridles with tables := editTable rt.bridles.tables e } } := by
  rw [doBridleUpdate_of_served h, hok, hr, inOrder_singleton (bridle_lt_of_accepted hr hok)]
  rfl

theorem doBridleUpdate_of_unsealed {r : BridleRequest} {rt : Rt} (h : rt.boot.isSealed = false) : doBridleUpdate r rt = rt := by
  simp [doBridleUpdate, h]

theorem bridleTable_editTable_ne {e : BridleEdit} {b : Nat} (rt : Rt) (h : b ≠ e.bridle) :
    bridleTable { rt with bridles := { rt.bridles with tables := editTable rt.bridles.tables e } } b = bridleTable rt b :=
  kgetD_kput_ne _ _ _ h.symm

/-- An edit removes and adds what it names. -/
theorem mem_bridleTable_editTable {e : BridleEdit} {x : Region} (rt : Rt) :
    x ∈ bridleTable { rt with bridles := { rt.bridles with tables := editTable rt.bridles.tables e } } e.bridle ↔
      (x ∈ bridleTable rt e.bridle ∧ x ∉ e.remove) ∨ (x ∈ e.add ∧ x ∉ bridleTable rt e.bridle) := by
  simp [bridleTable, editTable, List.mem_append, List.mem_filter]

/-! ## The obligation -/

/-- Settles O41: an update by the table of its one bridle, a refusal by the record that its beats fill and count. -/
theorem bridleCommands : Obligations.BridleCommands := by
  unfold Obligations.BridleCommands
  refine ⟨?update, fun r e x s hr hx hbad => refusedEdit_of_bad hr hx hbad,
    fun r s h => next_onRt_congr (g := id) (doBridleUpdate_of_unsealed h), ?refusal,
    fun b a s h => next_onRt_congr (g := id) (doBridleRefusal_of_admitted h)⟩
  case update =>
    intro r e s hsealed hmain hfatal hhalt hr
    have hserved : mapServed s.rt = true := by simp [mapServed, hsealed, hmain, hfatal, hhalt]
    refine ⟨fun hok => ⟨onRt (doBridleUpdate r) s, rfl, ?_⟩, fun b hb => ?_, fun hfull => ⟨onRt (doBridleUpdate r) s, rfl, ?_⟩⟩
    · rw [onRt_rt, doBridleUpdate_of_accepted hserved hr hok]
      exact ⟨fun b hb => bridleTable_editTable_ne s.rt hb, fun x => mem_bridleTable_editTable s.rt, rfl, rfl⟩
    · obtain ⟨c, esc, sev, quiet, hring⟩ := raise_fault (bridleRequestEvent b) s.rt
      refine ⟨onRt (doBridleUpdate r) s, mkRecord s.rt (bridleRequestEvent b) c esc sev quiet, rfl, ?_⟩
      rw [onRt_rt, doBridleUpdate_of_served hserved, hb]
      dsimp only
      rw [failRequest_bridles, raise_bridles, failRequest_fault]
      exact ⟨rfl, hring, rfl, rfl⟩
    · rw [onRt_rt, doBridleUpdate_of_served hserved, hfull]
      exact ⟨failRequest_bridles _ _ _, failRequest_fault _ _ _⟩
  case refusal =>
    intro b x l a s hb hmain hl
    have hrun := doBridleRefusal_of_refused hb hmain hl
    obtain ⟨m, hm⟩ := latchBeats_eq b a (x :: l) s.rt
    refine ⟨fun hnone => ?_, fun v hv hvalid hcount => ?_, fun id c hhost hcmd hc hbundle => ?_⟩
    · have hlatched := latchBeats_of_none (x := x) (a := a) (l := l) hnone
      refine ⟨onRt (doBridleRefusal b a) s, counted l.length (firstRefusal b x a s.rt), rfl, ?_⟩
      rw [onRt_rt, hrun, refusalActs_bridles]
      refine ⟨hlatched, rfl, rfl, verdict_of_refusedBeats hl, rfl, rfl, rfl, ?_, by rw [hm]⟩
      show min (1 + l.length) 255 = _
      rw [Nat.add_comm]
    · have hlatched := latchBeats_of_valid (a := a) (l := x :: l) hv hvalid hcount
      refine ⟨onRt (doBridleRefusal b a) s, counted (x :: l).length v, rfl, ?_⟩
      rw [onRt_rt, hrun, refusalActs_bridles]
      exact ⟨hlatched, rfl, rfl, rfl, rfl, rfl⟩
    · have hacts : refusalActs b a (latchBeats b a (x :: l) s.rt) = failWith id stAccessRefused (latchBeats b a (x :: l) s.rt) := by
        rw [refusalActs, hcmd]
        exact if_pos hhost
      have hkept : kget (latchBeats b a (x :: l) s.rt).cmds id = some c := by rw [hm]; exact hc
      obtain ⟨d, booths, hend⟩ := failCmd_eq_of_alone hkept hbundle stAccessRefused (zeros 16)
      refine ⟨onRt (doBridleRefusal b a) s, ?_⟩
      rw [onRt_rt, hrun, hacts, failWith, hend]
      exact ⟨_, rfl, kget_kset_self _ _ _, rfl, rfl⟩

end Sys2Proof.Machine
end

section
/-! PROOFS. The clockmaker (23): the discipline source, the second boundary by its comparison and its ageing, the changes of state, and the
time that the module serves. -/

namespace Sys2Proof.Machine

/-! ## The discipline source (R447) -/

/-- The clock after an edge, apart from what its label says. -/
def edgeSeenAt (ns : Nat) (k : Clock) : Clock := { k with ppsInNs := ns, edgeSeen := true, ppsValid := true }

theorem doPpsInEdge_of_label {ns sec utc : Nat} {leap : Bool} {s : State} (hp : powered s.rt = true) (hns : ns < 1000000000)
    (hsrc : s.nv.clockCfg.source = 1) (hl : s.rt.clock.label = some (sec, utc, leap)) : doPpsInEdge ns s =
      onRt (onClock fun k => { edgeSeenAt ns k with
        measured := some ((k.sec : Int) * 1000000000 + ns - sec * 1000000000), utcOffset := utc, leap := leap, label := none }) s := by
  simp only [doPpsInEdge, hp, hsrc, hl, Nat.mod_eq_of_lt hns, clockNs, Bool.not_true, Bool.false_eq_true, if_false]
  push_cast
  rfl

/-- An edge without a label, or with another source, is timestamped and measures nothing. -/
theorem doPpsInEdge_of_unmeasured {ns : Nat} {s : State} (hp : powered s.rt = true) (hns : ns < 1000000000)
    (h : s.nv.clockCfg.source ≠ 1 ∨ s.rt.clock.label = none) : doPpsInEdge ns s = onRt (onClock (edgeSeenAt ns)) s := by
  simp only [doPpsInEdge, hp, Nat.mod_eq_of_lt hns, Bool.not_true, Bool.false_eq_true, if_false]
  split
  · next hsrc hl =>
    obtain h | h := h
    · exact absurd hsrc h
    · cases hl.symm.trans h
  · rfl

/-- A frame on the MGMT port is noted with the port alone. -/
theorem mgmtFrame_eq (rt : Rt) : ∃ n, mgmtFrame rt = { rt with net := n } ∧ n.mgmtLink = rt.net.mgmtLink := by
  unfold mgmtFrame
  split
  · exact ⟨_, rfl, rfl⟩
  · exact ⟨rt.net, rfl, rfl⟩

/-- The state of the network has no part in the check of a datagram. -/
theorem todMacOk_net (n : Net) (s : State) (d : Bytes) : todMacOk { s with rt := { s.rt with net := n } } d = todMacOk s d := rfl

/-- The checks of a time-of-day datagram (R447). -/
def todPasses (d a : Bytes) (us : Nat) (s : State) : Bool :=
  powered s.rt && s.rt.net.mgmtLink && s.nv.clockCfg.source == 1 && d.length == 48 && a == s.nv.clockCfg.todAddr && zeroAt d 6 2 &&
    todMacOk s d && decide (s.rt.clock.todSeq ≤ leAt d 12 4 ∧ 10000 ≤ us ∧ us ≤ 990000)

theorem doTodDatagram_eq (d a : Bytes) (us : Nat) (s : State) : doTodDatagram d a us s =
    if todPasses d a us s then
      onRt (onClock fun k => { k with label := some (leAt d 0 6, leAt d 8 2, (leAt d 10 2).testBit 0), todSeq := leAt d 12 4 + 1 })
        (onRt mgmtFrame s)
    else onRt mgmtFrame s := by
  obtain ⟨n, hframe, hlink⟩ := mgmtFrame_eq s.rt
  have hrt : onRt mgmtFrame s = { s with rt := { s.rt with net := n } } := congrArg (fun rt => { s with rt := rt }) hframe
  have hsame : todPasses d a us (onRt mgmtFrame s) = todPasses d a us s := by
    rw [hrt, todPasses, todMacOk_net]
    dsimp only
    rw [hlink]
    rfl
  rw [← hsame]
  rfl

theorem doTodDatagram_of_refused {d a : Bytes} {us : Nat} {s : State} (h : todPasses d a us s = false) :
    doTodDatagram d a us s = onRt mgmtFrame s := by
  rw [doTodDatagram_eq, h, if_neg Bool.false_ne_true]

/-! ## The second boundary (R444, R445, R448) -/

/-- The clock after a second in which no step was due: compared with the source, and aged. -/
def secondPasses (c : ClockCfg) (ctr : Nat) (off : Option Int) (k : Clock) : Clock :=
  ageClock c { compareClock c ctr off k with
    measured := none, ppsValid := (compareClock c ctr off k).edgeSeen, edgeSeen := false, ptpDelay := [] }

theorem doSecondBoundary_eq (o : Option Int) {s : State} (hp : powered s.rt = true) : doSecondBoundary o s =
    onRt (fun rt => onClock (fun k => secondPasses s.nv.clockCfg rt.freeCtr (offsetOf s.nv.clockCfg o k) k)
      { rt with freeCtr := rt.freeCtr + 1 }) (stepClock s) := by
  have hcfg : (stepClock s).nv.clockCfg = s.nv.clockCfg := by unfold stepClock; split <;> rfl
  rw [doSecondBoundary, hp]
  simp only [Bool.not_true, Bool.false_eq_true, if_false, hcfg]
  rfl

theorem doSecondBoundary_of_noStep (o : Option Int) {s : State} (hp : powered s.rt = true) (hstep : s.rt.clock.pendingStep = none) :
    (doSecondBoundary o s).rt.clock =
      secondPasses s.nv.clockCfg s.rt.freeCtr (offsetOf s.nv.clockCfg o s.rt.clock) s.rt.clock := by
  have hstay : stepClock s = s := by rw [stepClock, hstep]
  rw [doSecondBoundary_eq o hp, hstay]
  rfl

theorem offsetOf_of_source {c : ClockCfg} {o : Option Int} {k : Clock} {d : Int}
    (h : (c.source = 1 ∧ k.measured = some d) ∨ (2 ≤ c.source ∧ o = some d)) : offsetOf c o k = some d := by
  obtain ⟨h1, hm⟩ | ⟨h2, ho⟩ := h
  · simp [offsetOf, h1, hm]
  · simp [offsetOf, show c.source ≠ 0 by omega, show c.source ≠ 1 by omega, ho]

theorem offsetOf_of_none {c : ClockCfg} {o : Option Int} {k : Clock}
    (h : c.source = 0 ∨ (c.source = 1 ∧ k.measured = none) ∨ (2 ≤ c.source ∧ o = none)) : offsetOf c o k = none := by
  obtain h0 | ⟨h1, hm⟩ | ⟨h2, ho⟩ := h
  · simp [offsetOf, h0]
  · simp [offsetOf, h1, hm]
  · simp [offsetOf, show c.source ≠ 0 by omega, show c.source ≠ 1 by omega, ho]

/-- What ageing leaves of a clock: all but its uncertainty, its spans and the class of a holdover. -/
structure AgedFrom (k t : Clock) : Prop where
  sec : t.sec = k.sec
  ns : t.ns = k.ns
  lastOffset : t.lastOffset = k.lastOffset
  measured : t.measured = k.measured
  missed : t.missed = k.missed
  goodRun : t.goodRun = k.goodRun
  freqCorr : t.freqCorr = k.freqCorr
  pendingStep : t.pendingStep = k.pendingStep
  stepCount : t.stepCount = k.stepCount
  sourceRefused : t.sourceRefused = k.sourceRefused
  ppsValid : t.ppsValid = k.ppsValid
  edgeSeen : t.edgeSeen = k.edgeSeen
  ptpDelay : t.ptpDelay = k.ptpDelay

theorem ageClock_agedFrom (c : ClockCfg) (k : Clock) : AgedFrom k (ageClock c k) := by
  unfold ageClock
  extract_lets aged
  split
  · constructor <;> rfl
  · constructor <;> rfl
  · constructor <;> rfl

/-- A second of a set time without warm-up adds 10 ns (R445). -/
theorem ageClock_uncertainty_of_set (c : ClockCfg) {k : Clock} (hst : k.st = .set) (hwarm : k.warmup = false) :
    (ageClock c k).uncertainty = min (k.uncertainty + 10) 0xFFFFFFFF := by
  simp [ageClock, growth, hst, hwarm, sat32]

/-- A second of lock restates the uncertainty by the last offset and the source's own error. -/
theorem ageClock_of_locked (c : ClockCfg) {k : Clock} (hst : k.st = .locked) :
    (ageClock c k).uncertainty = sat32 (k.lastOffset.natAbs + sourceError c) ∧ (ageClock c k).lockedSecs = k.lockedSecs + 1 := by
  simp [ageClock, hst]

/-- A second without an accepted edge or Sync is one missed (R444). -/
theorem compareClock_none (c : ClockCfg) (ctr : Nat) (k : Clock) :
    compareClock c ctr none k = { k with missed := k.missed + 1, goodRun := 0 } := rfl

/-- An offset within 1 µs is slewed and counts as good (R448). -/
theorem compareClock_of_good {c : ClockCfg} {ctr : Nat} {d : Int} {k : Clock} (hd : d.natAbs ≤ 1000) :
    compareClock c ctr (some d) k = moveTime (-d) { k with
      lastOffset := d, missed := 0, goodRun := k.goodRun + 1, freqCorr := max (-100000) (min 100000 (Config.servoPpb ctr d)) } := by
  have hslew : d.natAbs ≤ 100000 := by omega
  have hsat : sat32s d = d := by unfold sat32s; omega
  simp [compareClock, hd, hslew, hsat]

/-- A larger offset within the limit is stepped at the next boundary (R448). -/
theorem compareClock_of_step {c : ClockCfg} {ctr : Nat} {d : Int} {k : Clock} (hd : 100000 < d.natAbs)
    (hmax : d.natAbs ≤ c.maxStepMs * 1000000) : compareClock c ctr (some d) k =
      { k with lastOffset := sat32s d, missed := 0, goodRun := 0, pendingStep := some (-d) } := by
  have hslew : ¬ d.natAbs ≤ 100000 := by omega
  simp [compareClock, hslew, hmax]

/-- One beyond it refuses the source (R448). -/
theorem compareClock_of_refused {c : ClockCfg} {ctr : Nat} {d : Int} {k : Clock} (hd : 100000 < d.natAbs) (hlimit : c.maxStepMs ≠ 0)
    (hmax : c.maxStepMs * 1000000 < d.natAbs) : compareClock c ctr (some d) k =
      { k with lastOffset := sat32s d, sourceRefused := true, goodRun := 0, missed := max 3 k.missed } := by
  have hslew : ¬ d.natAbs ≤ 100000 := by omega
  have hbeyond : ¬ d.natAbs ≤ c.maxStepMs * 1000000 := by omega
  simp [compareClock, hslew, hlimit, hbeyond]

theorem secondPasses_agedFrom (c : ClockCfg) (ctr : Nat) (off : Option Int) (k : Clock) :
    AgedFrom { compareClock c ctr off k with
      measured := none, ppsValid := (compareClock c ctr off k).edgeSeen, edgeSeen := false, ptpDelay := [] } (secondPasses c ctr off k) :=
  ageClock_agedFrom c _

/-- A step that is due takes effect with an alignment record (R445, R453). -/
theorem stepClock_of_pending {d : Int} {s : State} (h : s.rt.clock.pendingStep = some d) : stepClock s =
    alignNow (onRt (onClock fun k => { shiftMeasured d (moveTime d k) with pendingStep := none, stepCount := sat16 k.stepCount }) s) := by
  rw [stepClock, h]

/-! ## Changes of state (R444, R449) -/

/-- A clock as it locks, and as it goes into holdover. -/
def lockedClock (c : ClockCfg) (k : Clock) : Clock :=
  { k with
    st := .locked, clockClass := 6, lockedSecs := 0, holdSecs := 0, uncertainty := sat32 (k.lastOffset.natAbs + sourceError c) }
def heldClock (c : ClockCfg) (k : Clock) : Clock :=
  { k with st := .holdover, holdSecs := 0, goodRun := 0, clockClass := if k.uncertainty ≤ c.holdLimit then 7 else 52 }

theorem doClockLock_of_good {s : State} (hp : powered s.rt = true) (hsrc : s.nv.clockCfg.source ≠ 0) (hrun : 10 ≤ s.rt.clock.goodRun)
    (hst : s.rt.clock.st = .set) (hwarm : s.rt.clock.warmup = false) : 
    doClockLock s = alignNow (onRt (onClock (lockedClock s.nv.clockCfg)) s) := by
  simp only [doClockLock, hp, hrun, hst, hwarm, bne_iff_ne.mpr hsrc, decide_true]
  rfl

theorem doClockLock_of_warmup {s : State} (h : s.rt.clock.warmup = true) : doClockLock s = s := by
  simp [doClockLock, h]

theorem doSourceLoss_of_missed {s : State} (hp : powered s.rt = true) (hst : s.rt.clock.st = .locked) (hm : 3 ≤ s.rt.clock.missed) :
    doSourceLoss s = onRt (onClock (heldClock s.nv.clockCfg)) s := by
  simp only [doSourceLoss, hp, hst, hm, decide_true]
  rfl

theorem doSourceLoss_of_kept {s : State} (h : s.rt.clock.st ≠ .locked ∨ s.rt.clock.missed < 3) : doSourceLoss s = s := by
  obtain hst | hm := h
  · simp [doSourceLoss, hst]
  · simp [doSourceLoss, show ¬ 3 ≤ s.rt.clock.missed by omega]

/-! ## Serving time (R450, R451) -/

theorem doPtpDelayReq_of_room {p : Port} {s : State} (seq : Nat) (hm : ptpMaster s p = true)
    (hn : kgetD s.rt.clock.ptpDelay p.val 0 < 4096) : doPtpDelayReq p seq s =
      onRt (fun rt => emit (.ptp p.val "Delay_Resp" seq rt.clock.clockClass)
        (onClock (fun k => { k with ptpDelay := kset k.ptpDelay p.val (kgetD s.rt.clock.ptpDelay p.val 0 + 1) }) rt)) s := by
  simp [doPtpDelayReq, hm, hn]

theorem doPtpDelayReq_of_full {p : Port} {s : State} (seq : Nat) (hn : 4096 ≤ kgetD s.rt.clock.ptpDelay p.val 0) :
    doPtpDelayReq p seq s = s := by
  simp [doPtpDelayReq, show ¬ kgetD s.rt.clock.ptpDelay p.val 0 < 4096 by omega]

/-- A port that is no master of the time serves nothing (R450). -/
theorem ptp_of_notMaster {p : Port} {s : State} (seq : Nat) (h : ptpMaster s p = false) :
    doPtpDelayReq p seq s = s ∧ doPtpSync p s = s ∧ doPtpAnnounce p s = s := by
  simp [doPtpDelayReq, doPtpSync, doPtpAnnounce, h]

theorem kgetD_kset_self {α : Type} (m : KMap α) (k : Nat) (v d : α) : kgetD (kset m k v) k d = v := by
  rw [kgetD, kget_kset_self]

/-! ## The obligation -/

/-- Settles O39: an edge and a datagram by what they leave of the label, a second by its comparison and what ageing keeps, the rest row by
row. -/
theorem clockCommands : Obligations.ClockCommands := by
  unfold Obligations.ClockCommands
  refine ⟨?edge, ?datagram, ?badDatagram, ?ages, ?good, ?missed, ?large, ?steps, ?lock, ?loss,
    fun s h => congrArg Host.Outcome.next (doSourceLoss_of_kept h), fun s hp => congrArg Host.Outcome.next (if_pos hp), ?align, ?ptp,
    fun p seq s h => ?noPtp, ?pps⟩
  case edge =>
    intro ns s hp hns
    refine ⟨fun sec utc leap hsrc hl => ?_, fun hsrc hl => ?_, fun hsrc => ?_⟩
    · exact ⟨_, congrArg Host.Outcome.next (doPpsInEdge_of_label hp hns hsrc hl), rfl, rfl, rfl, rfl, rfl, rfl⟩
    · exact ⟨_, congrArg Host.Outcome.next (doPpsInEdge_of_unmeasured hp hns (.inr hl)), rfl, rfl⟩
    · exact ⟨_, congrArg Host.Outcome.next (doPpsInEdge_of_unmeasured hp hns (.inl hsrc)), rfl, rfl⟩
  case datagram =>
    intro d us s hp hlink hsrc hlen hzero hseq hlow hhigh
    refine ⟨fun hmac => ?_, fun hmac => ?_, fun a ha => ?_⟩
    · have hpass : todPasses d s.nv.clockCfg.todAddr us s = true := by simp [todPasses, hp, hlink, hsrc, hlen, hzero, hmac, hseq, hlow, hhigh]
      exact ⟨_, congrArg Host.Outcome.next ((doTodDatagram_eq d _ us s).trans (if_pos hpass)), rfl, rfl⟩
    · exact congrArg Host.Outcome.next (doTodDatagram_of_refused (by simp [todPasses, hmac]))
    · exact congrArg Host.Outcome.next (doTodDatagram_of_refused (by simp [todPasses, ha]))
  case badDatagram =>
    intro d a us s h
    have hnot : ¬ (s.rt.clock.todSeq ≤ leAt d 12 4 ∧ 10000 ≤ us ∧ us ≤ 990000) := by omega
    exact congrArg Host.Outcome.next (doTodDatagram_of_refused (by rw [todPasses, decide_eq_false hnot, Bool.and_false]))
  case ages =>
    intro s hp hstep hsrc hst hwarm
    refine ⟨doSecondBoundary none s, rfl, ?_⟩
    rw [doSecondBoundary_of_noStep none hp hstep, offsetOf_of_none (.inl hsrc)]
    have hold := secondPasses_agedFrom s.nv.clockCfg s.rt.freeCtr none s.rt.clock
    exact ⟨ageClock_uncertainty_of_set _ hst hwarm, hold.ppsValid, hold.edgeSeen, hold.sec, hold.ptpDelay⟩
  case good =>
    intro d o s hp hstep hoff hst hd
    refine ⟨doSecondBoundary o s, rfl, ?_⟩
    rw [doSecondBoundary_of_noStep o hp hstep, offsetOf_of_source hoff]
    have hold := secondPasses_agedFrom s.nv.clockCfg s.rt.freeCtr (some d) s.rt.clock
    obtain ⟨hunc, hsecs⟩ := ageClock_of_locked s.nv.clockCfg (k := { compareClock s.nv.clockCfg s.rt.freeCtr (some d) s.rt.clock with
      measured := none, ppsValid := (compareClock s.nv.clockCfg s.rt.freeCtr (some d) s.rt.clock).edgeSeen, edgeSeen := false,
      ptpDelay := [] }) (by rw [compareClock_of_good hd]; exact hst)
    rw [secondPasses] at *
    rw [compareClock_of_good hd] at *
    have hsat : sat32 (d.natAbs + sourceError s.nv.clockCfg) = d.natAbs + (if s.nv.clockCfg.source = 1 then 40 else 200) := by
      unfold sat32 sourceError; split <;> omega
    refine ⟨hold.lastOffset, hold.measured, hunc.trans hsat, hold.goodRun, hold.missed, hsecs, ?_, ?_⟩
    · rw [hold.freqCorr]; exact le_max_left _ _
    · rw [hold.freqCorr]; exact max_le (by decide) (min_le_left _ _)
  case missed =>
    intro o s hp hstep hoff
    refine ⟨doSecondBoundary o s, rfl, ?_⟩
    rw [doSecondBoundary_of_noStep o hp hstep, offsetOf_of_none hoff]
    have hold := secondPasses_agedFrom s.nv.clockCfg s.rt.freeCtr none s.rt.clock
    exact ⟨hold.missed, hold.goodRun, hold.sec, hold.ns⟩
  case large =>
    intro d o s hp hstep hoff hd
    have hold := secondPasses_agedFrom s.nv.clockCfg s.rt.freeCtr (some d) s.rt.clock
    refine ⟨fun hmax => ⟨doSecondBoundary o s, rfl, ?_⟩, fun hlimit hmax => ⟨doSecondBoundary o s, rfl, ?_⟩⟩
    · rw [doSecondBoundary_of_noStep o hp hstep, offsetOf_of_source hoff]
      rw [compareClock_of_step hd hmax] at hold
      exact ⟨hold.pendingStep, hold.sec, hold.goodRun⟩
    · rw [doSecondBoundary_of_noStep o hp hstep, offsetOf_of_source hoff]
      rw [compareClock_of_refused hd hlimit hmax] at hold
      exact ⟨hold.sourceRefused, hold.missed ▸ le_max_left _ _, hold.pendingStep.trans hstep, hold.sec, hold.ns⟩
  case steps =>
    intro d s hp hstep hsrc
    refine ⟨doSecondBoundary none s, rfl, ?_⟩
    rw [doSecondBoundary_eq none hp, stepClock_of_pending hstep]
    obtain ⟨hrt, hlen⟩ := alignNow_spec
      (onRt (onClock fun k => { shiftMeasured d (moveTime d k) with pendingStep := none, stepCount := sat16 k.stepCount }) s)
    rw [onRt_rt, hrt]
    have hnone (k : Clock) : offsetOf s.nv.clockCfg none k = none := offsetOf_of_none (.inl hsrc)
    have hold := secondPasses_agedFrom s.nv.clockCfg s.rt.freeCtr none
      { shiftMeasured d (moveTime d s.rt.clock) with pendingStep := none, stepCount := sat16 s.rt.clock.stepCount }
    dsimp only [onClock, onRt_rt]
    rw [hnone]
    exact ⟨hold.pendingStep, hold.stepCount, hold.sec, hold.ns, hlen⟩
  case lock =>
    intro s hp hsrc hrun hst
    refine ⟨fun hwarm => ⟨doClockLock s, rfl, ?_⟩, fun hwarm => congrArg Host.Outcome.next (doClockLock_of_warmup hwarm)⟩
    rw [doClockLock_of_good hp hsrc hrun hst hwarm]
    obtain ⟨hrt, hlen⟩ := alignNow_spec (onRt (onClock (lockedClock s.nv.clockCfg)) s)
    rw [hrt]
    exact ⟨rfl, rfl, rfl, hlen⟩
  case loss =>
    intro s hp hst hm
    exact ⟨_, congrArg Host.Outcome.next (doSourceLoss_of_missed hp hst hm), rfl, rfl, rfl, rfl⟩
  case align =>
    intro s hp hdone
    exact ⟨_, _, congrArg Host.Outcome.next (if_pos (by rw [hp, hdone]; rfl)), rfl, rfl, rfl, rfl, rfl, rfl⟩
  case ptp =>
    intro p seq s hm
    refine ⟨fun hn => ?_, fun hn => congrArg Host.Outcome.next (doPtpDelayReq_of_full seq hn), ?_, ?_⟩
    · exact ⟨_, congrArg Host.Outcome.next (doPtpDelayReq_of_room seq hm hn), rfl, kgetD_kset_self _ _ _ _⟩
    · exact ⟨_, congrArg Host.Outcome.next (if_pos hm), kgetD_kset_self _ _ _ _, List.append_assoc _ _ _⟩
    · exact ⟨_, congrArg Host.Outcome.next (if_pos hm), kgetD_kset_self _ _ _ _, rfl⟩
  case noPtp =>
    obtain ⟨hdelay, hsync, hannounce⟩ := ptp_of_notMaster seq h
    exact ⟨congrArg Host.Outcome.next hdelay, congrArg Host.Outcome.next hsync, congrArg Host.Outcome.next hannounce⟩
  case pps =>
    intro s hp
    refine ⟨fun hs => ⟨_, congrArg Host.Outcome.next (if_pos (by rw [hp, hs]; rfl)), rfl, rfl⟩, fun hs => ?_⟩
    exact congrArg Host.Outcome.next (if_neg (by rw [hs, Bool.not_true, Bool.and_false]; exact Bool.false_ne_true))

end Sys2Proof.Machine
end

section
/-! PROOFS. The SPDM responder (24 R467): what its common service refuses, what a draw on CD0 leaves to the message that is signed, and each
request's own answer. -/

namespace Sys2Proof.Machine

/-! ## The common service -/

theorem spdmServe_of_down {code n : Nat} {ph : SpdmPhase} {m : Bytes} {body : State → State} {s : State} (h : spdmServes s = false) :
    spdmServe code n ph m body s = s := by
  simp [spdmServe, h]

/-- A request of its code and length that comes in its order, at the negotiated version, is served. -/
theorem spdmServe_of_order {code n : Nat} {ph : SpdmPhase} {m : Bytes} {body : State → State} {s : State} (h : spdmServes s = true)
    (hcode : byteAt m 1 = code) (hlen : n ≤ m.length) (hph : phaseOk s.rt.spdm ph = true)
    (hver : ph = .none ∨ ph = .version ∨ byteAt m 0 = spdmVer s.rt.spdm) : spdmServe code n ph m body s = body s := by
  have hshort : ¬ m.length < n := by omega
  have hnot : ¬ (ph ≠ .none ∧ ph ≠ .version ∧ byteAt m 0 ≠ spdmVer s.rt.spdm) := by
    rintro ⟨h1, h2, h3⟩
    obtain h | h | h := hver
    · exact h1 h
    · exact h2 h
    · exact h3 h
  rw [spdmServe, h, hph, if_neg (by decide), if_neg (by simp [hcode, hshort]), if_neg (by decide), if_neg hnot]

/-- The state after an error message. -/
def spdmRefused (code : Nat) (s : State) : State :=
  { s with rt := { s.rt with out := s.rt.out ++ [.spdm (spdmHead s.rt.spdm 0x7F code 0)] } }

theorem onRt_spdmError (code : Nat) (s : State) : onRt (spdmError code) s = spdmRefused code s := rfl

/-- A request out of order is an unexpected request. -/
theorem spdmServe_of_disorder {code n : Nat} {ph : SpdmPhase} {m : Bytes} {body : State → State} {s : State} (h : spdmServes s = true)
    (hcode : byteAt m 1 = code) (hlen : n ≤ m.length) (hph : phaseOk s.rt.spdm ph = false) :
    spdmServe code n ph m body s = spdmRefused errUnexpected s := by
  have hshort : ¬ m.length < n := by omega
  rw [spdmServe, h, hph, if_neg (by decide), if_neg (by simp [hcode, hshort]), if_pos (by decide)]
  rfl

theorem phaseOk_session {x : Spdm} (hs : x.session.isSome = true) (hf : x.finished = true) : phaseOk x .session = true := by
  rw [phaseOk, hs, hf]; rfl

theorem phaseOk_noSession {x : Spdm} (hs : x.session = none) : phaseOk x .session = false := by
  rw [phaseOk, hs]; rfl

/-! ## Draws on CD0 -/

/-- What CD0 offers at once needs no wake-up. -/
theorem needCd0_got {r rt : Rt} {b : Bytes} (h : needCd0 r = .got b rt) : rt = r := by
  unfold needCd0 at h
  split at h
  · cases h
  · split at h
    · cases h
    · split at h
      · cases h
      · cases h; rfl

theorem drawNow_spdm {d n : Nat} {r rt : Rt} {b : Bytes} (h : drawNow d n r = some (b, rt)) : rt.spdm = r.spdm := by
  unfold drawNow at h
  dsimp only at h
  split at h
  · cases h
    unfold setMint
    split <;> rfl
  · cases h

/-- A draw on CD0 leaves the responder. -/
theorem drawCd0_got {n : Nat} {r rt : Rt} {b : Bytes} (h : drawCd0 n r = .got b rt) : rt.spdm = r.spdm := by
  unfold drawCd0 at h
  split at h
  · next b' rt' hneed =>
    have hsame : rt' = r := needCd0_got hneed
    split at h
    · next hdraw => cases h; rw [drawNow_spdm hdraw, hsame]
    · cases h
  · next hnot => exact absurd h (hnot b rt)

theorem spdmDraw_of_got {n : Nat} {body : Bytes → State → State} {s : State} {b : Bytes} {rt : Rt} (h : drawCd0 n s.rt = .got b rt) :
    spdmDraw n body s = onRt restCd0 (body b { s with rt := rt }) := by
  rw [spdmDraw, h]

/-- CD0 powers down again by a metered stop, which leaves responder and outputs. -/
theorem sansIslands_restCd0 (rt : Rt) : sansIslands (restCd0 rt) = sansIslands rt := by
  unfold restCd0
  split
  · exact sansIslands_sleepDie 0 rt
  · rfl

@[simp] theorem restCd0_spdm (rt : Rt) : (restCd0 rt).spdm = rt.spdm := read_of_rest Rt.spdm (sansIslands_restCd0 rt) fun _ => rfl

@[simp] theorem restCd0_out (rt : Rt) : (restCd0 rt).out = rt.out := read_of_rest Rt.out (sansIslands_restCd0 rt) fun _ => rfl

/-! ## Signed answers -/

/-- CHALLENGE at version 1.2 and without a summary answers with the nonce and a signature over the transcript. -/
theorem spdmChallenge_of_got {m rnd : Bytes} {rt : Rt} {s : State} (hslot : byteAt m 2 = 0) (hty : byteAt m 3 = 0)
    (hver : rt.spdm.version = some 0x12) (h : drawCd0 88 s.rt = .got rnd rt) :
    let r := spdmHead rt.spdm 0x03 0 1 ++ sha384 (slotChain s) ++ rnd.take 32 ++ le 2 0
    spdmChallenge m s =
      onRt restCd0 (onRt (spdmReply m (r ++ spdmSign s 0x83 (rnd.drop 32) (rt.spdm.transcript ++ m ++ r))) { s with rt := rt }) := by
  intro r
  have hctx : spdmContext rt.spdm m 36 = [] := by rw [spdmContext, hver]; rfl
  have hr : spdmHead rt.spdm 0x03 0 1 ++ sha384 (slotChain s) ++ rnd.take 32 ++ measureSummary { s with rt := rt } 0 ++ le 2 0 ++
      spdmContext rt.spdm m 36 = r := by
    rw [hctx, measureSummary, if_pos rfl, List.append_nil, List.append_nil]
  rw [spdmChallenge, hslot, hty]
  simp only [ne_eq, not_true_eq_false, false_and, or_self, if_false]
  rw [spdmDraw_of_got h, ← hr]
  rfl

/-- The unsigned answer of GET_MEASUREMENTS for the number of blocks. -/
def measureCount (rnd : Bytes) (x : Spdm) : Bytes :=
  spdmHead x 0x60 13 0 ++ [BitVec.ofNat 8 0] ++ le 3 0 ++ [] ++ rnd.take 32 ++ le 2 0 ++ []

theorem spdmMeasurements_of_count {m rnd : Bytes} {rt : Rt} {s : State} (hsig : (byteAt m 2).testBit 0 = false) (hop : byteAt m 3 = 0)
    (hver : rt.spdm.version = some 0x12) (h : drawCd0 88 s.rt = .got rnd rt) :
    spdmMeasurements m s = onRt restCd0 (onRt (spdmReply m (measureCount rnd rt.spdm)) { s with rt := rt }) := by
  have hctx : spdmContext rt.spdm m 4 = [] := by rw [spdmContext, hver]; rfl
  have hr : spdmHead rt.spdm 0x60 13 0 ++ [BitVec.ofNat 8 0] ++ le 3 0 ++ [] ++ rnd.take 32 ++ le 2 0 ++ spdmContext rt.spdm m 4 ++ [] =
      measureCount rnd rt.spdm := by rw [hctx, List.append_nil]; rfl
  rw [spdmMeasurements, hop, hsig]
  simp only [askedBlocks, if_true, Bool.false_and, Bool.false_eq_true, if_false]
  rw [spdmDraw_of_got h, ← hr]
  rfl

theorem measureCount_fields (rnd : Bytes) (x : Spdm) : byteAt (measureCount rnd x) 2 = 13 ∧
    ((measureCount rnd x).drop 8).take (rnd.take 32).length = rnd.take 32 := by
  have hdrop : (measureCount rnd x).drop 8 = rnd.take 32 ++ le 2 0 := by
    rw [measureCount, List.append_nil, List.append_nil, List.append_assoc]
    rfl
  exact ⟨rfl, by rw [hdrop, List.take_left]⟩

/-! ## The session -/

/-- What a session has as it opens (Table 24.3). -/
def openedSession (id : Nat) (secret : Bytes) (x : Spdm) : Spdm :=
  { x with session := some id, finished := false, secret := secret, reqKeys := 0, rspKeys := 0 }

theorem spdmKeyExchange_of_open {m : Bytes} {s : State} (h : s.rt.spdm.session.isSome = true) :
    spdmKeyExchange m s = spdmRefused errSession s := by
  simp only [spdmKeyExchange, h, if_true, onRt_spdmError]

theorem spdmKeyExchange_of_got {m rnd : Bytes} {rt : Rt} {s : State} (h : s.rt.spdm.session = none) (hzero : byteAt m 3 = 0)
    (hcurve : onCurve p384 (beAt m 40 48, beAt m 88 48) = true) (hdraw : drawCd0 144 s.rt = .got rnd rt) : ∃ id secret r,
    spdmKeyExchange m s =
      onRt restCd0 (onRt (fun rt => spdmReply m r (modSpdm (openedSession id secret) rt)) { s with rt := rt }) := by
  rw [spdmKeyExchange, h, hzero, hcurve]
  simp only [Option.isSome_none, Bool.false_eq_true, Bool.not_true, ne_eq, not_true_eq_false, or_self, if_false]
  rw [spdmDraw_of_got hdraw]
  exact ⟨_, _, _, rfl⟩

/-- FINISH in a session that waits for it checks the requester's MAC. -/
theorem spdmFinish_of_open {m : Bytes} {s : State} (h : s.rt.spdm.session.isSome = true) (hf : s.rt.spdm.finished = false)
    (hzero : byteAt m 2 = 0) : spdmFinish m s =
      if m.drop 4 ≠ Config.spdmMac 1 s.rt.spdm.secret (s.rt.spdm.transcript ++ m.take 4) then
        onRt (fun rt => spdmError errDecrypt (endSpdm rt)) s
      else onRt (fun rt => spdmReply m (spdmHead rt.spdm 0x65 0 0) (modSpdm (fun x => { x with finished := true }) rt)) s := by
  have hsome : s.rt.spdm.session.isNone = false := Option.isNone_eq_false_iff.mpr h
  simp only [spdmFinish, hsome, hf, hzero, Bool.or_self, Bool.false_eq_true, if_false, ne_eq, not_true_eq_false]

theorem spdmKeyUpdate_of_op {m : Bytes} {s : State} (h1 : 1 ≤ byteAt m 2) (h3 : byteAt m 2 ≤ 3) : spdmKeyUpdate m s = onRt (fun rt =>
    emit (.spdm (spdmHead rt.spdm 0x69 (byteAt m 2) (byteAt m 3))) (modSpdm (fun x => { x with
      reqKeys := x.reqKeys + b2n (decide (byteAt m 2 ≤ 2)), rspKeys := x.rspKeys + b2n (decide (byteAt m 2 = 2)) }) rt)) s := by
  have hop : ¬ (byteAt m 2 = 0 ∨ 3 < byteAt m 2) := by omega
  simp only [spdmKeyUpdate, if_neg hop]
  rfl

theorem spdmVendor_of_ideKm {m : Bytes} {s : State} {l : Link} {b : Bytes} (h4 : leAt m 4 2 = 3) (h6 : byteAt m 6 = 2)
    (h7 : leAt m 7 2 = 1) (hide : ideKm (slice m 11 (leAt m 9 2)) s.rt.link = some (l, b)) :
    spdmVendor m s = { s with rt := { s.rt with link := l, out := s.rt.out ++ [.spdm (ideReply s.rt.spdm b)] } } := by
  rw [spdmVendor, if_neg (by simp [h4, h6, h7]), hide]
  rfl

/-! ## The obligation -/

/-- Settles O55: every request by the common service, then by what its own answer keeps of the responder. -/
theorem spdmCommands : Obligations.SpdmCommands := by
  unfold Obligations.SpdmCommands
  refine ⟨fun m s h => ?down, ?version, ?capabilities, ?algorithms, ?disorder, fun m s h hph hver => ⟨?digests, ?certificate, ?challenge,
    ?measurements, fun hcode hlen => ⟨?exchangeTwice, ?exchange⟩, fun hcode hlen hs hf hzero => ?finish⟩,
    fun m s h hs hf hver => ⟨?keyUpdate, ?endSession, ?vendor⟩, ?noSession⟩
  case down =>
    have stays (code n : Nat) (ph : SpdmPhase) (body : State → State) :
        (Host.Outcome.next (spdmServe code n ph m body s) : Res) = .next s := congrArg Host.Outcome.next (spdmServe_of_down h)
    exact ⟨stays .., stays .., stays .., stays .., stays .., stays .., stays .., stays .., stays .., stays .., stays .., stays ..⟩
  case version =>
    intro m s h hcode hlen
    exact ⟨_, congrArg Host.Outcome.next (spdmServe_of_order h hcode hlen rfl (.inl rfl)), rfl, rfl, rfl, rfl, rfl⟩
  case capabilities =>
    intro m s h hcode hlen
    have hrun : exec (.getCapabilities m) s = .next (spdmCapabilities m s) :=
      congrArg Host.Outcome.next (spdmServe_of_order h hcode hlen rfl (.inr (.inl rfl)))
    refine ⟨fun hver => ?_, fun h12 h13 => ?_⟩
    · have hgood : ¬ (byteAt m 0 ≠ 0x12 ∧ byteAt m 0 ≠ 0x13) := by omega
      exact ⟨_, hrun.trans (congrArg Host.Outcome.next (if_neg hgood)), rfl, rfl, rfl, rfl, List.length_append⟩
    · exact ⟨_, hrun.trans (congrArg Host.Outcome.next (if_pos ⟨h12, h13⟩)), rfl, rfl⟩
  case algorithms =>
    intro m s h hcode hlen hsome hcaps hver
    have hph : phaseOk s.rt.spdm .caps = true := by rw [phaseOk, hsome, hcaps]; rfl
    have hrun : exec (.negotiateAlgorithms m) s = .next (spdmAlgorithms m s) :=
      congrArg Host.Outcome.next (spdmServe_of_order h hcode hlen hph (.inr (.inr hver)))
    refine ⟨fun hsign hhash => ?_, fun hhash => ?_⟩
    · exact ⟨_, hrun.trans (congrArg Host.Outcome.next (if_neg (by rw [hsign, hhash]; decide))), rfl, rfl⟩
    · exact ⟨_, hrun.trans (congrArg Host.Outcome.next (if_pos (.inr (by rw [hhash]; rfl)))), rfl, rfl⟩
  case disorder =>
    intro m s h hlen hph
    have refused (code n : Nat) (hn : n ≤ 36) (body : State → State) (hcode : byteAt m 1 = code) :
        (Host.Outcome.next (spdmServe code n .algs m body s) : Res) = .next (spdmRefused errUnexpected s) :=
      congrArg Host.Outcome.next (spdmServe_of_disorder h hcode (by omega) hph)
    exact ⟨_, rfl, rfl, refused 0x81 4 (by decide) _, refused 0x82 8 (by decide) _, refused 0x83 36 (by decide) _,
      refused 0xE0 4 (by decide) _⟩
  case digests =>
    intro hcode hlen
    exact ⟨_, _, congrArg Host.Outcome.next (spdmServe_of_order h hcode hlen hph (.inr (.inr hver))), rfl, rfl, rfl, rfl⟩
  case certificate =>
    intro hcode hlen hslot hoff
    have hgood : ¬ (byteAt m 2 ≠ 0 ∨ (slotChain s).length ≤ leAt m 4 2) := by omega
    exact ⟨_, _, congrArg Host.Outcome.next ((spdmServe_of_order h hcode hlen hph (.inr (.inr hver))).trans (if_neg hgood)), rfl, rfl⟩
  case challenge =>
    intro rnd rt hcode hlen hslot hty h12 hdraw
    have hkept : rt.spdm.version = some 0x12 := by rw [drawCd0_got hdraw, h12]
    refine ⟨_, _, congrArg Host.Outcome.next
      ((spdmServe_of_order h hcode hlen hph (.inr (.inr hver))).trans (spdmChallenge_of_got hslot hty hkept hdraw)), ?_, rfl⟩
    rw [onRt_rt, restCd0_out]
    rfl
  case measurements =>
    intro rnd rt hcode hlen hsig hop h12 hdraw
    have hkept : rt.spdm.version = some 0x12 := by rw [drawCd0_got hdraw, h12]
    refine ⟨_, measureCount rnd rt.spdm, congrArg Host.Outcome.next
      ((spdmServe_of_order h hcode hlen hph (.inr (.inr hver))).trans (spdmMeasurements_of_count hsig hop hkept hdraw)), ?_,
      measureCount_fields rnd rt.spdm⟩
    rw [onRt_rt, restCd0_out]
    rfl
  case exchangeTwice =>
    intro hs
    exact ⟨_, congrArg Host.Outcome.next
      ((spdmServe_of_order h hcode hlen hph (.inr (.inr hver))).trans (spdmKeyExchange_of_open hs)), rfl⟩
  case exchange =>
    intro rnd rt hs hzero hcurve hdraw
    obtain ⟨id, secret, r, hrun⟩ := spdmKeyExchange_of_got hs hzero hcurve hdraw
    refine ⟨_, congrArg Host.Outcome.next ((spdmServe_of_order h hcode hlen hph (.inr (.inr hver))).trans hrun), ?_⟩
    rw [onRt_rt, restCd0_spdm]
    exact ⟨rfl, rfl, rfl, rfl, rfl⟩
  case finish =>
    have hrun : exec (.finish m) s = .next (spdmFinish m s) :=
      congrArg Host.Outcome.next (spdmServe_of_order h hcode hlen hph (.inr (.inr hver)))
    rw [spdmFinish_of_open hs hf hzero] at hrun
    exact ⟨fun hmac => ⟨_, hrun.trans (congrArg Host.Outcome.next (if_neg (not_not_intro hmac))), rfl, rfl⟩,
      fun hmac => ⟨_, hrun.trans (congrArg Host.Outcome.next (if_pos hmac)), rfl, rfl⟩⟩
  case keyUpdate =>
    intro hcode hlen h1 h3
    refine ⟨_, congrArg Host.Outcome.next
      ((spdmServe_of_order h hcode hlen (phaseOk_session hs hf) (.inr (.inr hver))).trans (spdmKeyUpdate_of_op h1 h3)), ?_⟩
    have hbit (p : Prop) [Decidable p] : b2n (decide p) = if p then 1 else 0 := by by_cases hp : p <;> simp [b2n, hp]
    rw [← hbit, ← hbit]
    exact ⟨rfl, rfl, rfl⟩
  case endSession =>
    intro hcode hlen
    exact ⟨_, congrArg Host.Outcome.next (spdmServe_of_order h hcode hlen (phaseOk_session hs hf) (.inr (.inr hver))), rfl, rfl, rfl⟩
  case vendor =>
    intro l b hcode hlen h4 h6 h7 hide
    exact congrArg Host.Outcome.next
      ((spdmServe_of_order h hcode hlen (phaseOk_session hs hf) (.inr (.inr hver))).trans (spdmVendor_of_ideKm h4 h6 h7 hide))
  case noSession =>
    intro m s h hs
    have refused (code n : Nat) (body : State → State) (hcode : byteAt m 1 = code) (hlen : n ≤ m.length) :
        (Host.Outcome.next (spdmServe code n .session m body s) : Res) = .next (spdmRefused errUnexpected s) :=
      congrArg Host.Outcome.next (spdmServe_of_disorder h hcode hlen (phaseOk_noSession hs))
    exact ⟨_, rfl, refused 0xE9 4 _, refused 0xEC 4 _, refused 0xFE 13 _⟩

end Sys2Proof.Machine
end

section
/-! PROOFS. OPEN, ATTEST and TIME_TOKEN (17 R355 to R361, 23 R452, 24 R460): the version that a booth or a session holds after OPEN, and
the requests that draw their signature's secret from the mint. -/

namespace Sys2Proof.Machine

/-! ## What the end of a command leaves of a booth -/

theorem boothOf_recount_of_any {b : Nat} {x : Booth} {rt : Rt} (h : boothOf rt b = some x) (k : Nat) :
    ∃ n, boothOf (recount k rt) b = some { x with counted := n } := by
  by_cases hk : k = b
  · rw [hk]; exact boothOf_recount h
  · have hget : boothOf (recount k rt) b = boothOf rt b := kget_kmod_ne _ (Ne.symm hk)
    exact ⟨x.counted, hget.trans h⟩

/-- The end of a command changes of a booth at most the limit that counts for it (R182). -/
theorem boothOf_setEnded {b : Nat} {x : Booth} {rt : Rt} (h : boothOf rt b = some x) (id : CmdId) (st : Nat) (res out : Bytes) (n : Nat) :
    ∃ m, boothOf (setEnded id st res out n rt) b = some { x with counted := m } := by
  have hresv (r : Rt) : (returnResv id r).booths = r.booths := by unfold returnResv; split <;> rfl
  unfold setEnded
  extract_lets ready resv ended disp numbered
  have hbooths : resv.booths = rt.booths := by
    unfold resv
    split
    · exact hresv ready
    · rfl
  have hnumbered : boothOf numbered b = some x := (congrArg (kget · b) hbooths).trans h
  split
  · exact ⟨x.counted, hnumbered⟩
  · next c _ => exact boothOf_recount_of_any hnumbered c.booth

theorem boothOf_endJobOf (id : CmdId) (rt : Rt) (b : Nat) : boothOf (endJobOf id rt) b = boothOf rt b :=
  read_of_rest (boothOf · b) (sansJob_endJobOf id rt) fun _ => rfl

theorem boothOf_failWith_of_alone {id : CmdId} {c : Cmd} {b : Nat} {x : Booth} {rt : Rt} (hc : kget rt.cmds id = some c)
    (hbundle : c.bundle = none) (hx : boothOf rt b = some x) (st : Nat) :
    ∃ n, boothOf (failWith id st rt) b = some { x with counted := n } := by
  obtain ⟨m, hm, _, _⟩ := refused_cmds hc
  have hjob : boothOf { endJobOf id rt with cmds := m } b = some x := (boothOf_endJobOf id rt b).trans hx
  simp only [failWith, failCmd, hc, hbundle, hm]
  exact boothOf_setEnded hjob _ _ _ _ _

theorem endedAs_failWith_of_alone {id : CmdId} {c : Cmd} {s : State} (hc : kget s.rt.cmds id = some c) (hbundle : c.bundle = none) (st : Nat) :
    EndedAs (onRt (failWith id st) s) id st (zeros 16) [] 0 := by
  obtain ⟨d, b, hend⟩ := failCmd_eq_of_alone hc hbundle st (zeros 16)
  rw [EndedAs, onRt_rt, failWith, hend]
  exact ⟨_, kget_kset_self _ _ _, rfl, rfl, rfl, rfl, rfl⟩

/-! ## OPEN (R355 to R358) -/

/-- The state in which an answered OPEN has set its version and epoch. -/
def opened (id : CmdId) (c : Cmd) (v : Nat) (s : State) : Rt := setVersion c v (modCmd id (fun c => { c with epoch := s.rt.epoch }) s.rt)

section

variable {id : CmdId} {c : Cmd} {b : Booth} {s : State}

/-- The versions offered are in order and the rest of the request is zero. -/
theorem answerOpen_of_version {v : Nat} (hb : boothOf s.rt c.booth = some b) (hlim : c.desc.outLim = 16)
    (hzero : zeroAt c.desc.inl 2 12 = true) (hlo : 1 ≤ byteAt c.desc.inl 0) (hhi : byteAt c.desc.inl 0 ≤ byteAt c.desc.inl 1)
    (hv : chosenVersion (byteAt c.desc.inl 0) (byteAt c.desc.inl 1) = some v) : answerOpen id c s =
      { s with rt := doneCmd id (openResult s v c.booth b.cfg) [] 16 (opened id c v s) } := by
  have hgood : ¬ (byteAt c.desc.inl 1 < byteAt c.desc.inl 0 ∨ byteAt c.desc.inl 0 = 0 ∨ byteAt c.desc.inl 1 = 0 ∨
      (!zeroAt c.desc.inl 2 12) = true) := by
    rw [hzero]
    simp only [Bool.not_true, Bool.false_eq_true, or_false]
    omega
  have hfits : ¬ c.desc.outLim.toNat < 16 := by rw [hlim]; decide
  simp only [answerOpen, hb, if_neg hgood, hv, if_neg hfits]
  rfl

theorem answerOpen_of_unsupported (hb : boothOf s.rt c.booth = some b) (hzero : zeroAt c.desc.inl 2 12 = true)
    (hlo : 4 ≤ byteAt c.desc.inl 0) (hhi : byteAt c.desc.inl 0 ≤ byteAt c.desc.inl 1) :
    answerOpen id c s = onRt (failWith id stVersionUnsupported) s := by
  have hgood : ¬ (byteAt c.desc.inl 1 < byteAt c.desc.inl 0 ∨ byteAt c.desc.inl 0 = 0 ∨ byteAt c.desc.inl 1 = 0 ∨
      (!zeroAt c.desc.inl 2 12) = true) := by
    rw [hzero]
    simp only [Bool.not_true, Bool.false_eq_true, or_false]
    omega
  have hnone : chosenVersion (byteAt c.desc.inl 0) (byteAt c.desc.inl 1) = none := by
    rw [chosenVersion, if_neg (by omega), if_neg (by omega)]
  simp only [answerOpen, hb, if_neg hgood, hnone]

theorem answerOpen_of_malformed (hb : boothOf s.rt c.booth = some b) (hhi : byteAt c.desc.inl 1 < byteAt c.desc.inl 0) :
    answerOpen id c s = onRt (failWith id stMalformed) s := by
  simp only [answerOpen, hb, if_pos (Or.inl hhi)]

/-- The command of an answered OPEN, before its end. -/
theorem opened_cmd (hc : kget s.rt.cmds id = some c) (v : Nat) : kget (opened id c v s).cmds id = some { c with epoch := s.rt.epoch } := by
  have hmod : kget (modCmd id (fun c => { c with epoch := s.rt.epoch }) s.rt).cmds id = some { c with epoch := s.rt.epoch } :=
    kget_kmod_self _ hc
  unfold opened setVersion
  split
  · exact hmod
  · split
    · exact hmod
    · exact hmod

/-- The end of an answered OPEN. -/
theorem doneCmd_opened (hc : kget s.rt.cmds id = some c) (hbundle : c.bundle = none) (hwithheld : c.withheld = false)
    (hinl : isInline c.desc = true) (hlim : c.desc.outLim = 16) (v : Nat) (res : Bytes) :
    doneCmd id res [] 16 (opened id c v s) = setEnded id stDone res [] 16 (endJobOf id (opened id c v s)) := by
  have hlen : doneLength (opened id c v s) { c with epoch := s.rt.epoch } [] 16 = 16 := by
    rw [doneLength, if_neg (Bool.eq_false_iff.mp hwithheld), if_pos hinl]
  have hfits : (16 : Nat) ≤ c.desc.outLim.toNat := by rw [hlim]; decide
  have hend := doneCmd_of_fits (out := []) (span := 16) (opened_cmd hc v) (multiOf_of_alone _ hbundle) (by rw [hlen]; exact hfits) res
  rw [hlen, if_pos hinl] at hend
  exact hend

/-- The answered OPEN ends DONE with its result. -/
theorem endedAs_opened (hc : kget s.rt.cmds id = some c) (hbundle : c.bundle = none) (hwithheld : c.withheld = false)
    (hinl : isInline c.desc = true) (hlim : c.desc.outLim = 16) (v : Nat) (cfg : BoothCfg) :
    EndedAs { s with rt := doneCmd id (openResult s v c.booth cfg) [] 16 (opened id c v s) } id stDone (openResult s v c.booth cfg) [] 16 := by
  have hres : padTo 16 ((openResult s v c.booth cfg).take 16) = openResult s v c.booth cfg := by
    have hlen : (openResult s v c.booth cfg).length = 16 := by simp [openResult, le_length, zeros]
    rw [List.take_of_length_le (Nat.le_of_eq hlen), padTo, hlen]
    exact List.append_nil _
  have hend := endedAs_setEnded (s := s) (rt := endJobOf id (opened id c v s)) (by rw [cmds_endJobOf]; exact opened_cmd hc v) stDone
    (openResult s v c.booth cfg) [] 16
  rwa [hres, ← doneCmd_opened hc hbundle hwithheld hinl hlim v (openResult s v c.booth cfg)] at hend

theorem boothOf_opened_self (hb : boothOf s.rt c.booth = some b) (hsession : c.session = none) (v : Nat) :
    boothOf (opened id c v s) c.booth = some { b with version := some v } := by
  rw [opened, setVersion, hsession]
  exact kget_kmod_self _ hb

theorem opened_of_session {k : Nat} {y : Conn} (hsession : c.session = some k) (hy : kget s.rt.net.conns k = some y) (v : Nat) :
    boothOf (opened id c v s) = boothOf s.rt ∧ kget (opened id c v s).net.conns k = some { y with version := some v } := by
  have hmod : kget (modCmd id (fun c => { c with epoch := s.rt.epoch }) s.rt).net.conns k = some y := hy
  rw [opened, setVersion, hsession]
  dsimp only
  rw [hmod]
  exact ⟨rfl, kget_kset_self _ _ _⟩

end

/-! ## The obligation -/

/-- Settles O44: OPEN by the version that its range chooses and the end that records it, ATTEST and TIME_TOKEN by what they check before
they draw. -/
theorem serviceCommands : Obligations.ServiceCommands := by
  unfold Obligations.ServiceCommands
  refine ⟨?openCmd, fun id s h => ?notReady, ?attest, ?token⟩
  case openCmd =>
    intro id c b s hready hc hb hbundle hwithheld hinl hlim hzero
    have hrun : exec (.openCmd id) s = .next (answerOpen id c s) := congrArg Host.Outcome.next (by rw [doOpen, hready])
    refine ⟨fun hlo hlo3 hhi hsession => ?_, fun hlo hlo2 hhi k y hsession hy => ?_, fun hlo hhi => ?_, fun hhi => ?_⟩
    · have hv : chosenVersion (byteAt c.desc.inl 0) (byteAt c.desc.inl 1) = some 3 := if_pos ⟨hlo3, hhi⟩
      have hopen := answerOpen_of_version (id := id) hb hlim hzero hlo (hlo3.trans hhi) hv
      obtain ⟨n, hbooth⟩ := boothOf_setEnded (rt := endJobOf id (opened id c 3 s))
        ((boothOf_endJobOf _ _ _).trans (boothOf_opened_self hb hsession 3)) id stDone (openResult s 3 c.booth b.cfg) [] 16
      have hended := endedAs_opened hc hbundle hwithheld hinl hlim 3 b.cfg
      rw [← doneCmd_opened hc hbundle hwithheld hinl hlim 3] at hbooth
      exact ⟨_, _, hrun.trans (congrArg Host.Outcome.next hopen), hbooth, rfl, rfl, rfl, hended⟩
    · have hv : chosenVersion (byteAt c.desc.inl 0) (byteAt c.desc.inl 1) = some 2 := by
        rw [chosenVersion, if_neg (by omega), if_pos (by omega)]
      have hopen := answerOpen_of_version (id := id) hb hlim hzero hlo (by omega) hv
      obtain ⟨hbooths, hconn⟩ := opened_of_session (id := id) hsession hy 2
      obtain ⟨n, hbooth⟩ := boothOf_setEnded (rt := endJobOf id (opened id c 2 s))
        ((boothOf_endJobOf _ _ _).trans ((congrFun hbooths c.booth).trans hb)) id stDone (openResult s 2 c.booth b.cfg) [] 16
      have hnet : (doneCmd id (openResult s 2 c.booth b.cfg) [] 16 (opened id c 2 s)).net = (opened id c 2 s).net := by
        rw [doneCmd_opened hc hbundle hwithheld hinl hlim 2]
        exact (read_of_rest Rt.net (sansWork_setEnded ..) fun _ => rfl).trans (read_of_rest Rt.net (sansWork_endJobOf id _) fun _ => rfl)
      rw [← doneCmd_opened hc hbundle hwithheld hinl hlim 2] at hbooth
      exact ⟨_, _, hrun.trans (congrArg Host.Outcome.next hopen), (congrArg (fun n => kget n.conns k) hnet).trans hconn, rfl,
        congrArg (Option.map Booth.version) hbooth⟩
    · have hopen := answerOpen_of_unsupported (id := id) hb hzero hlo hhi
      obtain ⟨n, hbooth⟩ := boothOf_failWith_of_alone hc hbundle hb stVersionUnsupported
      exact ⟨_, hrun.trans (congrArg Host.Outcome.next hopen), endedAs_failWith_of_alone hc hbundle _,
        congrArg (Option.map Booth.version) hbooth⟩
    · exact ⟨_, hrun.trans (congrArg Host.Outcome.next (answerOpen_of_malformed hb hhi)), endedAs_failWith_of_alone hc hbundle _⟩
  case notReady => exact congrArg Host.Outcome.next (by rw [doOpen, h])
  case attest =>
    intro id c s hrun hzero hchain
    have hhead (n : Nat) : (2 ≤ byteAt c.desc.inl 0 ∨ (!zeroAt c.desc.inl 1 13) = true ∨ n < 8 ∨ 64 < n) ↔ n < 8 ∨ 64 < n := by
      rw [hzero]
      simp only [Bool.not_true, Bool.false_eq_true, false_or, or_iff_right_iff_imp]
      omega
    refine ⟨fun rnd rt h8 h64 hseed hdraw => ?_, fun hlen => ?_, fun h8 h64 hseed => ?_⟩
    · have hgood : ¬ ((cmdInput c).length < 8 ∨ 64 < (cmdInput c).length) := by omega
      exact congrArg Host.Outcome.next (by simp only [doAttest, hrun, hhead, if_neg hgood, hseed, hdraw, Bool.not_true, Bool.false_eq_true,
        if_false])
    · exact congrArg Host.Outcome.next (by simp only [doAttest, hrun, hhead, if_pos hlen])
    · have hgood : ¬ ((cmdInput c).length < 8 ∨ 64 < (cmdInput c).length) := by omega
      exact congrArg Host.Outcome.next (by simp only [doAttest, hrun, hhead, if_neg hgood, hseed, Bool.not_false, if_true])
  case token =>
    intro id c s hrun hinl hzero
    have hinput : cmdInput c = c.input := if_neg (Bool.eq_false_iff.mp hinl)
    refine ⟨fun rnd rt h8 h64 hseed hdraw => ?_, fun hlen => ?_⟩
    · have hgood : ¬ (c.input.length < 8 ∨ 64 < c.input.length) := by omega
      exact congrArg Host.Outcome.next (by simp only [doTimeToken, hrun, hinput, hinl, hzero, decide_eq_false hgood, hseed, hdraw,
        Bool.not_true, Bool.and_false, Bool.or_self, Bool.false_eq_true, if_false])
    · exact congrArg Host.Outcome.next (by simp only [doTimeToken, hrun, hinput, decide_eq_true hlen, Bool.or_true, if_true])

end Sys2Proof.Machine
end

section
/-! PROOFS. The commit of a bundle (07 R147, R148, 12 R262 to R268, 13 R295, 08 R173 to R175): the journal record, the twin's
acknowledgement, the commit mark, the persistent copies and the ledger's seals. -/

namespace Sys2Proof.Machine

/-! ## What a commit leaves of the strongroom's copy -/

/-- The strongroom's copy and the epoch: the strongroom without the requests that wait in it and the prior images that it keeps. -/
def workingCopy (rt : Rt) : Strong × Nat := ({ rt.strong with reqs := [], shadow := [] }, rt.epoch)

/-- What keeps the strongroom but its requests and keeps the epoch, keeps the copy. -/
theorem workingCopy_of {a b : Rt} (hstrong : sansReqs a = sansReqs b) (hepoch : a.epoch = b.epoch) : workingCopy a = workingCopy b :=
  Prod.ext (congrArg (fun x : Strong => { x with shadow := [] }) hstrong) hepoch

theorem workingCopy_raise (e : FaultEvent) (rt : Rt) : workingCopy (raise e rt) = workingCopy rt :=
  workingCopy_of (sansReqs_raise e rt) (read_of_rest Rt.epoch (sansFault_raise e rt) fun _ => rfl)

theorem workingCopy_returnResv (id : CmdId) (rt : Rt) : workingCopy (returnResv id rt) = workingCopy rt := by
  unfold returnResv; split <;> rfl

theorem workingCopy_setEnded (id : CmdId) (st : Nat) (res out : Bytes) (n : Nat) (rt : Rt) :
    workingCopy (setEnded id st res out n rt) = workingCopy rt := by
  unfold setEnded
  extract_lets ready resv ended disp numbered
  have hresv : workingCopy resv = workingCopy rt := by
    unfold resv
    split
    · exact workingCopy_returnResv id ready
    · rfl
  have hnumbered : workingCopy numbered = workingCopy resv := rfl
  split
  · exact hnumbered.trans hresv
  · exact hnumbered.trans hresv

theorem workingCopy_releaseMembers (ids : List CmdId) (rt : Rt) : workingCopy (releaseMembers ids rt) = workingCopy rt := by
  refine foldl_keeps workingCopy fun r id => ?_
  split
  · rfl
  · exact workingCopy_setEnded _ _ _ _ _ _

theorem workingCopy_closeClaimed (u : Nat) (rt : Rt) : workingCopy (closeClaimed u rt) = workingCopy rt := by
  unfold closeClaimed
  split
  · split <;> rfl
  · rfl

theorem workingCopy_answerWaiting (st : Nat) (res : Bytes) (rt : Rt) : workingCopy (answerWaiting st res rt) = workingCopy rt := by
  obtain ⟨w, m, x, o, h⟩ := answerWaiting_eq st res rt
  rw [h]; rfl

/-- The end of a committed bundle changes nothing of the copy. -/
theorem workingCopy_endBundle (u : Nat) (policy : Bool) (rt : Rt) : workingCopy (endBundle u policy rt) = workingCopy rt := by
  unfold endBundle
  split
  · rfl
  next x _ =>
  extract_lets closed emptied released
  have hclosed : workingCopy closed = workingCopy rt := workingCopy_closeClaimed u _
  have hemptied : workingCopy emptied = workingCopy closed := rfl
  have hreleased : workingCopy released = workingCopy closed := workingCopy_releaseMembers x.members closed
  split
  · split
    · exact hemptied.trans hclosed
    · exact (workingCopy_answerWaiting _ _ _).trans (hemptied.trans hclosed)
  · split
    · have hfreed : workingCopy (x.members.foldl (fun r id => modCmd id (fun c => { c with bundle := none }) r) released) =
          workingCopy released := foldl_keeps workingCopy fun r id => rfl
      exact hfreed.trans (hreleased.trans hclosed)
    · exact hreleased.trans hclosed

/-! ## The policy changes of a record -/

/-- A state after another has the same copy at an epoch so much later, and only the epoch marks of the flash may differ. -/
structure CommittedOver (n : Nat) (s t : State) : Prop where
  strong : (workingCopy t.rt).1 = (workingCopy s.rt).1
  epoch : t.rt.epoch = s.rt.epoch + n
  nv : ∃ a b, t.nv = { s.nv with epochMark := a, epochMarkB := b }

theorem CommittedOver.refl (s : State) : CommittedOver 0 s s := ⟨rfl, rfl, s.nv.epochMark, s.nv.epochMarkB, rfl⟩

theorem CommittedOver.trans {m n : Nat} {s t u : State} (h : CommittedOver m s t) (h' : CommittedOver n t u) : CommittedOver (m + n) s u := by
  obtain ⟨a, b, hnv⟩ := h.nv
  obtain ⟨a', b', hnv'⟩ := h'.nv
  exact ⟨h'.strong.trans h.strong, by rw [h'.epoch, h.epoch, Nat.add_assoc], a', b', by rw [hnv', hnv]⟩

/-- A committed change of keys advances the epoch by one; its completion ends the prior images alone (R189, R191). -/
theorem commitChange_keys (house : Nat) (respond : Bool) (s : State) : CommittedOver 1 s (commitChange (.keys house) respond s) := by
  rw [commitChange_eq]
  extract_lets ch
  have hcommitted : CommittedOver 1 s (committed ch s) := ⟨rfl, rfl, _, _, rfl⟩
  split
  · obtain ⟨w, m, x, o, hfinish, _⟩ := finishChange_eq ch (committed ch s)
    rw [hfinish, endOld_of_keys (house := house) rfl]
    exact ⟨rfl, rfl, _, _, rfl⟩
  · exact hcommitted

/-- The policy changes of a record advance the epoch by one each (R189). -/
theorem commitKeys_over (shadow : KMap SlotRec) (respond : Bool) (l : List Nat) (s : State) :
    CommittedOver l.length s (commitKeys shadow respond l s) := by
  induction l generalizing shadow s with
  | nil => exact .refl s
  | cons house l ih =>
    unfold commitKeys
    extract_lets x shadowed
    have hshadowed : CommittedOver 0 s shadowed := by
      unfold shadowed
      split
      · exact .refl s
      · exact ⟨rfl, rfl, s.nv.epochMark, s.nv.epochMarkB, rfl⟩
    have h := hshadowed.trans ((commitChange_keys house (respond && decide (l = [])) shadowed).trans (ih [] _))
    rwa [Nat.zero_add, Nat.add_comm 1] at h

/-! ## Ledger entries -/

theorem nextSeq_foldl_appendEntry (rt : Rt) (epoch : LedgerEntry → Nat) (l : List LedgerEntry) (g : Ledger) :
    (l.foldl (appendEntry rt epoch) g).nextSeq = g.nextSeq + l.length := by
  induction l generalizing g with
  | nil => rfl
  | cons e l ih => rw [List.foldl_cons, ih, nextSeq_appendEntry, List.length_cons]; omega

/-- Entries count in the ledger, and of the flash they change the ledger alone. -/
theorem writeEntriesAt_nv (epoch : LedgerEntry → Nat) (l : List LedgerEntry) (s : State) :
    ∃ g, (writeEntriesAt epoch l s).nv = { s.nv with ledger := g } ∧ g.nextSeq = s.nv.ledger.nextSeq + l.length := by
  unfold writeEntriesAt
  split
  · next hnil => exact ⟨s.nv.ledger, rfl, by rw [hnil]; rfl⟩
  · exact ⟨_, rfl, nextSeq_foldl_appendEntry s.rt epoch l s.nv.ledger⟩

theorem workingCopy_writeEntriesAt (epoch : LedgerEntry → Nat) (l : List LedgerEntry) (s : State) :
    workingCopy (writeEntriesAt epoch l s).rt = workingCopy s.rt := by
  unfold writeEntriesAt
  split
  · rfl
  · rw [ledgerLevels, onRt_rt, raiseLevel_keeps workingCopy (fun _ _ => rfl) workingCopy_raise,
      raiseLevel_keeps workingCopy (fun _ _ => rfl) workingCopy_raise]

/-! ## The journal -/

theorem seq_of_recordOf {nv : Nv} {q : Nat} {r : JRec} (h : recordOf nv q = some r) : r.seq = q :=
  beq_iff_eq.mp (List.find?_some (p := fun x : JRec => x.seq == q) h)

/-- A record is found as it was changed, where the change keeps its number. -/
theorem recordOf_modRecord {nv : Nv} {q : Nat} {r : JRec} (h : recordOf nv q = some r) {f : JRec → JRec} (hf : ∀ x, (f x).seq = x.seq) :
    recordOf (modRecord q f nv) q = some (f r) := by
  have hsame : ((fun x : JRec => x.seq == q) ∘ fun x => if x.seq = q then f x else x) = fun x => x.seq == q := by
    funext x
    simp only [Function.comp]
    split
    · rw [hf]
    · rfl
  rw [recordOf, modRecord, List.find?_map, hsame, show List.find? _ nv.journal = some r from h, Option.map_some,
    if_pos (seq_of_recordOf h)]

/-- A record that is taken out is found no more. -/
theorem recordOf_removed {nv : Nv} {q : Nat} {l : List JRec} (h : nv.journal = l.filter fun x => x.seq != q) : recordOf nv q = none := by
  rw [recordOf, h]
  refine List.find?_eq_none.mpr fun x hx => ?_
  obtain ⟨_, hne⟩ := List.mem_filter.mp hx
  simpa using hne

/-! ## COMMIT_MARK_WRITTEN -/

/-- What the applied record leaves as the strongroom's copy (R262, R267). -/
def appliedCopy (r : JRec) (rt : Rt) : Strong := (workingCopy (applyWorking r rt)).1

/-- A committed record: the copy holds its changes, its policy changes advanced the epoch, its entries count in the ledger, and it is
marked (R147, R262, R296). -/
theorem commitRecord_spec {q : Nat} {r : JRec} {s : State} (h : recordOf s.nv q = some r) :
    (workingCopy (commitRecord r s).rt).1 = appliedCopy r s.rt ∧
    (commitRecord r s).rt.epoch = s.rt.epoch + (r.changes.filter SlotChange.policy).length ∧
    (commitRecord r s).nv.ledger.nextSeq = s.nv.ledger.nextSeq + r.entries.length ∧
    (∃ x, recordOf (commitRecord r s).nv q = some x ∧ x.marked = true ∧ x.changes = r.changes) ∧
    (commitRecord r s).nv.slots = s.nv.slots := by
  obtain rfl : r.seq = q := seq_of_recordOf h
  unfold commitRecord
  extract_lets pol epochOf shadow lone applied advanced written marked kept ended sent
  have hadvanced : CommittedOver pol.length applied advanced := commitKeys_over shadow lone pol applied
  obtain ⟨a, b, hnv⟩ := hadvanced.nv
  obtain ⟨g, hledger, hseq⟩ := writeEntriesAt_nv epochOf r.entries advanced
  have hwritten : written.nv = { s.nv with ledger := g, epochMark := a, epochMarkB := b } := by rw [hledger, hnv]; rfl
  have hended : workingCopy ended = workingCopy written.rt := by
    unfold ended
    split
    · exact workingCopy_endBundle _ _ _
    · rfl
  have hsent : workingCopy sent = workingCopy ended := by
    unfold sent
    split
    · split <;> rfl
    · rfl
  have hcopy : workingCopy sent = workingCopy advanced.rt :=
    hsent.trans (hended.trans (workingCopy_writeEntriesAt epochOf r.entries advanced))
  have hpol : pol.length = (r.changes.filter SlotChange.policy).length := List.length_map _
  have hfound : recordOf written.nv r.seq = some r := by rw [hwritten]; exact h
  refine ⟨?copy, ?epoch, ?entries, ⟨{ r with marked := true, entries := [], epoch := written.rt.epoch }, ?found, rfl, rfl⟩, ?slots⟩
  case copy => exact (congrArg Prod.fst hcopy).trans hadvanced.strong
  case epoch => exact (congrArg Prod.snd hcopy).trans (hadvanced.epoch.trans (congrArg (s.rt.epoch + ·) hpol))
  case entries =>
    have hbefore : advanced.nv.ledger = s.nv.ledger := by rw [hnv]; rfl
    have hafter : kept.ledger = g := by simp only [kept, marked, modRecord, hwritten]
    rw [hafter, hseq, hbefore]
  case found => exact recordOf_modRecord hfound (f := fun r => { r with marked := true, entries := [], epoch := written.rt.epoch }) fun _ => rfl
  case slots => simp only [kept, marked, modRecord, hwritten]

theorem exec_commitMarkWritten {q : Nat} {r : JRec} {s : State} (h : recordOf s.nv q = some r) (hready : r.complete = true)
    (hacked : r.acked = true) (hmark : r.marked = false) (hflash : flashWorks s.rt = true) (hrun : mayRun s.rt = true) :
    exec (.commitMarkWritten q) s = .next (commitRecord r s) := by
  refine congrArg Host.Outcome.next (?_ : doCommitMarkWritten q s = _)
  simp only [doCommitMarkWritten, h, hready, hacked, hmark, hflash, hrun, Bool.not_false, Bool.and_self, if_true]

/-- Both caches drop the tiles of an applied record (R262). -/
theorem appliedCopy_caches (r : JRec) (rt : Rt) {k : Nat} (hk : k ∈ tilesOf r.changes) :
    k ∉ (appliedCopy r rt).cache0 ∧ k ∉ (appliedCopy r rt).cache1 := by
  simp [appliedCopy, workingCopy, applyWorking, dropTiles, hk]

/-! ## BUNDLE_COMMIT -/

section

variable {u : Nat} {x : Bundle} {s : State}

/-- The members of a bundle have run, and it waits for its commit. -/
structure Commitable (u : Nat) (x : Bundle) (s : State) : Prop where
  bundle : kget s.rt.bundles u = some x
  run : mayRun s.rt = true
  closed : x.closed = true
  failed : x.failed = none
  committed : x.committed = false
  record : x.record = none
  members : membersDone s.rt x = true

/-- The ledger and the tiles let a bundle that changes something commit. -/
structure Recordable (x : Bundle) (s : State) : Prop where
  ledger : ledgerFull s.nv = false
  twin : ∀ c ∈ x.changes, heldByTwin s c.slot = false
  tile : failedChange s.rt x = none
  space : commitWaits s x = false

/-- What BUNDLE_COMMIT does with a bundle whose members have run (R147, R148). -/
def commitStep (u : Nat) (x : Bundle) (reads : List (Nat × TileImage)) (s : State) : State :=
  if x.changes.isEmpty && x.entries.isEmpty then
    onRt (fun rt => releaseMembers x.members { rt with bundles := kset rt.bundles u { x with committed := true } }) s
  else if ledgerFull s.nv && !x.entries.isEmpty then failCommit u (x.first.getD 0) stStateRefused s
  else match x.changes.find? fun c => heldByTwin s c.slot with
    | some c => failCommit u c.member stStateRefused s
    | none => match failedChange s.rt x with
      | some c => failCommit u c.member stTileCheckFail s
      | none =>
        if commitWaits s x then s
        else match x.changes.find? fun c => readBad s.rt reads (tileOf c.slot) with
          | some c => failCommit u c.member stTileCheckFail (onRt (tileEvent 1 (tileOf c.slot)) s)
          | none => writeRecord1 u x s

theorem doBundleCommit_of_ready (h : Commitable u x s) (reads : List (Nat × TileImage)) :
    doBundleCommit u reads s = commitStep u x reads s := by
  obtain ⟨hx, hrun, hclosed, hfailed, hcommitted, hrecord, hmembers⟩ := h
  have hgo : (mayRun s.rt && x.closed && x.failed.isNone && !x.committed && x.record.isNone && membersDone s.rt x) = true := by
    rw [hrun, hclosed, hfailed, hcommitted, hrecord, hmembers]; rfl
  simp only [doBundleCommit, hx]
  exact if_neg (by rw [hgo]; decide)

/-- A bundle with changes that nothing holds back fails at its first bad tile, or begins its record. -/
theorem doBundleCommit_of_recordable (h : Commitable u x s) (hr : Recordable x s) (hne : x.changes ≠ []) (reads : List (Nat × TileImage)) :
    doBundleCommit u reads s = match x.changes.find? fun c => readBad s.rt reads (tileOf c.slot) with
      | some c => failCommit u c.member stTileCheckFail (onRt (tileEvent 1 (tileOf c.slot)) s)
      | none => writeRecord1 u x s := by
  obtain ⟨hledger, htwin, htile, hspace⟩ := hr
  have hnotwin : (x.changes.find? fun c => heldByTwin s c.slot) = none :=
    List.find?_eq_none.mpr fun c hc => by rw [htwin c hc]; exact Bool.false_ne_true
  simp only [doBundleCommit_of_ready h, commitStep, List.isEmpty_eq_false_iff.mpr hne, hledger, hnotwin, htile, hspace, Bool.false_and, Bool.false_eq_true, if_false]

theorem exec_bundleCommit_writes (h : Commitable u x s) (hr : Recordable x s) (hne : x.changes ≠ []) {reads : List (Nat × TileImage)}
    (hreads : ∀ c ∈ x.changes, readBad s.rt reads (tileOf c.slot) = false) :
    exec (.bundleCommit ⟨u, reads⟩) s = .next (writeRecord1 u x s) := by
  have hgood : (x.changes.find? fun c => readBad s.rt reads (tileOf c.slot)) = none :=
    List.find?_eq_none.mpr fun c hc => by rw [hreads c hc]; exact Bool.false_ne_true
  refine congrArg Host.Outcome.next (?_ : doBundleCommit u reads s = _)
  rw [doBundleCommit_of_recordable h hr hne, hgood]

/-- A full ledger refuses a single change with entries, whose record is dropped (R148, R297). -/
theorem doBundleCommit_of_full (h : Commitable u x s) (hfull : ledgerFull s.nv = true) (hne : x.entries ≠ []) (hsingle : x.single = true)
    {id : CmdId} (hmembers : x.members = [id]) (reads : List (Nat × TileImage)) : doBundleCommit u reads s =
      { onRt (failCmd id stStateRefused (stateRes s.rt)) s with nv := { s.nv with journal := dropRecord u s.nv.journal } } := by
  simp only [doBundleCommit_of_ready h, commitStep, List.isEmpty_eq_false_iff.mpr hne, hfull, Bool.and_false, Bool.not_false, Bool.and_self, Bool.false_eq_true, if_false,
    if_true, failCommit, h.bundle, hmembers, hsingle]
  rfl

/-- The record that a bundle begins (R267). -/
def beginsRecord (u : Nat) (x : Bundle) (link : Bool) (s : State) : JRec :=
  { seq := s.rt.strong.nextSeq, epoch := s.rt.epoch, bundle := some u, pairSeq := if link then some s.nv.pairing.nextSeq else none,
    changes := x.changes, entries := x.entries, complete := false, marked := false, retired := false, held := false,
    acked := !(link && s.rt.peer.paired) }

/-- The bundle holds the number of its record. -/
def recordBegun (u : Nat) (x : Bundle) (rt : Rt) : Rt :=
  { rt with
    strong := { rt.strong with nextSeq := rt.strong.nextSeq + 1 }
    bundles := kset rt.bundles u { x with record := some rt.strong.nextSeq } }

/-- Without a configured link the record waits for no acknowledgement (R173). -/
theorem writeRecord1_of_alone (hmode : s.nv.pairing.mode = false) : writeRecord1 u x s =
    { s with rt := recordBegun u x s.rt, nv := { s.nv with journal := s.nv.journal ++ [beginsRecord u x false s] } } := by
  simp only [writeRecord1, hmode, Bool.false_and, Bool.false_eq_true, if_false]
  rfl

/-- Over a configured link the record goes to the paired twin under the next pair sequence (R173). -/
theorem writeRecord1_of_paired (hmode : s.nv.pairing.mode = true) (htwin : s.nv.pairing.twin.isSome = true)
    (hpaired : s.rt.peer.paired = true) (hne : x.changes ≠ []) : writeRecord1 u x s =
    { s with
      rt := peerSend 2 s.nv.pairing.nextSeq (recordBytes (x.changes.map peerChange)) (recordBegun u x s.rt)
      nv := { s.nv with
        journal := s.nv.journal ++ [beginsRecord u x true s]
        pairing := { s.nv.pairing with nextSeq := s.nv.pairing.nextSeq + 1 } } } := by
  simp only [writeRecord1, recordBegun, beginsRecord, hmode, htwin, hpaired, List.isEmpty_eq_false_iff.mpr hne, Bool.not_false,
    Bool.and_self, if_true]

end

/-! ## JOURNAL_RECORD_WRITTEN and PERSISTENT_TILE_WRITE -/

section

variable {q : Nat} {r : JRec} {s : State}

/-- The record is complete; a held one is acknowledged to its origin (R173). -/
theorem doJournalRecordWritten_of_ok (h : recordOf s.nv q = some r) (hopen : r.complete = false) (hflash : flashWorks s.rt = true) :
    doJournalRecordWritten q true s =
      let s := { s with nv := modRecord q (fun r => { r with complete := true }) s.nv }
      if r.held then onRt (peerSend 3 (r.pairSeq.getD 0) []) s else s := by
  simp only [doJournalRecordWritten, h, hopen, hflash, Bool.not_true, Bool.or_self, Bool.false_eq_true, if_false, if_true]

/-- A flash error drops a record of the twin (R148). -/
theorem doJournalRecordWritten_of_error (h : recordOf s.nv q = some r) (hopen : r.complete = false) (hflash : flashWorks s.rt = true)
    (hbundle : r.bundle = none) : doJournalRecordWritten q false s =
      { s with nv := { s.nv with journal := s.nv.journal.filter fun x => x.seq != q } } := by
  simp only [doJournalRecordWritten, h, hopen, hflash, hbundle, Bool.not_true, Bool.or_self, Bool.false_eq_true, if_false]

/-- A record without its last page, without the acknowledgement or past a halt gets no mark (R173, R483). -/
theorem doCommitMarkWritten_of_wait (h : recordOf s.nv q = some r) (hwait : r.complete = false ∨ r.acked = false ∨ mayRun s.rt = false) :
    doCommitMarkWritten q s = s := by
  have hno : (r.complete && r.acked && !r.marked && flashWorks s.rt && mayRun s.rt) = false := by
    obtain hw | hw | hw := hwait <;> simp only [hw, Bool.false_and, Bool.and_false]
  simp only [doCommitMarkWritten, h, hno, Bool.false_eq_true, if_false]

theorem doPersistentTileWrite_of_marked (h : recordOf s.nv q = some r) (hmark : r.marked = true) (hlive : r.retired = false)
    (hflash : flashWorks s.rt = true) : doPersistentTileWrite q s =
      { s with nv := { raiseMark r.epoch s.nv with
        slots := applySlots r.changes s.nv.slots
        vers := bumpVers (tilesOf r.changes) s.nv.vers
        journal := s.nv.journal.filter fun x => x.seq != q } } := by
  simp only [doPersistentTileWrite, h, hmark, hlive, hflash, Bool.not_false, Bool.and_self, if_true]
  rfl

end

/-! ## The twin stops acknowledging (R175, R195) -/

/-- A record that waits for the twin waits no more; one that the twin sent stays. -/
def ackedAlone (r : JRec) : JRec := if r.held then r else { r with acked := true }

theorem twinLost_nv (s : State) : (twinLost s).nv = { s.nv with journal := s.nv.journal.map ackedAlone } := rfl

theorem ackedAlone_changes (r : JRec) : (ackedAlone r).changes = r.changes := by unfold ackedAlone; split <;> rfl

theorem acked_ackedAlone {r : JRec} (h : (ackedAlone r).held = false) : (ackedAlone r).acked = true := by
  unfold ackedAlone at h ⊢
  split at h
  · next hheld => exact absurd h (by rw [hheld]; decide)
  · next hown => rw [if_neg hown]

/-- Beside the twin's own records no bundle waits for the twin once it is lost. -/
theorem awaitsTwin_twinLost (u : Nat) (s : State) :
    awaitsTwin (twinLost s).nv u = s.nv.journal.any fun r => r.bundle == some u && r.held && !r.acked := by
  rw [twinLost_nv, awaitsTwin, List.any_map]
  refine congrArg (List.any s.nv.journal) (funext fun r => ?_)
  by_cases hheld : r.held = true
  · simp only [Function.comp, ackedAlone, hheld, if_true, Bool.and_true]
  · simp only [Function.comp, ackedAlone, hheld, Bool.false_eq_true, if_false, Bool.and_false, Bool.not_true, Bool.false_and]

/-- A reported event leaves the peer link as it stands. -/
theorem report_peer (e : FaultEvent) (rt : Rt) : (report e rt).peer = rt.peer := by
  obtain ⟨r, hrest, hcases⟩ := report_cases e rt
  have hr : r.peer = rt.peer := read_of_rest Rt.peer hrest fun _ => rfl
  have hstage (x : Rt) : (fatalStage x).peer = x.peer := by unfold fatalStage; split <;> rfl
  obtain ⟨h, _⟩ | h := hcases
  · rw [h, hr]
  · rw [h, hstage, ← hr]
    split
    · rfl
    · exact read_of_rest Rt.peer (sansWork_stopAll stDeviceFault r) fun _ => rfl

theorem unpair_of_paired {rt : Rt} (h : rt.peer.paired = true) :
    (unpair rt).peer = { rt.peer with paired := false, lost := true } ∧ (unpair rt).fault.nextSeq = (rt.fault.nextSeq + 1) % 2 ^ 32 := by
  rw [unpair, if_pos h]
  exact ⟨report_peer _ _, (report_recorded _ _).nextSeq⟩

theorem exec_peerAckTimeout {u : Nat} {s : State} (hpaired : s.rt.peer.paired = true) (hawaits : awaitsTwin s.nv u = true)
    (hflash : flashWorks s.rt = true) : exec (.peerAckTimeout u) s = .next (twinLost s) := by
  refine congrArg Host.Outcome.next (?_ : doPeerAckTimeout u s = _)
  simp only [doPeerAckTimeout, hpaired, hawaits, hflash, Bool.and_self, if_true]

theorem exec_drainTwinTimeout {u : Nat} {ch : Change} {s : State} (hch : bundleChange s.rt u = some ch)
    (hpaired : s.rt.peer.paired = true) (hawaits : awaitsTwin s.nv u = true) (hflash : flashWorks s.rt = true) :
    exec (.drainTwinTimeout u) s = .next (twinLost (onRt (advanceTo (ch.commitAt + drainTwinLimit)) s)) := by
  refine congrArg Host.Outcome.next (?_ : doDrainTwinTimeout u s = _)
  simp only [doDrainTwinTimeout, hch, hpaired, hawaits, hflash, Bool.and_self, if_true]

/-- Time alone decides nothing of the twin's acknowledgement. -/
theorem exec_peerAckTimeout_advanced {u : Nat} {s : State} (hpaired : s.rt.peer.paired = true) (hawaits : awaitsTwin s.nv u = true)
    (hflash : flashWorks s.rt = true) (t : Nat) :
    exec (.peerAckTimeout u) (onRt (advanceTo t) s) = .next (twinLost (onRt (advanceTo t) s)) :=
  exec_peerAckTimeout (s := onRt (advanceTo t) s) hpaired hawaits hflash

theorem awaitsTwin_twinLost_advanced (u t : Nat) (s : State) : awaitsTwin (twinLost (onRt (advanceTo t) s)).nv u =
    s.nv.journal.any fun r => r.bundle == some u && r.held && !r.acked := awaitsTwin_twinLost u (onRt (advanceTo t) s)

/-! ## LEDGER_SEAL (R295) -/

/-- The seal of an entry's chain value, under bytes drawn for its signatures. -/
def sealOf (otp : Otp) (q : Nat) (chain rnd : Bytes) : Seal :=
  { seq := q, chain := chain, sigEc := signEc (identityEc otp labelAttestEc) (rnd.take 56) (le 8 q ++ chain)
    sigMl := Config.mlDsaSign 3 (identityMl otp) (rnd.drop 56) (le 8 q ++ chain) }

theorem doLedgerSeal_of_due {q : Nat} {chain : Bytes} {s : State} (hdue : sealDue s.nv.ledger = some (q, chain))
    (hflash : flashWorks s.rt = true) (hseed : seedOk s.otp = true) (hserve : canServe s.rt s.rt.mint0 = true)
    (hidle : s.rt.mint0.waiting = []) : doLedgerSeal s =
      { s with
        rt := setMint 0 (generate 88 s.rt.mint0).2 s.rt
        nv := { s.nv with ledger := { s.nv.ledger with
          seals := s.nv.ledger.seals ++ [sealOf s.otp q chain (generate 88 s.rt.mint0).1] } } } := by
  have hdraw := drawNow_of_idle (d := 0) 88 hserve hidle
  simp only [doLedgerSeal, hdue, hflash, hseed, hdraw, Bool.and_self, Bool.not_true, Bool.false_eq_true, if_false]
  rfl

/-! ## The statement -/

theorem exec_bundleCommit (u : Nat) (reads : List (Nat × TileImage)) (s : State) :
    exec (.bundleCommit ⟨u, reads⟩) s = .next (doBundleCommit u reads s) := rfl
theorem exec_journalRecordWritten (q : Nat) (ok : Bool) (s : State) :
    exec (.journalRecordWritten q ok) s = .next (doJournalRecordWritten q ok s) := rfl
theorem exec_persistentTileWrite (q : Nat) (s : State) : exec (.persistentTileWrite q) s = .next (doPersistentTileWrite q s) := rfl
theorem exec_ledgerSeal (s : State) : exec .ledgerSeal s = .next (doLedgerSeal s) := rfl

/-- Settles O34, the row of the commit by the branches of BUNDLE_COMMIT, the mark by the frames of what a commit writes beside the copy. -/
theorem journalCommands : Obligations.JournalCommands := by
  unfold Obligations.JournalCommands
  refine ⟨?commit, ?written, ?mark, ?noMark, ?tiles, ?twin, ?seals, ?noSeal⟩
  case commit =>
    intro u x reads s hx hrun hclosed hfailed hcommitted hrecord hmembers
    have hready : Commitable u x s := ⟨hx, hrun, hclosed, hfailed, hcommitted, hrecord, hmembers⟩
    refine ⟨?empty, ?full, ?alone, ?paired, ?bad⟩
    case empty =>
      intro hchanges hentries
      rw [exec_bundleCommit, doBundleCommit_of_ready hready, commitStep, hchanges, hentries]
      rfl
    case full =>
      intro id hfull hentries hsingle hids
      rw [exec_bundleCommit, doBundleCommit_of_full hready hfull hentries hsingle hids]
    case alone =>
      intro hne hledger htwin htile hspace hreads hmode
      refine ⟨_, beginsRecord u x false s, exec_bundleCommit_writes hready ⟨hledger, htwin, htile, hspace⟩ hne hreads, ?_⟩
      rw [writeRecord1_of_alone hmode]
      exact ⟨rfl, rfl, rfl, rfl, rfl, rfl, rfl, rfl, rfl, kget_kset_self _ _ _, rfl, rfl, rfl, rfl⟩
    case paired =>
      intro hne hledger htwin htile hspace hreads hmode hsome hpaired
      refine ⟨_, beginsRecord u x true s, exec_bundleCommit_writes hready ⟨hledger, htwin, htile, hspace⟩ hne hreads, ?_⟩
      rw [writeRecord1_of_paired hmode hsome hpaired hne]
      exact ⟨rfl, by rw [beginsRecord, hpaired]; rfl, rfl, rfl, rfl, rfl⟩
    case bad =>
      intro c hledger htwin htile hspace hbad
      have hne : x.changes ≠ [] := List.ne_nil_of_mem (List.mem_of_find?_eq_some hbad)
      rw [exec_bundleCommit, doBundleCommit_of_recordable hready ⟨hledger, htwin, htile, hspace⟩ hne, hbad]
  case written =>
    intro q r s hr hopen hflash
    refine ⟨fun hown => ?_, fun hheld => ?_, fun hbundle => ?_⟩
    · rw [exec_journalRecordWritten, doJournalRecordWritten_of_ok hr hopen hflash, hown]
      rfl
    · refine ⟨_, exec_journalRecordWritten q true s, ?_⟩
      rw [doJournalRecordWritten_of_ok hr hopen hflash, hheld]
      rfl
    · refine ⟨_, exec_journalRecordWritten q false s, ?_⟩
      rw [doJournalRecordWritten_of_error hr hopen hflash hbundle]
      exact ⟨recordOf_removed rfl, rfl⟩
  case mark =>
    intro q r s hr hcomplete hacked hmark hflash hrun
    obtain ⟨hcopy, hepoch, hentries, ⟨x, hfound, hmarked, hchanges⟩, hslots⟩ := commitRecord_spec hr
    refine ⟨_, x, exec_commitMarkWritten hr hcomplete hacked hmark hflash hrun, ?_, ?_, hepoch, hentries, hfound, hmarked, hchanges, hslots, ?_⟩
    · exact congrArg Strong.slots hcopy
    · exact congrArg Strong.vers hcopy
    · intro k hk
      have h := appliedCopy_caches r s.rt hk
      rwa [← hcopy] at h
  case noMark =>
    intro q r s hr hwait
    exact congrArg Host.Outcome.next (doCommitMarkWritten_of_wait hr hwait)
  case tiles =>
    intro q r s hr hmark hlive hflash
    refine ⟨_, exec_persistentTileWrite q s, ?_⟩
    rw [doPersistentTileWrite_of_marked hr hmark hlive hflash]
    exact ⟨rfl, rfl, rfl, recordOf_removed rfl, rfl, rfl⟩
  case twin =>
    intro u s hpaired hawaits hflash
    obtain ⟨hpeer, hseq⟩ := unpair_of_paired hpaired
    refine ⟨⟨twinLost s, exec_peerAckTimeout hpaired hawaits hflash, hpeer, ?_, ?_, hseq⟩, fun ch hch => ⟨?_, ?_⟩⟩
    · intro r hr hown
      obtain ⟨x, _, rfl⟩ := List.mem_map.mp hr
      exact acked_ackedAlone hown
    · rw [twinLost_nv, List.map_map]
      exact congrArg (List.map · s.nv.journal) (funext ackedAlone_changes)
    · rw [exec_drainTwinTimeout hch hpaired hawaits hflash, exec_peerAckTimeout_advanced hpaired hawaits hflash]
    · exact ⟨_, exec_drainTwinTimeout hch hpaired hawaits hflash, awaitsTwin_twinLost_advanced u _ s⟩
  case seals =>
    intro q chain s hdue hflash hseed hserve hidle
    refine ⟨_, sealOf s.otp q chain (generate 88 s.rt.mint0).1, exec_ledgerSeal s, ?_⟩
    rw [doLedgerSeal_of_due hdue hflash hseed hserve hidle]
    exact ⟨rfl, rfl, rfl, rfl, rfl⟩
  case noSeal =>
    intro s hnone
    exact congrArg Host.Outcome.next (by simp only [doLedgerSeal, hnone])

end Sys2Proof.Machine
end

section
/-! PROOFS. What library commands share (17 Table 17.5): the job of a command, its keys and its random bytes. -/

namespace Sys2Proof.Machine

section

variable {id op : Nat} {x : JobCtx} {s : State}

/-- A dispatched command of the opcode runs its body. -/
theorem runCmd_of_job (h : jobOf s.rt id op = some x) (body : JobCtx → State → State) : runCmd id op body s = body x s := by
  simp only [runCmd, h]

/-- A command that finds its key goes on with the key's material, the tiles in the key cache. -/
theorem withKey_of_finds {hk : BitVec 64} {ok : SlotRec → Bool} {k : Nat} {r : SlotRec} (h : Finds s x hk ok k r)
    (body : Nat → SlotRec → Bytes → State → State) : withKey x hk ok body s = body k r (matOf s x k r) (looked x k r s) := by
  have hlook : lookKey s.rt x hk ok = .key k r := h
  simp only [withKey, hlook]
  rfl

theorem withRandom_of_draws {n : Nat} {b : Bytes} {rt : Rt} (h : Draws s x n b rt) (hn : n ≠ 0) (body : Bytes → State → State) :
    withRandom x n body s = body b { s with rt := rt } := by
  obtain ⟨hlive, hdraw⟩ := h
  simp only [withRandom, if_neg hn, hlive, hdraw, Bool.false_eq_true, if_false]

theorem withRandom_zero (body : Bytes → State → State) : withRandom x 0 body s = body [] s := if_pos rfl

theorem withKeyGrade_of_delivered {b : Bytes} {rt : Rt} (h : takeDelivered x.cmd.die (userCmd x.id) s.rt = some (b, rt)) (n : Nat)
    (body : Bytes → State → State) : withKeyGrade x n body s = body b { s with rt := rt } := by
  simp only [withKeyGrade, h]

/-- Without its bytes a command places the key-grade request (R345). -/
theorem withKeyGrade_of_none (h : takeDelivered x.cmd.die (userCmd x.id) s.rt = none) (hlive : (mintOf s.rt x.cmd.die).exhausted = false)
    (n : Nat) (body : Bytes → State → State) : withKeyGrade x n body s = onRt (askKeyGrade x.cmd.die (userCmd x.id) n) s := by
  simp only [withKeyGrade, h, hlive, Bool.false_eq_true, if_false]

theorem stopOn_bad (p k : Nat) : stopOn x (.bad p k) s = failJob x stTileCheckFail (onRt (tileBreak p k) s) := rfl

end

end Sys2Proof.Machine
end

section
/-! PROOFS. The key management commands (17 R362 to R364, 13 R274, R291 to R294, R480, 12 R256, R263 to R266). -/

namespace Sys2Proof.Machine

section

variable {id : CmdId} {x : JobCtx} {s : State}

/-! ## The key that a change acts on -/

/-- A key under the latch that it needs, in a usage that the action takes, is the target. -/
theorem withTarget_of_key {slot : Nat} {r : SlotRec} (hlook : lookSlot s.rt x x.cmd.desc.key1 = .key slot r) {check3 always : Bool}
    (husage : check3 = true → r.usage ≠ u00) (hlatch : (always || needsLatch r) = true → latchOpenFor s.rt x = true)
    (body : Nat → SlotRec → State → State) : withTarget x check3 always body s = body slot r s := by
  have hopen : ((always || needsLatch r) && !latchOpenFor s.rt x) = false := by
    cases hneed : always || needsLatch r with
    | false => rfl
    | true => rw [hlatch hneed]; rfl
  have hused : (check3 && r.usage == u00) = false := by
    cases hcheck : check3 with
    | false => rfl
    | true => exact beq_eq_false_iff_ne.mpr (husage hcheck)
  simp only [withTarget, hlook, hopen, hused, Bool.false_eq_true, if_false]

/-- Check 3 refuses a revoked slot (R291). -/
theorem withTarget_of_revoked {slot : Nat} {r : SlotRec} (hlook : lookSlot s.rt x x.cmd.desc.key1 = .key slot r) (hrevoked : r.usage = u00)
    (always : Bool) (body : Nat → SlotRec → State → State) : withTarget x true always body s = failJob x stUsageRefused s := by
  have hused : (true && r.usage == u00) = true := by rw [hrevoked]; decide
  simp only [withTarget, hlook, hused, if_true]

/-- Check 7 refuses what needs the latch while it is not open for the command (R286). -/
theorem withTarget_of_shut {slot : Nat} {r : SlotRec} (hlook : lookSlot s.rt x x.cmd.desc.key1 = .key slot r) {check3 always : Bool}
    (husage : r.usage ≠ u00) (hneed : (always || needsLatch r) = true) (hshut : latchOpenFor s.rt x = false)
    (body : Nat → SlotRec → State → State) : withTarget x check3 always body s = failJob x stDualControl s := by
  have hused : (check3 && r.usage == u00) = false := by rw [beq_eq_false_iff_ne.mpr husage, Bool.and_false]
  simp only [withTarget, hlook, hused, hneed, hshut, Bool.not_false, Bool.and_self, Bool.false_eq_true, if_false, if_true]

theorem withTarget_of_bad {p k : Nat} (hlook : lookSlot s.rt x x.cmd.desc.key1 = .bad p k) (check3 always : Bool)
    (body : Nat → SlotRec → State → State) :
    withTarget x check3 always body s = failJob x stTileCheckFail (onRt (tileBreak p k) s) := by
  simp only [withTarget, hlook, stopOn_bad]

/-! ## The rows -/

theorem exec_keyRevoke (h : jobOf s.rt id 0x11 = some x) : exec (.keyRevoke id) s = .next (keyRevoke x s) :=
  congrArg Host.Outcome.next (runCmd_of_job h keyRevoke)

theorem exec_keyDelete (h : jobOf s.rt id 0x13 = some x) : exec (.keyDelete id) s = .next (keyDelete x s) :=
  congrArg Host.Outcome.next (runCmd_of_job h keyDelete)

theorem exec_keyInfo (h : jobOf s.rt id 0x15 = some x) : exec (.keyInfo id) s = .next (keyInfo x s) :=
  congrArg Host.Outcome.next (runCmd_of_job h keyInfo)

theorem exec_keyReplace (h : jobOf s.rt id 0x12 = some x) : exec (.keyReplace id) s = .next (keyReplace x s) :=
  congrArg Host.Outcome.next (runCmd_of_job h keyReplace)

theorem exec_keyReparent (h : jobOf s.rt id 0x14 = some x) : exec (.keyReparent id) s = .next (keyReparent x s) :=
  congrArg Host.Outcome.next (runCmd_of_job h keyReparent)

theorem exec_keyGenerate (h : jobOf s.rt id 0x10 = some x) : exec (.keyGenerate id) s = .next (keyGenerate x s) :=
  congrArg Host.Outcome.next (runCmd_of_job h keyGenerate)

theorem exec_publicImport (h : jobOf s.rt id 0x16 = some x) : exec (.publicImport id) s = .next (publicImport x s) :=
  congrArg Host.Outcome.next (runCmd_of_job h publicImport)

/-- The rows without parameters go on in the plain form, and are malformed in any other (R364). -/
theorem plainRows_of_malformed (hplain : plainForm x = false) : keyRevoke x s = failJob x stMalformed s ∧
    keyDelete x s = failJob x stMalformed s ∧ keyReparent x s = failJob x stMalformed s ∧ keyInfo x s = failJob x stMalformed s := by
  refine ⟨?_, ?_, ?_, ?_⟩
  · simp only [keyRevoke, hplain, Bool.not_false, if_true]
  · simp only [keyDelete, hplain, Bool.not_false, if_true]
  · simp only [keyReparent, hplain, Bool.not_false, if_true]
  · simp only [keyInfo, hplain, Bool.not_false, if_true]

theorem keyRevoke_of_plain (hplain : plainForm x = true) : keyRevoke x s = withTarget x true false (fun slot r s =>
    let new := revokedSlot 0 r
    let d : Delta := {
      changes := extentChanges s.rt x slot r revokedSlot, reads := []
      entries := [jobEntry s.rt x 0x0004 slot r.gen new.gen (needsLatch r) []] }
    submitJob x d (needsLatch r) (le 8 (echoOf slot new)) [] 8 s) s := by
  simp only [keyRevoke, hplain, Bool.not_true, Bool.false_eq_true, if_false]

theorem keyDelete_of_plain (hplain : plainForm x = true) : keyDelete x s = withTarget x false false (fun slot r s =>
    let d : Delta := {
      changes := extentChanges s.rt x slot r (fun _ r => freedSlot r), reads := []
      entries := [jobEntry s.rt x 0x0006 slot r.gen (freedSlot r).gen (needsLatch r) []] }
    submitJob x d (needsLatch r) [] [] 0 s) s := by
  simp only [keyDelete, hplain, Bool.not_true, Bool.false_eq_true, if_false]

theorem keyInfo_of_key (hplain : plainForm x = true) {slot : Nat} {r : SlotRec} (hlook : lookSlot s.rt x x.cmd.desc.key1 = .key slot r) :
    keyInfo x s = doneJob x [] (headBytes slot r) 0 s := by
  simp only [keyInfo, hplain, hlook, Bool.not_true, Bool.false_eq_true, if_false]

theorem keyInfo_of_bad (hplain : plainForm x = true) {p k : Nat} (hlook : lookSlot s.rt x x.cmd.desc.key1 = .bad p k) :
    keyInfo x s = failJob x stTileCheckFail (onRt (tileBreak p k) s) := by
  simp only [keyInfo, hplain, hlook, stopOn_bad, Bool.not_true, Bool.false_eq_true, if_false]

/-! ## KEY_REPLACE (R294, R480) -/

/-- The keys that unwrap a replacement of mode 02h. -/
def unwraps (w : SlotRec) : Bool := keyIs 0x10 [uK0] [mB, mD] w && w.alg == algA

/-- What KEY_REPLACE does in mode 02h with the key that it replaces and the one that unwraps. -/
def replaceWith (x : JobCtx) (slot : Nat) (r w : SlotRec) (wm : Bytes) (s : State) : State :=
  match replacement r w wm x.cmd.input 2 with
  | none => refuseJobInput x 0x08 s
  | some (m, a, ver) =>
    if !replaceFits r a m then refuseJobInput x 0x15 s
    else
      let new := if r.gen = 0xFFFF then freedSlot r else replacedHead r a ver
      let ch := if r.gen = 0xFFFF then extentChanges s.rt x slot r (fun _ r => freedSlot r)
        else (layKey slot new m).map fun c => jobChange s.rt x c.1 c.2 (c.1 == slot)
      let d : Delta := { changes := ch, reads := [], entries := [jobEntry s.rt x 0x0005 slot r.gen new.gen (needsLatch r) []] }
      submitJob x d (needsLatch r) (le 8 (echoOf slot new) ++ resultCheck r.alg m) [] 13 s

theorem keyReplace_of_mode2 (hmode : byteAt x.cmd.desc.inl 0 = 2) (hzero : zeroAt x.cmd.desc.inl 1 13 = true) {slot ws : Nat}
    {r w : SlotRec} (hlook : lookSlot s.rt x x.cmd.desc.key1 = .key slot r) (hlatch : needsLatch r = true → latchOpenFor s.rt x = true)
    (hfinds : Finds s x x.cmd.desc.key2 unwraps ws w) : keyReplace x s = replaceWith x slot r w (matOf s x ws w) (looked x ws w s) := by
  have hplain : ¬ ((byteAt x.cmd.desc.inl 0 ≠ 1 ∧ byteAt x.cmd.desc.inl 0 ≠ 2) ∨ !zeroAt x.cmd.desc.inl 1 13) := by simp [hmode, hzero]
  have haccepts : (fun w => if byteAt x.cmd.desc.inl 0 = 1 then accepts 0x0160 false w else keyIs 0x10 [uK0] [mB, mD] w && w.alg == algA) =
      unwraps := by
    rw [hmode]; rfl
  rw [keyReplace, if_neg hplain, withTarget_of_key (check3 := false) (always := false) hlook (fun h => nomatch h) hlatch, haccepts, withKey_of_finds hfinds, hmode]
  rfl

/-! ## KEY_REPARENT (R293) -/

/-- What KEY_REPARENT does with a key and its new parent. -/
def reparentWith (x : JobCtx) (slot : Nat) (r : SlotRec) (ps : Nat) (pr : SlotRec) (s : State) : State :=
  let above := (ancestors s.rt x.cmd.bundle x.cmd.epoch 3 pr).map Prod.fst
  let lvl := levelOf s.rt x.cmd.bundle x.cmd.epoch pr + 1
  if r.cls = 1 || !mayParent pr.cls || decide (ps = slot ∨ slot ∈ above) || decide (2 < lvl) then refuseJobInput x 0x14 s
  else if lvl = 2 && hasChildren s.rt x.cmd.bundle slot then refuseJobInput x 0x13 s
  else
    let new := { r with parent := some ps, parentGen := pr.gen }
    let d : Delta := {
      changes := [jobChange s.rt x slot new true], reads := [ps]
      entries := [jobEntry s.rt x 0x0007 slot r.gen r.gen true (parentDetail (some (ps, pr.gen)))] }
    submitJob x d true (le 8 (echoOf slot new)) [] 8 s

theorem keyReparent_of_plain (hplain : plainForm x = true) : keyReparent x s = withTarget x true true (fun slot r s =>
    withKey x x.cmd.desc.key2 (fun _ => true) (fun ps pr _ s => reparentWith x slot r ps pr s) s) s := by
  simp only [keyReparent, hplain, Bool.not_true, Bool.false_eq_true, if_false]
  rfl

theorem reparentWith_self (slot : Nat) (r pr : SlotRec) : reparentWith x slot r slot pr s = refuseJobInput x 0x14 s := by
  simp [reparentWith]

theorem reparentWith_of_fits {slot ps : Nat} {r pr : SlotRec} (hcls : r.cls ≠ 1) (hparent : mayParent pr.cls = true) (hne : ps ≠ slot)
    (habove : slot ∉ (ancestors s.rt x.cmd.bundle x.cmd.epoch 3 pr).map Prod.fst)
    (hlevel : levelOf s.rt x.cmd.bundle x.cmd.epoch pr + 1 ≤ 2)
    (hchildren : levelOf s.rt x.cmd.bundle x.cmd.epoch pr + 1 = 2 → hasChildren s.rt x.cmd.bundle slot = false) :
    reparentWith x slot r ps pr s = submitJob x {
      changes := [jobChange s.rt x slot { r with parent := some ps, parentGen := pr.gen } true], reads := [ps]
      entries := [jobEntry s.rt x 0x0007 slot r.gen r.gen true (parentDetail (some (ps, pr.gen)))] }
      true (le 8 (echoOf slot { r with parent := some ps, parentGen := pr.gen })) [] 8 s := by
  have hno : decide (ps = slot ∨ slot ∈ (ancestors s.rt x.cmd.bundle x.cmd.epoch 3 pr).map Prod.fst) = false :=
    decide_eq_false (not_or.mpr ⟨hne, habove⟩)
  have hdeep : decide (2 < levelOf s.rt x.cmd.bundle x.cmd.epoch pr + 1) = false := decide_eq_false (Nat.not_lt.mpr hlevel)
  have hbarren : (decide (levelOf s.rt x.cmd.bundle x.cmd.epoch pr + 1 = 2) && hasChildren s.rt x.cmd.bundle slot) = false := by
    by_cases htwo : levelOf s.rt x.cmd.bundle x.cmd.epoch pr + 1 = 2
    · rw [hchildren htwo, Bool.and_false]
    · rw [decide_eq_false htwo, Bool.false_and]
  simp only [reparentWith, hcls, hparent, hno, hdeep, hbarren, decide_false, Bool.not_true, Bool.or_self, Bool.false_eq_true, if_false]

/-! ## New keys (R274, R362) -/

/-- A parent of a parent class that leaves its child at level 2 or above takes a new key (R274). -/
theorem withParent_of_finds {h : BitVec 64} {ps : Nat} {pr : SlotRec} (hfinds : Finds s x h (fun r => mayParent r.cls) ps pr)
    (hfits : levelFits (looked x ps pr s).rt x.cmd.bundle x.cmd.epoch pr = true) (body : Nat → SlotRec → State → State) :
    withParent x h body s = body ps pr (looked x ps pr s) := by
  rw [withParent, withKey_of_finds hfinds]
  exact if_pos hfits

/-- The attributes that a new key's parameters give, in order (R362). -/
structure NewKeyForm (x : JobCtx) : Prop where
  form : byteAt x.cmd.desc.inl 7 ≤ 1
  zero : zeroAt x.cmd.desc.inl 8 6 = true
  attrs : attrsOk (attrsOf x.cmd.desc.inl) = true

/-- A parent under which the command may place its key, with the latch that a dual-control key needs. -/
structure ParentReady (x : JobCtx) (ps : Nat) (pr : SlotRec) (s : State) : Prop where
  finds : Finds s x x.cmd.desc.key1 (fun r => mayParent r.cls) ps pr
  fits : levelFits (looked x ps pr s).rt x.cmd.bundle x.cmd.epoch pr = true
  dual : dualOk (looked x ps pr s).rt x (attrsOf x.cmd.desc.inl) = true

/-- KEY_GENERATE comes to its random bytes. -/
theorem keyGenerate_of_form (hform : NewKeyForm x) {ps : Nat} {pr : SlotRec} (hparent : ParentReady x ps pr s)
    (hinline : isInline x.cmd.desc = false) (hlen : x.cmd.input.length = 0 ∨ x.cmd.input.length = 16)
    (hcls : notGenerated (attrsOf x.cmd.desc.inl).cls = false) : keyGenerate x s =
      withKeyGrade x (seedLen (attrsOf x.cmd.desc.inl)) (fun rnd s =>
        let a := attrsOf x.cmd.desc.inl
        let m := generateKey a rnd
        placeKey x 0x0001 { a := a, nb := leAt x.cmd.input 0 8, na := leAt x.cmd.input 8 8, ver := 0 } ps pr m (resultCheck a.alg m)
          (if writesPublic a.cls then publicHalf a.alg a.size m else []) 13 s) (looked x ps pr s) := by
  obtain ⟨hseven, hzero, hattrs⟩ := hform
  obtain ⟨hfinds, hfits, hdual⟩ := hparent
  have hok : ¬ (1 < byteAt x.cmd.desc.inl 7 ∨ !zeroAt x.cmd.desc.inl 8 6 ∨ (x.cmd.input.length ≠ 0 ∧ x.cmd.input.length ≠ 16) ∨
      (false ∧ writesPublic (attrsOf x.cmd.desc.inl).cls)) := by
    rintro (hbad | hbad | ⟨hbad, hbad'⟩ | ⟨hbad, _⟩)
    · omega
    · simp [hzero] at hbad
    · omega
    · exact Bool.false_ne_true hbad
  simp only [keyGenerate, hinline, Bool.false_eq_true, if_false, hcls, hattrs, Bool.not_true, Bool.or_self, withParent_of_finds hfinds hfits,
    hdual] at hok ⊢
  rw [if_neg hok]

/-- What PUBLIC_IMPORT does with its parent: a valid key is placed (R362). -/
def importWith (x : JobCtx) (ps : Nat) (pr : SlotRec) (s : State) : State :=
  let a := attrsOf x.cmd.desc.inl
  let v := x.cmd.input
  match publicRefused a.alg a.size (v.drop 16) with
  | some why => refuseJobInput x why s
  | none => placeKey x 0x0002 { a := a, nb := leAt v 0 8, na := leAt v 8 8, ver := 0 } ps pr (v.drop 16) [] [] 8 s

/-- PUBLIC_IMPORT comes to the validation of its key. -/
theorem publicImport_of_form (hform : NewKeyForm x) {ps : Nat} {pr : SlotRec} (hparent : ParentReady x ps pr s)
    (hcls : (attrsOf x.cmd.desc.inl).cls = 0x28) (hlen : 16 ≤ x.cmd.input.length) : publicImport x s = importWith x ps pr (looked x ps pr s) := by
  obtain ⟨hseven, hzero, hattrs⟩ := hform
  obtain ⟨hfinds, hfits, hdual⟩ := hparent
  have hok : ¬ (1 < byteAt x.cmd.desc.inl 7 ∨ !zeroAt x.cmd.desc.inl 8 6) := by simp [hzero, Nat.not_lt.mpr hseven]
  have hshort : decide (x.cmd.input.length < 16) = false := decide_eq_false (Nat.not_lt.mpr hlen)
  simp only [publicImport, if_neg hok, hcls, hattrs, hshort, withParent_of_finds hfinds hfits, hdual, ne_eq, not_true, decide_false,
    Bool.not_true, Bool.or_self, Bool.false_eq_true, if_false]
  rfl

theorem placeKey_of_long {mat : Bytes} (h : 7372 < mat.length) (ev : Nat) (k : NewKey) (ps : Nat) (pr : SlotRec) (tail out : Bytes)
    (span : Nat) : placeKey x ev k ps pr mat tail out span s = refuseJobInput x 0x12 s := if_pos h

theorem placeKey_of_full {mat : Bytes} (h : mat.length ≤ 7372) (hfull : allocRun s x.house (extentLen mat.length) = none) (ev : Nat)
    (k : NewKey) (ps : Nat) (pr : SlotRec) (tail out : Bytes) (span : Nat) :
    placeKey x ev k ps pr mat tail out span s = refuseJobInput x 0x10 s := by
  rw [placeKey, if_neg (Nat.not_lt.mpr h), hfull]

/-! ## Submission (R264, R265) -/

theorem sansReqs_endJobOf (id : CmdId) (rt : Rt) : sansReqs (endJobOf id rt) = sansReqs rt := by
  unfold endJobOf
  exact foldl_keeps sansReqs fun r kv => sansReqs_endJob kv.1 kv.2.blocks r

/-- A command alone that changes a slot waits for its commit once it has ended (R264). -/
theorem strongDone_of_single {u : Nat} {c : Cmd} {b : Bundle} {rt : Rt} (hc : kget rt.cmds id = some c) (hbundle : c.bundle = some u)
    (hb : kget rt.bundles u = some b) (hsingle : b.single = true) (hopen : c.withheld = false) (hinline : isInline c.desc = true) {span : Nat}
    (hspan : span ≤ c.desc.outLim.toNat) (res out : Bytes) :
    (strongDone id res out span rt).bundles = rt.bundles ∧ (strongDone id res out span rt).strong.slots = rt.strong.slots ∧
    ∃ y, kget (strongDone id res out span rt).cmds id = some y ∧ y.stage = .committing ∧ y.status = stDone ∧
      y.result = padTo 16 (res.take 16) ∧ y.bundle = some u := by
  have hmulti : multiOf rt c = none := by simp only [multiOf, hbundle, hb, hsingle, if_true]
  have hlen : doneLength rt c out span = span := by simp only [doneLength, hopen, hinline, Bool.false_eq_true, if_false, if_true]
  have hjob : kget (endJobOf id rt).cmds id = some c := (congrArg (kget · id) (cmds_endJobOf id rt)).trans hc
  have hbundles : (endJobOf id rt).bundles = rt.bundles := read_of_rest Rt.bundles (sansJob_endJobOf id rt) fun _ => rfl
  have hslots : (endJobOf id rt).strong.slots = rt.strong.slots :=
    show (sansReqs (endJobOf id rt)).slots = (sansReqs rt).slots from congrArg Strong.slots (sansReqs_endJobOf id rt)
  have hdone := doneCmd_of_fits (span := span) hc hmulti (by rw [hlen]; exact hspan) res (out := out)
  obtain ⟨d, bs, hended⟩ := setEnded_eq hjob stDone res (if isInline c.desc then [] else doneOutput rt c out) (doneLength rt c out span)
  rw [hended] at hdone
  have hfind : c.bundle.bind (kget (endJobOf id rt).bundles) = some b := by rw [hbundle, hbundles]; exact hb
  simp only [strongDone, hdone, kget_kset_self, endedCmd, hfind, hsingle, beq_self_eq_true, Bool.and_self, if_true]
  exact ⟨hbundles, hslots, _, kget_kmod_self _ (kget_kset_self _ _ _), rfl, rfl, rfl, hbundle⟩

/-- What a change of one slot with one entry adds. -/
def oneChange (ch : SlotChange) (e : LedgerEntry) : Delta := { changes := [ch], reads := [], entries := [e] }

/-- The bundle of one that a command opens with its change. -/
def bundleOfOne (x : JobCtx) (ch : SlotChange) (e : LedgerEntry) (u : Nat) : Bundle :=
  addDelta x.cmd.member (oneChange ch e) { newBundle u x.cmd.booth true with members := [x.id], closed := true }

/-- The state in which the command's change stands in its bundle. -/
def bundleOpened (x : JobCtx) (ch : SlotChange) (e : LedgerEntry) (rt : Rt) : Rt :=
  let opened := (bundleOf x.id x.cmd rt).2
  { opened with bundles := kset opened.bundles rt.disp.nextBundle (bundleOfOne x ch e rt.disp.nextBundle) }

section

variable {ch : SlotChange} {e : LedgerEntry} (hbundle : x.cmd.bundle = none)
include hbundle

theorem submitJob_of_held (hheld : heldByTwin s ch.slot = true) (latch : Bool) (res out : Bytes) (span : Nat) :
    submitJob x (oneChange ch e) latch res out span s = failJob x stStateRefused s := by
  simp only [submitJob, bundleOf, hbundle, oneChange, List.any_cons, List.any_nil, hheld, Bool.true_or, if_true]

theorem submitJob_of_reserved (hheld : heldByTwin s ch.slot = false) (hother : reservedByOther s.rt s.rt.disp.nextBundle ch.slot = true)
    (latch : Bool) (res out : Bytes) (span : Nat) : submitJob x (oneChange ch e) latch res out span s = failJob x stKeyStale s := by
  simp only [submitJob, bundleOf, hbundle, oneChange, List.any_cons, List.any_nil, hheld, hother, Bool.true_or, Bool.or_false,
    Bool.false_eq_true, if_false, if_true]

theorem submitJob_of_free (hheld : heldByTwin s ch.slot = false) (hother : reservedByOther s.rt s.rt.disp.nextBundle ch.slot = false)
    (hcurrent : isCurrent s.rt x ch.slot = true) (res out : Bytes) (span : Nat) : submitJob x (oneChange ch e) false res out span s =
      { s with rt := strongDone x.id res out span (bundleOpened x ch e s.rt) } := by
  simp only [submitJob, bundleOpened, bundleOf, hbundle, oneChange, List.any_cons, List.any_nil, hheld, hother, hcurrent, Bool.or_self,
    Bool.not_true, Bool.false_eq_true, if_false, modCmd, kget_kset_self]
  rfl

end

end

/-! ## The statement -/

/-- Settles O43, each row by the body that its command runs, the bundle of one by what its end records. -/
theorem keyCommands : Obligations.KeyCommands := by
  unfold Obligations.KeyCommands
  refine ⟨?target, ?bad, ?malformed, ?slots, ?replace, ?reparent, ?create, ?place, ?submit⟩
  case target =>
    intro id x slot r s hplain hlook
    refine ⟨fun hjob hrevoked => ?_, fun hjob hused hneed hshut => ?_, fun hjob hused hlatch => ?_, fun hjob hlatch => ?_, fun hjob => ?_⟩
    · rw [exec_keyRevoke hjob, keyRevoke_of_plain hplain, withTarget_of_revoked hlook hrevoked]
    · rw [exec_keyRevoke hjob, keyRevoke_of_plain hplain, withTarget_of_shut (always := false) hlook hused hneed hshut]
    · rw [exec_keyRevoke hjob, keyRevoke_of_plain hplain, withTarget_of_key (always := false) hlook (fun _ => hused) hlatch]
    · rw [exec_keyDelete hjob, keyDelete_of_plain hplain, withTarget_of_key (check3 := false) (always := false) hlook (fun h => nomatch h) hlatch]
    · rw [exec_keyInfo hjob, keyInfo_of_key hplain hlook]
  case bad =>
    intro id x p k s hplain hlook
    refine ⟨fun hjob => ?_, fun hjob => ?_, fun hjob => ?_⟩
    · rw [exec_keyRevoke hjob, keyRevoke_of_plain hplain, withTarget_of_bad hlook]
    · rw [exec_keyDelete hjob, keyDelete_of_plain hplain, withTarget_of_bad hlook]
    · rw [exec_keyInfo hjob, keyInfo_of_bad hplain hlook]
  case malformed =>
    intro id x s hplain
    obtain ⟨hrevoke, hdelete, hreparent, hinfo⟩ := plainRows_of_malformed (s := s) hplain
    exact ⟨fun hjob => (exec_keyRevoke hjob).trans (congrArg _ hrevoke), fun hjob => (exec_keyDelete hjob).trans (congrArg _ hdelete),
      fun hjob => (exec_keyReparent hjob).trans (congrArg _ hreparent), fun hjob => (exec_keyInfo hjob).trans (congrArg _ hinfo)⟩
  case slots =>
    intro r hgen
    have hlive : r.gen ≠ 0xFFFF := Nat.ne_of_lt hgen
    simp [revokedSlot, bumped, freedSlot, hlive]
  case replace =>
    intro id x slot r ws w m a ver s hjob hmode hzero hlook hlatch hfinds
    have hrow : exec (.keyReplace id) s = .next (replaceWith x slot r w (matOf s x ws w) (looked x ws w s)) :=
      (exec_keyReplace hjob).trans (congrArg _ (keyReplace_of_mode2 hmode hzero hlook hlatch hfinds))
    refine ⟨fun hnone => ?_, fun hsome hfits => ?_, fun hsome hfits hgen => ?_⟩
    · rw [hrow, replaceWith, hnone]
    · simp only [hrow, replaceWith, hsome, hfits, Bool.not_false, if_true]
    · simp only [hrow, replaceWith, hsome, hfits, hgen, Bool.not_true, Bool.false_eq_true, if_false]
      rfl
  case reparent =>
    intro id x slot ps r pr s hjob hplain hlook
    refine ⟨fun hrevoked => ?_, fun hused hshut => ?_, fun hused hopen hfinds => ?_⟩
    · rw [exec_keyReparent hjob, keyReparent_of_plain hplain, withTarget_of_revoked hlook hrevoked]
    · rw [exec_keyReparent hjob, keyReparent_of_plain hplain, withTarget_of_shut hlook hused (Bool.true_or _) hshut]
    · have hrow : exec (.keyReparent id) s = .next (reparentWith x slot r ps pr (looked x ps pr s)) := by
        rw [exec_keyReparent hjob, keyReparent_of_plain hplain, withTarget_of_key hlook (fun _ => hused) (fun _ => hopen),
          withKey_of_finds hfinds]
      refine ⟨fun hself => ?_, fun hcls hmay hne habove hlevel hchildren => ?_⟩
      · rw [hrow, hself, reparentWith_self]
      · rw [hrow, reparentWith_of_fits hcls hmay hne habove hlevel hchildren]
  case create =>
    intro id x ps pr s p a v t hfinds hseven hzero hattrs hfits hdual
    have hform : NewKeyForm x := ⟨hseven, hzero, hattrs⟩
    have hparent : ParentReady x ps pr s := ⟨hfinds, hfits, hdual⟩
    refine ⟨fun rnd rt hjob hinline hlen hcls hgot => ?_, fun hjob hinline hlen hcls hnone hlive => ?_, fun why hjob hcls hlen hwhy => ?_,
      fun hjob hcls hlen hgood => ?_⟩
    · rw [exec_keyGenerate hjob, keyGenerate_of_form hform hparent hinline (.inr hlen) hcls, withKeyGrade_of_delivered hgot]
    · rw [exec_keyGenerate hjob, keyGenerate_of_form hform hparent hinline (.inl hlen) hcls, withKeyGrade_of_none hnone hlive]
    · rw [exec_publicImport hjob, publicImport_of_form hform hparent hcls hlen, importWith, hwhy]
    · rw [exec_publicImport hjob, publicImport_of_form hform hparent hcls hlen, importWith, hgood]
  case place =>
    intro x ev k ps pr mat tail out span s
    exact ⟨fun hlong => placeKey_of_long hlong ev k ps pr tail out span, fun hlen hfull => placeKey_of_full hlen hfull ev k ps pr tail out span⟩
  case submit =>
    intro x ch e span res s hc hbundle hopen hinline hspan
    refine ⟨fun hheld => submitJob_of_held hbundle hheld false res [] span,
      fun hheld hother => submitJob_of_reserved hbundle hheld hother false res [] span, fun hheld hother hcurrent => ?_⟩
    have hsubmit := submitJob_of_free (e := e) hbundle hheld hother hcurrent res [] span
    have hget : kget (bundleOpened x ch e s.rt).cmds x.id = some { x.cmd with bundle := some s.rt.disp.nextBundle } := by
      simp only [bundleOpened, bundleOf, hbundle]
      exact kget_kmod_self _ hc
    obtain ⟨hbundles, hslots, y, hy, hstage, hstatus, hresult, hin⟩ := strongDone_of_single hget rfl
      (kget_kset_self _ _ (bundleOfOne x ch e s.rt.disp.nextBundle)) rfl hopen hinline hspan res []
    simp only [oneChange] at hsubmit
    rw [hsubmit]
    refine ⟨bundleOfOne x ch e s.rt.disp.nextBundle, y, ?_, rfl, rfl, rfl, rfl, rfl, rfl, hy, hstage, hstatus, hresult, hin, ?_⟩
    · rw [hbundles]
      exact kget_kset_self _ _ _
    · rw [hslots]
      simp only [bundleOpened, bundleOf, hbundle]
      rfl

end Sys2Proof.Machine
end

section
/-! PROOFS. Card verification codes, EMV, MACs and tokenisation (18 R371, R380 to R383, R385, R386). -/

namespace Sys2Proof.Machine

section

variable {id : CmdId} {x : JobCtx} {s : State}

/-! ## Card verification codes (R380) -/

/-- The opcode of a card verification command. -/
def cvcOp (verify : Bool) : Nat := if verify then 0x0111 else 0x0110

/-- The digits of the expiry date and the service code, with the length of the code behind them. -/
def cvcDigits (x : JobCtx) : List Nat := nibbles (slice x.cmd.desc.inl 10 4)

/-- The length of the code. -/
def cvcLen (x : JobCtx) : Nat := (cvcDigits x).getD 7 0

theorem exec_cardCode {verify : Bool} (h : jobOf s.rt id (cvcOp verify) = some x) :
    exec (if verify then Instr.cvcVerify id else .cvcGenerate id) s = .next (cardCode verify x s) := by
  cases verify with
  | false => exact congrArg Host.Outcome.next (runCmd_of_job h (cardCode false))
  | true => exact congrArg Host.Outcome.next (runCmd_of_job h (cardCode true))

theorem cvcOp_toNat {verify : Bool} (h : x.cmd.desc.opcode = BitVec.ofNat 16 (cvcOp verify)) : x.cmd.desc.opcode.toNat = cvcOp verify := by
  rw [h]
  cases verify <;> rfl

theorem cardCode_of_noPan (verify : Bool) (h : panDigits x.cmd.desc.inl = none) : cardCode verify x s = refuseJobInput x 0x01 s := by
  simp only [cardCode, h]

variable {pan : List Nat}

/-- A code of fewer than 3 or more than 5 digits is refused with reason 06h. -/
theorem cardCode_of_length (verify : Bool) (hpan : panDigits x.cmd.desc.inl = some pan) (hlen : cvcLen x < 3 ∨ 5 < cvcLen x) :
    cardCode verify x s = refuseJobInput x 0x06 s := by
  simp only [cardCode, hpan]
  exact if_pos (.inr hlen)

/-- What a card verification command does with its key. -/
def codeWith (verify : Bool) (x : JobCtx) (pan : List Nat) (r : SlotRec) (m : Bytes) (s : State) : State :=
  let code := packF (cdiv (cvcLen x) 2) (cvcCode (r.alg == algT) m pan ((cvcDigits x).take 7) (cvcLen x))
  if verify then doneJob x [if code = x.cmd.input then 0#8 else 1#8] [] 0 s else doneJob x code [] (cdiv (cvcLen x) 2) s

theorem cardCode_of_finds {verify : Bool} (hop : x.cmd.desc.opcode.toNat = cvcOp verify) (hpan : panDigits x.cmd.desc.inl = some pan)
    (hdigits : ∀ d ∈ (cvcDigits x).take 7, d ≤ 9) (hthree : 3 ≤ cvcLen x) (hfive : cvcLen x ≤ 5)
    (hinput : verify = true → x.cmd.input.length = cdiv (cvcLen x) 2) {k : Nat} {r : SlotRec}
    (hfinds : Finds s x x.cmd.desc.key1 (accepts (cvcOp verify) false) k r) :
    cardCode verify x s = codeWith verify x pan r (matOf s x k r) (looked x k r s) := by
  have hdecimal : ((cvcDigits x).take 7).any (fun d => decide (9 < d)) = false :=
    List.any_eq_false.mpr fun d hd => by simpa using hdigits d hd
  have hform : ¬ (((cvcDigits x).take 7).any (fun d => decide (9 < d)) = true ∨ cvcLen x < 3 ∨ 5 < cvcLen x) := by
    rw [hdecimal]
    rintro (h | h | h)
    · exact Bool.false_ne_true h
    · exact Nat.not_lt.mpr hthree h
    · exact Nat.not_lt.mpr hfive h
  have hverify : ¬ (verify = true ∧ x.cmd.input.length ≠ cdiv (cvcLen x) 2) := fun h => h.2 (hinput h.1)
  simp only [cardCode, hpan, hop]
  refine (if_neg hform).trans ((if_neg hverify).trans ?_)
  exact withKey_of_finds hfinds _

/-! ## EMV (R381 to R383) -/

theorem emvCard_of_noPan {p : Bytes} (h : panDigits p = none) : emvCard p = .error 0x01 := by
  simp only [emvCard, h]

/-- A key that derives goes on with its session key. -/
theorem withSession_of_key {r : SlotRec} {m data : Bytes} {key : EngKey} (h : derive r m 4 data = .key key)
    (body : EngKey → State → State) : withSession x r m data body s = body key s := by
  simp only [withSession, h]

theorem exec_arqcVerify (h : jobOf s.rt id 0x0120 = some x) : exec (.arqcVerify id) s = .next (arqcVerify x s) :=
  congrArg Host.Outcome.next (runCmd_of_job h arqcVerify)

theorem exec_smMac (h : jobOf s.rt id 0x0121 = some x) : exec (.smMac id) s = .next (smMac x s) :=
  congrArg Host.Outcome.next (runCmd_of_job h smMac)

theorem exec_smEncMac (h : jobOf s.rt id 0x0122 = some x) : exec (.smEncMac id) s = .next (smEncMac x s) :=
  congrArg Host.Outcome.next (runCmd_of_job h smEncMac)

theorem arqcVerify_of_error {why : Nat} (h : emvCard x.cmd.desc.inl = .error why) : arqcVerify x s = refuseJobInput x why s := by
  simp only [arqcVerify, h]

variable {data : Bytes}

theorem arqcVerify_of_layout (hcard : emvCard x.cmd.desc.inl = .ok data) (h : arqcLayout (byteAt x.cmd.desc.inl 13) x.cmd.input = false) :
    arqcVerify x s = refuseJobInput x 0x07 s := by
  simp only [arqcVerify, hcard, h, Bool.not_false, if_true]

/-- The cryptogram that the input of ARQC_VERIFY carries behind its data (R382). -/
def arqcIn (x : JobCtx) : Bytes := slice x.cmd.input (1 + byteAt x.cmd.input 0) 8

/-- The cryptogram that the session key gives over the input's data. -/
def arqcMac (x : JobCtx) (key : EngKey) : Bytes := emvMac key (slice x.cmd.input 1 (byteAt x.cmd.input 0))

/-- ARQC_VERIFY answers the verdict, and the ARPC behind a right cryptogram. -/
theorem arqcVerify_of_finds (hcard : emvCard x.cmd.desc.inl = .ok data) (hlayout : arqcLayout (byteAt x.cmd.desc.inl 13) x.cmd.input = true)
    {k : Nat} {r : SlotRec} (hfinds : Finds s x x.cmd.desc.key1 (accepts 0x0120 false) k r) {key : EngKey}
    (hkey : derive r (matOf s x k r) 4 data = .key key) : arqcVerify x s =
      doneJob x (if arqcMac x key = arqcIn x then
        0#8 :: arpcOf key (byteAt x.cmd.desc.inl 13) (arqcIn x) (x.cmd.input.drop (9 + byteAt x.cmd.input 0)) else [1#8])
        [] 0 (looked x k r s) := by
  simp only [arqcVerify, hcard, hlayout, withKey_of_finds hfinds, withSession_of_key hkey, Bool.not_true, Bool.false_eq_true, if_false]
  rfl

/-- A script message of fewer than 5 or more than 2 048 bytes is refused with reason 07h (R383). -/
theorem smMac_of_length (hform : byteAt x.cmd.desc.inl 13 = 0) (hcard : emvCard x.cmd.desc.inl = .ok data)
    (hlen : x.cmd.input.length < 5 ∨ 2048 < x.cmd.input.length) : smMac x s = refuseJobInput x 0x07 s := by
  simp only [smMac, hform, hcard, if_pos hlen, ne_eq, not_true, if_false]

theorem smMac_of_finds (hform : byteAt x.cmd.desc.inl 13 = 0) (hcard : emvCard x.cmd.desc.inl = .ok data) (hfive : 5 ≤ x.cmd.input.length)
    (hmax : x.cmd.input.length ≤ 2048) {k : Nat} {r : SlotRec} (hfinds : Finds s x x.cmd.desc.key1 (accepts 0x0121 false) k r) {key : EngKey}
    (hkey : derive r (matOf s x k r) 4 data = .key key) : smMac x s = doneJob x (emvMac key x.cmd.input) [] 0 (looked x k r s) := by
  have hlen : ¬ (x.cmd.input.length < 5 ∨ 2048 < x.cmd.input.length) := by omega
  simp only [smMac, hform, hcard, if_neg hlen, withKey_of_finds hfinds, withSession_of_key hkey, ne_eq, not_true, if_false]

/-- The encrypted script message: data under the second session key, then the MAC of head and ciphertext under the first (R383). -/
def scriptMessage (b : Bytes) (k1 k2 : EngKey) : Bytes :=
  let t := k2.alg == .tdea
  let ct := cbcEnc t k2.key (zeros (blockLen t)) (isoPad (blockLen t) 2 (b.drop 5))
  ct ++ emvMac k1 (b.take 5 ++ ct)

theorem smEncMac_of_finds (hform : byteAt x.cmd.desc.inl 13 = 0) (hcard : emvCard x.cmd.desc.inl = .ok data) (hsix : 6 ≤ x.cmd.input.length)
    (hmax : x.cmd.input.length ≤ 2005) {i j : Nat} {r1 r2 : SlotRec}
    (hfinds : FindsBoth s x x.cmd.desc.key1 (accepts 0x0122 false) i r1 x.cmd.desc.key2 (accepts 0x0122 true) j r2) {k1 k2 : EngKey}
    (hkey1 : derive r1 (matOf s x i r1) 4 data = .key k1) (hkey2 : derive r2 (matOf (looked x i r1 s) x j r2) 4 data = .key k2) :
    smEncMac x s = doneJob x [] (scriptMessage x.cmd.input k1 k2) 0 (lookedBoth x i r1 j r2 s) := by
  have hlen : ¬ (x.cmd.input.length < 6 ∨ 2005 < x.cmd.input.length) := by omega
  obtain ⟨hfirst, hsecond⟩ := hfinds
  simp only [smEncMac, hform, hcard, if_neg hlen, withKey_of_finds hfirst, withKey_of_finds hsecond, withSession_of_key hkey1,
    withSession_of_key hkey2, ne_eq, not_true, if_false]
  rfl

/-! ## MACs (R385) -/

/-- The opcode of a MAC command. -/
def macOp (verify : Bool) : Nat := if verify then 0x0141 else 0x0140

/-- The message of a MAC command: the input, in front of the MAC that it is to verify. -/
def macMsg (verify : Bool) (x : JobCtx) : Bytes :=
  if verify then x.cmd.input.take (x.cmd.input.length - byteAt x.cmd.desc.inl 0) else x.cmd.input

theorem exec_macCmd {verify : Bool} (h : jobOf s.rt id (macOp verify) = some x) :
    exec (if verify then Instr.macVerify id else .macGenerate id) s = .next (macCmd verify x s) := by
  cases verify with
  | false => exact congrArg Host.Outcome.next (runCmd_of_job h (macCmd false))
  | true => exact congrArg Host.Outcome.next (runCmd_of_job h (macCmd true))

theorem macOp_toNat {verify : Bool} (h : x.cmd.desc.opcode = BitVec.ofNat 16 (macOp verify)) : x.cmd.desc.opcode.toNat = macOp verify := by
  rw [h]
  cases verify <;> rfl

/-- What a MAC command does with its key. -/
def macWith (verify : Bool) (x : JobCtx) (r : SlotRec) (m : Bytes) (s : State) : State :=
  if !(if verify then (storedPerms r).macv else (storedPerms r).macg) then failJob x stUsageRefused s
  else if macParBad r (byteAt x.cmd.desc.inl 0) (byteAt x.cmd.desc.inl 1) then refuseJobInput x 0x21 s
  else
    let mac := (macOf r m (byteAt x.cmd.desc.inl 1) (macMsg verify x)).take (byteAt x.cmd.desc.inl 0)
    if verify then doneJob x [if mac = x.cmd.input.drop (macMsg verify x).length then 0#8 else 1#8] [] 0 s else doneJob x mac [] 0 s

theorem macCmd_of_finds {verify : Bool} (hop : x.cmd.desc.opcode.toNat = macOp verify) (hzero : zeroAt x.cmd.desc.inl 2 12 = true)
    (hlen : verify = true → byteAt x.cmd.desc.inl 0 ≤ x.cmd.input.length) (hmax : (macMsg verify x).length ≤ 2048) {k : Nat} {r : SlotRec}
    (hfinds : Finds s x x.cmd.desc.key1 (accepts (macOp verify) false) k r) :
    macCmd verify x s = macWith verify x r (matOf s x k r) (looked x k r s) := by
  have hform : ¬ ((!zeroAt x.cmd.desc.inl 2 12) = true ∨ (verify = true ∧ x.cmd.input.length < byteAt x.cmd.desc.inl 0) ∨
      2048 < (macMsg verify x).length) := by
    rw [hzero]
    rintro (h | ⟨hv, h⟩ | h)
    · exact Bool.false_ne_true h
    · exact Nat.not_lt.mpr (hlen hv) h
    · exact Nat.not_lt.mpr hmax h
  simp only [macCmd, hop]
  refine (if_neg hform).trans ?_
  exact withKey_of_finds hfinds _

/-! ## Tokens (R386) -/

/-- The opcode of a tokenisation command. -/
def tokenOp (back : Bool) : Nat := if back then 0x0151 else 0x0150

/-- The digits that a tokenisation command keeps in front and behind. -/
def keptDigits (x : JobCtx) : Nat := byteAt x.cmd.desc.inl 10 / 16 + byteAt x.cmd.desc.inl 10 % 16

theorem exec_tokenCmd {back : Bool} (h : jobOf s.rt id (tokenOp back) = some x) :
    exec (if back then Instr.detokenise id else .tokenise id) s = .next (tokenCmd back x s) := by
  cases back with
  | false => exact congrArg Host.Outcome.next (runCmd_of_job h (tokenCmd false))
  | true => exact congrArg Host.Outcome.next (runCmd_of_job h (tokenCmd true))

theorem tokenOp_toNat {back : Bool} (h : x.cmd.desc.opcode = BitVec.ofNat 16 (tokenOp back)) : x.cmd.desc.opcode.toNat = tokenOp back := by
  rw [h]
  cases back <;> rfl

/-- The parameters of a tokenisation command in their form go on to the account number. -/
theorem tokenCmd_of_form (back : Bool) (htweak : byteAt x.cmd.desc.inl 11 ≤ 1) (hzero : zeroAt x.cmd.desc.inl 12 2 = true) :
    tokenCmd back x s = match panDigits x.cmd.desc.inl with
      | none => refuseJobInput x 0x01 s
      | some d =>
        let p := x.cmd.desc.inl
        let lead := byteAt p 10 / 16
        if d.length < keptDigits x + 6 then refuseJobInput x 0x0B s
        else withKey x x.cmd.desc.key1 (accepts x.cmd.desc.opcode.toNat false) (fun _ _ m s =>
          let n := d.length - lead - byteAt p 10 % 16
          let tweak := tokenTweak (byteAt p 11 == 1) (d.take lead ++ d.drop (lead + n))
          let mid := (d.drop lead).take n
          let new := if back then ff1Dec m tweak mid else ff1Enc m tweak mid
          doneJob x (packF 10 (d.take lead ++ new ++ d.drop (lead + n))) [] 10 s) s := by
  have hform : ¬ (1 < byteAt x.cmd.desc.inl 11 ∨ (!zeroAt x.cmd.desc.inl 12 2) = true) := by
    rw [hzero]
    rintro (h | h)
    · exact Nat.not_lt.mpr htweak h
    · exact Bool.false_ne_true h
  simp only [tokenCmd, if_neg hform]
  rfl

end

/-! ## The statement -/

/-- Settles O46, each command by the row of its opcode with the key that it finds. -/
theorem cardCommands : Obligations.CardCommands := by
  unfold Obligations.CardCommands
  refine ⟨?codes, ?noPan, ?arqc, ?script, ?scriptEnc, ?mac, ?token⟩
  case codes =>
    intro verify id x pan k r s p op c t n hjob hopcode hpan hdigits
    have hrow : exec c s = .next (cardCode verify x s) := exec_cardCode hjob
    refine ⟨fun hlen => hrow.trans (congrArg _ (cardCode_of_length verify hpan hlen)), fun hthree hfive hfinds => ?_⟩
    have hdone (hinput : verify = true → x.cmd.input.length = cdiv (cvcLen x) 2) :
        exec c s = .next (codeWith verify x pan r (matOf s x k r) (looked x k r s)) :=
      hrow.trans (congrArg _ (cardCode_of_finds (cvcOp_toNat hopcode) hpan hdigits hthree hfive hinput hfinds))
    refine ⟨fun hgenerate => ?_, fun hverify hinput => ?_⟩
    · rw [hdone fun h => absurd h (by rw [hgenerate]; decide), codeWith, if_neg (by rw [hgenerate]; decide)]
      rfl
    · rw [hdone fun _ => hinput, codeWith, if_pos hverify]
      rfl
  case noPan =>
    intro id x s hpan
    refine ⟨fun hjob => ?_, fun hjob => ?_, fun hjob htweak hzero => ?_⟩
    · exact (exec_cardCode (verify := false) hjob).trans (congrArg _ (cardCode_of_noPan false hpan))
    · exact (exec_arqcVerify hjob).trans (congrArg _ (arqcVerify_of_error (emvCard_of_noPan hpan)))
    · refine (exec_tokenCmd (back := false) hjob).trans (congrArg _ ?_)
      rw [tokenCmd_of_form false htweak hzero, hpan]
  case arqc =>
    intro id x data k r key s p b hjob hcard
    have hrow := exec_arqcVerify hjob
    refine ⟨fun hlayout => hrow.trans (congrArg _ (arqcVerify_of_layout hcard hlayout)), fun hlayout hfinds hkey => ?_⟩
    rw [hrow, arqcVerify_of_finds hcard hlayout hfinds hkey]
    exact ⟨fun hgood => by rw [if_pos (show arqcMac x key = arqcIn x from hgood)]; rfl,
      fun hbad => by rw [if_neg (show arqcMac x key ≠ arqcIn x from hbad)]⟩
  case script =>
    intro id x data k r key s hjob hform hcard
    have hrow := exec_smMac hjob
    exact ⟨fun hlen => hrow.trans (congrArg _ (smMac_of_length hform hcard hlen)),
      fun hfive hmax hfinds hkey => hrow.trans (congrArg _ (smMac_of_finds hform hcard hfive hmax hfinds hkey))⟩
  case scriptEnc =>
    intro id x data i j r1 r2 k1 k2 s b hjob hform hcard hsix hmax hfinds hkey1 hkey2
    exact (exec_smEncMac hjob).trans (congrArg _ (smEncMac_of_finds hform hcard hsix hmax hfinds hkey1 hkey2))
  case mac =>
    intro verify id x k r s p b op c len msg hjob hopcode hzero hlen hmax hfinds
    have hrow : exec c s = .next (macWith verify x r (matOf s x k r) (looked x k r s)) :=
      (exec_macCmd hjob).trans (congrArg _ (macCmd_of_finds (macOp_toNat hopcode) hzero hlen hmax hfinds))
    refine ⟨fun hperm hbad => ?_, fun hperm hgood => ?_⟩
    · rw [hrow, macWith, hperm, if_neg (by decide), if_pos hbad]
    · rw [hrow, macWith, hperm, if_neg (by decide), if_neg (by rw [hgood]; decide)]
      cases verify <;> rfl
  case token =>
    intro back id x d k r s p op c lead n hjob hopcode htweak hzero hpan
    have hrow := (exec_tokenCmd hjob).trans (congrArg _ (tokenCmd_of_form (s := s) back htweak hzero))
    rw [hpan] at hrow
    refine ⟨fun hshort => hrow.trans (congrArg _ (if_pos hshort)), fun hlong hfinds => ?_⟩
    refine hrow.trans (congrArg _ ((if_neg (Nat.not_lt.mpr hlong)).trans ?_))
    rw [tokenOp_toNat hopcode]
    exact withKey_of_finds hfinds _

end Sys2Proof.Machine
end

section
/-! PROOFS. Signatures, key agreement and decapsulation (18 R375, R391, R392, 15 R337). -/

namespace Sys2Proof.Machine

section

variable {id : CmdId} {x : JobCtx} {s : State}

/-! ## Secret keys -/

theorem withPrivate_of_refused {op : Nat} (hop : x.cmd.desc.opcode.toNat = op) {k : Nat} {r : SlotRec}
    (hfinds : Finds s x x.cmd.desc.key1 (accepts op false) k r) {why : Nat} (hwhy : keyRefused r (matOf s x k r) = some why)
    (body : Nat → SlotRec → Bytes → State → State) : withPrivate x body s = refuseJobInput x why (looked x k r s) := by
  simp only [withPrivate, hop, withKey_of_finds hfinds, hwhy]

theorem withPrivate_of_valid {op : Nat} (hop : x.cmd.desc.opcode.toNat = op) {k : Nat} {r : SlotRec}
    (hfinds : Finds s x x.cmd.desc.key1 (accepts op false) k r) (hvalid : keyRefused r (matOf s x k r) = none)
    (body : Nat → SlotRec → Bytes → State → State) : withPrivate x body s = body k r (matOf s x k r) (looked x k r s) := by
  simp only [withPrivate, hop, withKey_of_finds hfinds, hvalid]

/-! ## SIGN (R391) -/

theorem exec_signCmd (h : jobOf s.rt id 0x0200 = some x) : exec (.sign id) s = .next (signCmd x s) :=
  congrArg Host.Outcome.next (runCmd_of_job h signCmd)

theorem exec_verifyCmd (h : jobOf s.rt id 0x0201 = some x) : exec (.verify id) s = .next (verifyCmd x s) :=
  congrArg Host.Outcome.next (runCmd_of_job h verifyCmd)

theorem exec_keyAgreeCmd (h : jobOf s.rt id 0x0202 = some x) : exec (.keyAgree id) s = .next (keyAgree x s) :=
  congrArg Host.Outcome.next (runCmd_of_job h keyAgree)

theorem exec_kemDecapsulateCmd (h : jobOf s.rt id 0x0203 = some x) : exec (.kemDecapsulate id) s = .next (kemDecapsulate x s) :=
  congrArg Host.Outcome.next (runCmd_of_job h kemDecapsulate)

/-- A command on a digest, whose parameters are in their form, from a booth of version 3. -/
structure DigestForm (x : JobCtx) (s : State) : Prop where
  digest : byteAt x.cmd.desc.inl 2 = 1
  zero : zeroAt x.cmd.desc.inl 3 11 = true
  version : versionOf s.rt x.cmd = some 3

theorem DigestForm.not_malformed (h : DigestForm x s) : ¬ (1 < byteAt x.cmd.desc.inl 2 ∨ (!zeroAt x.cmd.desc.inl 3 11) = true) := by
  rw [h.digest, h.zero]
  decide

/-- What SIGN of a digest does with its secret key. -/
def signWithKey (x : JobCtx) (slot : Nat) (r : SlotRec) (m : Bytes) (s : State) : State :=
  let scheme := byteAt x.cmd.desc.inl 0
  let hash := byteAt x.cmd.desc.inl 1
  if !schemeFits scheme r.alg || (scheme == 2 && !pssFits (rsaBits r.size m) (digestLen 0 (sigHash hash))) then refuseJobInput x 0x0A s
  else withRandom x (sigRandom scheme hash r.size) (fun rnd s =>
    match signWith scheme hash r m rnd x.cmd.input with
    | none => s
    | some sig => signEnd x slot scheme hash r m rnd x.cmd.input sig s) s

/-- SIGN of a digest comes to its key when scheme and hash combine and the digest has the hash's length. -/
theorem signCmd_of_form (h : DigestForm x s) : signCmd x s =
    if schemeRefused false (byteAt x.cmd.desc.inl 0) (byteAt x.cmd.desc.inl 1) true ||
      decide (x.cmd.input.length ≠ digestLen 0 (sigHash (byteAt x.cmd.desc.inl 1))) then refuseJobInput x 0x0A s
    else withPrivate x (signWithKey x) s := by
  have hversion : (some 3 == (some 2 : Option Nat)) = false := rfl
  simp only [signCmd, h.digest, h.zero, h.version, hversion, beq_self_eq_true, Bool.not_true, Bool.true_and, Bool.false_eq_true,
    false_and, or_self, lt_self_iff_false, true_or, if_true, if_false]
  rfl

theorem signCmd_of_refused (h : DigestForm x s) (hscheme : schemeRefused false (byteAt x.cmd.desc.inl 0) (byteAt x.cmd.desc.inl 1) true = true) :
    signCmd x s = refuseJobInput x 0x0A s := by
  rw [signCmd_of_form h, hscheme, Bool.true_or, if_pos rfl]

theorem signCmd_of_digest (h : DigestForm x s) (hscheme : schemeRefused false (byteAt x.cmd.desc.inl 0) (byteAt x.cmd.desc.inl 1) true = false)
    (hlen : x.cmd.input.length = digestLen 0 (sigHash (byteAt x.cmd.desc.inl 1))) : signCmd x s = withPrivate x (signWithKey x) s := by
  rw [signCmd_of_form h, hscheme, decide_eq_false (not_not_intro hlen), Bool.or_self, if_neg Bool.false_ne_true]

section

variable {slot : Nat} {r : SlotRec} {m sig : Bytes}

theorem signWithKey_of_unfit (h : schemeFits (byteAt x.cmd.desc.inl 0) r.alg = false) :
    signWithKey x slot r m s = refuseJobInput x 0x0A s := by
  rw [signWithKey, h, Bool.not_false, Bool.true_or, if_pos rfl]

/-- Scheme 01h signs without random bytes, and releases the signature when its power is the message (15 R337). -/
theorem signWithKey_of_rsa (hone : byteAt x.cmd.desc.inl 0 = 1) (hfits : schemeFits 1 r.alg = true)
    (hsig : signWith 1 (byteAt x.cmd.desc.inl 1) r m [] x.cmd.input = some sig)
    (hbase : baseRefused (rsaMessage 1 (byteAt x.cmd.desc.inl 1) r m [] x.cmd.input) (beAt m 0 (32 * r.size)) = none) :
    signWithKey x slot r m s =
      if rsaHolds r.size m (rsaMessage 1 (byteAt x.cmd.desc.inl 1) r m [] x.cmd.input) sig then doneJob x [] sig 0 s
      else rsaFault x slot s := by
  have hnotPss : ((1 : Nat) == 2) = false := rfl
  have hrandom : sigRandom 1 (byteAt x.cmd.desc.inl 1) r.size = 0 := rfl
  simp only [signWithKey, hone, hfits, hnotPss, hrandom, withRandom_zero, hsig, signEnd, hbase, Bool.not_true, Bool.false_and, Bool.or_self,
    Bool.false_eq_true, if_false, true_or, if_true]

/-- Scheme 03h draws its secret first. -/
theorem signWithKey_of_ecdsa (hthree : byteAt x.cmd.desc.inl 0 = 3) (hfits : schemeFits 3 r.alg = true) {rnd : Bytes} {rt : Rt}
    (hdraws : Draws s x (curveBytes r.size + 8) rnd rt) (hsig : signWith 3 (byteAt x.cmd.desc.inl 1) r m rnd x.cmd.input = some sig) :
    signWithKey x slot r m s = doneJob x [] sig 0 { s with rt := rt } := by
  have hnotPss : ((3 : Nat) == 2) = false := rfl
  have hnotRsa : ¬ ((3 : Nat) = 1 ∨ (3 : Nat) = 2) := by decide
  have hrandom : sigRandom 3 (byteAt x.cmd.desc.inl 1) r.size = curveBytes r.size + 8 := rfl
  simp only [signWithKey, hthree, hfits, hnotPss, hrandom, withRandom_of_draws hdraws (Nat.succ_ne_zero _), hsig, signEnd, if_neg hnotRsa,
    Bool.not_true, Bool.false_and, Bool.or_self, Bool.false_eq_true, if_false]

end

/-! ## VERIFY (R391) -/

/-- What VERIFY of a digest does with its public key. -/
def verifyWithKey (x : JobCtx) (r : SlotRec) (k : Bytes) (s : State) : State :=
  let n := sigLen r.alg r.size
  let scheme := byteAt x.cmd.desc.inl 0
  let hash := byteAt x.cmd.desc.inl 1
  let len := x.cmd.input.length - n
  if !schemeFits scheme r.alg || decide (x.cmd.input.length < n) || decide (len ≠ digestLen 0 (sigHash hash)) then refuseJobInput x 0x0A s
  else match verifyWith scheme hash r.size k (x.cmd.input.take len) (x.cmd.input.drop len) with
    | .error why => refuseJobInput x why s
    | .ok ok => doneJob x [if ok then 0#8 else 1#8] [] 0 s

theorem verifyCmd_of_finds (h : DigestForm x s) (hscheme : schemeRefused false (byteAt x.cmd.desc.inl 0) (byteAt x.cmd.desc.inl 1) true = false)
    {k : Nat} {r : SlotRec} (hfinds : Finds s x x.cmd.desc.key1 (accepts 0x0201 false) k r) :
    verifyCmd x s = verifyWithKey x r (matOf s x k r) (looked x k r s) := by
  have hversion : (some 3 == (some 2 : Option Nat)) = false := rfl
  simp only [verifyCmd, h.digest, h.zero, h.version, hversion, hscheme, withKey_of_finds hfinds, beq_self_eq_true,
    Bool.not_true, Bool.true_and, Bool.false_eq_true, false_and, or_self, lt_self_iff_false, true_or, if_true, if_false]
  rfl

theorem verifyWithKey_of_short {r : SlotRec} {k : Bytes} (h : x.cmd.input.length < sigLen r.alg r.size) :
    verifyWithKey x r k s = refuseJobInput x 0x0A s := by
  rw [verifyWithKey, decide_eq_true h, Bool.or_true, Bool.true_or, if_pos rfl]

theorem verifyWithKey_of_fits {r : SlotRec} {k : Bytes} (hfits : schemeFits (byteAt x.cmd.desc.inl 0) r.alg = true)
    (hlen : x.cmd.input.length = sigLen r.alg r.size + digestLen 0 (sigHash (byteAt x.cmd.desc.inl 1))) : verifyWithKey x r k s =
      match verifyWith (byteAt x.cmd.desc.inl 0) (byteAt x.cmd.desc.inl 1) r.size k
        (x.cmd.input.take (x.cmd.input.length - sigLen r.alg r.size)) (x.cmd.input.drop (x.cmd.input.length - sigLen r.alg r.size)) with
      | .error why => refuseJobInput x why s
      | .ok ok => doneJob x [if ok then 0#8 else 1#8] [] 0 s := by
  have hlong : decide (x.cmd.input.length < sigLen r.alg r.size) = false := decide_eq_false (by omega)
  have hdigest : decide (x.cmd.input.length - sigLen r.alg r.size ≠ digestLen 0 (sigHash (byteAt x.cmd.desc.inl 1))) = false :=
    decide_eq_false (by omega)
  rw [verifyWithKey, hfits, hlong, hdigest]
  rfl

/-! ## KEY_AGREE and KEM_DECAPSULATE (R392) -/

/-- KEY_AGREE for 16 to 64 bytes, its other parameters in their form. -/
structure AgreeForm (x : JobCtx) : Prop where
  least : 16 ≤ byteAt x.cmd.desc.inl 0
  most : byteAt x.cmd.desc.inl 0 ≤ 64
  zero : zeroAt x.cmd.desc.inl 2 12 = true

/-- What KEY_AGREE does with its secret key. -/
def agreeWithKey (x : JobCtx) (r : SlotRec) (m : Bytes) (s : State) : State :=
  let l := peerLen r.size
  if x.cmd.input.length < l ∨ l + 256 < x.cmd.input.length then failJob x stMalformed s
  else match sharedValue r.size m (x.cmd.input.take l) with
    | .error why => refuseJobInput x why s
    | .ok z => doneJob x [] (oneStepKdf (sigHash (byteAt x.cmd.desc.inl 1)) z (x.cmd.input.drop l) (byteAt x.cmd.desc.inl 0)) 0 s

theorem keyAgree_of_form (h : AgreeForm x) : keyAgree x s =
    if byteAt x.cmd.desc.inl 1 ≠ 1 ∧ byteAt x.cmd.desc.inl 1 ≠ 2 then refuseJobInput x 0x0A s
    else withPrivate x (fun _ r m s => agreeWithKey x r m s) s := by
  obtain ⟨hleast, hmost, hzero⟩ := h
  have hform : ¬ (byteAt x.cmd.desc.inl 0 < 16 ∨ 64 < byteAt x.cmd.desc.inl 0 ∨ (!zeroAt x.cmd.desc.inl 2 12) = true) := by
    rw [hzero]
    rintro (hlow | hhigh | hbad)
    · omega
    · omega
    · exact Bool.false_ne_true hbad
  rw [keyAgree, if_neg hform]
  rfl

theorem agreeWithKey_of_short {r : SlotRec} {m : Bytes} (h : x.cmd.input.length < peerLen r.size) :
    agreeWithKey x r m s = failJob x stMalformed s := if_pos (.inl h)

theorem agreeWithKey_of_fits {r : SlotRec} {m : Bytes} (hleast : peerLen r.size ≤ x.cmd.input.length)
    (hmost : x.cmd.input.length ≤ peerLen r.size + 256) : agreeWithKey x r m s =
      match sharedValue r.size m (x.cmd.input.take (peerLen r.size)) with
      | .error why => refuseJobInput x why s
      | .ok z => doneJob x []
          (oneStepKdf (sigHash (byteAt x.cmd.desc.inl 1)) z (x.cmd.input.drop (peerLen r.size)) (byteAt x.cmd.desc.inl 0)) 0 s := by
  have hlen : ¬ (x.cmd.input.length < peerLen r.size ∨ peerLen r.size + 256 < x.cmd.input.length) := by omega
  rw [agreeWithKey, if_neg hlen]

theorem kemDecapsulate_of_valid (hzero : zeroAt x.cmd.desc.inl 0 14 = true) (hop : x.cmd.desc.opcode.toNat = 0x0203) {k : Nat} {r : SlotRec}
    (hfinds : Finds s x x.cmd.desc.key1 (accepts 0x0203 false) k r) (hvalid : keyRefused r (matOf s x k r) = none) : kemDecapsulate x s =
      if x.cmd.input.length ≠ (if r.size = 0x12 then 1088 else 1568) then refuseJobInput x 0x0A (looked x k r s)
      else doneJob x [] (exactly 32 (Config.mlKemDecaps r.size (matOf s x k r) x.cmd.input)) 0 (looked x k r s) := by
  rw [kemDecapsulate, hzero, Bool.not_true, if_neg Bool.false_ne_true, withPrivate_of_valid hop hfinds hvalid]

end

/-! ## The statement -/

/-- Settles O48, each command by its row once its key's fields have passed their checks. -/
theorem signCommands : Obligations.SignCommands := by
  unfold Obligations.SignCommands
  refine ⟨?sign, ?verify, ?agree, ?decapsulate⟩
  case sign =>
    intro id x k r s p b scheme hash t m hjob hopcode hdigest hzero hversion
    have hform : DigestForm x s := ⟨hdigest, hzero, hversion⟩
    have hop : x.cmd.desc.opcode.toNat = 0x0200 := by rw [hopcode]; rfl
    refine ⟨fun hrefused => (exec_signCmd hjob).trans (congrArg _ (signCmd_of_refused hform hrefused)), fun hscheme hlen hfinds => ?_⟩
    have hrow : exec (.sign id) s = .next (withPrivate x (signWithKey x) s) :=
      (exec_signCmd hjob).trans (congrArg _ (signCmd_of_digest hform hscheme hlen))
    have hkeyed (hvalid : keyRefused r m = none) : exec (.sign id) s = .next (signWithKey x k r m t) :=
      hrow.trans (congrArg _ (withPrivate_of_valid hop hfinds hvalid _))
    refine ⟨fun why hwhy => hrow.trans (congrArg _ (withPrivate_of_refused hop hfinds hwhy _)), fun hvalid hunfit => ?_,
      fun sig hvalid hfits hone hsig hbase => ?_, fun rnd rt sig hvalid hfits hthree hdraws hsig => ?_⟩
    · exact (hkeyed hvalid).trans (congrArg _ (signWithKey_of_unfit hunfit))
    · exact (hkeyed hvalid).trans (congrArg _ (signWithKey_of_rsa hone hfits hsig hbase))
    · exact (hkeyed hvalid).trans (congrArg _ (signWithKey_of_ecdsa hthree hfits hdraws hsig))
  case verify =>
    intro id x k r s p b n t hjob hdigest hzero hversion hscheme hfinds
    have hrow : exec (.verify id) s = .next (verifyWithKey x r (matOf s x k r) t) :=
      (exec_verifyCmd hjob).trans (congrArg _ (verifyCmd_of_finds ⟨hdigest, hzero, hversion⟩ hscheme hfinds))
    refine ⟨fun hshort => hrow.trans (congrArg _ (verifyWithKey_of_short hshort)), fun hfits hlen => ?_⟩
    have hverdict := hrow.trans (congrArg _ (verifyWithKey_of_fits hfits hlen))
    refine ⟨fun why hwhy => ?_, fun ok hok => ?_⟩
    · rw [hverdict]
      exact congrArg Host.Outcome.next (by rw [hwhy])
    · rw [hverdict]
      exact congrArg Host.Outcome.next (by rw [hok])
  case agree =>
    intro id x k r s p b t m l hjob hopcode hleast hmost hzero
    have hop : x.cmd.desc.opcode.toNat = 0x0202 := by rw [hopcode]; rfl
    have hrow := (exec_keyAgreeCmd hjob).trans (congrArg _ (keyAgree_of_form (s := s) ⟨hleast, hmost, hzero⟩))
    refine ⟨fun hhash => hrow.trans (congrArg _ (if_pos ?_)), fun hhash hfinds hvalid => ?_⟩
    · rw [show byteAt x.cmd.desc.inl 1 = 0 from hhash]
      decide
    have hknown : ¬ (byteAt x.cmd.desc.inl 1 ≠ 1 ∧ byteAt x.cmd.desc.inl 1 ≠ 2) := fun h => hhash.elim h.1 h.2
    have hkeyed : exec (.keyAgree id) s = .next (agreeWithKey x r m t) :=
      hrow.trans (congrArg _ ((if_neg hknown).trans (withPrivate_of_valid hop hfinds hvalid _)))
    refine ⟨fun hshort => hkeyed.trans (congrArg _ (agreeWithKey_of_short hshort)), fun why hlow hhigh hwhy => ?_,
      fun z hlow hhigh hz => ?_⟩
    · rw [hkeyed, agreeWithKey_of_fits hlow hhigh]
      exact congrArg Host.Outcome.next (by rw [hwhy])
    · rw [hkeyed, agreeWithKey_of_fits hlow hhigh]
      exact congrArg Host.Outcome.next (by rw [hz])
  case decapsulate =>
    intro id x k r s t m hjob hopcode hzero hfinds hvalid
    have hop : x.cmd.desc.opcode.toNat = 0x0203 := by rw [hopcode]; rfl
    have hrow := (exec_kemDecapsulateCmd hjob).trans (congrArg _ (kemDecapsulate_of_valid hzero hop hfinds hvalid))
    exact ⟨fun hlen => hrow.trans (congrArg _ (if_neg (not_not_intro hlen))), fun hlen => hrow.trans (congrArg _ (if_pos hlen))⟩

end Sys2Proof.Machine
end
